-- ==== Sys2Proof/Word.lean ====
section
/-! DEFINITION. The word types and the plainest quantities of the GL9600 (R1, R4, R5): bytes, 32-bit register words,
cluster and function numbers, and the two units of time the model counts in. -/
namespace Sys2Proof

/-- A byte of a packet, block, frame or host buffer (R4: multi-byte fields are little-endian). -/
abbrev Byte := BitVec 8

/-- A 32-bit register word or vector word (R27, R425). -/
abbrev Word := BitVec 32

/-- A cluster number, 0 to 11 (R1); also a site index (R12) and a decision flow (R192). -/
abbrev Cluster := Fin 12

/-- A host function: 0 is the PF, n is VF n (R213). -/
abbrev Func := Fin 13

/-- A pin-in-cluster, rail or channel index, 0 to 7 (R1, R93). -/
abbrev Lane := Fin 8

/-- A device pin index, 0 to 95 (R1). -/
abbrev Pin := Fin 96

/-- A rope port (R282). -/
abbrev Port := Fin 4

/-- One nanosecond in SUBNS units of 2^-16 ns (R304): the unit every instant of the model is kept in. -/
abbrev nsUnits : Nat := 65536

/-- One fine unit is exactly 32 SUBNS units (R5, R304). -/
abbrev fuUnits : Nat := 32

/-- One coarse tick of 640 FU (R75, R304: exactly 20,480 units). -/
abbrev tickUnits : Nat := 20480

end Sys2Proof
end

