-- ==== Sys2Proof/Syntax.lean ====
section
/-! DEFINITION. The commands of the GL9600: one constructor of `Instr` for each row of the spec's table of operations
and events, with its operands, and the operand types. What the outside world decides or measures (packet bytes, register
accesses, comparator observations, edge times, block bytes, readings) is an operand; everything the device holds is read
from the state. -/
namespace Sys2Proof

/-- An Apuno packet as the ring holds it: the 16-byte header of R235 less its OPCODE, which the constructor gives, with
the function and submission ring that hold it, and the payload bytes from packet offset 0x10 on. -/
structure Packet where
  func      : Func
  ring      : Fin 4
  flags     : BitVec 16
  tag       : Word
  length    : BitVec 16
  target    : BitVec 16
  expectGen : BitVec 16
  reserved  : BitVec 16
  payload   : List Byte
  deriving DecidableEq, Repr

/-- A routine that is running, before its CRUX, at the instant of a command that interrupts routines (R273). -/
structure Routine where
  opcode : BitVec 16
  packet : Packet
  deriving DecidableEq, Repr

/-- A rope frame as received (R285), less its CTYPE, which the constructor or `frameDelivery` gives. -/
structure Frame where
  hops : Byte
  tick : BitVec 16
  src  : BitVec 64
  body : List Byte
  crc  : Word
  deriving DecidableEq, Repr

/-- A stream ring descriptor's fields that the host writes (R172); FLAGS.OWN is 1 in a descriptor the host posts (R173). -/
structure Desc where
  addr   : BitVec 64
  blocks : Nat
  gen    : BitVec 16
  deriving DecidableEq, Repr

/-- One event at the fault collector (R343): source, cluster mask, detail. -/
structure FaultEvent where
  source : Nat
  mask   : BitVec 12
  detail : Word
  deriving DecidableEq, Repr

/-- A ring of a function's page (R432): a submission ring or the reply ring. -/
inductive RingSel where
  | sq (ring : Fin 4)
  | rq
  deriving DecidableEq, Repr

/-- What the memory system read when a word was uncorrectable (R160). -/
inductive UeTarget where
  /-- a word of a segment a cluster is playing; `store` tells the vector store from HBM -/
  | segment (cluster : Cluster) (store : Bool)
  /-- a word of a closed capture or stamp block of an outbound stream -/
  | outbound (stream : Fin 24)
  /-- any other word of HBM -/
  | other
  deriving DecidableEq, Repr

/-- How a memory read of the diagnostic window went (R438). -/
inductive ReadEcc where
  | clean | corrected | uncorrectable
  deriving DecidableEq, Repr

/-- The states of a port's comparators that a channel's compare reads (R114): at S0, and those that follow in [S0, S1), in order. Bit 0 is
CML, bit 1 is CMH. -/
structure PortWave where
  atS0  : BitVec 2
  later : List (BitVec 2) := []
  deriving DecidableEq, Repr

/-- The event that meets an acquisition trigger condition (R133). The first five sources have no stamp; the last three
carry the stamp of their event, in SUBNS units of network time. -/
inductive AcqEvent where
  | fill | fail | vaddr | segment | pattern
  | evt (line : Fin 2) (falling : Bool) (time : Int)
  | time
  | rope (serial : BitVec 64) (cluster : Byte) (entry : BitVec 16) (time : Int)
  deriving DecidableEq, Repr

/-- The kinds of calibration run (R327, R328). -/
inductive CalKind where
  | dac | deskew | tdc | trig
  deriving DecidableEq, Repr

/-- Calibration values of one cluster (R326), as measured. Gains and offsets are indexed by rail and range (2 * rail + range),
corrections by pin, channel and route, or output; `iref` is the DAC reference current. -/
structure Readings where
  gain    : List Rat
  offset  : List Rat
  iref    : Rat
  drv     : List Rat
  den     : List Rat
  cmp     : List Rat
  tdcCorr : List Rat
  trig    : List Rat
  deriving DecidableEq, Repr

/-- What a calibration run measured (R326 to R328): the values of a commanded run, the drift readings of either kind of run, and
what the checks of R337 read. `repeatDiff` is the largest difference between the two halves of a commanded run, in LSB or FU;
`vref` the CAL_VREF measurement in uV. -/
structure CalResult where
  values     : Readings
  drift      : Readings
  repeatDiff : Nat
  vref       : Nat
  deriving DecidableEq, Repr

/-- PCIe configuration-space settings the device's behaviour reads (R213, R219, R233, R264, R369). -/
inductive ConfigWrite where
  | busMaster (f : Func) (on : Bool)
  | memorySpace (f : Func) (on : Bool)
  | vfEnable (count : Fin 13)
  | ptmEnable (on : Bool)
  | aspmL1 (on : Bool)
  /-- a base address register of a function: BAR0, or the PF's BAR2 (R219) -/
  | bar (f : Func) (bar2 : Bool) (address : BitVec 64)
  /-- Max Payload Size, as 128 · 2^code bytes -/
  | maxPayload (code : Fin 3)
  /-- Max Read Request Size, as 128 · 2^code bytes -/
  | maxRead (code : Fin 6)
  /-- a write of 1 to error status bits of a function's Advanced Error Reporting -/
  | aerClear (f : Func) (bits : BitVec 16)
  deriving DecidableEq, Repr

/-- The state of the PCIe link (R213, R377). -/
inductive LinkState where
  | l0 | l1 | l11 | l12 | down
  deriving DecidableEq, Repr

/-- A phase-locked loop whose loss of lock is reported (R17, R343). -/
inductive Pll where
  | hbm | rope | pcie
  deriving DecidableEq, Repr

/-- What a companion chip shows on its bus (R406): bits 11:0 of its provisional ID, and its register 0x00. -/
structure Chip where
  bus      : Fin 2
  id       : BitVec 12
  contract : Byte
  deriving DecidableEq, Repr

/-- THE COMMANDS: one constructor per row of the table of operations and events, in its order. -/
inductive Instr where
  -- Apuno packets (R244)
  | nop (p : Packet)
  | identify (p : Packet)
  | resetFunction (p : Packet)
  | statusMirrorSet (p : Packet)
  | timingSetWrite (p : Packet)
  | levelSetWrite (p : Packet)
  | pinFormatWrite (p : Packet)
  | clockPinSet (p : Packet)
  | genCommit (p : Packet)
  | genRevert (p : Packet)
  | genDiscard (p : Packet)
  | seqLoad (p : Packet)
  | segDeclare (p : Packet)
  | burstCommit (p : Packet)
  | burstStart (p : Packet)
  | burstStop (p : Packet)
  | jumpRequest (p : Packet)
  | resume (p : Packet)
  | abort (p : Packet) (running : Option Routine)
  | siteGang (p : Packet)
  | streamOpen (p : Packet)
  | streamClose (p : Packet)
  | segPin (p : Packet)
  | segUnpin (p : Packet)
  | captureConfig (p : Packet)
  | acqArm (p : Packet)
  | acqForce (p : Packet)
  | tdcConfig (p : Packet)
  | tdcStats (p : Packet)
  | ruleLoad (p : Packet)
  | itemPost (p : Packet)
  | flowConfig (p : Packet)
  | timeSource (p : Packet)
  | timeAccept (p : Packet)
  | timeThreshold (p : Packet)
  | ropeConfig (p : Packet)
  | ropeTest (p : Packet)
  | calRun (p : Packet)
  /-- `verified`: the read-back of the image and of the record matched (R339) -/
  | calStore (p : Packet) (verified : Bool)
  | calRefDeclare (p : Packet)
  | faultConfig (p : Packet)
  | faultInject (p : Packet)
  | faultAck (p : Packet)
  | powerTolerance (p : Packet)
  | attest (p : Packet)
  | fwStage (p : Packet)
  | fwActivate (p : Packet)
  | badOpcode (p : Packet) (opcode : BitVec 16)
  /-- a packet header whose LENGTH is 0 or exceeds the ring, at the head of the ring (R224) -/
  | ringErr (f : Func) (ring : Fin 4) (length : BitVec 16)
  | scInternalCommand (running : Option Routine)
  | rechain (site : Cluster) (running : Option Routine := none)
  /-- `lost`: the packet whose routine met the check, if one was running (R277) -/
  | machineCheck (postCrux stack half : Bool) (uaddr : BitVec 14) (lost : Option Routine)
  -- host register and doorbell accesses
  /-- `single`: the access is one aligned 4-byte write (R220) -/
  | doorbellSqTail (f : Func) (ring : Fin 4) (value : Word) (single : Bool) (running : Option Routine)
  | doorbellRqHead (f : Func) (value : Word) (single : Bool)
  /-- `descs`: the descriptors the host wrote in the slots from the old tail to the new one (R173) -/
  | doorbellInTail (f : Func) (stream : Fin 24) (value : Word) (single : Bool) (descs : List Byte)
  | doorbellOutTail (f : Func) (stream : Fin 24) (value : Word) (single : Bool) (descs : List Byte)
  | hstOwnerWrite (index : Fin 2) (value : Word)
  | ringEnable (f : Func) (which : RingSel)
  | sqDisable (f : Func) (ring : Fin 4)
  | rqDisable (f : Func)
  | rqDisableDone (f : Func)
  | hstEvtClr (f : Func) (value : Word)
  /-- a register read of 2^`width` bytes by function `f` at the byte offset `addr` of PF BAR0, or of a VF's own BAR0; `bar2`: of the function's BAR2 -/
  | rcRegisterRead (f : Func) (addr : BitVec 24) (bar2 : Bool := false) (width : Fin 3 := 2)
  | latchedPairRead (f : Func) (addr : BitVec 24) (width : Fin 3 := 2)
  /-- `whole`: the access is a whole aligned 32-bit write; a narrower one is ignored and counted (R425) -/
  | registerWrite (f : Func) (addr : BitVec 24) (value : Word) (whole : Bool) (bar2 : Bool := false)
  | diagEnter (key : BitVec 16)
  | diagExit (key : BitVec 16)
  | diagWindowRead (ecc : ReadEcc)
  | i3cTransferGo (ctl : Word)
  | i3cTransferDone (nack : Bool) (data : List Byte)
  | warmReset (value : Word)
  | globalEventWrite (value : Word)
  | testInject (port : Port) (value : Word)
  | topoSelect (value : Word)
  | fltHistSelect (value : Word)
  | fltPlogSelect (value : Word)
  | mr7Extend (value : Word)
  | nbrAttestGo (value : Word)
  | nbrAttestTimeout
  -- resets, boot, clocks
  | porstAssert
  | perstAssert
  /-- `hbmOk`: HBM training succeeds; `chips`: the device pins with a chip that shows what it should; `others`: further chips on the buses (R406) -/
  | bootStart (hbmOk : Bool) (chips : BitVec 96) (others : List Chip := [])
  | bootComplete
  | tryBootTimeout (hbmOk : Bool) (chips : BitVec 96) (others : List Chip := [])
  | functionLevelReset (f : Func)
  | refclkLoss (running : Option Routine := none)
  | refclkReturn
  | ocxoReadyChange (level : Bool)
  -- sequencer
  /-- an edge of an EVT input; `width` is the pulse's width in SUBNS units (R57) -/
  | evtEdge (cluster : Cluster) (line : Fin 2) (falling : Bool) (width : Nat)
  | armPoint (site : Cluster)
  | voteCount (site : Cluster)
  | firstVector (site : Cluster)
  | segmentStart (site : Cluster)
  | trigPulseEnd (cluster : Cluster) (output : Fin 2)
  | decisionPoint (site : Cluster)
  | siteCondResolve (site : Cluster)
  | abortBoundary (site : Cluster)
  | burstEnd (site : Cluster)
  | selectionRead (site : Cluster)
  | chainedStart (site : Cluster)
  | chainTimeout (site : Cluster)
  | stallExit (site : Cluster)
  | streamTimeout (site : Cluster)
  -- compare, capture, acquisition
  /-- the compares of the channels in `pins` for the vector at `vaddr` complete; `waves`: the comparators each channel's port showed (R114) -/
  | compareComplete (cluster : Cluster) (vaddr : Nat) (pins : Byte) (waves : Vector PortWave 8)
  | dropEnd (cluster : Cluster)
  | periodicCairn (cluster : Cluster)
  | captureBlockClose (cluster : Cluster)
  | acqTrigger (cluster : Cluster) (event : AcqEvent)
  | acqAutoExpire (cluster : Cluster)
  | acqComplete (cluster : Cluster)
  -- time measurement
  /-- an edge of the observed comparator output on a channel: its coarse tick, raw fine code and direction (R144) -/
  | tdcEdge (pin : Pin) (tick : Int) (code : Fin 65) (falling : Bool)
  | tdcLossResume (pin : Pin)
  | stampBlockClose (cluster : Cluster)
  | gapCairn (cluster : Cluster)
  /-- `route` 0 to 7: the channels; 8 to 11: the multiplexed routes (R326); `hits`: h[0] to h[64] (R155) -/
  | codeDensityDone (cluster : Cluster) (route : Fin 12) (hits : List Nat)
  -- levels
  | slewMove (cluster : Cluster) (rail : Lane)
  | rangeSwitchDone (cluster : Cluster) (rail : Lane)
  | lvlScDetect (cluster : Cluster) (rail : Lane) (running : Option Routine := none)
  -- memory and streams
  | blockEntry (stream : Fin 24) (bytes : List Byte)
  /-- `own`, `gen`: the descriptor as re-read before the block is written; `ownAfter`, `genAfter`: as re-read before a
  completion is posted (R178) -/
  | outboundBlockWrite (stream : Fin 24) (own : Bool) (gen : BitVec 16) (ownAfter : Bool) (genAfter : BitVec 16)
  | outboundPartialTimeout (stream : Fin 24) (ownAfter : Bool) (genAfter : BitVec 16)
  | eccCe (word : Word)
  | eccUe (word : Word) (target : UeTarget)
  | hbmScrub
  | hbmSrEntry
  -- site controller
  | itemDispatch
  | itemComplete (core : Fin 16)
  | watchdog (core : Fin 16)
  | schedSample (window : Bool)
  | mirrorRewrite (f : Func)
  -- time
  /-- `turn`: t3 - t2 of the answer in FU (R310) -/
  | timeReq (port : Port) (frame : Frame) (turn : BitVec 24)
  /-- `elapsed`: t4 - t1 in SUBNS units (R311) -/
  | timeResp (port : Port) (frame : Frame) (elapsed : Nat)
  | timeReqTimer
  | timeRespTimeout
  /-- the dialog's own times t1 and t4 and the root's Master Time, in SUBNS units, and its reported delay t3 - t2 -/
  | ptmDialog (t1 t4 master delay : Int)
  | timeSlewStep
  | timeHoldover
  -- rope frames
  | siteCond (port : Port) (frame : Frame)
  | siteVote (port : Port) (frame : Frame)
  | siteAbort (port : Port) (frame : Frame)
  | trig (port : Port) (frame : Frame)
  | gevt (port : Port) (frame : Frame)
  /-- arrival of a frame of class SITE, TRIG or GEVT at local master tick `atTick` (R288) -/
  | frameDelivery (port : Port) (ctype : Byte) (frame : Frame) (atTick : Int)
  | ident (port : Port) (frame : Frame)
  | identTimer (port : Port)
  | trainReq (port : Port) (frame : Frame)
  | trainSts (port : Port) (frame : Frame)
  /-- `temp`: the die temperature at the end of training, in degrees; `asym`: TME_ASYM_INT as measured (R312) -/
  | trainEnd (port : Port) (temp : BitVec 8) (asym : Word)
  | trainFailRetry (port : Port)
  | alignProbe (port : Port) (frame : Frame) (turn : BitVec 64)
  /-- `roundTrip`: from the probe's departure to the echo's arrival, in FU (R291) -/
  | alignEcho (port : Port) (frame : Frame) (roundTrip : Nat)
  | linkDetect (port : Port)
  | lossOfLock (port : Port)
  | idleEntry (port : Port)
  | idleNotice (port : Port) (frame : Frame)
  | idleExit (port : Port)
  | topoAgeOut (entry : Fin 64)
  | loopReq (port : Port) (frame : Frame)
  | loopAck (port : Port) (frame : Frame)
  | testEnd (port : Port)
  | attNonceLo (port : Port) (frame : Frame)
  | attNonceHi (port : Port) (frame : Frame)
  | attData (port : Port) (frame : Frame)
  | attEnd (port : Port) (frame : Frame)
  | attResend (port : Port) (frame : Frame)
  -- calibration
  /-- `temp`: the reading in 1/16 degree (R325) -/
  | thermalRead (cluster : Cluster) (temp : Int)
  | thermTrip (cluster : Cluster) (running : Option Routine := none)
  | calBackgroundRun (cluster : Cluster) (kind : CalKind)
  | calRunComplete (cluster : Cluster) (kind : CalKind) (commanded : Bool) (result : CalResult)
  | calTargetRecompute (cluster : Cluster)
  | calStale (cluster : Cluster)
  /-- `gap`: time since the previous rising edge, in SUBNS units (R323) -/
  | calTinEdge (gap : Nat)
  | calTinLoss
  -- faults
  /-- the real events that reach the collector in one cycle (R23) -/
  | faultReport (events : List FaultEvent) (running : Option Routine)
  | plogWrite
  -- power
  | powerStateEntry (cluster : Cluster)
  | powerStateExit (cluster : Cluster)
  | powerExitDone (cluster : Cluster)
  | linkL1Entry (l12 : Bool)
  | treeGenerated
  | companionPoll (pin : Pin) (answered : Bool) (running : Option Routine := none)
  /-- the chip of a pin joins a bus: whether it answers there, bits 11:0 of its provisional ID, and its register 0x00 (R406) -/
  | hotJoin (bus : Fin 2) (pin : Pin) (qualifies : Bool) (id : BitVec 12 := BitVec.ofNat 12 pin.val) (contract : Byte := 1)
  | aliveToggle
  | ptmDialogStart
  | trainReqTimer (port : Port) (pre main post : Fin 4) (metric : Byte)
  | checkerLock (port : Port) (received : List Bool := [])
  /-- `bits`, `errs`: what the checker counted while locked since it was last read (R302) -/
  | checkerLockLoss (port : Port) (bits errs : Nat)
  | testFirstInjection (port : Port)
  | blockHbmRelease (cluster : Cluster)
  /-- `rail`: the supply's index; `mv`: the measured millivolts -/
  | supplyOutOfRange (rail : Byte) (mv : BitVec 16) (running : Option Routine := none)
  | supplyInRange (rail : Byte)
  | thermTripClear (cluster : Cluster)
  | currentLimitRelease (cluster : Cluster) (rail : Lane)
  | pllUnlock (pll : Pll) (running : Option Routine := none)
  | hbmFail (running : Option Routine := none)
  | pcieErr (f : Func) (status : BitVec 16)
  /-- `kind`: 0 timing sets, 1 level sets, 2 sequence program, 3 other records (R343) -/
  | cfgParity (cluster : Cluster) (kind : Fin 4) (running : Option Routine := none)
  | porstDeassert (straps : BitVec 4)
  | configSpaceWrite (w : ConfigWrite)
  | pcieLinkChange (state : LinkState) (speed : BitVec 4) (width : BitVec 4) (flit : Bool)
  | targetDynamicAddressAssign (address : BitVec 7)
  | tdcTwindowBoundary (pin : Pin)
  | powerEntryDone (cluster : Cluster)
  | hbmSrExitDone
  deriving DecidableEq, Repr

end Sys2Proof
end

