-- ==== Sys2Proof/Config.lean ====
section
/-! DEFINITION. What an implementation fixes, and the free values: constants with no body, so that no proof can see
what they are. Each stands for a value the manual leaves open; the assumption log names every one. -/
namespace Sys2Proof.Config

/-- A fresh free value: applied to the counter `State.free` that a step reads and advances (log 3). -/
opaque freeValue : Nat → BitVec 64

/-- SHAKE256 with 256-bit output: named by R378 but not defined there (log 4). -/
opaque shake256 : List Byte → BitVec 256

/-- Whether an XMSS signature verifies under a public key (R378, R382, R388; log 4). -/
opaque xmssVerify : (publicKey message signature : List Byte) → Bool

/-- ATT_SEEDS in OTP (R379, R388): what the true random generator gave at provisioning (log 5). -/
opaque attSeeds : BitVec 768

/-- The root of the attestation key's upper tree, which its public key holds (R378, R388; log 4). -/
opaque attRootOf : (seeds : BitVec 768) → BitVec 256

/-- The parameter-set code a public key opens with, four bytes (R378; log 4). -/
opaque attOid : Word

/-- An attestation signature's randomiser and lower-layer part: 32 bytes and 2,784 (R378, R392; log 4). -/
opaque attLower : (seeds : BitVec 768) → (index : Nat) → (message : List Byte) → List Byte

/-- Whether a neighbour's attestation signature verifies (R396; log 4). -/
opaque attVerify : (publicKey message signature : List Byte) → Bool


/-- Device serial number, from OTP (R428; log 5). -/
opaque serial : BitVec 64

/-- The OTP fields FW_KEY_HASH and CA_KEY_HASH (R379; log 5). -/
opaque fwKeyHash : BitVec 256
opaque caKeyHash : BitVec 256

/-- The header bytes of the bundle the device was provisioned with (R381; log 12). -/
opaque factoryHeader : List Byte

/-- The two copies of the device certificate in flash, by their place (R380, R388; log 12). -/
opaque certificate : (copy : Nat) → List Byte

/-- Boot ROM version measured into MR0 (R387; log 5). -/
opaque romVersion : Word


/-- How far the fixed pipeline latency common to every pin of the device, in FU, exceeds what R87 makes it exceed (log 7). -/
opaque pipeExtra : Nat

/-- The fixed pipeline latency (R87): more than the largest negative correction, 1,024 FU. -/
def pipeLatency : Nat := 1025 + pipeExtra

/-- The correction, in FU, that brings an edge of an output line to its ball at its programmed time (R324; log 7): what calibration measures. Lines 0
and 1 of a device pin are its DRV and DEN, and outputs 96 to 119 are the TRIG balls, two a cluster. -/
opaque pathNeed : (output line : Nat) → Int

/-- A microword of the bundle the device was provisioned with, by address (R267; log 12). -/
opaque microWord : BitVec 14 → BitVec 32

/-- The address of the first microword of an opcode's routine, which the spec does not give (R271; log 38). -/
opaque microEntry : BitVec 16 → BitVec 14

/-- The working registers after a micro-op that is no sequencing one (R268, R269; log 38): the spec names the micro-ops, and neither which operand
field is the destination nor what a block answers, so that each microword draws afresh. -/
opaque microRegs : (draw : Nat) → (word : BitVec 32) → Vector (BitVec 64) 16 → Vector (BitVec 64) 16

/-- The Z, N and C flags an arithmetic micro-op leaves, as bits 0, 1 and 2 (R269; log 38). -/
opaque microFlags : (draw : Nat) → (word : BitVec 32) → Vector (BitVec 64) 16 → BitVec 3

/-- DRV of a device pin at a network time while a commanded deskew run toggles it behind its disabled driver (R71, R328; log 35). -/
opaque deskewDrv : (pin : Nat) → (time : Int) → Bool

/-- How long, in SUBNS units, a commanded trigger-skew run waits in the slot of one of its 1,024 pulses (R328; log 35). -/
opaque skewWait : (cluster output pulse : Nat) → Nat

/-- The calibration image a store writes (R338; log 35): the spec bounds its length, 130,816 bytes, and lays nothing else out. -/
opaque calImage : Nat → List (BitVec 8)

/-- The root of a lower tree and its upper-layer signature (R390; log 4). -/
opaque attRoot : (seeds : BitVec 768) → (tree : Nat) → BitVec 256
opaque attUpper : (seeds : BitVec 768) → (tree : Nat) → List (BitVec 8)

/-- Bit errors of a port's line over a stretch of device time in which its checker stayed locked (R302; log 30). -/
opaque lineErrors : (port : Nat) → (since upTo : Nat) → Nat

/-- How much later than 0.99 ms after the read before it the device reads a pin's companion chip (R406; log 33): at most 20 µs count. -/
opaque pollDelay : (pin since : Nat) → Nat

/-- The latency common to every TDC of the device, in FU (R144; log 7). -/
opaque tdcLatency : Int

end Sys2Proof.Config
end

