-- ==== Sys2Proof/Machine/Records.lean ====
section
/-! DEFINITION. The records a cluster's configuration, a burst and the site controller are made of, with their reset
content: timing sets, level sets, programs, capture, acquisition and TDC records, descriptors, work items, rules. -/
namespace Sys2Proof.Machine

/-- Pin symbols (R24). `rE` and `rF` are the reserved codes. -/
inductive Sym where
  | d0 | d1 | L | H | X | Z | V | K | S | Q | T | D | U | N | rE | rF
  deriving DecidableEq, Repr

/-- Drive formats (R79). -/
inductive Format where
  | off | nrz | rz | r1 | sbc | dnrz
  deriving DecidableEq, Repr

/-- One pin block of a timing set (R76); offsets in FU. -/
structure PinTiming where
  fmt    : Format := .off
  window : Bool := false
  e0 : Nat := 0
  e1 : Nat := 0
  e2 : Nat := 0
  e3 : Nat := 0
  s0 : Nat := 0
  s1 : Nat := 64
  deriving DecidableEq, Repr

/-- A timing set (R76) with its reset content. -/
structure TimingSet where
  period : Nat := 20480
  pins   : Vector PinTiming 8 := Vector.replicate 8 {}
  deriving DecidableEq, Repr

/-- A rail block of a level set (R96) with its reset content. -/
structure RailSet where
  code     : BitVec 16 := 0
  step     : BitVec 16 := 0x0100
  interval : BitVec 16 := 0
  rangeB   : Bool := false
  deriving DecidableEq, Repr

/-- A level set (R96). -/
abbrev LevelSet := Vector RailSet 8

/-- The content CLOCK_PIN_SET gives a clock pin (R88). -/
structure ClockPin where
  enable : Bool := false
  ph     : BitVec 16 := 0
  fw     : BitVec 48 := 0
  deriving DecidableEq, Repr

/-- Segment-end control operations (R49). -/
inductive SeqOp where
  | next | jump | branch | loopBegin | loopEnd | call | ret | matchLoop | wait | signal | halt
  deriving DecidableEq, Repr

/-- Branch conditions (R51). -/
inductive Cond where
  | fail | failMask | match_ | failBurst | evt | gevt | hostJump | scFlag | cntEq | ropeSite
  deriving DecidableEq, Repr

/-- A sequence entry (R47). -/
structure Entry where
  segment  : Word := 0
  count    : Word := 0
  target   : BitVec 16 := 0
  cparam   : BitVec 16 := 0
  tset     : Fin 64 := 0
  lset     : Fin 16 := 0
  op       : SeqOp := .halt
  trig0    : Bool := false
  trig1    : Bool := false
  ropeTrig : Bool := false
  cond     : Cond := .fail
  invert   : Bool := false
  deriving DecidableEq, Repr

/-- A sequence program (R47, R252): entries by index, sparse while a load is open. `loadOpen` marks a load between its
opening packet and an accepted LAST packet. -/
structure Program where
  total    : Nat := 0
  masks    : Vector (BitVec 96) 16 := Vector.replicate 16 0
  entries  : List (Nat × Entry) := []
  loadOpen : Bool := false
  deriving DecidableEq, Repr

/-- Capture modes (R120). -/
inductive CapMode where
  | off | failLog | total | raw | window
  deriving DecidableEq, Repr

/-- The capture-configuration record (R120). -/
structure CapConfig where
  mode    : CapMode := .off
  align   : Bool := false
  closeUs : BitVec 16 := 100
  deriving DecidableEq, Repr

/-- Acquisition trigger sources (R133). -/
inductive AcqSource where
  | force | fail | vaddr | segment | pattern | evt | time | rope
  deriving DecidableEq, Repr

/-- The acquisition record (R131). -/
structure AcqConfig where
  armId  : Word := 0
  source : AcqSource := .force
  auto   : Bool := false
  pre    : Nat := 0
  post   : Nat := 0
  autoUs : Nat := 0
  sparam : List Byte := List.replicate 16 0
  deriving DecidableEq, Repr

/-- TDC arming modes (R142). -/
inductive ArmMode where
  | symbol | vwindow | twindow | continuous
  deriving DecidableEq, Repr

/-- One TDC channel block (R145). EDGE: bit 0 rising, bit 1 falling. -/
structure TdcConfig where
  en       : Bool := false
  cml      : Bool := false
  edge     : BitVec 2 := 0
  arm      : ArmMode := .symbol
  log      : Bool := false
  interval : Bool := false
  origin   : BitVec 32 := 0
  bin      : BitVec 16 := 0
  start    : BitVec 96 := 0
  stop     : BitVec 96 := 0
  deriving DecidableEq, Repr

/-- One complete cluster configuration: the content of a generation (R10, R76 to R77, R88, R96 to R97, R120, R131,
R145, R251), with the reset content each chapter gives. -/
structure ClusterConfig where
  timing  : Vector TimingSet 64 := Vector.replicate 64 {}
  mux     : BitVec 4 := 0
  levels  : Vector LevelSet 16 := Vector.replicate 16 (Vector.replicate 8 {})
  railEn  : BitVec 8 := 0
  clk     : Vector ClockPin 2 := Vector.replicate 2 {}
  program : Program := {}
  capture : CapConfig := {}
  acq     : AcqConfig := {}
  tdc     : Vector TdcConfig 8 := Vector.replicate 8 {}
  deriving DecidableEq, Repr

/-- A numbered generation (R278). -/
structure Generation where
  number : BitVec 16
  config : ClusterConfig
  deriving DecidableEq, Repr

/-- The four configuration slots of a cluster (R278, R279): `pendRevert` tells a pending revert from a pending commit. -/
structure GenSlots where
  cur        : Generation := ⟨1, {}⟩
  pend       : Option Generation := none
  pendRevert : Bool := false
  prev       : Option Generation := none
  shadow     : Generation := ⟨2, {}⟩
  deriving DecidableEq, Repr

/-- A burst descriptor (R255): candidates, BIND, the stall words (HOLD when `stallWord` is false). `level` is the site
level at which the descriptor passed BURST_COMMIT (R299; 0 for a single-device site). -/
structure Descriptor where
  seq        : BitVec 16
  candidates : List Nat
  bind       : BitVec 24
  stallWord  : Bool
  stall      : Vector Word 12
  level      : Nat
  deriving DecidableEq, Repr

/-- Start modes (R65). -/
inductive StartMode where
  | atTime | asap | chained
  deriving DecidableEq, Repr

/-- Operand sources of a rule (R198). -/
inductive RuleOpnd where
  | zero | resFail | resFailVecs | resHaltAddr | resBits | pinFail | scFlag | scBin | var | itemOpnd | itemFlags
  | entry | tdcMean | bursts
  deriving DecidableEq, Repr

/-- Comparisons of a rule (R198). -/
inductive RuleCmp where
  | always | eq | ne | lt | le | gt | ge | all | any
  deriving DecidableEq, Repr

/-- Actions of a rule (R198). -/
inductive RuleAct where
  | none | setFlag | select | setBin | setVar | addVar | setLevel | setEdge | restart | stopSite
  deriving DecidableEq, Repr

/-- A rule (R198); K and VALUE are signed 64-bit. -/
structure Rule where
  opnd   : RuleOpnd := .zero
  cmp    : RuleCmp := .always
  oparam : BitVec 16 := 0
  k      : Int := 0
  act    : RuleAct := .none
  stop   : Bool := false
  valVar : Bool := false
  aparam : BitVec 16 := 0
  value  : Int := 0
  deriving DecidableEq, Repr

/-- Work-item types (R188). -/
inductive ItemType where
  | burstDone | ruleEval | searchStep | trimStep | failReduce | binAssign | calStep | tdcStat | placement | hostItem
  deriving DecidableEq, Repr

/-- A work item (R188): the header fields, and the payload's 40 bytes. `snapshot` is the burst snapshot a BURST_DONE
item carries: the CAP_PIN_FAIL count of every device pin. -/
structure Item where
  type     : ItemType
  prio     : Fin 4
  flow     : Nat
  site     : Option Cluster
  source   : Nat
  notRun   : Bool := false
  taint    : Bool := false
  aborted  : Bool := false
  burstId  : Word := 0
  seqno    : Word := 0
  postTime : BitVec 64 := 0
  payload  : List Byte := []
  snapshot : List Nat := []
  /-- RESULT of the BURST_DONE whose place a step takes or that a reduction follows (R188, R207 to R209) -/
  result   : BitVec 64 := 0
  /-- instant the item entered its queue, in SUBNS units (R205) -/
  queuedAt : Nat := 0
  /-- the table number and the table of an item in a core's slot whose flow RESET_FUNCTION has reset (R198, R247) -/
  kept     : Option (Option Nat × Option (List Rule)) := none
  deriving DecidableEq, Repr

/-- A flow record (R193) with its run-time state: variables, BURST_DONE count, service and affinity (R199, R203). -/
structure Flow where
  prio        : Fin 4 := 2
  rechain     : Bool := false
  bdTable     : BitVec 16 := 0xFFFF
  maxPending  : Nat := 256
  owner       : Func := 0
  rechainDesc : BitVec 16 := 0
  vars        : Vector Int 8 := Vector.replicate 8 0
  bursts      : Nat := 0
  inService   : Bool := false
  lastCore    : Option (Fin 16) := none
  deriving DecidableEq, Repr

/-- A SEARCH_STEP procedure installed on a flow (R207). -/
structure Search where
  edge     : Bool
  linear   : Bool
  target   : BitVec 16
  pass     : Bool
  var      : Fin 8
  desc     : BitVec 16
  lo       : Int
  hi       : Int
  high     : Int
  step     : Int
  doneFlag : Fin 16
  best     : Option Int
  trial    : Int
  deriving DecidableEq, Repr

/-- A TRIM_STEP procedure installed on a flow (R208). `bit` is the code bit on trial. -/
structure Trim where
  meas     : Fin 3
  width    : Nat
  first    : Nat
  polarity : Bool
  mparam   : BitVec 16
  startSel : Fin 4
  endSel   : Fin 4
  target   : Int
  var      : Fin 8
  code     : Nat
  bit      : Nat
  deriving DecidableEq, Repr

/-- A FAIL_REDUCE procedure installed on a flow (R209). `last`: the BURST_ID of the latest burst reduced, or over when it was installed. -/
structure Reduce where
  cluster   : Cluster
  rowShift  : Nat
  rowBits   : Nat
  colShift  : Nat
  colBits   : Nat
  pinCol    : Bool
  spareRows : Nat
  spareCols : Nat
  address   : BitVec 64
  last      : Word := 0
  guard     : Word := 0
  deriving DecidableEq, Repr

/-- An internal command waiting for the command engine (R195, R200). -/
structure InternalCommand where
  flow      : Nat
  site      : Option Cluster
  /-- shadow generation number of each cluster when the item started -/
  expectGen : Vector (BitVec 16) 12
  levels    : List (BitVec 16 × Int)
  edges     : List (BitVec 16 × Int)
  restart   : Option (BitVec 16)
  stop      : Bool
  /-- a step of a SEARCH_STEP procedure sent it (R207) -/
  search    : Bool
  deriving DecidableEq, Repr

/-- A firmware slot: erased, the bundle the device was provisioned with (log 12), or bytes written by FW_STAGE. -/
inductive FwSlot where
  | erased
  | factory
  | bytes (b : List Byte)
  deriving DecidableEq, Repr

end Sys2Proof.Machine
end

