-- ==== Sys2Proof/Machine/ClusterState.lean ====
section
/-! DEFINITION. What one cluster engine, one site sequencer and the memory system's segments hold (R24 to R186), as plain
data with its reset content. Instants are in SUBNS units (R304): `Int` for network time, as bursts are scheduled in it. -/
namespace Sys2Proof.Machine

/-! ## Symbol decoder (R26, R46) -/

/-- Decompressor and symbol decoder of a cluster (R29, R46). -/
structure Decoder where
  hSym      : Vector Sym 8 := Vector.replicate 8 .X
  hDrv      : Vector Sym 8 := Vector.replicate 8 .d0
  fmtWarn   : Word := 0
  pinSeen   : Byte := 0
  scanOut   : Bool := false
  rsvdCode  : Bool := false
  blkReject : Word := 0
  blkCause  : BitVec 14 := 0
  lastSeg   : Word := 0xFFFFFFFF
  lastPos   : Word := 0
  lastChk   : BitVec 4 := 0
  vcnt      : BitVec 64 := 0
  seg       : Word := 0xFFFFFFFF
  deriving DecidableEq, Repr

/-! ## Timing (R75 to R92) -/

/-- A DRV or DEN event not yet applied (R78, R79): what it sets, at its programmed time, and the correction of its line under which it
reaches the ball (R87). A DEN event has `den`; a DRV event sets the data level, the level pair (`true`: pair B) or both. -/
structure LineEvent where
  time : Int
  corr : Int := 0
  den  : Option Bool
  drv  : Option Bool
  pair : Option Bool
  deriving DecidableEq, Repr

/-- The output lines of a pin (R79): levels applied so far and the events still to come, in the order of their programmed times; `edge`: the
latest transition of DRV (R89). -/
structure PinOut where
  drv    : Bool := false
  den    : Bool := false
  pairB  : Bool := false
  events : List LineEvent := []
  edge   : Option Int := none
  deriving DecidableEq, Repr

/-- A clock pin's generator (R88, R89): the values in force, and the edge from which it follows their phase. Before
`followAt` the output holds `level`, whose last transition was at `lastEdge`. `offAt` is the falling edge a disabled
clock ends at. -/
structure ClockGen where
  on       : Bool := false
  fw       : BitVec 48 := 0
  ph       : BitVec 16 := 0
  level    : Bool := false
  lastEdge : Int := 0
  followAt : Int := 0
  offAt    : Option Int := none
  changes  : Byte := 0
  deriving DecidableEq, Repr

/-- Timing generator and formatter of a cluster (R75, R84, R92), with the deskew corrections in force (R87). -/
structure Timing where
  curTset   : BitVec 6 := 0
  period    : Word := 20480
  vstart    : BitVec 64 := 0
  switchCnt : Word := 0
  cutCnt    : Word := 0
  cut       : Bool := false
  lastCheck : BitVec 4 := 0
  lastTset  : BitVec 6 := 0
  lastTo    : BitVec 6 := 0
  lastPin   : BitVec 3 := 0
  pins      : Vector PinOut 8 := Vector.replicate 8 {}
  clk       : Vector ClockGen 2 := Vector.replicate 2 {}
  deriving DecidableEq, Repr

/-! ## Calibration coefficients of a cluster (R331) -/

/-- A coefficient set of a cluster (R326): gain, and offset in uV, of each rail and range (index 2 * rail + range); the
corrections of each pin, of the eight TDC channels and four multiplexed routes, and of TRIG0 and TRIG1, in FU before rounding
(R332); the bin widths in 2^-6 FU. -/
structure Coeffs where
  gain   : Vector Rat 16 := Vector.replicate 16 1
  offset : Vector Rat 16 := Vector.replicate 16 0
  iref   : Rat := 1
  drv    : Vector Rat 8 := Vector.replicate 8 0
  den    : Vector Rat 8 := Vector.replicate 8 0
  cmp    : Vector Rat 8 := Vector.replicate 8 0
  tdc    : Vector Rat 12 := Vector.replicate 12 0
  trig   : Vector Rat 2 := Vector.replicate 2 0
  bins   : Vector (List Nat) 12 := Vector.replicate 12 (List.replicate 64 640)
  deriving DecidableEq, Repr

/-! ## Level DACs (R93 to R113) -/

/-- The steps of a range-change sequence (R108). -/
inductive RangePhase where
  | none
  | down
  | switching (until_ : Int)
  | up
  deriving DecidableEq, Repr

/-- What an arm point asks of a rail (R101): the enable and program range of its generation, the block of the start
entry's level set with its corrected code, and the corrected code of the last strobe under the coefficients it brings. -/
structure RailArm where
  en     : Bool
  range  : Option Bool
  set    : RailSet
  code   : Nat
  recode : Nat
  deriving DecidableEq, Repr

/-- A level rail (R93 to R110). `live`: the buffer is on. `nextMove`: the DAC clock edge of the next move. `prog`: the programmed code behind
the target, of the last level set that gave one; `step`, `interval`: of the slew in hand; `setStep`, `setInterval`: of the level set of the
last strobe. -/
structure Rail where
  live     : Bool := false
  rangeB   : Bool := false
  out      : Nat := 0
  target   : Nat := 0
  prog     : BitVec 16 := 0
  step     : Nat := 256
  interval : Nat := 0
  setStep  : Nat := 256
  setInterval : Nat := 0
  nextMove : Option Int := none
  phase    : RangePhase := .none
  upCode   : Nat := 0
  disabling : Bool := false
  /-- the actions a later arm point brought while a range change ran (R110) -/
  deferred : Option RailArm := none
  /-- parked by a fault reaction not yet acknowledged (R112) -/
  faultPark : Bool := false
  /-- the current limit is reached now, and LVL_SC has been reported for this condition (R111, R344) -/
  limiting : Bool := false
  /-- the ramp of a disabling has begun and no level set has been loaded since (R101, R106) -/
  zeroed : Bool := false
  /-- the latest moves, newest first: the DAC clock edge of each and the code before it (R103) -/
  moves : List (Int × Nat) := []
  /-- a commanded DAC run has the rail (R328): once at code 0, its ball is on the park switch -/
  tied : Bool := false
  deriving DecidableEq, Repr

/-- Level DACs of a cluster (R113). -/
structure Levels where
  rails     : Vector Rail 8 := Vector.replicate 8 {}
  lvlSc     : Byte := 0
  clip      : Bool := false
  curLset   : BitVec 4 := 0
  clipCnt   : Word := 0
  strobeCnt : Word := 0
  rangeCnt  : BitVec 16 := 0
  deriving DecidableEq, Repr

/-! ## Compare and capture (R114 to R139) -/

/-- A cairn (R127): cause bits 23:16 as a number, and the play it marks. -/
structure Cairn where
  cause   : Nat
  entry   : BitVec 16
  segment : Word
  vaddr   : Nat
  tset    : BitVec 6
  lset    : BitVec 4
  time    : Int
  burstId : Word
  deriving DecidableEq, Repr

/-- A pattern vector played, whose observations are not all formed yet (R114). `clock`, `window`, `mux`: the clock pins, the pins in WINDOW
mode and the multiplexed pairs it was played with; `closing`: the closing edge of each pin's compare (R56). `cairn`: the play it belongs to, and
the cairn it carries, none when its cause is 0. -/
structure Vec where
  vaddr   : Nat
  start   : Int
  syms    : Vector Sym 8
  clock   : Byte
  window  : Byte
  mux     : BitVec 4
  closing : Vector Int 8
  cairn   : Cairn
  seen    : Byte
  obs     : BitVec 16
  failed  : Byte
  /-- its observations belong to a drop that is over (R138) -/
  lost    : Bool := false
  deriving DecidableEq, Repr

/-- The record a capture block grows at its end (R122, R125). `lit`: an RLIT's words, then `gap` zero words not yet told
to be a short gap or a ZRUN. -/
inductive OpenRec where
  | none
  | zrun (n : Nat)
  | lit (words : List (BitVec 16)) (gap : Nat)
  | raw (words : List (BitVec 16))
  deriving DecidableEq, Repr

/-- A capture or stamp block being filled (R121, R148): record words in order. -/
structure OpenBlock where
  words      : List Word := []
  recs       : Nat := 0
  openRec    : OpenRec := .none
  since      : Int := 0
  firstVaddr : Nat := 0
  first      : Bool := false
  last       : Bool := false
  dropIn     : Bool := false
  burstId    : Word := 0
  mode       : Nat := 0
  deriving DecidableEq, Repr

/-- A closed block (R121) with its STREAM_SEQ. `stamps`: the stamps of each channel it holds (R146); `bad`: an
uncorrectable error struck it, so that its CRC goes out complemented (R160). -/
structure ClosedBlock where
  blk    : OpenBlock
  seq    : Word
  bad    : Bool := false
  stamps : Vector Nat 8 := Vector.replicate 8 0
  deriving DecidableEq, Repr

/-- A vector in the history buffer (R131): its observation word, failing pins, play and start. -/
structure HistVec where
  vaddr   : Nat
  obs     : BitVec 16
  failed  : Byte
  segment : Word
  first   : Bool
  start   : Int
  cairn   : Cairn
  deriving DecidableEq, Repr

/-- The acquisition engine (R131 to R136). `armId`: the ARM_ID in force, 0 when none; `fillBase`: the first vector filled
since the arm point; `scan`: the next vector a condition is looked for at; `trig`: the trigger vector; `written`: the next vector to
write in a RAW record, after those a drop has lost; `posted`: post-trigger vectors recorded; `history`: newest first; `retired`: a TIME trigger was
ignored and cannot recur (R134), or a step has passed it (R317); `beginDue`: the ACQ_BEGIN record, while it waits for a drop to end (R136, R138). -/
structure AcqState where
  armId    : Word := 0
  active   : Bool := false
  doneIds  : List Word := []
  fillBase : Option (Nat × Int) := none
  scan     : Nat := 0
  trig     : Option Nat := none
  written  : Nat := 0
  posted   : Nat := 0
  retired  : Bool := false
  forced   : Bool := false
  history  : List HistVec := []
  autoAcc  : Nat := 0
  /-- a stamped trigger whose vector has not been recorded yet: its vector, BOUNDARY and time -/
  waiting  : Option (Nat × Bool × Int) := none
  beginDue : Option (List Word) := none
  deriving DecidableEq, Repr

/-- What the compare/capture engine holds of one burst (R117 to R122, R136, R138). `burstOpen`: its BURST_END record is still to be written;
`ended`: its RESULT has been written (R119); `lostFrom`, `dropped`: the vectors lost since the last DROP record. -/
structure CapBurst where
  fail      : Bool := false
  failVec   : Word := 0
  /-- loss and tail compares of the burst itself, for RESULT and BURST_END (R118, R119) -/
  burstLoss : Bool := false
  burstTail : Bool := false
  lostFrom  : Nat := 0
  dropped   : Nat := 0
  prevObs   : BitVec 16 := 0
  burstOpen : Bool := false
  firstBlk  : Bool := false
  ended     : Bool := false
  acq       : AcqState := {}
  deriving DecidableEq, Repr

/-- A burst whose last observations or whose BURST_END are still to come when the next one arms (R119): the configuration it ran under, its
BURST_ID and its count of pattern vectors. -/
structure CapPart where
  config  : CapConfig
  acqCfg  : AcqConfig
  bid     : Word
  vectors : Nat
  burst   : CapBurst
  deriving DecidableEq, Repr

/-- Compare/capture engine of a cluster (R117, R139): the burst in hand, earlier ones that are not finished (`older`, the oldest first), and
what all share. `vecs`: vectors played whose observations are not all formed, in play order. `dropping`: observations are being discarded, from
that vector on (R138). `cause`: the cause bits of the next vector played (R127). -/
structure Capture extends CapBurst where
  pinFail   : Vector Word 8 := Vector.replicate 8 0
  firstFail : Option (Nat × Byte) := none
  cmpCnt    : BitVec 64 := 0
  tailFail  : Word := 0
  dropVec   : Word := 0
  highWater : Nat := 0
  blkCnt    : Word := 0
  trigIgn   : Word := 0
  acqTrig   : Option Nat := none
  acqDone   : Bool := false
  forced    : Bool := false
  trunc     : Bool := false
  boundary  : Bool := false
  loss      : Bool := false
  tail      : Bool := false
  dropping  : Option Nat := none
  nextSeq   : Word := 0
  vecs      : List Vec := []
  older     : List CapPart := []
  nextPeriodic : Int := 0
  cause     : Nat := 0
  open_     : Option OpenBlock := none
  fifo      : List ClosedBlock := []
  deriving DecidableEq, Repr

/-! ## Time measurement (R140 to R158) -/

/-- Statistics and histogram of a channel or pair (R150, R154): the histogram lists its non-zero bins. -/
structure Stats where
  count : Nat := 0
  min   : Int := 0
  max   : Int := 0
  sum   : Int := 0
  sumSq : Nat := 0
  hist  : List (Nat × Word) := []
  unders : Word := 0
  overs  : Word := 0
  deriving DecidableEq, Repr

/-- A TDC channel (R140 to R151, R158). Stamp times are in 2 FU units. `tWin`: the 'T' windows, in SUBNS units; `fill`: the stamps its FIFO held at the
network time `fillAt` (R146); `ranAt`: when the last background code-density run of its direct route began, and of the multiplexed route of an odd channel
(R327); `onMux`: the run in hand takes the multiplexed one; `cmd`: it is a commanded one, on every route (R328). -/
structure TdcChan where
  last      : Option Int := none
  lastEdge  : Option Int := none
  tWin      : List (Int × Int) := []
  fill      : Nat := 0
  fillAt    : Int := 0
  highWater : Nat := 0
  stampCnt  : Word := 0
  lost      : Word := 0
  dead      : Word := 0
  ovf       : Bool := false
  boundary  : Bool := false
  losing    : Bool := false
  lossRun   : Nat := 0
  running   : Bool := false
  onMux     : Bool := false
  cmd       : Bool := false
  ranAt     : Vector (Option Nat) 2 := Vector.replicate 2 none
  tables    : BitVec 16 := 0
  dnl       : Bool := false
  width     : Bool := false
  sum       : Bool := false
  abandoned : Byte := 0
  stats     : Stats := {}
  deriving DecidableEq, Repr

/-- The stamp stream of a cluster (R146 to R149). `latest`: its latest cairn; `lastBid`: BURST_ID of the block opened last; `gapNext`: the
next gap cairn is not before it. -/
structure StampStream where
  open_   : Option OpenBlock := none
  nextSeq : Word := 0
  stamps  : Vector Nat 8 := Vector.replicate 8 0
  fifo    : List ClosedBlock := []
  latest  : Option Cairn := none
  lastBid : Option Word := none
  gapNext : Int := 0
  deriving DecidableEq, Repr

/-- An entry of the pair table (R152, R153), with the stamps of each channel still unpaired, oldest first. -/
structure Pair where
  en     : Bool := false
  pinA   : Nat := 0
  pinB   : Nat := 0
  maxd   : Nat := 0
  origin : BitVec 32 := 0
  bin    : BitVec 16 := 0
  waitA  : List Int := []
  waitB  : List Int := []
  stats  : Stats := {}
  deriving DecidableEq, Repr

/-! ## Segments and vector store (R32 to R43, R161 to R169) -/

/-- An accepted block of a segment: the vector words it emits as runs (count, word), and its sizes. -/
structure Blk where
  runs    : List (Nat × Word)
  vectors : Nat
  opBytes : Nat
  bodyLen : Nat
  deriving DecidableEq, Repr

/-- The content of a segment, or one instance of a STREAM segment (R41, R162). `released`: blocks whose HBM has been
released. -/
structure Inst where
  blocks   : List Blk := []
  dict     : List Word := []
  prev     : Option Word := none
  next     : Nat := 0
  vectors  : Nat := 0
  done     : Bool := false
  released : Nat := 0
  deriving DecidableEq, Repr

/-- Where a complete STORED segment resides beside HBM (R165). -/
inductive Residence where
  | hbm | staged | autoPiton | pinned
  deriving DecidableEq, Repr

/-- A declared segment of a cluster (R162 to R165). `order`: admission order of an automatic piton (R168). -/
structure Seg where
  id       : Word
  len      : Nat
  idleSafe : Bool
  stream   : Bool
  damaged  : Bool := false
  insts    : List Inst := []
  res      : Residence := .hbm
  order    : Nat := 0
  deriving DecidableEq, Repr

/-! ## One cluster -/

/-- Latched high words of the pairs a cluster holds (R426). -/
structure ClusterLatch where
  dcmpHi   : Word := 0
  vstartHi : Word := 0
  failHi   : Word := 0
  cmpHi    : Word := 0
  acqHi    : Word := 0
  deriving DecidableEq, Repr

/-- SEQ_CTL (R74). -/
structure SeqCtl where
  chainTmo  : BitVec 16 := 100
  evt1Fall  : Bool := false
  evt0Fall  : Bool := false
  clrArm    : Bool := false
  deriving DecidableEq, Repr

/-- SEQ_TRIG_CFG (R74). -/
structure TrigCfg where
  width1 : BitVec 9 := 5
  width0 : BitVec 9 := 5
  en1    : Bool := false
  en0    : Bool := false
  deriving DecidableEq, Repr

/-- The outputs and latches of a cluster's sequencer block: registers as written and as latched at the arm point (R74), event latches (R57), with the
instants of the earliest and the latest edge each holds (`evtFrom`, `evtLast`, `gevtFrom`, `gevtLast`, on the device's own count: R58), and the instants
until which TRIG0 and TRIG1 stay high (R63). `trigFrom`, `trig0Until`, `trig1Until`: the rise and the end of the pulse on each TRIG output. -/
structure EventIo where
  ctl      : SeqCtl := {}
  ctlIn    : SeqCtl := {}
  trig     : TrigCfg := {}
  trigIn   : TrigCfg := {}
  evt0     : Bool := false
  evt1     : Bool := false
  gevt     : Byte := 0
  evtFrom  : Vector Nat 2 := Vector.replicate 2 0
  evtLast  : Vector Nat 2 := Vector.replicate 2 0
  gevtFrom : Vector Nat 8 := Vector.replicate 8 0
  gevtLast : Vector Nat 8 := Vector.replicate 8 0
  trigFrom   : Vector (Option Int) 2 := Vector.replicate 2 none
  trig0Until : Option Int := none
  trig1Until : Option Int := none
  deriving DecidableEq, Repr

/-- A cluster engine. -/
structure ClusterEng where
  io     : EventIo := {}
  dec    : Decoder := {}
  tim    : Timing := {}
  lvl    : Levels := {}
  cap    : Capture := {}
  tdc    : Vector TdcChan 8 := Vector.replicate 8 {}
  stamp  : StampStream := {}
  coeffs : Coeffs := {}
  latch  : ClusterLatch := {}
  deriving DecidableEq, Repr

/-! ## The sequencer of a site (R47 to R74) -/

/-- Site states (R12). -/
inductive SiteState where
  | idle | armed | running | halted | stalled | belay
  deriving DecidableEq, Repr

/-- A site-state record (R12). -/
structure SiteRec where
  state   : SiteState := .idle
  taint   : Bool := false
  curGen  : BitVec 16 := 1
  pendGen : BitVec 16 := 1
  req     : BitVec 8 := 0
  reqAck  : BitVec 8 := 0
  result  : BitVec 64 := 0
  scFlags : BitVec 32 := 0
  burstId : Word := 0
  deriving DecidableEq, Repr

/-- A successor fixed at a decision point (R49). -/
inductive Succ where
  | halt
  | entry (i : Nat)
  deriving DecidableEq, Repr

/-- A pending start (R65): its scheduled start S (none for a CHAINED start until the HALT it follows), and whether it is
late and waits (R67). `site`-wide stop requests cancel it. -/
structure Start where
  mode  : StartMode
  seq   : BitVec 16
  sched : Option Int
  late  : Bool := false
  deriving DecidableEq, Repr

/-- An armed start (R66 to R69): `due`: the start of vector 0 is not before it; `entry`: the start entry, unknown to a
CHAINED start until its selection is read; `vote`: own ready vote of a multi-device site (R68). -/
structure Armed where
  mode    : StartMode
  desc    : Descriptor
  sched   : Int
  armedAt : Int
  due     : Int
  entry   : Option Nat
  slip    : Bool := false
  vote    : Option Bool := none
  ready   : Bool := true
  /-- when a CHAINED start's selection was read (R69, R180) -/
  readAt  : Option Int := none
  deriving DecidableEq, Repr

/-- A play in progress (R48, R55). `vaddr`: vector address of its first vector; `played`: vectors the clusters have taken. -/
structure Play where
  entry   : Nat
  start   : Int
  vaddr   : Nat
  len     : Nat
  period  : Nat
  tset    : BitVec 6
  lset    : BitVec 4
  played  : Nat := 0
  succ    : Option Succ := none
  /-- the condition value of a ROPE_SITE decision waits for the members' frames (R61) -/
  resolve : Option (Bool × Bool) := none
  belay   : Bool := false
  deriving DecidableEq, Repr

/-- A stall (R182): the underrun's instant, the start of its first stall vector, the entry it waits for and its stream. -/
structure Stall where
  since  : Int
  start  : Int
  period : Nat
  vaddr  : Nat
  next   : Nat
  stream : Fin 24
  /-- a first play's stall (R180): no vector has played -/
  firstPlay : Bool := false
  /-- the stalled burst's start is a chained one (R195) -/
  chained : Bool := false
  tset   : BitVec 6 := 0
  played : Nat := 0
  deriving DecidableEq, Repr

/-- Belay hold (R181): the underrun's instant, the successor waited for and its stream. -/
structure Belay where
  since  : Int
  next   : Nat
  stream : Fin 24
  deriving DecidableEq, Repr

/-- A run of vectors on one grid, for finding the vector whose span holds an instant (R129, R150). -/
structure Span where
  start  : Int
  period : Nat
  vaddr  : Nat
  n      : Nat
  deriving DecidableEq, Repr

/-- A member's frame received for the decision or vote in hand (R61, R68): sender's serial number, key and value. -/
structure Receipt where
  src   : BitVec 64
  vote  : Bool
  key   : BitVec 32
  value : Bool
  deriving DecidableEq, Repr

/-- The sequencer of a site (R47 to R74), held at the site index. -/
structure Seqr where
  front     : Option Descriptor := none
  start     : Option Start := none
  armed     : Option Armed := none
  desc      : Option Descriptor := none
  play      : Option Play := none
  stall     : Option Stall := none
  belay     : Option Belay := none
  /-- start of the last vector of a burst whose RESULT is not written yet, and whether an ABORT ended it -/
  ending    : Option (Int × Bool) := none
  loops     : Vector Word 4 := Vector.replicate 4 0
  stack     : List Nat := []
  playCnt   : Word := 0
  vec0      : Int := 0
  window    : List (Int × Nat × Bool) := []
  failBurst : Bool := false
  vectors   : Nat := 0
  /-- the same count of the latest burst that played a vector before this one (R148) -/
  lastCount : Nat := 0
  failVecs  : List Nat := []
  spans     : List Span := []
  curEntry  : BitVec 16 := 0
  succ      : BitVec 16 := 0
  succHalt  : Bool := false
  succValid : Bool := false
  slipNs    : Word := 0
  late      : Vector Word 12 := Vector.replicate 12 0
  lead      : Vector (BitVec 16) 64 := Vector.replicate 64 64
  hops      : BitVec 3 := 0
  condMiss  : Bool := false
  stackErr  : Bool := false
  chainTmo  : Bool := false
  aborted   : Bool := false
  notRun    : Bool := false
  startSlip : Bool := false
  lateFlag  : Bool := false
  receipts  : List Receipt := []
  /-- decisions of the site since its arm point (R285) -/
  dseq      : Word := 0
  /-- a site-abort frame makes HALT the successor at the next decision point (R62) -/
  siteAbort : Bool := false
  /-- a signal that acts as a consumed ABORT and shows in no REQ bit (R60), or an ABORT request: the number of vectors
  of the play, or of stall vectors, at which the burst ends -/
  abortAt   : Option Nat := none
  haltAt    : Option Int := none
  /-- a selection has been taken since the previous burst's first vector (R197) -/
  selTaken  : Bool := false
  deriving DecidableEq, Repr

/-- What reached a site or a cluster last, with its instant on the device's own count, for R243: a crux point in the datapath cycle of an arm
point, a decision point or a HALT counts as after it. `reqAt`: JUMP_REQUEST, BURST_STOP, RESUME and ABORT; `front`: the front buffer before the
latest BURST_COMMIT; `pend`: the pending generation before the latest commit, and whether it was a revert. -/
structure Recent where
  reqAt    : Vector Nat 4 := Vector.replicate 4 0
  frontAt  : Nat := 0
  front    : Option Descriptor := none
  commitAt : Nat := 0
  pend     : Option (Generation × Bool) := none
  deriving DecidableEq, Repr

end Sys2Proof.Machine
end

