-- ==== Sys2Proof/Machine/Bits.lean ====
section
/-! DEFINITION. Bytes, fields and saturating counters (R4, R8), the CRC-32C of R35, and updates of a vector's element. -/
namespace Sys2Proof.Machine

/-- The number a little-endian byte string holds (R4). -/
def leNat : List Byte → Nat
  | [] => 0
  | b :: bs => b.toNat + 256 * leNat bs

/-- `k` little-endian bytes of a number (R4). -/
def leBytes : Nat → Nat → List Byte
  | 0, _ => []
  | k + 1, n => BitVec.ofNat 8 n :: leBytes k (n / 256)

/-- The field of `n` bytes at offset `off`; bytes beyond the string read 0. -/
def fieldAt (bs : List Byte) (off n : Nat) : Nat := leNat ((bs.drop off).take n)

def byteAt (bs : List Byte) (off : Nat) : Byte := bs.getD off 0

def u16At (bs : List Byte) (off : Nat) : BitVec 16 := BitVec.ofNat 16 (fieldAt bs off 2)

def u32At (bs : List Byte) (off : Nat) : Word := BitVec.ofNat 32 (fieldAt bs off 4)

def u64At (bs : List Byte) (off : Nat) : BitVec 64 := BitVec.ofNat 64 (fieldAt bs off 8)

def u96At (bs : List Byte) (off : Nat) : BitVec 96 := BitVec.ofNat 96 (fieldAt bs off 12)

def s64At (bs : List Byte) (off : Nat) : Int := (u64At bs off).toInt

/-- Whether `n` bytes from `off` are all 0. -/
def zeroAt (bs : List Byte) (off n : Nat) : Bool := ((bs.drop off).take n).all (· == 0)

def wordsBytes (ws : List Word) : List Byte := ws.flatMap fun w => leBytes 4 w.toNat

/-- Bits `hi` to `lo` of a number. -/
def bitsOf (n lo width : Nat) : Nat := n / 2 ^ lo % 2 ^ width

def bitOf (n i : Nat) : Bool := bitsOf n i 1 == 1

/-- A bit as a number, at a position. -/
def bitAt (b : Bool) (i : Nat) : Nat := if b then 2 ^ i else 0

/-- A counter that saturates at its width (R8). -/
def satInc {n : Nat} (w : BitVec n) : BitVec n := if w = BitVec.allOnes n then w else w + 1

def satAdd {n : Nat} (w : BitVec n) (k : Nat) : BitVec n := BitVec.ofNat n (min (w.toNat + k) (2 ^ n - 1))

/-- Saturating a number into a field. -/
def satNat (n k : Nat) : BitVec n := BitVec.ofNat n (min k (2 ^ n - 1))

def maskBits {n : Nat} (m : BitVec n) : List Nat := (List.range n).filter fun i => m.getLsbD i

def bitMask (n i : Nat) : BitVec n := BitVec.ofNat n (2 ^ i)

/-- Setting one bit. -/
def setBit {n : Nat} (m : BitVec n) (i : Nat) : BitVec n := m ||| bitMask n i

/-- One bit of the reflected CRC-32C (R35). -/
def crcBit (c : Word) : Word := if c.getLsbD 0 then (c >>> 1) ^^^ 0x82F63B78 else c >>> 1

def crcByte (c : Word) (b : Byte) : Word :=
  let x := c ^^^ b.setWidth 32
  crcBit (crcBit (crcBit (crcBit (crcBit (crcBit (crcBit (crcBit x)))))))

/-- CRC-32C with the parameters of R35. -/
def crc32c (bs : List Byte) : Word := bs.foldl crcByte 0xFFFFFFFF ^^^ 0xFFFFFFFF

/-- Updating one element of a vector. -/
def upd {α : Type} {n : Nat} (v : Vector α n) (i : Fin n) (f : α → α) : Vector α n := v.set i.val (f v[i]) i.isLt

def updN {α : Type} {n : Nat} (v : Vector α n) (i : Nat) (f : α → α) : Vector α n :=
  if h : i < n then v.set i (f v[i]) h else v

/-- Element `i`, or a default beyond the end. -/
def getN {α : Type} {n : Nat} (v : Vector α n) (i : Nat) (d : α) : α := v.toArray.getD i d

/-- The smallest multiple of `m` at or after `t`. -/
def ceilTo (t : Int) (m : Nat) : Int := -((-t) / (m : Int)) * m

/-- The nearest integer, ties up (R95, R332; log 13). -/
def roundRat (q : Rat) : Int := (q + 1 / 2).floor

/-- Microseconds and milliseconds in SUBNS units. -/
def usUnits : Nat := 1000 * nsUnits

def msUnits : Nat := 1000000 * nsUnits

/-- A network time as the 96-bit stamp of R304: seconds 48, nanoseconds 32, sub-nanoseconds 16 bits. -/
def stampOf (t : Int) : BitVec 96 :=
  let sec := t / (1000000000 * nsUnits : Nat)
  let rest := t % (1000000000 * nsUnits : Nat)
  BitVec.ofInt 96 (sec * 2 ^ 48 + rest / (nsUnits : Int) * 2 ^ 16 + rest % (nsUnits : Int))

/-- The network time a 96-bit stamp names. -/
def timeOf (s : BitVec 96) : Int :=
  ((s.toNat / 2 ^ 48 : Nat) : Int) * (1000000000 * nsUnits : Nat) + ((s.toNat / 2 ^ 16 % 2 ^ 32 : Nat) : Int) * nsUnits
    + ((s.toNat % 2 ^ 16 : Nat) : Int)

end Sys2Proof.Machine
end

