-- ==== Sys2Proof/Machine/Formatter.lean ====
section
/-! DEFINITION. The symbol decoder (R24 to R31) and the formatter (R78 to R80, R84, R85): from a vector word to resolved
symbols, and from a resolved symbol to DRV and DEN events, compare instants and TDC windows. -/
namespace Sys2Proof.Machine

/-- The symbol a 4-bit code names (R24). -/
def Sym.ofCode (n : Nat) : Sym :=
  match n with
  | 0 => .d0 | 1 => .d1 | 2 => .L | 3 => .H | 4 => .X | 5 => .Z | 6 => .V | 7 => .K
  | 8 => .S | 9 => .Q | 10 => .T | 11 => .D | 12 => .U | 13 => .N | 14 => .rE | _ => .rF

/-- The symbol of pin-in-cluster `k` in a vector word (R27). -/
def symAt (w : Word) (k : Nat) : Sym := Sym.ofCode (bitsOf w.toNat (4 * k) 4)

/-- 'N': the complement of the previous drive (R29). -/
def Sym.complement : Sym → Sym
  | .d0 => .d1
  | .d1 => .d0
  | .D => .U
  | .U => .D
  | s => s

/-- The drive symbols (R29, R79). -/
def Sym.drives : Sym → Bool
  | .d0 | .d1 | .D | .U => true
  | _ => false

/-- The data bit of a drive symbol (R79). -/
def Sym.data : Sym → Bool
  | .d1 | .U => true
  | _ => false

/-- Level pair B (R24, R79). -/
def Sym.isPairB : Sym → Bool
  | .D | .U => true
  | _ => false

/-- The compare symbols, which pass or fail (R115). -/
def Sym.compares : Sym → Bool
  | .L | .H | .Z => true
  | _ => false

/-- The observation a compare symbol passes with (R115), and the expected observation of a drive symbol (R124). -/
def Sym.expected : Sym → Option (BitVec 2)
  | .L | .d0 | .D => some 0b01
  | .H | .d1 | .U => some 0b10
  | .Z => some 0b00
  | _ => none

/-- A format warning of pin `k` (R29, R46). -/
def Decoder.warn (d : Decoder) (k : Nat) (scan : Bool) : Decoder :=
  { d with fmtWarn := satInc d.fmtWarn, pinSeen := setBit d.pinSeen k,
           scanOut := d.scanOut || scan, rsvdCode := d.rsvdCode || !scan }

/-- The resolved symbol of one pin and the warnings it makes (R28, R29); the history is the decoder's. -/
def Decoder.resolve (d : Decoder) (k : Fin 8) (s : Sym) : Decoder × Sym :=
  match s with
  | .rE | .rF => (d.warn k false, .X)
  | .S | .Q => (d.warn k true, .X)
  | .K => (d, d.hSym[k])
  | .N => (d, d.hDrv[k].complement)
  | s => (d, s)

/-- One pin's step of the procedure of R29. -/
def Decoder.pinStep (d : Decoder) (k : Fin 8) (s : Sym) : Decoder × Sym :=
  let (d, r) := d.resolve k s
  ({ d with hSym := upd d.hSym k fun _ => r, hDrv := if r.drives then upd d.hDrv k fun _ => r else d.hDrv }, r)

/-- The procedure of R29 for one vector word, pin by pin. -/
def Decoder.vector (d : Decoder) (w : Word) : Decoder × Vector Sym 8 :=
  (List.finRange 8).foldl (fun (d, v) k => let (d, r) := d.pinStep k (symAt w k); (d, upd v k fun _ => r))
    (d, Vector.replicate 8 .X)

/-- The history of the arm point (R29). -/
def Decoder.armReset (d : Decoder) : Decoder :=
  { d with hSym := Vector.replicate 8 .X, hDrv := Vector.replicate 8 .d0, vcnt := 0 }

/-! ## The formatter -/

def denEvent (t : Int) (b : Bool) : LineEvent := ⟨t, 0, some b, none, none⟩

/-- The first DRV event of a drive vector, which selects the level pair (R79). -/
def drvFirst (t : Int) (b : Option Bool) (pairB : Bool) : LineEvent := ⟨t, 0, none, b, some pairB⟩

def drvEvent (t : Int) (b : Bool) : LineEvent := ⟨t, 0, none, some b, none⟩

/-- The instant of an edge offset, in FU, in a vector that starts at `v`. -/
def edgeAt (v : Int) (e : Nat) : Int := v + (e * fuUnits : Nat)

/-- The DRV and DEN events of one vector under a pin's format (R79). -/
def vectorEvents (pt : PinTiming) (v : Int) (s : Sym) : List LineEvent :=
  if !s.drives || pt.fmt = .off then [denEvent (edgeAt v pt.e3) false]
  else
    let d := s.data
    let b := s.isPairB
    denEvent (edgeAt v pt.e0) true ::
    match pt.fmt with
    | .off => []
    | .nrz => [drvFirst (edgeAt v pt.e1) (some d) b]
    | .rz => [drvFirst (edgeAt v pt.e1) (if d then some true else none) b, drvEvent (edgeAt v pt.e2) false]
    | .r1 => [drvFirst (edgeAt v pt.e1) (if d then none else some false) b, drvEvent (edgeAt v pt.e2) true]
    | .sbc => [drvFirst (edgeAt v pt.e0) (some !d) b, drvEvent (edgeAt v pt.e1) d, drvEvent (edgeAt v pt.e2) !d]
    | .dnrz => drvFirst (edgeAt v pt.e1) (if d then some true else none) b ::
        if d then [] else [drvEvent (edgeAt v pt.e2) false]

/-- A correction of R326 as it stands in force: the nearest FU, in SUBNS units (R87, R332). -/
def corrUnits (q : Rat) : Int := roundRat q * fuUnits

/-- An event under the corrections of pin `p` (R87): those of its DRV line or of its DEN line. -/
def LineEvent.place (e : LineEvent) (co : Coeffs) (p : Nat) : LineEvent :=
  { e with corr := corrUnits (if e.den.isSome then getN co.den p 0 else getN co.drv p 0) }

/-- The instant an event acts, at the calibrated reference plane (R87). -/
def LineEvent.at_ (e : LineEvent) : Int := e.time + e.corr

/-- Events in time order; an event meets its place after those of the same time (R78). -/
def insertEvent (e : LineEvent) : List LineEvent → List LineEvent
  | [] => [e]
  | x :: xs => if e.time < x.time then e :: x :: xs else x :: insertEvent e xs

def PinOut.push (p : PinOut) (es : List LineEvent) : PinOut :=
  { p with events := es.foldl (fun q e => insertEvent e q) p.events }

def PinOut.apply (p : PinOut) (e : LineEvent) : PinOut :=
  { p with den := e.den.getD p.den, drv := e.drv.getD p.drv, pairB := e.pair.getD p.pairB,
           edge := if e.drv.getD p.drv = p.drv then p.edge else some e.at_ }

/-- The lines at instant `t`: every event up to it applied, each at its corrected time (R78, R87). -/
def PinOut.settle (p : PinOut) (t : Int) : PinOut :=
  let q := { p with events := p.events.filter fun e => t < e.at_ }
  (p.events.filter fun e => e.at_ ≤ t).foldl PinOut.apply q

/-- A cut at a timing-set switch (R84): events at or after `v` are discarded. -/
def PinOut.cut (p : PinOut) (v : Int) : PinOut × Nat :=
  ({ p with events := p.events.filter fun e => e.time < v }, (p.events.filter fun e => v ≤ e.time).length)

/-- Driver-disable and DRV 0, with nothing to come (R71, R345, R406). -/
def PinOut.disabled : PinOut := {}

/-- Whether pin-in-cluster `k` is in a multiplexed pair (R77). -/
def ClusterConfig.muxed (g : ClusterConfig) (k : Nat) : Bool := g.mux.getLsbD (k / 2)

/-- The pin whose port channel `k` uses (R85). -/
def ClusterConfig.port (g : ClusterConfig) (k : Nat) : Nat := if g.muxed k then k - k % 2 else k

/-- Whether pin-in-cluster `k` is an enabled clock pin (R88). -/
def ClusterConfig.isClock (g : ClusterConfig) (k : Nat) : Bool :=
  (k == 6 && (g.clk[0]).enable) || (k == 7 && (g.clk[1]).enable)

def ClusterConfig.clockMask (g : ClusterConfig) : Byte := BitVec.ofNat 8 (bitAt (g.isClock 6) 6 + bitAt (g.isClock 7) 7)

/-- A line whose DRV falls to 0 at `t`, with driver-disable and nothing to come. -/
def PinOut.drop (p : PinOut) (t : Int) : PinOut :=
  let q := p.settle t
  { PinOut.disabled with edge := if q.drv then some t else q.edge }

/-- The lines at an arm point `t`: the formatter leaves the odd pin of a multiplexed pair at driver-disable and DRV 0 (R85), and an enabled
clock pin to its clock generator (R88, R89). -/
def ClusterConfig.armPins (g : ClusterConfig) (ps : Vector PinOut 8) (t : Int) : Vector PinOut 8 :=
  Vector.ofFn fun (k : Fin 8) => if g.port k ≠ k || g.isClock k then (ps[k]).drop t else ps[k]

/-- The closing edge of a pin's compare (R56): S0, or S1 in WINDOW mode, with the comparator correction `corr` (R80, R87). -/
def PinTiming.closing (pt : PinTiming) (v corr : Int) : Int := edgeAt v (if pt.window then pt.s1 else pt.s0) + corr

/-- The closing edges of a vector's eight compares, each under the correction of its port's pin (R85, R87). -/
def ClusterConfig.closings (g : ClusterConfig) (co : Coeffs) (ts : TimingSet) (v : Int) : Vector Int 8 :=
  Vector.ofFn fun (k : Fin 8) => (ts.pins[k]).closing v (corrUnits (getN co.cmp (g.port k.val) 0))

/-- The largest correction of R87 in SUBNS units: no event of a later vector acts before events older than this. -/
def corrMax : Int := 1024 * fuUnits

/-- The DRV and DEN events a vector brings to a cluster's lines (R79, R85, R30), under the corrections of the port's pin (R87). `held`: pins
whose lines are held whatever the formats (R345, R406). Events before the vector have been applied. -/
def Timing.format (t : Timing) (g : ClusterConfig) (co : Coeffs) (held : Byte) (ts : TimingSet) (v : Int) (syms : Vector Sym 8) : Timing :=
  { t with pins := (List.finRange 8).foldl (fun ps (k : Fin 8) =>
      let p := g.port k
      if g.isClock k || held.getLsbD p then ps
      else updN ps p fun o => (o.settle (v - 1 - corrMax)).push ((vectorEvents ts.pins[k] v syms[k]).map (·.place co p))) t.pins }

/-- A timing-set switch at `v` (R84). -/
def Timing.switch (t : Timing) (v : Int) : Timing :=
  let n := (t.pins.toList.map fun p => (p.cut v).2).sum
  { t with pins := t.pins.map fun p => (p.cut v).1, cutCnt := satAdd t.cutCnt n, cut := t.cut || 0 < n,
           switchCnt := satInc t.switchCnt }

/-! ## Clock pins (R88 to R90) -/

/-- The instant of half-cycle edge `h` of the ideal clock, in FU from the epoch: the nearest FU, ties to the earlier (R88). -/
def clockEdge (fw : BitVec 48) (ph : BitVec 16) (h : Int) : Int :=
  let num := 640 * (h * 2 ^ 47 - (ph.toNat : Int) * 2 ^ 32)
  let den := (fw.toNat : Int)
  0 - (den - 2 * num) / (2 * den)

/-- The first half-cycle whose edge is at or after FU instant `t`, searched from the one before the exact phase. -/
def clockHalf (fw : BitVec 48) (ph : BitVec 16) (t : Int) : Int :=
  let h := (t * fw.toNat + 640 * ph.toNat * 2 ^ 32) / (640 * 2 ^ 47)
  if t ≤ clockEdge fw ph (h - 1) then h - 1 else if t ≤ clockEdge fw ph h then h
  else if t ≤ clockEdge fw ph (h + 1) then h + 1 else h + 2

/-- The ideal output after edge `h`: high from a rising edge, whose half-cycle number is even (R88). -/
def halfHigh (h : Int) : Bool := h % 2 == 0

def fuFloor (t : Int) : Int := t / fuUnits

def fuCeil (t : Int) : Int := 0 - (0 - t) / fuUnits

/-- The level of a clock pin's DRV at instant `t` (R89). -/
def ClockGen.levelAt (c : ClockGen) (t : Int) : Bool :=
  match c.offAt with
  | some f => if f ≤ t then false else if t < c.followAt then c.level
      else halfHigh (clockHalf c.fw c.ph (fuFloor t + 1) - 1)
  | none => if t < c.followAt then c.level else halfHigh (clockHalf c.fw c.ph (fuFloor t + 1) - 1)

/-- The last transition of the output at instant `t` (R89). -/
def ClockGen.lastAt (c : ClockGen) (t : Int) : Int :=
  if t < c.followAt then c.lastEdge
  else
    let e := clockEdge c.fw c.ph (clockHalf c.fw c.ph (fuFloor t + 1) - 1) * fuUnits
    if e = c.followAt && halfHigh (clockHalf c.fw c.ph (fuFloor c.followAt + 1) - 1) = c.level then c.lastEdge else max e c.lastEdge

/-- Following a new phase from `t` (R89, R90): from the first new-phase edge at least 320 FU after the output's last transition, which is the
generator's, or, of a line that has been a pattern pin, `edge`. -/
def ClockGen.follow (c : ClockGen) (fw : BitVec 48) (ph : BitVec 16) (edge : Option Int) (t : Int) : ClockGen :=
  let running := c.on || c.offAt.any (t < ·)
  let lv := running && c.levelAt t
  let none_ := t - 320 * fuUnits
  let last := if running then c.lastAt t else max (c.offAt.getD none_) (edge.getD none_)
  let from_ := fuCeil (max t (last + 320 * fuUnits))
  { c with on := true, fw := fw, ph := ph, level := lv, lastEdge := last, offAt := none,
           followAt := clockEdge fw ph (clockHalf fw ph from_) * fuUnits }

/-- The first falling edge of the old phase after `t`, where a disabled clock stops (R89); one in HOLD has none before `followAt`. -/
def ClockGen.stopAt (c : ClockGen) (t : Int) : Int :=
  let h := clockHalf c.fw c.ph (max (fuFloor t + 1) (fuCeil c.followAt))
  clockEdge c.fw c.ph (if halfHigh h then h + 1 else h) * fuUnits

/-- What an arm point does to a clock pin (R89) whose line had its latest transition as a pattern pin at `edge`: a disabled one ends at the old
phase's first falling edge after it. -/
def ClockGen.arm (c : ClockGen) (n : ClockPin) (edge : Option Int) (t : Int) : ClockGen :=
  if n.enable then
    if c.on && c.fw = n.fw && c.ph = n.ph then c
    else { c.follow n.fw n.ph edge t with changes := satInc c.changes }
  else if c.on then
    { c with on := false, changes := satInc c.changes,
             offAt := some (c.stopAt t) }
  else c

/-- The clock at a step of network time from `old` by `d` (R90, R316): its line stands as it does, and follows the phase of the new epoch;
one that ends falls where it would have. CHG6 and CHG7 count no step: R92 counts changes applied to the clock, and whether a step is one is
left open (DESIGN CHOICE, log 25). -/
def ClockGen.jump (c : ClockGen) (old d : Int) : ClockGen :=
  if c.on then
    let last := c.lastAt old + d
    { c with level := c.levelAt old, lastEdge := last,
             followAt := clockEdge c.fw c.ph (clockHalf c.fw c.ph (fuCeil (max (old + d) (last + 320 * fuUnits)))) * fuUnits }
  else match c.offAt with
    | some f => { c with level := c.levelAt old, lastEdge := c.lastEdge + d, followAt := f + d, offAt := some (f + d) }
    | none => c

/-- Events to come stand where they are when network time steps by `d` (R316). -/
def PinOut.shift (p : PinOut) (d : Int) : PinOut := { p with events := p.events.map fun e => { e with time := e.time + d }, edge := p.edge.map (· + d) }

/-- HOLD (R89): the clock waits for the first new-phase edge it follows. -/
def ClockGen.hold (c : ClockGen) (t : Int) : Bool := c.on && t < c.followAt

/-- DEN of a clock pin: asserted while enabled, and for 320 FU after the last falling edge of a disabled one (R88, R89). -/
def ClockGen.denAt (c : ClockGen) (t : Int) : Bool :=
  c.on || match c.offAt with
    | some f => t < f + 320 * fuUnits
    | none => false

/-- The lines of a pin (R87), DRV at instant `drvAt` and DEN at `denAt`: those of its clock generator while it is a clock pin and until the clock
lets DEN go (R88, R89), else what the formatter brought. The generator's own edges take the corrections of their lines too. -/
def Timing.lines (t : Timing) (co : Coeffs) (k : Lane) (drvAt denAt : Int) : PinOut :=
  let clocked := fun (c : ClockGen) =>
    if c.denAt (denAt - corrUnits (co.den[k])) then
      some ({ drv := c.levelAt (drvAt - corrUnits (co.drv[k])), den := true } : PinOut) else none
  let clk := if k.val = 6 then clocked t.clk[0] else if k.val = 7 then clocked t.clk[1] else none
  clk.getD { t.pins[k].settle drvAt with den := (t.pins[k].settle denAt).den }

end Sys2Proof.Machine
end

