-- ==== Sys2Proof/Machine/MemState.lean ====
section
/-! DEFINITION. What the memory system holds (R159 to R186): streams, ring descriptors, counters, with their reset content. -/
namespace Sys2Proof.Machine

/-- An inbound stream (R171 to R175, R186). `descs`: descriptors posted from the head on; `gens`: the GEN of each slot's last completion (R173);
`fetched`, `good`, `bad`: blocks of the buffer in hand fetched, accepted or stale before the first rejected one, and whether one was rejected (R174);
`shut`: a function reset closes it once its site rests (R247); `cur`: the segment between its FIRST and LAST block on the stream (R40). -/
structure InStream where
  isOpen  : Bool := false
  shut    : Bool := false
  play    : Bool := false
  base    : BitVec 64 := 0
  size    : Nat := 16
  areaMib : Nat := 0
  bound   : Word := 0xFFFFFFFF
  tmoMs   : Nat := 0
  head    : Nat := 0
  tail    : Nat := 0
  descs   : List Desc := []
  gens    : List (Nat × BitVec 16) := []
  fetched : Nat := 0
  good    : Nat := 0
  bad     : Bool := false
  expect  : Word := 0
  cur     : Option Word := none
  /-- accepted blocks whose HBM is not released, and whether fetching waits for room (R162, R174) -/
  staged  : Nat := 0
  stale   : Word := 0
  dense   : Word := 0
  tmo     : Bool := false
  oversize : Bool := false
  deriving DecidableEq, Repr

/-- The host buffer an outbound stream is filling (R176, R178): the GEN it had when first fetched, the blocks written, the instant
of the first. -/
structure OutBuf where
  gen     : BitVec 16
  written : Nat
  since   : Nat
  deriving DecidableEq, Repr

/-- An outbound stream (R171, R176, R178, R186). `area`: closed blocks in its HBM area. -/
structure OutStream where
  isOpen  : Bool := false
  shut    : Bool := false
  closing : Bool := false
  base    : BitVec 64 := 0
  size    : Nat := 16
  areaMib : Nat := 0
  head    : Nat := 0
  tail    : Nat := 0
  descs   : List Desc := []
  gens    : List (Nat × BitVec 16) := []
  area    : List ClosedBlock := []
  buf     : Option OutBuf := none
  reclaim : Bool := false
  reclaimBytes : Word := 0
  deriving DecidableEq, Repr

/-- The registers a stall or a belay hold writes for its cluster (R186), with the latched half of the pair. -/
structure MemCluster where
  underrun   : Bool := false
  underVaddr : BitVec 48 := 0
  underStream : Fin 24 := 0
  belayCnt   : Word := 0
  latchHi    : Word := 0
  deriving DecidableEq, Repr

/-- A request at the host port (R22): a block of an outbound stream, a fetch of an inbound one, a rewrite of a function's mirror. -/
inductive PortReq where
  | out (i : Fin 24)
  | inb (i : Fin 24)
  | mirror (f : Func)
  deriving DecidableEq, Repr

/-- The arbiter of the host port (R20): its rotating pointer, and the requests that lost the tie it was set in. -/
structure PortArb where
  ptr  : Nat := 0
  lost : List PortReq := []
  deriving DecidableEq, Repr

/-- Placement manager and memory system (R186). Vector-store pages and free HBM are computed from the segments and areas. -/
structure Memory where
  ready    : Bool := false
  selfRef  : Bool := false
  /-- self-refresh is being left since this instant (R368) -/
  srExit   : Option Nat := none
  eccUeBit : Bool := false
  reclaim  : Bool := false
  eccCe    : Word := 0
  eccUe    : Word := 0
  eccAddr  : Word := 0
  whereValid : Bool := false
  whereVs  : Bool := false
  whereCl  : BitVec 4 := 0
  eccSeg   : Word := 0xFFFFFFFF
  admEntry : BitVec 16 := 0
  admCl    : BitVec 4 := 0
  admCause : BitVec 2 := 0
  noMask   : Word := 0
  /-- the last scrub of the HBM, and the order the next automatic piton takes (R159, R168) -/
  scrubAt  : Nat := 0
  pitons   : Nat := 0
  perCl    : Vector MemCluster 12 := Vector.replicate 12 {}
  segs     : Vector (List Seg) 12 := Vector.replicate 12 []
  ins      : Vector InStream 24 := Vector.replicate 24 {}
  outs     : Vector OutStream 24 := Vector.replicate 24 {}
  /-- the arbiter of the host port (R20, R22) -/
  port     : PortArb := {}
  deriving DecidableEq, Repr

end Sys2Proof.Machine
end

