-- ==== Sys2Proof/Machine/BlockEntry.lean ====
section
/-! DEFINITION. Segment-stream blocks (R33 to R43, R175): the header, the operations of the body, and the entry checks in their
order. -/
namespace Sys2Proof.Machine

/-- The header fields of a block (R34). -/
structure BlkHdr where
  mask    : BitVec 16
  flags   : BitVec 16
  seg     : Word
  seq     : Word
  opCount : Nat
  bodyLen : Nat
  index   : Nat
  first   : Nat
  dictCnt : Nat
  deriving DecidableEq, Repr

def BlkHdr.of (b : List Byte) : BlkHdr :=
  ⟨u16At b 4, u16At b 6, u32At b 8, u32At b 12, fieldAt b 16 2, fieldAt b 18 2, fieldAt b 20 4, fieldAt b 24 4, fieldAt b 28 2⟩

def BlkHdr.isFirst (h : BlkHdr) : Bool := h.flags.getLsbD 0
def BlkHdr.isLast (h : BlkHdr) : Bool := h.flags.getLsbD 1
def BlkHdr.hasDict (h : BlkHdr) : Bool := h.flags.getLsbD 2

/-- The clusters a mask names. -/
def maskClusters (m : BitVec 16) : List Cluster := (List.finRange 12).filter fun c => m.getLsbD c.val

/-- A compression operation (R36). -/
inductive Op where
  | lit (ws : List Word)
  | rpt (n : Nat)
  | dict (idx : List Byte) (pad : List Byte)
  | scan (n : Nat) (template : Word) (bits : List Byte)
  | end_
  deriving DecidableEq, Repr

/-- The scan pins of a template, ascending (R39). -/
def scanPins (t : Word) : List Nat := (List.range 8).filter fun k => symAt t k = .S || symAt t k = .Q

/-- What parsing a body found (R36, check 10 of R42): the operations judged, whether they pass, whether parsing stopped at a SCAN
whose template has no scan pin. -/
structure Parsed where
  ops      : List Op := []
  ok       : Bool := true
  scanStop : Bool := false
  deriving DecidableEq, Repr

def Parsed.cons (o : Op) (p : Parsed) : Parsed := { p with ops := o :: p.ops }

def Parsed.bad : Parsed := { ok := false }

def wordsOf : List Byte → List Word
  | a :: b :: c :: d :: rest => u32At [a, b, c, d] 0 :: wordsOf rest
  | _ => []

def ceil4 (n : Nat) : Nat := (n + 3) / 4 * 4

/-- The operations of a body (R36); the fuel is the body's length in words. -/
def parseOps : Nat → List Byte → Parsed
  | 0, bs => if bs.isEmpty then {} else .bad
  | fuel + 1, bs =>
    if bs.isEmpty then {}
    else
      let w := fieldAt bs 0 4
      let n := w % 2 ^ 28
      let rest := bs.drop 4
      match w / 2 ^ 28 with
      | 1 => if n = 0 || 1014 < n || rest.length < 4 * n then .bad
        else (parseOps fuel (rest.drop (4 * n))).cons (.lit (wordsOf (rest.take (4 * n))))
      | 2 => if n = 0 then .bad else (parseOps fuel rest).cons (.rpt n)
      | 3 => if n = 0 || 4056 < n || rest.length < ceil4 n then .bad
        else (parseOps fuel (rest.drop (ceil4 n))).cons (.dict (rest.take n) ((rest.take (ceil4 n)).drop n))
      | 4 =>
        let m := (scanPins (u32At rest 0)).length
        let len := 4 * ((n * m + 31) / 32)
        if rest.length < 4 then .bad
        else if m = 0 then { scanStop := true }
        else if n = 0 || 32416 < n || rest.length < 4 + len then .bad
        else (parseOps fuel (rest.drop (4 + len))).cons (.scan n (u32At rest 0) ((rest.drop 4).take len))
      | 15 => if n = 0 && rest.isEmpty then { ops := [.end_] } else .bad
      | _ => .bad

/-- Check 11 of R42 on one operation, under a dictionary of `count` words. -/
def Op.dictOk (count : Nat) : Op → Bool
  | .dict idx pad => 0 < count && idx.all (fun b => b.toNat < count) && pad.all (· == 0)
  | _ => true

/-- Check 12 of R42: no RPT before the first emitted vector. -/
def rptOk (started : Bool) (ops : List Op) : Bool :=
  started || match ops with
    | .rpt _ :: _ => false
    | _ => true

def bitOfBytes (bs : List Byte) (i : Nat) : Bool := (byteAt bs (i / 8)).getLsbD (i % 8)

/-- Check 13 of R42 on one operation: padding bits 0. -/
def Op.scanOk : Op → Bool
  | .scan n t bits => (List.range (8 * bits.length)).all fun i => i < n * (scanPins t).length || !bitOfBytes bits i
  | _ => true

def setSym (w : Word) (k code : Nat) : Word :=
  (w &&& ~~~((0xF : Word) <<< (4 * k))) ||| (BitVec.ofNat 32 code <<< (4 * k))

/-- The word of scan vector `j` (R28, R39): 'S' becomes '0' or '1', 'Q' becomes 'L' or 'H'. -/
def scanWord (t : Word) (bits : List Byte) (j : Nat) : Word :=
  let pins := scanPins t
  (pins.zipIdx).foldl (fun w (k, i) =>
    let b := bitOfBytes bits (j * pins.length + i)
    setSym w k ((if symAt t k = .S then 0 else 2) + (if b then 1 else 0))) t

/-- The vector words an operation emits, as runs, given the previous word of the segment (R36, R37). -/
def Op.runs (dict : List Word) (prev : Word) : Op → List (Nat × Word)
  | .lit ws => ws.map fun w => (1, w)
  | .rpt n => [(n, prev)]
  | .dict idx _ => idx.map fun b => (1, dict.getD b.toNat 0)
  | .scan n t bits => (List.range n).map fun j => (1, scanWord t bits j)
  | .end_ => []

/-- The runs of a body in order, and the last word emitted. -/
def bodyRuns (dict : List Word) : Option Word → List Op → List (Nat × Word) × Option Word
  | prev, [] => ([], prev)
  | prev, o :: os =>
    let rs := o.runs dict (prev.getD 0)
    let (more, last) := bodyRuns dict ((rs.getLast?.map (·.2)).or prev) os
    (rs ++ more, last)

def runLength (rs : List (Nat × Word)) : Nat := (rs.map (·.1)).sum

/-- The word of vector `j` of some runs. -/
def runWord : List (Nat × Word) → Nat → Word
  | [], _ => 0
  | (n, w) :: rest, j => if j < n then w else runWord rest (j - n)

/-- What an accepted block brings to every cluster it names (R37, R38): its operations, its dictionary if it carries one, its sizes, and whether
it ends the segment. -/
structure Body where
  ops     : List Op
  dict    : Option (List Word)
  opBytes : Nat
  bodyLen : Nat
  last    : Bool
  deriving DecidableEq, Repr

/-- The vectors some operations emit, whatever their words (R36). -/
def opsLength (ops : List Op) : Nat := runLength (bodyRuns [] none ops).1

/-- What becomes of a block at entry (R42, R43, R175). -/
inductive Verdict where
  | stale
  | reject (check : Nat)
  | accept (body : Body)
  deriving DecidableEq, Repr

/-- What the entry checks know of the segment on one named cluster: class, length, and the content accepted so far of the
segment or of its instance in hand (R41). -/
structure SegView where
  stream : Bool
  len    : Nat
  inst   : Inst
  deriving DecidableEq, Repr

/-- The content the next block of a segment joins (R41, R43): a FIRST block of a STREAM segment starts afresh. -/
def Seg.view (s : Seg) (isFirst : Bool) : SegView :=
  ⟨s.stream, s.len, if s.stream then if isFirst then {} else (s.insts.getLast?).getD {} else (s.insts.head?).getD {}⟩

/-- The dictionary of the segment on one cluster while the block's operations are judged (R38): the block's own, or the one it has. -/
def SegView.dictOf (v : SegView) (d : Option (List Word)) : List Word := d.getD v.inst.dict

/-- The first of checks 7 to 14 that fails, or what the block adds (R42). Each check is asked of every named cluster, whose segments are its
own (R32). `ahead`: STREAM_SEQ lies ahead of the expected value. -/
def checkBody (b : List Byte) (h : BlkHdr) (vs : List SegView) (cur : Option Word) (ahead : Bool) : Verdict :=
  let order := h.isFirst = (h.index == 0)
    && vs.all (fun v => v.inst.next = h.index && v.inst.vectors = h.first && !v.inst.done)
    && (if h.isFirst then cur.isNone else cur = some h.seg) && !ahead
  let p := parseOps (h.bodyLen / 4) (((b.drop 32).take h.bodyLen).drop (4 * h.dictCnt))
  let dict := if h.hasDict then some (wordsOf ((b.drop 32).take (4 * h.dictCnt))) else none
  let n := opsLength p.ops
  let ended := p.ops.contains .end_
  if !order then .reject 7
  else if (h.hasDict && !h.isFirst) || (h.hasDict && (h.dictCnt = 0 || 256 < h.dictCnt)) || (!h.hasDict && h.dictCnt ≠ 0) then .reject 8
  else if h.bodyLen % 4 ≠ 0 || 4060 < h.bodyLen || h.bodyLen < 4 * h.dictCnt + 4
      || !zeroAt b (32 + h.bodyLen) (4092 - 32 - h.bodyLen) then .reject 9
  else if !p.ok || (!p.scanStop && p.ops.length ≠ h.opCount) then .reject 10
  else if !vs.all (fun v => p.ops.all (Op.dictOk (v.dictOf dict).length)) then .reject 11
  else if !vs.all (fun v => rptOk v.inst.prev.isSome p.ops) then .reject 12
  else if p.scanStop || !p.ops.all Op.scanOk then .reject 13
  else if vs.any (fun v => v.len < v.inst.vectors + n || ended ≠ h.isLast || (ended && v.inst.vectors + n ≠ v.len)) then .reject 14
  else .accept ⟨p.ops, dict, h.bodyLen - 4 * h.dictCnt, h.bodyLen, ended⟩

/-- The entry checks of R42 with the sequence rule of R175, on stream `s` of cluster `owner` whose site has the clusters `site`. -/
def checkBlock (b : List Byte) (s : InStream) (owner : Cluster) (site : List Cluster) (segs : Cluster → Word → Option Seg) : Verdict :=
  let h := BlkHdr.of b
  let d := (h.seq - s.expect).toInt
  let named := maskClusters h.mask
  let found := named.filterMap fun c => segs c h.seg
  let lens := found.map (·.len)
  if crc32c (b.take 4092) ≠ u32At b 4092 || b.length ≠ 4096 then .reject 1
  else if d < 0 then .stale
  else if fieldAt b 0 4 ≠ 0x42534C47 then .reject 2
  else if byteAt b 0x1E ≠ 1 then .reject 3
  else if byteAt b 0x1F ≠ 0 || h.flags.toNat / 8 ≠ 0 || h.mask.toNat / 4096 ≠ 0 then .reject 4
  else if named.isEmpty || !named.contains owner || !named.all site.contains then .reject 5
  else if h.seg = 0xFFFFFFFF || found.length ≠ named.length || !lens.all (· == lens.headD 0)
      || (if s.play then h.seg ≠ s.bound || !found.all (·.stream) else found.any (·.stream)) then .reject 6
  else checkBody b h (found.map fun g => g.view h.isFirst) s.cur (0 < d)

/-- A segment's content with an accepted block added (R37, R38): the operations run under its own dictionary and previous word. -/
def Inst.accept (i : Inst) (b : Body) : Inst :=
  let dict := b.dict.getD i.dict
  let (rs, prev) := bodyRuns dict i.prev b.ops
  { i with blocks := i.blocks ++ [⟨rs, runLength rs, b.opBytes, b.bodyLen⟩], dict := dict, prev := prev, next := i.next + 1,
           vectors := i.vectors + runLength rs, done := b.last }

/-- A segment with an accepted block added (R37, R41). -/
def Seg.accept (g : Seg) (isFirst : Bool) (b : Body) : Seg :=
  if g.stream then
    if isFirst then { g with insts := g.insts ++ [({} : Inst).accept b] }
    else { g with insts := match g.insts.reverse with
      | i :: rest => (i.accept b :: rest).reverse
      | [] => [] }
  else { g with insts := [((g.insts.head?).getD {}).accept b] }

end Sys2Proof.Machine
end

