-- ==== Sys2Proof/Machine/Checks.lean ====
section
/-! DEFINITION. Checks on configuration and programs: steady and switch separation (R81 to R83), range agreement (R98),
reachability (R439), the decision lead (R53). -/
namespace Sys2Proof.Machine

/-- A used edge of a line: its time, the channel it belongs to, the vector it fires in, and for DEN whether it is E0 or E3,
which never fire in one vector (R81). -/
structure UsedEdge where
  time : Int
  chan : Nat
  vec  : Int
  den3 : Option Bool
  deriving DecidableEq, Repr

def UsedEdge.shift (e : UsedEdge) (p : Int) (v : Int) : UsedEdge := { e with time := e.time + p * v, vec := v }

/-- The DRV edges a format uses (R79, R81). -/
def PinTiming.drvEdges (pt : PinTiming) (chan : Nat) : List UsedEdge :=
  let mk := fun (e : Nat) => (⟨e, chan, 0, none⟩ : UsedEdge)
  match pt.fmt with
  | .off => []
  | .nrz => [mk pt.e1]
  | .rz | .r1 | .dnrz => [mk pt.e1, mk pt.e2]
  | .sbc => [mk pt.e0, mk pt.e1, mk pt.e2]

/-- The DEN edges a format uses (R79, R81). -/
def PinTiming.denEdges (pt : PinTiming) (chan : Nat) : List UsedEdge :=
  if pt.fmt = .off then [⟨pt.e3, chan, 0, some true⟩] else [⟨pt.e0, chan, 0, some false⟩, ⟨pt.e3, chan, 0, some true⟩]

/-- The channels on the port of pin `p` (R85); none for a clock pin, whose lines the clock generator owns (R30). -/
def ClusterConfig.channels (g : ClusterConfig) (p : Nat) : List (Fin 8) :=
  (List.finRange 8).filter fun k => g.port k.val = p && !g.isClock k.val

def ClusterConfig.drvLine (g : ClusterConfig) (t : TimingSet) (p : Nat) : List UsedEdge :=
  (g.channels p).flatMap fun k => (t.pins[k]).drvEdges k

def ClusterConfig.denLine (g : ClusterConfig) (t : TimingSet) (p : Nat) : List UsedEdge :=
  (g.channels p).flatMap fun k => (t.pins[k]).denEdges k

/-- The separation of two used edges (R81): 320 FU, unless both are one channel's E0 and E3 of one vector. -/
def UsedEdge.sepFrom (a b : UsedEdge) : Bool :=
  320 ≤ a.time - b.time || 320 ≤ b.time - a.time ||
  (a.chan = b.chan && a.vec = b.vec && a.den3.isSome && a.den3 ≠ b.den3)

/-- Every pair of a list of used edges separates. -/
def pairwiseSep : List UsedEdge → Bool
  | [] => true
  | a :: rest => rest.all a.sepFrom && pairwiseSep rest

/-- The steady separation test of a line (R81). -/
def steadyOk (p : Nat) (es : List UsedEdge) : Bool :=
  pairwiseSep es && es.all fun a => es.all fun b => a.sepFrom (b.shift p 1)

/-- The switch separation test of a line (R82), from the set with period `pa` and edges `ea` to `pb` and `eb`; V is 0. -/
def switchOk (pa : Nat) (ea : List UsedEdge) (pb : Nat) (eb : List UsedEdge) : Bool :=
  let kept := (ea.map (·.shift pa (-1)) ++ ea.map (·.shift pa (-2))).filter fun e => e.time < 0
  pairwiseSep (kept ++ eb ++ eb.map (·.shift pb 1))

/-- A failed timing check, for TIM_LAST_REFUSE (R83). -/
structure TimingFail where
  check : Nat
  tset  : Nat
  dst   : Nat
  pin   : Nat
  deriving DecidableEq, Repr

/-- Check 5 (R83): the first timing set and pin, ascending, whose DRV or DEN line fails; that order is a DESIGN CHOICE (log 19). -/
def ClusterConfig.check5 (g : ClusterConfig) : Option TimingFail :=
  (List.finRange 64).findSome? fun (t : Fin 64) => (List.range 8).findSome? fun p =>
    let s := g.timing[t]
    if steadyOk s.period (g.drvLine s p) && steadyOk s.period (g.denLine s p) then none else some ⟨5, t.val, 0, p⟩

/-- Check 6 (R83): pair 3 multiplexed while pin 6 or 7 is a clock pin. It concerns no timing set, and TSET 0 is recorded; of two clock pins, pin 6
(DESIGN CHOICE, log 19). -/
def ClusterConfig.check6 (g : ClusterConfig) : Option TimingFail :=
  if g.mux.getLsbD 3 && (g.isClock 6 || g.isClock 7) then some ⟨6, 0, 0, if g.isClock 6 then 6 else 7⟩ else none

/-- Check 8 (R83) for one switch. Of several pins that fail, the lowest is recorded (DESIGN CHOICE, log 19). -/
def ClusterConfig.check8 (g : ClusterConfig) (a b : Fin 64) : Option TimingFail :=
  (List.range 8).findSome? fun p =>
    let s := g.timing[a]
    let t := g.timing[b]
    if switchOk s.period (g.drvLine s p) t.period (g.drvLine t p) && switchOk s.period (g.denLine s p) t.period (g.denLine t p)
    then none else some ⟨8, a.val, b.val, p⟩

/-! ## Programs -/

def Program.entry (p : Program) (i : Nat) : Option Entry := (p.entries.find? fun e => e.1 = i).map (·.2)

/-- Every index below the count has an entry, and no load is open (R252). -/
def Program.complete (p : Program) : Bool :=
  !p.loadOpen && (List.range p.total).all fun i => (p.entry i).isSome

/-- The level sets the program names agree in range on every rail (R98). -/
def ClusterConfig.rangesAgree (g : ClusterConfig) : Bool :=
  match g.program.entries with
  | [] => true
  | (_, e) :: rest => rest.all fun x => (List.finRange 8).all fun r =>
      ((g.levels[x.2.lset])[r]).rangeB = ((g.levels[e.lset])[r]).rangeB

/-- The program range of a rail (R98); none without a program. -/
def ClusterConfig.range (g : ClusterConfig) (r : Lane) : Option Bool :=
  g.program.entries.head?.map fun e => ((g.levels[e.2.lset])[r]).rangeB

/-- The successors of an entry by its operation alone (R439), those of RET apart. -/
def Entry.successors (e : Entry) (i : Nat) : List Nat :=
  match e.op with
  | .next | .loopBegin | .signal => [i + 1]
  | .jump | .call => [e.target.toNat]
  | .branch | .loopEnd => [i + 1, e.target.toNat]
  | .matchLoop => [i + 1, e.target.toNat, i]
  | .wait => if e.count = 0 then [i + 1, i] else [i + 1, e.target.toNat, i]
  | .ret | .halt => []

/-- The successors of entry `i` when the entries found so far are `found` (R439). -/
def Program.succs (p : Program) (found : List Nat) (i : Nat) : List Nat :=
  match p.entry i with
  | none => []
  | some e =>
    if e.op = .ret then (found.filter fun j => (p.entry j).any fun x => x.op = .call).map (· + 1) else e.successors i

/-- One round of R439. -/
def Program.grow (p : Program) (found : List Nat) : List Nat :=
  (found.flatMap (p.succs found)).foldl (fun acc i => if acc.contains i || (p.entry i).isNone then acc else acc ++ [i]) found

def Program.reachFuel (p : Program) : Nat → List Nat → List Nat
  | 0, found => found
  | n + 1, found =>
    let next := p.grow found
    if next.length = found.length then found else p.reachFuel n next

/-- The entries reachable from the start entries (R439). -/
def Program.reachable (p : Program) (starts : List Nat) : List Nat :=
  p.reachFuel p.total (starts.foldl (fun acc i => if acc.contains i || (p.entry i).isNone then acc else acc ++ [i]) [])

/-- The decision lead of R53 for a period in FU and a hop diameter. -/
def leadOf (period hops : Nat) : Nat :=
  64 * max 1 (((120 + 40 * hops) * 2048 + 64 * period - 1) / (64 * period))

/-- Operations with a condition (R51). -/
def SeqOp.conditional : SeqOp → Bool
  | .branch | .matchLoop | .wait => true
  | _ => false

end Sys2Proof.Machine
end

