-- ==== Sys2Proof/Machine/Placement.lean ====
section
/-! DEFINITION. The placement manager (R161 to R169): sizes, density, admission and the vector-store allocation. -/
namespace Sys2Proof.Machine

/-- Pages of a vector store (R161). -/
def storePages : Nat := 4096

/-- HBM in bytes (R159). -/
def hbmBytes : Nat := 24 * 2 ^ 30

/-- Stored size of an instance or segment content (R161). -/
def Inst.storedSize (i : Inst) : Nat := (i.blocks.map (·.bodyLen)).sum

def Seg.storedSize (s : Seg) : Nat := ((s.insts.head?).map Inst.storedSize).getD 0

/-- Pages of the whole stored form, and of its head of 8 KiB (R165). -/
def Seg.wholePages (s : Seg) : Nat := (s.storedSize + 1023) / 1024

def Seg.headPages (s : Seg) : Nat := min 8 s.wholePages

/-- A STORED segment is complete once its LAST block is accepted, and not damaged (R160, R162). -/
def Seg.complete (s : Seg) : Bool := !s.stream && !s.damaged && (s.insts.head?).any (·.done)

/-- Vector-store pages a segment holds (R165). -/
def Seg.pages (s : Seg) : Nat :=
  match s.res with
  | .hbm => 0
  | .staged => s.headPages
  | .autoPiton | .pinned => s.wholePages

/-- Density of a block (R166): operation bytes above (8 × P_min / 640) per vector. -/
def Blk.dense (b : Blk) (pmin : Nat) : Bool := 8 * pmin * b.vectors < 640 * b.opBytes

def Seg.dense (s : Seg) (pmin : Nat) : Bool := s.insts.any fun i => i.blocks.any (·.dense pmin)

/-- The segment of an ID on a cluster. -/
def findSeg (segs : List Seg) (id : Word) : Option Seg := segs.find? fun s => s.id = id

def updSeg (segs : List Seg) (id : Word) (f : Seg → Seg) : List Seg := segs.map fun s => if s.id = id then f s else s

/-- HBM in use (R159, R162, R171): the stored form of STORED segments and the areas of open streams (log 15). -/
def Memory.usedBytes (m : Memory) : Nat :=
  ((m.segs.toList.map fun l => (l.map fun s => if s.stream then 0 else s.storedSize).sum).sum)
  + (m.ins.toList.map fun s => if s.isOpen then s.areaMib * 2 ^ 20 else 0).sum
  + (m.outs.toList.map fun s => if s.isOpen then s.areaMib * 2 ^ 20 else 0).sum

def Memory.freeBytes (m : Memory) : Nat := hbmBytes - m.usedBytes

/-- The segments a set of entries plays, each with the lowest entry index that plays it and its smallest period (R166 to R168),
in ascending order of that index. -/
structure Horizon where
  seg   : Word
  entry : Nat
  pmin  : Nat
  deriving DecidableEq, Repr

def insertNat (n : Nat) : List Nat → List Nat
  | [] => [n]
  | m :: ms => if n ≤ m then n :: m :: ms else m :: insertNat n ms

def sortNat (l : List Nat) : List Nat := l.foldl (fun acc n => insertNat n acc) []

/-- The prefetch horizon of some reachable entries on one cluster (R167). -/
def ClusterConfig.horizon (g : ClusterConfig) (reach : List Nat) : List Horizon :=
  (sortNat reach).foldl (fun acc i => match g.program.entry i with
    | none => acc
    | some e =>
      let p := (g.timing[e.tset]).period
      if acc.any (·.seg = e.segment) then
        acc.map fun h => if h.seg = e.segment then { h with pmin := min h.pmin p } else h
      else acc ++ [⟨e.segment, i, p⟩]) []

/-- Loop bodies (R168 step 4): from a LOOP_BEGIN's successor through its LOOP_END, and every MATCH_LOOP or WAIT entry. -/
def Program.loopBody (p : Program) (reach : List Nat) (i : Nat) : Bool :=
  (match p.entry i with
    | some e => e.op = .matchLoop || e.op = .wait
    | none => false) ||
  reach.any fun b => b < i && (p.entry b).any fun e => e.op = .loopBegin &&
    (match (sortNat reach).find? fun j => b < j && (p.entry j).any fun x => x.op = .loopEnd &&
        x.cparam.toNat % 4 = e.cparam.toNat % 4 with
      | some j => i ≤ j
      | none => false)

/-- Subroutines (R168 step 4): entries reachable from a CALL target before its RET, which returns to no entry outside them. -/
def Program.subroutines (p : Program) (reach : List Nat) : List Nat :=
  p.reachFuel p.total (reach.filterMap fun i => (p.entry i).bind fun e => if e.op = .call then some e.target.toNat else none)

/-- Branch targets (R168 step 5). -/
def Program.targets (p : Program) (reach : List Nat) : List Nat :=
  reach.filterMap fun i => (p.entry i).bind fun e => match e.op with
    | .jump | .branch | .loopEnd | .call | .matchLoop | .wait => some e.target.toNat
    | _ => none

/-- The state of an allocation on one cluster: free pages and the segments as placed so far. -/
structure Alloc where
  free : Nat
  segs : List Seg
  next : Nat
  deriving DecidableEq, Repr

/-- The newest automatic piton that may be evicted (R168). -/
def Alloc.victim (a : Alloc) (kept : List Word) : Option Seg :=
  (a.segs.filter fun s => s.res = .autoPiton && !kept.contains s.id).foldl (fun m s => match m with
    | none => some s
    | some x => if x.order ≤ s.order then some s else some x) none

/-- Room for `n` pages, evicting as far as needed (R168). -/
def Alloc.makeRoom (n : Nat) (kept : List Word) : Nat → Alloc → Option Alloc
  | 0, a => if n ≤ a.free then some a else none
  | k + 1, a =>
    if n ≤ a.free then some a
    else match a.victim kept with
      | none => none
      | some v => { a with free := a.free + v.wholePages, segs := updSeg a.segs v.id fun s => { s with res := .hbm } }.makeRoom n kept k

/-- A mandatory placement (R168 steps 2 and 3). -/
def Alloc.place (a : Alloc) (id : Word) (res : Residence) (kept : List Word) : Option Alloc :=
  match findSeg a.segs id with
  | none => some a
  | some s =>
    let n := { s with res := res }.pages - s.pages
    (a.makeRoom n kept a.segs.length).map fun a =>
      { a with free := a.free - n, segs := updSeg a.segs id fun s => { s with res := res, order := a.next }, next := a.next + 1 }

/-- A placement of steps 4 and 5, only in pages free without eviction (R168). -/
def Alloc.upgrade (a : Alloc) (id : Word) : Alloc :=
  match findSeg a.segs id with
  | none => a
  | some s =>
    let n := s.wholePages - s.pages
    if s.res = .staged && n ≤ a.free then
      { a with free := a.free - n, segs := updSeg a.segs id fun s => { s with res := .autoPiton, order := a.next }, next := a.next + 1 }
    else a

/-- The allocation of R168 on one cluster, or the lowest entry of the segment concerned when a mandatory item finds no room: the first item that finds
none in the order of R168's steps. R167 orders failures by entry and does not say which of several segments that together lack room it is (DESIGN
CHOICE, log 18). -/
def allocate (segs : List Seg) (next : Nat) (p : Program) (reach : List Nat) (hz : List Horizon) (kept : List Word) :
    Except Nat (List Seg × Nat) :=
  let stored := hz.filter fun h => (findSeg segs h.seg).any fun s => !s.stream
  let kept := kept ++ stored.map (·.seg)
  let a : Alloc := ⟨storePages - (segs.map Seg.pages).sum, segs, next⟩
  let isDense := fun (h : Horizon) => (findSeg segs h.seg).any fun s => s.dense h.pmin
  let whole := fun (s : Seg) => s.res = .pinned || s.res = .autoPiton
  let put := fun (r : Except Nat Alloc) (h : Horizon) (res : Residence) => r.bind fun a =>
    if (findSeg a.segs h.seg).any whole then .ok a
    else match a.place h.seg res kept with
      | some a => .ok a
      | none => .error h.entry
  let r := (stored.filter isDense).foldl (fun r h => put r h .autoPiton) (.ok a)
  let r := (stored.filter fun h => !isDense h).foldl (fun r h => put r h .staged) r
  r.map fun a =>
    let plays := fun (es : List Nat) => es.filterMap fun i => (p.entry i).map (·.segment)
    let loops := plays ((sortNat reach).filter fun i => p.loopBody reach i || (p.subroutines reach).contains i)
    let a := (stored.filter fun h => loops.contains h.seg).foldl (fun a h => a.upgrade h.seg) a
    let a := (stored.filter fun h => (plays (p.targets reach)).contains h.seg).foldl (fun a h => a.upgrade h.seg) a
    (a.segs, a.next)

/-- A refusal at admission (R167): the cause 1 COMPLETE, 2 BOUND, 3 PAGES, the cluster and the entry. -/
structure AdmitFail where
  cause   : Nat
  cluster : Cluster
  entry   : Nat
  deriving DecidableEq, Repr

/-- Admission (R167): the first failure by condition, then cluster, then lowest entry; or the segments as placed. `config`:
the configuration each cluster will arm with; `bind`: the descriptor's streams (R255); `kept`: segments of other bursts' horizons. -/
def Memory.tryAdmit (m : Memory) (site : List Cluster) (config : Cluster → ClusterConfig) (reach : List Nat)
    (bind : BitVec 24) (kept : Cluster → List Word) : Except AdmitFail Memory :=
  let hz := fun (c : Cluster) => (config c).horizon reach
  let complete := site.findSome? fun c => (hz c).findSome? fun h =>
    match findSeg m.segs[c] h.seg with
    | some s => if (s.stream && !s.damaged) || s.complete then none else some ⟨1, c, h.entry⟩
    | none => some ⟨1, c, h.entry⟩
  let bound := site.findSome? fun c => (hz c).findSome? fun h =>
    match findSeg m.segs[c] h.seg with
    | some s => if s.stream && !(m.ins.toList.zipIdx.any fun (t, i) => t.isOpen && t.play && t.bound = h.seg && bind.getLsbD i && site.any fun d => d.val = i / 2)
        then some ⟨2, c, h.entry⟩ else none
    | none => none
  match (complete.or bound : Option AdmitFail) with
  | some f => .error f
  | none => site.foldl (fun r c => r.bind fun m =>
      match allocate m.segs[c] m.pitons (config c).program reach (hz c) (kept c) with
      | .ok (segs, next) => .ok { m with segs := m.segs.set c.val segs c.isLt, pitons := next }
      | .error e => .error ⟨3, c, e⟩) (.ok m)

/-- Heads whose horizon no burst holds any longer are released (R168). -/
def releaseHeads (segs : List Seg) (kept : List Word) : List Seg :=
  segs.map fun s => if s.res = .staged && !kept.contains s.id then { s with res := .hbm } else s

end Sys2Proof.Machine
end

