-- ==== Sys2Proof/Machine/Rails.lean ====
section
/-! DEFINITION. The level rails of a cluster (R93 to R112): corrected codes, the load strobe, the slew limiter, enabling, disabling,
range changes and parking. Instants are network time; the DAC clock edges are its whole multiples of 2 ns (log 2). -/
namespace Sys2Proof.Machine

/-- One 2 ns DAC clock in SUBNS units (R17). -/
def dacUnits : Nat := 2 * nsUnits

/-- The LSB of a range in uV (R94). -/
def lsbOf (rangeB : Bool) : Rat := if rangeB then 3125 / 128 else 3125 / 256

/-- The corrected code before the clamp: code × gain + offset / LSB (R95, R326). -/
def Coeffs.corrected (c : Coeffs) (r : Lane) (rangeB : Bool) (code : BitVec 16) : Int :=
  let i := 2 * r.val + (if rangeB then 1 else 0)
  roundRat (code.toNat * getN c.gain i 1 + getN c.offset i 0 / lsbOf rangeB)

/-- The clamp of R95, and whether it acted. -/
def clampCode (x : Int) : Nat × Bool :=
  if x < 0 then (0, true) else if 0xFFFF < x then (0xFFFF, true) else (x.toNat, false)

def Coeffs.code (c : Coeffs) (r : Lane) (s : RailSet) : Nat × Bool := clampCode (c.corrected r s.rangeB s.code)

/-- A parked rail (R104): buffer off, no range in force, no sequence running. -/
def Rail.park (r : Rail) : Rail :=
  { r with live := false, rangeB := false, out := 0, target := 0, nextMove := none, phase := .none, disabling := false,
           deferred := none, limiting := false, tied := false, zeroed := false }

/-- One full update interval (R102). -/
def Rail.period (r : Rail) : Nat := (r.interval + 1) * dacUnits

/-- `k` moves of at most STEP codes each towards the target (R102). -/
def Rail.moved (r : Rail) (k : Nat) : Nat :=
  if r.out ≤ r.target then min (r.out + k * r.step) r.target else max (r.out - k * r.step) r.target

/-- A new target at the DAC clock edge `t` (R100, R102). -/
def Rail.retarget (r : Rail) (code step interval : Nat) (t : Int) : Rail :=
  { r with target := code, step := step, interval := interval,
           nextMove := if r.out = code then none else some t }

/-- The end of a slew: what follows the final move, at DAC clock edge `t` (R106, R108). -/
def Rail.arrive (r : Rail) (t : Int) : Rail :=
  match r.phase with
  | .down => { r with phase := .switching (t + 40 * nsUnits), nextMove := none }
  | .up => { r with phase := .none, nextMove := none }
  | _ => if r.disabling then { r.park with step := r.step } else { r with nextMove := none }

/-- The moves a rail's ball may still have to show (R103), once `n` moves from the edge `m` on are made: six cover 10 ns. -/
def Rail.trail (r : Rail) (m : Int) (n : Nat) : List (Int × Nat) :=
  (((List.range (min n 6)).map fun i => (m + ((n - 1 - i) * r.period : Nat), r.moved (n - 1 - i))) ++ r.moves).take 6

/-- The code at a rail's ball at `t` (R103): that of 10 ns before. -/
def Rail.ballCode (r : Rail) (t : Int) : Nat := ((r.moves.filter (t - 10 * nsUnits < ·.1)).getLast?.map (·.2)).getD r.out

/-- Every move due at or before `t`, in one slew (R102). -/
def Rail.slew (r : Rail) (t : Int) : Rail :=
  match r.nextMove with
  | none => r
  | some m =>
    if t < m then r
    else
      let due := ((t - m) / r.period).toNat + 1
      let need := ((max r.out r.target - min r.out r.target) + r.step - 1) / max r.step 1
      if need ≤ due then { r with out := r.target, moves := r.trail m need }.arrive (m + ((need - 1) * r.period : Nat))
      else { r with out := r.moved due, moves := r.trail m due, nextMove := some (m + (due * r.period : Nat)) }

/-- The end of the 40 ns range switch (R108): the new range, and the upward ramp from 0. A rail whose code there is 0 makes no final move; its
RANGE_BUSY clears here (DESIGN CHOICE, log 25). -/
def Rail.switched (r : Rail) (t : Int) : Rail :=
  let r := { r with rangeB := !r.rangeB, target := r.upCode, phase := .up }
  if r.upCode = 0 then r.arrive t else { r with nextMove := some t }

/-- The start of a range-change sequence at DAC clock edge `t` (R108): the rail ends at the code of the start entry's level set. -/
def Rail.startChange (r : Rail) (a : RailArm) (t : Int) : Rail :=
  let r := { r with step := a.set.step.toNat, interval := a.set.interval.toNat, target := 0, upCode := a.code, disabling := false,
                    prog := a.set.code, zeroed := false }
  if r.out = 0 then { r with phase := .switching (t + 40 * nsUnits), nextMove := none }
  else { r with phase := .down, nextMove := some t }

/-- What an arm point brings to a rail that runs no range change (R101, R105, R106, R108). Disabling and a new correction slew by the STEP and
INTERVAL of the last strobe. Three points the spec leaves open (DESIGN CHOICE, log 25): a rail disabled at code 0 has no final move and parks at the
arm point itself; one enabled again while its ramp to 0 still runs drops the disabling, slews on to 0 and stays there, live, until the next strobe; a
new correction of a rail that still slews takes the moves in hand to the new code, on their cadence. -/
def Rail.armNow (r : Rail) (a : RailArm) (t : Int) : Rail :=
  let r := { r with faultPark := false, deferred := none }
  if !r.live then r
  else if !a.en then
    if r.disabling then r else if r.out = 0 then r.park else { r.retarget 0 r.setStep r.setInterval t with disabling := true, zeroed := true }
  else if a.range = some (!r.rangeB) then r.startChange a t
  else if a.recode ≠ r.target && !r.zeroed then
    { r with target := a.recode, step := r.setStep, interval := r.setInterval,
             nextMove := if r.out = a.recode then none else some (r.nextMove.getD t) }
  else { r with disabling := false }

/-- What an arm point brings to a rail: at once, or after the final move of a sequence still running (R110). -/
def Rail.arm (r : Rail) (a : RailArm) (t : Int) : Rail :=
  if r.phase = .none then r.armNow a t else { r with deferred := some a, faultPark := false }

/-- The deferred actions begin on the DAC clock after the final move (R110), and the slew of a commanded DAC run after them (R328). -/
def Rail.resumeArm (r : Rail) (t : Int) : Rail :=
  let r := match r.phase, r.deferred with
    | .none, some a => r.armNow a (t + dacUnits)
    | _, _ => r
  if r.tied && r.phase = .none && !r.disabling then r.retarget 0 r.setStep r.setInterval (t + dacUnits) else r

/-- The instant of the rail's next step: a move, or the end of a range switch. -/
def Rail.due (r : Rail) : Option Int :=
  match r.phase with
  | .switching u => some u
  | _ => r.nextMove

/-- The final move of the slew in hand. -/
def Rail.lastMove (r : Rail) : Option Int :=
  r.nextMove.map fun m =>
    let need := ((max r.out r.target - min r.out r.target) + r.step - 1) / max r.step 1
    m + ((need - 1) * r.period : Nat)

/-- One stage of a rail's movement up to `t`: the slew in hand, or the range switch; and the range changes it completes. -/
def Rail.stage (r : Rail) (t : Int) : Rail × Nat :=
  match r.phase with
  | .switching u => if u ≤ t then
      let q := r.switched u
      if q.phase = .none then (q.resumeArm u, 1) else (q, 0)
    else (r, 0)
  | .up =>
    let q := r.slew t
    if q.phase = .none then (q.resumeArm ((r.lastMove).getD t), 1) else (q, 0)
  | _ => (r.slew t, 0)

/-- A rail at instant `t`: every move and switch due by then (R102, R108). Six stages cover a sequence, and one deferred after it. -/
def Rail.upTo (r : Rail) (t : Int) : Rail × Nat :=
  let go := fun (p : Rail × Nat) => let (q, n) := p.1.stage t; (q, p.2 + n)
  go (go (go (go (go (go (r, 0))))))

/-- The range in force once the sequence in hand has ended (R108). -/
def Rail.rangeAfter (r : Rail) : Bool :=
  match r.phase with
  | .down | .switching _ => !r.rangeB
  | .none | .up => r.rangeB

/-- The target once the sequence in hand has ended (R108). -/
def Rail.targetAfter (r : Rail) : Nat :=
  match r.phase with
  | .down | .switching _ => r.upCode
  | .none | .up => r.target

/-- The final move of the range-change sequence in hand (R108). -/
def Rail.sequenceEnd (r : Rail) : Option Int :=
  let up := fun (u : Int) (r : Rail) =>
    u + ((((r.upCode + r.step - 1) / max r.step 1) - 1) * r.period : Nat)
  match r.phase with
  | .none => none
  | .switching u => some (up u r)
  | .up => r.lastMove
  | .down => r.lastMove.map fun m => up (m + 40 * nsUnits) r

/-- The instant by which RANGE_BUSY is clear, if no later arm point comes (R109): the end of the sequence in hand, or of the one that
follows it (R110). -/
def Rail.busyUntil (r : Rail) : Option Int :=
  match r.sequenceEnd with
  | none => none
  | some u => match (r.upTo u).1.sequenceEnd with
    | some v => some (max u v)
    | none => some u

/-- The moves to come stand where they are when network time steps by `d` (R316). -/
def Rail.shift (r : Rail) (d : Int) : Rail :=
  { r with nextMove := r.nextMove.map (· + d), moves := r.moves.map fun m => (m.1 + d, m.2),
           phase := match r.phase with
             | .switching u => .switching (u + d)
             | x => x }

/-- A range-change sequence whose final move falls on the strobe's own edge `t` (R100, R108): that move gives way to the strobe's first one, and
the sequence is over. The second answer: whether one ended so. -/
def Rail.yield (r : Rail) (t : Int) : Rail × Bool :=
  if r.sequenceEnd = some t then ({ r with rangeB := r.rangeAfter, phase := .none, nextMove := none, deferred := none }, true) else (r, false)

/-- What a load strobe did to one rail: its new content, whether its code was clamped (R95), whether a range change ended (R113). -/
structure Strobed where
  rail  : Rail
  clip  : Bool := false
  ended : Bool := false
  deriving DecidableEq, Repr

/-- The load strobe on one rail at DAC clock edge `t` (R99, R100, R105). -/
def Rail.strobe (r : Rail) (en : Bool) (s : RailSet) (code : Nat × Bool) (t : Int) : Strobed :=
  if !en || r.faultPark || (r.live && r.disabling) then ⟨r, false, false⟩
  else
    let (q, ended) := r.yield t
    if q.phase ≠ .none then ⟨r, false, false⟩
    else
      let q := { q with prog := s.code, setStep := s.step.toNat, setInterval := s.interval.toNat, zeroed := false }
      let q := if q.live then q else { q with live := true, rangeB := s.rangeB, out := 0 }
      ⟨q.retarget code.1 s.step.toNat s.interval.toNat t, code.2, ended⟩

/-- All rails at instant `t` (R102), with the completed range changes counted (R113). -/
def Levels.upTo (l : Levels) (t : Int) : Levels :=
  let rs := l.rails.map fun r => r.upTo t
  { l with rails := rs.map (·.1), rangeCnt := satAdd l.rangeCnt (rs.toList.map (·.2)).sum }

/-- The load strobe of a cluster at DAC clock edge `t` (R99). Moves of the old slew on that edge do not happen (R100). -/
def Levels.strobe (l : Levels) (c : Coeffs) (railEn : Byte) (idx : BitVec 4) (set : LevelSet) (t : Int) : Levels :=
  let l := l.upTo (t - 1)
  let rs := Vector.ofFn fun (i : Fin 8) =>
    (l.rails[i]).strobe (railEn.getLsbD i) set[i] (c.code i set[i]) t
  let clips := (rs.toList.filter (·.clip)).length
  { l with rails := rs.map (·.rail), strobeCnt := satInc l.strobeCnt, curLset := idx,
           rangeCnt := satAdd l.rangeCnt (rs.toList.filter (·.ended)).length,
           clipCnt := satAdd l.clipCnt clips, clip := l.clip || 0 < clips }

/-- The arm point of a cluster's rails at `t` (R101). `range`: the program range of each rail; `set`: the level set of the start
entry; the coefficients are those it brings. A rail whose range change still runs is judged by the range and code that sequence leaves it
(R110). A code that becomes a target here, of a range change or of a new correction, counts in LVL_CLIP_CNT when it is clamped (R95). -/
def Levels.arm (l : Levels) (c : Coeffs) (railEn : Byte) (range : Lane → Option Bool) (set : LevelSet) (t : Int) : Levels :=
  let l := l.upTo (t - 1)
  let edge := ceilTo t dacUnits
  let recode := fun (i : Lane) (r : Rail) => c.code i ⟨r.prog, 0, 0, r.rangeAfter⟩
  let clips := ((List.finRange 8).filter fun (i : Lane) =>
    let r := l.rails[i]
    r.live && railEn.getLsbD i && (if range i = some (!r.rangeAfter) then (c.code i set[i]).2
      else (recode i r).1 ≠ r.targetAfter && !r.zeroed && (recode i r).2)).length
  { l with strobeCnt := 0, clipCnt := satAdd l.clipCnt clips, clip := l.clip || 0 < clips, rails := Vector.ofFn fun (i : Fin 8) =>
      let r := l.rails[i]
      r.arm ⟨railEn.getLsbD i, range i, set[i], (c.code i set[i]).1, (recode i r).1⟩ edge }

/-- Parking every rail at `t` (R104, R107, R112): moves and range changes already past are past. -/
def Levels.park (l : Levels) (fault : Bool) (t : Int) : Levels :=
  let l := l.upTo t
  { l with rails := l.rails.map fun r => { r.park with faultPark := fault || r.faultPark } }

/-- A commanded DAC run begins at `t` (R328): every enabled rail slews to code 0, one in a range change after its final move. -/
def Levels.tie (l : Levels) (t : Int) : Levels :=
  let l := l.upTo (t - 1)
  { l with rails := l.rails.map fun r =>
      if !r.live || r.disabling then r
      else if r.phase ≠ .none then { r with tied := true }
      else { r.retarget 0 r.setStep r.setInterval (ceilTo t dacUnits) with tied := true } }

/-- The DAC run has ended (R328): the rails are reconnected and slew back to their codes. -/
def Levels.untie (l : Levels) (c : Coeffs) (t : Int) : Levels :=
  let l := l.upTo (t - 1)
  { l with rails := Vector.ofFn fun (i : Fin 8) =>
      let r := l.rails[i]
      if r.tied && r.phase ≠ .none then { r with tied := false }
      else if r.tied then
        { r.retarget (if r.zeroed then 0 else (c.code i ⟨r.prog, 0, 0, r.rangeB⟩).1) r.setStep r.setInterval (ceilTo t dacUnits) with tied := false }
      else r }

/-- LIVE (R113, R328): the buffer drives the ball. -/
def Rail.shown (r : Rail) : Bool := r.live && !(r.tied && r.phase = .none && r.out = 0 && r.target = 0)

def Levels.mask (l : Levels) (p : Rail → Bool) : Byte :=
  BitVec.ofNat 8 ((List.finRange 8).map fun (i : Fin 8) => bitAt (p l.rails[i]) i).sum

def Levels.busy (l : Levels) : Bool := l.rails.toList.any fun r => r.phase ≠ .none

/-- The last instant at which a rail's RANGE_BUSY clears (R109). -/
def Levels.busyUntil (l : Levels) : Option Int :=
  l.rails.toList.foldl (fun m r => match m, r.busyUntil with
    | none, x => x
    | x, none => x
    | some a, some b => some (max a b)) none

end Sys2Proof.Machine
end

