-- ==== Sys2Proof/Machine/SchedState.lean ====
section
/-! DEFINITION. What the site controller and its scheduler hold (R187 to R212), with the reset content. -/
namespace Sys2Proof.Machine

/-- An item a core runs (R199, R202): its first instruction, the table it named when it started and keeps to its end (R198), the shadow
generation numbers when it started (R200), the bound of R201 on its execution time in ns for every rule of its table, and the stored flags and
variables its working copy starts from (R199). -/
structure Running where
  item    : Item
  started : Nat
  num     : Option Nat
  table   : Option (List Rule)
  gens    : Vector (BitVec 16) 12
  bound   : Nat
  sc      : BitVec 32 := 0
  vars    : Vector Int 8 := Vector.replicate 8 0
  deriving DecidableEq, Repr

/-- A core (R203, R211): the item it runs, its prefetch slots, and its busy time in the window in hand and the last one. -/
structure SchedCore where
  run    : Option Running := none
  slots  : List Item := []
  busy   : Nat := 0
  ratio  : BitVec 16 := 0
  deriving DecidableEq, Repr

/-- A loaded rule table (R198): its owner and number. -/
structure RuleTable where
  owner : Func
  num   : Nat
  rules : List Rule
  deriving DecidableEq, Repr

/-- A procedure installed on a flow (R207 to R209): a flow holds at most one search or trim, and beside it at most one reduction. -/
inductive Proc where
  | search (p : Search)
  | trim (p : Trim)
  | reduce (p : Reduce)
  deriving DecidableEq, Repr

/-- Site controller and scheduler (R187 to R212). `due`: the posts of the sequencers and of the calibration unit whose instant or whose cycle has not
passed (R188, R191); `queue`: items waiting, in SEQNO order; `ptr`: the dequeue pointer as the cycle `cycleAt`, the last one run, left it (R203); `flows`:
the flows whose record or run-time state differs from reset. -/
structure Sched where
  /-- the bundle whose core firmware runs, in place since the firmware step of boot (R373, R384) -/
  code     : FwSlot := .erased
  due      : List Item := []
  queue    : List Item := []
  cores    : Vector SchedCore 16 := Vector.replicate 16 {}
  ptr      : Fin 16 := 0
  cycleAt  : Option Nat := none
  flows    : List (Nat × Flow) := []
  reserve  : BitVec 16 := 0x0003
  seqno    : Word := 0
  tables   : List RuleTable := []
  procs    : List (Nat × Proc) := []
  internal : List InternalCommand := []
  /-- sites whose chained start has begun and whose RECHAIN submission is due (R195) -/
  rechain  : BitVec 12 := 0
  /-- flows whose rechaining a refusal has stopped (R195) -/
  rechainOff : BitVec 12 := 0
  /-- the latest BURST_DONE snapshot of each site (R198) -/
  snaps    : Vector (List Nat) 12 := Vector.replicate 12 []
  overflow : Bool := false
  watchdog : Bool := false
  refused  : Bool := false
  noTable  : Bool := false
  badOpnd  : Bool := false
  lastFlow : BitVec 12 := 0
  doneCnt  : Vector Word 4 := Vector.replicate 4 0
  lost     : Word := 0
  hist     : Vector Word 64 := Vector.replicate 64 0
  flowSel  : BitVec 12 := 0
  varHi    : Vector Word 8 := Vector.replicate 8 0
  /-- the start of the 1 ms window of R211 -/
  window   : Nat := 0
  /-- the mirror's counts of waits, which run from reset and wrap (R230) -/
  runHist  : Vector Word 64 := Vector.replicate 64 0
  deriving DecidableEq, Repr

end Sys2Proof.Machine
end

