-- ==== Sys2Proof/Machine/SchedUnit.lean ====
section
/-! DEFINITION. The site controller's procedures as functions of their inputs: flow records (R193), rule evaluation (R198, R199),
dispatch (R203), search (R207), trim (R208) and fail reduction (R209, R210). -/
namespace Sys2Proof.Machine

/-- The reset content of a flow record (R193): priority 0 for decision flows, 2 otherwise. -/
def flowReset (n : Nat) : Flow := { prio := if n < 12 then 0 else 2 }

def Sched.flow (s : Sched) (n : Nat) : Flow := ((s.flows.find? fun p => p.1 = n).map (·.2)).getD (flowReset n)

def Sched.setFlow (s : Sched) (n : Nat) (f : Flow) : Sched :=
  { s with flows := (n, f) :: s.flows.filter fun p => p.1 ≠ n }

def Sched.updFlow (s : Sched) (n : Nat) (f : Flow → Flow) : Sched := s.setFlow n (f (s.flow n))

def Proc.reduces : Proc → Bool
  | .reduce _ => true
  | _ => false

/-- The search or trim installed on a flow, whose steps take the place of BURST_DONE (R207, R208). -/
def Sched.proc (s : Sched) (n : Nat) : Option Proc := (s.procs.find? fun p => p.1 = n && !p.2.reduces).map (·.2)

/-- The reduction installed on a flow (R209). -/
def Sched.reduction (s : Sched) (n : Nat) : Option Reduce :=
  s.procs.findSome? fun p => match p with
    | (m, .reduce r) => if m = n then some r else none
    | _ => none

/-- A search or trim of a flow is installed, or removed. -/
def Sched.setProc (s : Sched) (n : Nat) (p : Option Proc) : Sched :=
  { s with procs := (p.map fun p => (n, p)).toList ++ s.procs.filter fun q => q.1 ≠ n || q.2.reduces }

def Sched.setReduction (s : Sched) (n : Nat) (p : Reduce) : Sched :=
  { s with procs := (n, .reduce p) :: s.procs.filter fun q => q.1 ≠ n || !q.2.reduces }

def SchedCore.items (c : SchedCore) : List Item := (c.run.map (·.item)).toList ++ c.slots

/-- Items of a flow, queued and in service together (R193). -/
def Sched.pendingOf (s : Sched) (n : Nat) : Nat :=
  (s.queue.filter fun i => i.flow = n).length + (s.cores.toList.map fun c => (c.items.filter fun i => i.flow = n).length).sum

/-- Descriptors in use, and free (R187, R212). -/
def Sched.used (s : Sched) : Nat := s.queue.length + (s.cores.toList.map fun c => c.items.length).sum

def Sched.free (s : Sched) : Nat := 65536 - s.used

/-- A post (R188, R191): the scheduler assigns SEQNO and copies the flow's priority. -/
def Sched.post (s : Sched) (i : Item) : Sched :=
  { s with queue := s.queue ++ [{ i with prio := (s.flow i.flow).prio, seqno := s.seqno }], seqno := s.seqno + 1 }

/-- The class of a post (R191): PATTERN a sequencer's, REALTIME one to a priority-0 flow, then HOST and MANAGEMENT. -/
def Sched.postClass (s : Sched) (i : Item) : Nat :=
  if i.source = 0 then 0 else if (s.flow i.flow).prio = 0 then 1 else if i.source = 1 then 2 else 3

/-- A post in its place among those still to come (R191): an earlier cycle first, and in one cycle by `rank`. -/
def insertDue (rank : Item → Nat) (i : Item) : List Item → List Item
  | [] => [i]
  | x :: xs =>
    let a := x.queuedAt / nsUnits
    let b := i.queuedAt / nsUnits
    if a < b || (a = b && rank x ≤ rank i) then x :: insertDue rank i xs else i :: x :: xs

def Sched.tableOf (s : Sched) (f : Func) (n : Nat) : Option (List Rule) :=
  (s.tables.find? fun t => t.owner = f && t.num = n).map (·.rules)

/-- Rule-store slots in use: one for a table's header and one for each rule (R187). -/
def Sched.ruleSlots (s : Sched) : Nat := (s.tables.map fun t => 1 + t.rules.length).sum

/-! ## Rules -/

/-- What an item's rules read beside the working copy (R198). -/
structure RuleEnv where
  result  : BitVec 64
  pinFail : List Nat
  opnds   : List Int
  iflags  : Nat
  entry   : Nat
  pairs   : List Int
  chans   : List Int
  bursts  : Nat
  deriving DecidableEq, Repr

/-- The working copy of an item (R199), and the actions that wait for its end (R200). -/
structure Work where
  sc      : BitVec 32
  sel     : Option (Fin 4) := none
  vars    : Vector Int 8
  levels  : List (BitVec 16 × Int) := []
  edges   : List (BitVec 16 × Int) := []
  restart : Option (BitVec 16) := none
  stop    : Bool := false
  deriving DecidableEq, Repr

def scFlag (sc : BitVec 32) (n : Nat) : Bool := sc.getLsbD n

def scSetFlag (sc : BitVec 32) (n : Nat) (b : Bool) : BitVec 32 :=
  if b then sc ||| bitMask 32 n else sc &&& ~~~(bitMask 32 n)

/-- BIN and BIN_VALID (R196). -/
def scSetBin (sc : BitVec 32) (bin : Nat) : BitVec 32 :=
  (sc &&& ~~~0x00FF0000) ||| BitVec.ofNat 32 (bin % 256 * 2 ^ 16) ||| bitMask 32 26

def scClearBin (sc : BitVec 32) : BitVec 32 := sc &&& ~~~(bitMask 32 26)

/-- The value of an operand (R198). -/
def operand (e : RuleEnv) (w : Work) (r : Rule) : Int :=
  let n := r.oparam.toNat
  match r.opnd with
  | .zero => 0
  | .resFail => bitsOf e.result.toNat 63 1
  | .resFailVecs => bitsOf e.result.toNat 48 13
  | .resHaltAddr => bitsOf e.result.toNat 0 48
  | .resBits => bitsOf e.result.toNat 61 3
  | .pinFail => (e.pinFail.getD n 0 : Nat)
  | .scFlag => if scFlag w.sc n then 1 else 0
  | .scBin => if w.sc.getLsbD 26 then bitsOf w.sc.toNat 16 8 else -1
  | .var => getN w.vars n 0
  | .itemOpnd => e.opnds.getD n 0
  | .itemFlags => e.iflags
  | .entry => e.entry
  | .tdcMean => if n / 2 ^ 15 = 1 then e.chans.getD (n % 128) 0 else e.pairs.getD n 0
  | .bursts => e.bursts

def and64 (a b : Int) : Int := (BitVec.ofInt 64 a &&& BitVec.ofInt 64 b).toInt

/-- Comparisons (R198). -/
def RuleCmp.holds (c : RuleCmp) (x k : Int) : Bool :=
  match c with
  | .always => true
  | .eq => x = k
  | .ne => x ≠ k
  | .lt => x < k
  | .le => x ≤ k
  | .gt => x > k
  | .ge => x ≥ k
  | .all => and64 x k = k
  | .any => and64 x k ≠ 0

/-- Saturation to the signed 64-bit range (R198). -/
def sat64 (x : Int) : Int := max (-(2 ^ 63)) (min x (2 ^ 63 - 1))

/-- An action on the working copy, or BAD_OPERAND for a value outside its range (R198, R199). -/
def action (r : Rule) (w : Work) : Option Work :=
  let v := if r.valVar then getN w.vars (r.value % 8).toNat 0 else r.value
  let p := r.aparam.toNat
  match r.act with
  | .none => if p = 0 && v = 0 then some w else none
  | .setFlag => if p < 16 && (v = 0 || v = 1) then some { w with sc := scSetFlag w.sc p (v = 1) } else none
  | .select => if h : p < 4 then if v = 0 then some { w with sel := some ⟨p, h⟩ } else none else none
  | .setBin => if p = 0 && 0 ≤ v && v ≤ 255 then some { w with sc := scSetBin w.sc v.toNat } else none
  | .setVar => if p < 8 then some { w with vars := updN w.vars p fun _ => v } else none
  | .addVar => if p < 8 then some { w with vars := updN w.vars p fun x => sat64 (x + v) } else none
  | .setLevel => if p &&& 0xF008 = 0 && 0 ≤ v && v ≤ 0xFFFF then some { w with levels := w.levels ++ [(r.aparam, v)] } else none
  | .setEdge => if p % 8 ≤ 5 && 0 ≤ v && v < 2 ^ 33 then some { w with edges := w.edges ++ [(r.aparam, v)] } else none
  | .restart => if p = 0 && 0 ≤ v && v ≤ 0xFFFF then some { w with restart := some (BitVec.ofInt 16 v) } else none
  | .stopSite => if p = 0 && v = 0 then some { w with stop := true } else none

/-- The rules in order (R199): none when one ends the item with BAD_OPERAND. -/
def evalRules (e : RuleEnv) : List Rule → Work → Option Work
  | [], w => some w
  | r :: rs, w =>
    if r.cmp.holds (operand e w r) r.k then
      match action r w with
      | none => none
      | some w' => if r.stop then some w' else evalRules e rs w'
    else evalRules e rs w

/-- The time a rule list takes beyond R201's 72 ns: 2 ns for each rule evaluated, 40 ns for each TDC_MEAN operand read. -/
def ruleCost (e : RuleEnv) : List Rule → Work → Nat
  | [], _ => 0
  | r :: rs, w =>
    2 + (if r.opnd = .tdcMean then 40 else 0) +
      if r.cmp.holds (operand e w r) r.k then
        match action r w with
        | none => 0
        | some w' => if r.stop then 0 else ruleCost e rs w'
      else ruleCost e rs w

/-! ## Dispatch (R203) -/

def SchedCore.idle (c : SchedCore) : Bool := c.run.isNone && c.slots.isEmpty

/-- When a core's slot is free (R203), in SUBNS units. -/
def SchedCore.freeAt (c : SchedCore) (now : Nat) : Nat :=
  if c.slots.length < 2 then now else match c.run with
    | some r => r.started + r.bound * nsUnits
    | none => now

/-- The item of one queue a core may take (R203). -/
def Sched.eligible (s : Sched) (now : Nat) (c : Fin 16) (i : Item) : Bool :=
  let f := s.flow i.flow
  if f.inService then false
  else match f.lastCore with
    | some a => a = c || (s.cores[c].idle && now + 50 * nsUnits < s.cores[a].freeAt now)
    | none => s.cores[c].idle

/-- first_eligible of R203: priorities in order; a reserved core takes only priority 0 (R194). -/
def Sched.firstEligible (s : Sched) (now : Nat) (c : Fin 16) : Option Item :=
  (List.range 4).findSome? fun p =>
    if 0 < p && s.reserve.getLsbD c.val then none
    else s.queue.find? fun i => i.prio.val = p && s.eligible now c i

/-- The histogram bin of a wait in ns (R211). -/
def waitBin (ns : Nat) : Nat :=
  if ns < 8 then 0 else ((List.range 14).find? fun b => ns < 8 * 2 ^ (b + 1)).elim 15 (· + 1)

/-- The limit of R201 in ns for every rule of a table (R203), or for an item that evaluates none. -/
def boundOf (t : Option (List Rule)) : Nat :=
  match t with
  | none => 72
  | some rs => 72 + 2 * rs.length + 40 * (rs.filter fun r => r.opnd = .tdcMean).length

/-- A core starts an item (R203, R205): its first instruction comes 10 ns later, and the wait is counted (R211). -/
def Sched.startItem (s : Sched) (c : Fin 16) (i : Item) (now : Nat) (num : Option Nat) (table : Option (List Rule)) (gens : Vector (BitVec 16) 12)
    (bound : Nat) (sc : BitVec 32) : Sched :=
  let t := now + 10 * nsUnits
  { s with cores := upd s.cores c fun k => { k with run := some ⟨i, t, num, table, gens, bound, sc, (s.flow i.flow).vars⟩ },
           hist := updN s.hist (16 * i.prio.val + waitBin ((t - i.queuedAt) / nsUnits)) satInc,
           runHist := updN s.runHist (16 * i.prio.val + waitBin ((t - i.queuedAt) / nsUnits)) (· + 1) }

/-- One core's turn in a scheduler cycle (R203): the item leaves its queue for a free slot, and its flow is in service. -/
def Sched.grant (s : Sched) (now : Nat) (c : Fin 16) : Sched × Bool :=
  if 2 ≤ (s.cores[c]).slots.length then (s, false)
  else match s.firstEligible now c with
    | none => (s, false)
    | some i =>
      let s := s.updFlow i.flow fun f => { f with inService := true }
      ({ s with queue := s.queue.filter fun j => j.seqno ≠ i.seqno,
                cores := upd s.cores c fun k => { k with slots := k.slots ++ [i] } }, true)

/-- Cores in scan order from the pointer (R203). -/
def scanOrder (p : Fin 16) : List (Fin 16) := (List.finRange 16).map fun i => i + p

/-- The dequeue pointer a cycle starts from (R203): where the cycle before it left it, and 0 after a cycle that granted nothing. -/
def Sched.pointer (s : Sched) (now : Nat) : Fin 16 := if s.cycleAt = some (now / nsUnits - 1) && 0 < now / nsUnits then s.ptr else 0

/-- One scheduler cycle (R203): grants in scan order and the pointer's move. -/
def Sched.cycle (s : Sched) (now : Nat) : Sched :=
  let asking := ((List.finRange 16).filter fun c => (s.cores[c]).slots.length < 2).length
  let (s', first) := (scanOrder (s.pointer now)).foldl (fun (acc : Sched × Option (Fin 16)) c =>
    let (t, got) := acc.1.grant now c
    (t, if got then acc.2.or (some c) else acc.2)) (s, none)
  { s' with cycleAt := some (now / nsUnits), ptr := match first with
      | some c => if 2 ≤ asking then c + 1 else 0
      | none => 0 }

/-! ## Search (R207) -/

/-- What a search step does next: another trial, or the end with the value for VAR. -/
inductive SearchNext where
  | trial (p : Search)
  | finish (v : Int)
  deriving DecidableEq, Repr

/-- Installing a search: the first trial (R207). -/
def Search.begin_ (p : Search) : Search :=
  { p with best := none, trial := if p.linear then p.lo else p.lo + (p.hi - p.lo) / 2 }

/-- One step of R207 on whether the burst passed. -/
def Search.next (p : Search) (passes : Bool) : SearchNext :=
  let p := if passes then { p with best := some p.trial } else p
  let done := SearchNext.finish (p.best.getD (-1))
  if p.linear then
    if passes || p.trial = p.high then done else .trial { p with trial := min (p.trial + p.step) p.high }
  else
    let p := if passes then { p with hi := p.trial - 1 } else { p with lo := p.trial + 1 }
    if p.hi < p.lo then done
    else if p.hi - p.lo + 1 < p.step then
      if p.best.isSome then done else .trial { p with trial := p.hi }
    else .trial { p with trial := p.lo + (p.hi - p.lo) / 2 }

/-! ## Trim (R208) -/

/-- The flags of a trim code (R208). -/
def Trim.flags (p : Trim) (sc : BitVec 32) : BitVec 32 :=
  (List.range p.width).foldl (fun sc i => scSetFlag sc (p.first + i) (bitOf p.code i)) sc

def Trim.begin_ (p : Trim) : Trim := { p with code := 2 ^ (p.width - 1), bit := p.width - 1 }

/-- One step on a measurement: the trial bit is kept or cleared, and the next lower bit set; none after bit 0 (R208). -/
def Trim.next (p : Trim) (meas : Int) : Trim × Bool :=
  let keep := if p.polarity then p.target ≤ meas else meas < p.target
  let code := if keep then p.code else p.code - 2 ^ p.bit
  if p.bit = 0 then ({ p with code := code }, true)
  else ({ p with code := code + 2 ^ (p.bit - 1), bit := p.bit - 1 }, false)

/-! ## Fail reduction (R209, R210) -/

def Reduce.row (p : Reduce) (v : Nat) : Nat := v / 2 ^ p.rowShift % 2 ^ p.rowBits

def Reduce.col (p : Reduce) (v pin : Nat) : Nat :=
  let a := v / 2 ^ p.colShift % 2 ^ (p.colBits - if p.pinCol then 3 else 0)
  if p.pinCol then a * 8 + pin else a

/-- The failing (row, column) of each failing pin of each record (R209). -/
def Reduce.cells (p : Reduce) (records : List (Nat × Byte)) : List (Nat × Nat) :=
  records.flatMap fun r => (maskBits r.2).map fun k => (p.row r.1, p.col r.1 k)

/-- A burst whose records the procedure has still to reduce (R209). -/
def Reduce.awaits (p : Reduce) (bid : Word) : Bool := bid ≠ p.last && (bid - p.last).toNat < 2 ^ 31

def satCount (n : Nat) : Nat := min n 0xFFFF

/-- The result buffer of R210 from the burst's FAIL records, with GUARD even; `loss`: its RESULT has LOSS set, or its records include a DROP. -/
def Reduce.result (p : Reduce) (burstId : Word) (records : List (Nat × Byte)) (loss : Bool) : List Byte :=
  let cells := p.cells records
  let rows := (List.range (2 ^ p.rowBits)).map fun r => (cells.filter fun c => c.1 = r).length
  let cols := (List.range (2 ^ p.colBits)).map fun k => (cells.filter fun c => c.2 = k).length
  let mr := (rows.filter fun n => p.spareCols < satCount n).length
  let mc := (cols.filter fun n => p.spareRows < satCount n).length
  let sat := (rows ++ cols).any fun n => 0xFFFF < n
  leBytes 4 (p.guard + 2).toNat ++ leBytes 4 burstId.toNat ++ leBytes 4 records.length ++ leBytes 2 mr ++ leBytes 2 mc
    ++ leBytes 1 (bitAt (mr ≤ p.spareRows && mc ≤ p.spareCols) 0 + bitAt (loss) 1 + bitAt sat 2)
    ++ List.replicate 15 0 ++ (rows ++ cols).flatMap fun n => leBytes 2 (satCount n)

end Sys2Proof.Machine
end

