-- ==== Sys2Proof/Machine/DeviceState.lean ====
section
/-! DEFINITION. What the rope ports, the time unit, the calibration unit, the power manager and the fault collector hold, as plain
data with its reset content (R282 to R377). Instants are in SUBNS units of the device's own count. -/
namespace Sys2Proof.Machine

/-! ## Rope ports (R282 to R303) -/

/-- Port states (R283). -/
inductive PortState where
  | disabled | detect | train | align | ident | up | idle | test
  deriving DecidableEq, Repr

/-- A multi-device site (R258, R299): its tag, the other members' serial numbers with the local port of each, the hop diameter, and
the site level as of its last computation. -/
structure Gang where
  tag     : Word
  members : List (BitVec 64)
  ports   : List Port
  hops    : Nat
  deriving DecidableEq, Repr

/-- A frame the device has sent (R285), and the port it left by. -/
structure Sent where
  port  : Port
  ctype : Byte
  hops  : Byte
  tick  : BitVec 16
  src   : BitVec 64
  body  : List Byte
  deriving DecidableEq, Repr

/-- A delivered frame kept for 10 µs, for finding copies (R289). -/
structure Delivered where
  src   : BitVec 64
  ctype : Byte
  tick  : BitVec 16
  atNow : Nat
  deriving DecidableEq, Repr

/-- A fixed-latency frame delivered to the device's own blocks and not yet acted on (log 10): hops crossed and instant of delivery. -/
structure InMsg where
  port  : Port
  ctype : Byte
  hops  : Nat
  time  : Int
  src   : BitVec 64
  body  : List Byte
  deriving DecidableEq, Repr

/-- An entry of the topology table (R296). `seen`: when its last IDENT arrived. -/
structure TopoEntry where
  serial : BitVec 64
  port   : Port
  hops   : Nat
  level  : Nat
  rport  : Nat
  fw     : Word
  flPath : Bool
  seen   : Nat
  deriving DecidableEq, Repr

/-- What a partner's IDENT frames say (R285, R294). -/
structure Partner where
  serial     : BitVec 64
  level      : Nat
  flOk       : Bool
  timeLocked : Bool
  deriving DecidableEq, Repr

/-- A training in progress (R290): when it began; whether this receiver has sent DONE and heard the partner's; its best metric. -/
structure Training where
  began    : Nat
  sentDone : Bool := false
  gotDone  : Bool := false
  metric   : Byte := 0
  best     : Byte := 0
  lastReq  : Nat := 0
  /-- the steps and STAT bytes of the partner's last TRAIN_STS, those of the preset before it (R290), and the steps at the best metric -/
  partner  : List Byte := [0, 15, 0]
  bestTaps : List Byte := []
  deriving DecidableEq, Repr

/-- The test of a port (R300 to R303). `lockAt`: the checker is locked since then; `bits`: those counted in locks that have ended;
`firstAt`: when the first injection falls; `injected`: bits flipped so far; `waiting`: a LOOP_REQ is not answered yet. -/
structure PortTest where
  loop     : Nat := 0
  prbs     : Nat := 0
  inject   : Nat := 0
  endAt    : Option Nat := none
  duration : Nat := 0
  running  : Bool := false
  waiting  : Bool := false
  done     : Bool := false
  refused  : Bool := false
  lockAt   : Option Nat := none
  everLock : Bool := false
  firstAt  : Option Nat := none
  injected : Word := 0
  lockLoss : Byte := 0
  /-- injected bits the lock in hand has counted as errors -/
  lockInj  : Nat := 0
  bits     : BitVec 64 := 0
  errs     : Word := 0
  deriving DecidableEq, Repr

/-- A rope port (R283, R303). `lastRx`: the last frame received; `lastBusy`: the last frame other than IDENT either way; `reqAt`: the
last TIME_REQ received (R318); `idleAt`: entry into IDLE; `identAt`: the last IDENT sent;
`retryAt`: the return to DETECT after a failed training. -/
structure RopePort where
  state      : PortState := .disabled
  fixedLat   : Bool := false
  levelMax   : Nat := 3
  level      : Nat := 0
  partner    : Option Partner := none
  identAt    : Nat := 0
  training   : Option Training := none
  retryAt    : Option Nat := none
  marginal   : Bool := false
  looped     : Bool := false
  remoteLoop : Bool := false
  metric     : Byte := 0
  lateSeen   : Bool := false
  trainFail  : Bool := false
  linkDown   : Bool := false
  trainTemp  : Byte := 0
  pre        : Nat := 0
  main       : Nat := 15
  post       : Nat := 0
  delay      : BitVec 16 := 0
  aligned    : Bool := false
  crcErr     : Word := 0
  badFrame   : Word := 0
  late       : Word := 0
  loss       : Word := 0
  lastRx     : Nat := 0
  lastBusy   : Nat := 0
  reqAt      : Option Nat := none
  idleAt     : Nat := 0
  test       : PortTest := {}
  bitsHi     : Word := 0
  /-- attestation responder (R395): the first nonce half, and the report kept for resends -/
  nonceLo    : Option (List Byte) := none
  report     : List Byte := []
  deriving DecidableEq, Repr

/-- The rope ports of the device. `shown`: the topology registers as loaded (R303); `siteLevel`: RPP_SITE_LEVEL; `clockAt`: when the rope PLL was last
started (R360); `code`: the bundle whose rope firmware runs (R384). -/
structure Rope where
  ports      : Vector RopePort 4 := Vector.replicate 4 {}
  sent       : List Sent := []
  delivered  : List Delivered := []
  inbox      : List InMsg := []
  topo       : List TopoEntry := []
  topoChange : Word := 0
  topoFull   : Bool := false
  topoSel    : BitVec 6 := 0
  shown      : Option TopoEntry := none
  siteLevel  : BitVec 24 := 0
  clockAt    : Nat := 0
  code       : FwSlot := .erased
  deriving DecidableEq, Repr

/-! ## Time unit (R304 to R321) -/

inductive TimeState where
  | freeRun | acquiring | locked | holdover | refused
  deriving DecidableEq, Repr

inductive TimeSource where
  | freeRun | ptm | rope
  deriving DecidableEq, Repr

/-- The time unit. `sums`: twice θ of each completed exchange of the estimate in hand, for ROPE; θ for PTM is doubled too; `corr`: the
steps of the pending correction not yet applied, in FU; `within`: consecutive estimates within the threshold while REFUSED; `lastEst`,
`lastStep`: instants of the last estimate and of the last slew step. -/
structure TimeUnit where
  state     : TimeState := .freeRun
  source    : TimeSource := .freeRun
  port      : Port := 0
  stratum   : Nat := 0
  holdSeen  : Bool := false
  threshold : Nat := 100
  asymInt   : Vector Word 4 := Vector.replicate 4 0
  asymCable : Vector Word 4 := Vector.replicate 4 0
  theta     : Int := 0
  stepCnt   : Word := 0
  respTmo   : Word := 0
  sums      : List Int := []
  within    : Nat := 0
  req       : Option (Nat × Int) := none
  lastReq   : Nat := 0
  corr      : Int := 0
  lastEst   : Nat := 0
  lastStep  : Nat := 0
  now1      : Word := 0
  now2      : Word := 0
  short     : Word := 0
  offHi     : Word := 0
  deriving DecidableEq, Repr

/-! ## Calibration unit (R322 to R342) -/

/-- A temperature set as one cluster recorded it (R329): die temperature in 1/16 °C, values, drift readings. -/
structure CalSet where
  temp   : Int
  values : Coeffs
  drift  : Coeffs
  deriving DecidableEq, Repr

/-- The commit record of a calibration slot (R338), its reserved bytes aside; SETS is that of the image's sets. -/
structure CalCommit where
  magic  : Word
  seq    : Word
  length : Nat
  slot   : Byte
  serial : BitVec 64
  digest : BitVec 256
  deriving DecidableEq, Repr

/-- A calibration slot of the flash (R338, R341): erased, neither that nor complete, or a commit record, the draw of the image's bytes (log 35) and
the five sets. -/
inductive CalSlot where
  | erased
  | partialStore
  | image (rec_ : CalCommit) (draw : Nat) (sets : Vector (Option (Vector CalSet 12)) 5)
  deriving DecidableEq, Repr

/-- An accepted commanded run of one kind since reset (R329, R333); `nth`: its number among the cluster's accepted runs. -/
structure CalDone where
  temp   : Int
  values : Coeffs
  drift  : Coeffs
  nth    : Nat
  deriving DecidableEq, Repr

/-- The calibration of one cluster. `kinds`: DAC, deskew, TDC, trigger skew, in this order: the latest accepted commanded run; `follow`: the kinds whose
runs the targets follow (R333); `count`: runs accepted; `irefNow`, `offNow`, `skewNow`: the drift readings of the latest accepted background runs, a DAC's
for each rail and range, each with its run's number (R332); `cmdTables`: each route's latest table accepted in a commanded run, with the die temperature,
and `fresh`: the routes accepted in the one in hand (R329, R337); `kindFrom`: when the commanded kind in hand began; `tables`: the accepted bin-width
table of each route with its instant (R331); `what`: the kinds of a commanded run not finished yet; `background`: the kinds running, and `ranAt`: when the
last background run of DAC and deskew began; `tinRun`, `tinBack`: TIN_PRESENT at the start of the commanded kind in hand, and of the background deskew run
(R337). -/
structure CalCluster where
  applied    : Byte := 0
  kinds      : Vector (Option CalDone) 4 := Vector.replicate 4 none
  follow     : BitVec 4 := 0
  what       : BitVec 4 := 0
  background : BitVec 4 := 0
  ranAt      : Vector (Option Nat) 2 := Vector.replicate 2 none
  tinRun     : Bool := false
  tinBack    : Bool := false
  kindFrom   : Int := 0
  count      : Nat := 0
  irefNow    : Option (Rat × Nat) := none
  offNow     : Vector (Option (Rat × Nat)) 16 := Vector.replicate 16 none
  skewNow    : Option (Coeffs × Nat) := none
  cmdTables  : Vector (Option (List Nat × Int)) 12 := Vector.replicate 12 none
  fresh      : BitVec 12 := 0
  tables     : Vector (Option (List Nat × Nat)) 12 := Vector.replicate 12 none
  dacAt      : Option Nat := none
  skewAt     : Option Nat := none
  target     : Coeffs := {}
  stale      : Bool := false
  deriving DecidableEq, Repr

/-- The calibration unit. `staged`: the staged set of each cluster, `stagedAt` its instant, and `stagedOld` what was staged before that datapath cycle
(R335); `due`: the time a staged set has been due while its site was active, with the instant of the last account (R336); `flash`: the 32 slots; `image`:
the sets in use; `tinSeen`, `tinAt`: rising edges of CAL_TIN in a row, and the last of them; `stores`: instants of the stores of the last hour (R340). -/
structure Cal where
  staged   : Vector (Option Coeffs) 12 := Vector.replicate 12 none
  stagedAt  : Vector Nat 12 := Vector.replicate 12 0
  stagedOld : Vector (Option Coeffs) 12 := Vector.replicate 12 none
  due      : Vector Nat 12 := Vector.replicate 12 0
  dueFrom  : Vector Nat 12 := Vector.replicate 12 0
  cl       : Vector CalCluster 12 := Vector.replicate 12 {}
  flash    : Vector CalSlot 32 := Vector.replicate 32 .erased
  image    : Vector (Option (Vector CalSet 12)) 5 := Vector.replicate 5 none
  slot     : Fin 32 := 31
  seq      : Word := 0
  none_    : Bool := false
  older    : Bool := false
  reject   : Bool := false
  rejCause : BitVec 10 := 0
  rejCl    : BitVec 4 := 0
  vrefUv   : Nat := 1200000
  tinDelay : Int := 0
  tin      : Bool := false
  tinSeen  : Nat := 0
  tinAt    : Nat := 0
  tinEver  : Bool := false
  tinPhase : Word := 0
  vrefMeas : BitVec 21 := 0
  stores   : List Nat := []
  total    : BitVec 28 := 0
  deriving DecidableEq, Repr

/-! ## Power and clock manager (R360 to R377) -/

/-- Power state of a cluster (R364, R366): codes of R364. `since`: the chosen state has stayed the same since; `doneAt`: the entry or
exit in progress completes, in the state `goal`; `bare`: the choice but for the FIFO limit, and `fed`: only stamps that drain with time hold that limit,
as the choice was looked at last. -/
structure PwrCl where
  state    : Nat := 4
  chosen   : Nat := 4
  exiting  : Bool := false
  entering : Bool := false
  tol      : Word := 0xFFFFFFFF
  since    : Nat := 0
  doneAt   : Nat := 0
  goal     : Nat := 4
  bare     : Nat := 4
  fed      : Bool := false
  deriving DecidableEq, Repr

/-- How far the device is from ready (R233, R372, R373): a reset ball asserted, or boot waiting; booting, from a slot chosen by TRY or
not; ready; stopped with no image (R385). -/
inductive BootPhase where
  | held
  | booting (since : Nat) (fromTry : Bool)
  | ready
  | stopped
  deriving DecidableEq, Repr

/-- Power manager, resets and clocks. `porst`, `perst`: the ball is low; `pllLost`: the PLLs wait for a reset to lock (R361); `hbm`: the code of
PWR_STATUS.HBM; `supplyOut`: supplies out of range with the millivolts measured; `temps`: die temperatures in 1/16 °C, and `seen`: the clusters read since
reset; `quiet`: the last device request, doorbell or unfetched work (R369); `hbmIdle`: the conditions of R368 have held since; `blockAt`: when arm points
were last blocked or freed, and `blockWas`: whether they were blocked before that datapath cycle (R363). -/
structure Power where
  cl        : Vector PwrCl 12 := Vector.replicate 12 {}
  phase     : BootPhase := .held
  porst     : Bool := true
  perst     : Bool := true
  bootDone  : Bool := false
  refclkOk  : Bool := true
  bcIntosc  : Bool := false
  pllLost   : Bool := false
  ocxo      : Bool := false
  tbWarm    : Bool := true
  thermWarn : Bool := false
  warnCnt   : Byte := 0
  tripped   : BitVec 12 := 0
  hbm       : Nat := 0
  link      : LinkState := .down
  hbmSrEn   : Bool := true
  warmArm   : Bool := false
  blockAt   : Nat := 0
  blockWas  : Bool := false
  warmCnt   : BitVec 16 := 0
  cause     : BitVec 3 := 1
  supplyOut : List (Byte × BitVec 16) := []
  temps     : Vector Int 12 := Vector.replicate 12 0
  seen      : BitVec 12 := 0
  quiet     : Nat := 0
  hbmIdle   : Nat := 0
  alive     : Bool := false
  aliveRun  : Bool := false
  straps    : BitVec 4 := 0
  deriving DecidableEq, Repr

/-! ## Fault collector (R343 to R359) -/

/-- Fault classes, least severe first (R347). -/
inductive FaultClass where
  | advisory | site | cluster | device
  deriving DecidableEq, Repr

/-- Reactions, each with the effects of those before it (R345). -/
inductive Reaction where
  | log | taint | haltCluster | parkCluster | haltDevice
  deriving DecidableEq, Repr

/-- A history entry (R349). -/
structure HistEntry where
  stamp     : Int
  source    : Nat
  mask      : BitVec 12
  detail    : Word
  cls       : FaultClass
  injected  : Bool
  first     : Bool
  merged    : Bool
  escalated : Bool
  tainted   : Bool
  reaction  : Reaction
  mcount    : BitVec 16
  seq       : Word
  deriving DecidableEq, Repr

/-- The first-error record (R347). -/
structure FaultRec where
  stamp      : Int
  source     : Nat
  clusters   : BitVec 12
  detail     : Word
  cls        : FaultClass
  injected   : Bool
  realMerged : Bool
  reaction   : Reaction
  merged     : BitVec 16
  cause      : BitVec 64
  lastStamp  : Int
  deriving DecidableEq, Repr

/-- A persistent-log record (R356), but for MAGIC and CRC. -/
structure PlogRec where
  pseq  : Word
  entry : HistEntry
  fw    : Word
  tmax  : Int
  deriving DecidableEq, Repr

/-- An event of the collector's cycle in hand: `rc`: the reaction its source had at the report (R346); `stamp`: its instant; `issued`: the
reaction is issued when the cycle ends, which holds of the first error and of what R350 or R353 lets escalate. -/
structure CycleEvent where
  event    : FaultEvent
  injected : Bool
  rc       : Reaction
  stamp    : Int
  issued   : Bool := false
  deriving DecidableEq, Repr

/-- A cycle of the collector (R23): the records as they stood before it, and its events in their order of service. -/
structure FaultCycle where
  cycle    : Nat
  clocked  : Bool
  first    : Option FaultRec
  history  : List HistEntry
  count    : Word
  plogPend : List PlogRec
  events   : List CycleEvent
  deriving DecidableEq, Repr

/-- The fault collector (R347 to R359). `first`: the first-error record while VALID; `last`: the record once released, whose words FLT_FIRST still shows
but for VALID; `history`: newest first. `halted`, `parked`: clusters on which a reaction is held; `device`: HALT_DEVICE is held. `taking`: the cycle whose
reports it takes in, until that is over; `read`: the log has been read since PORST_N. `active`, `other`: the two log sectors, newest record first, the
active one being `sector`; `loaded`: the records read at boot (R357). -/
structure Faults where
  first    : Option FaultRec := none
  last     : Option FaultRec := none
  history  : List HistEntry := []
  count    : Word := 0
  react    : List (Nat × Reaction) := []
  counts   : List (Nat × Byte) := []
  taking   : Option FaultCycle := none
  halted   : BitVec 12 := 0
  parked   : BitVec 12 := 0
  device   : Bool := false
  plogPend : List PlogRec := []
  plogDrop : BitVec 16 := 0
  pseq     : Word := 0
  active   : List PlogRec := []
  sector   : Nat := 0
  other    : List PlogRec := []
  loaded   : List PlogRec := []
  read     : Bool := false
  histSel  : BitVec 5 := 0
  histShow : Option HistEntry := none
  plogSel  : BitVec 6 := 0
  plogShow : Option PlogRec := none
  firstLatch : Vector Word 12 := Vector.replicate 12 0
  deriving DecidableEq, Repr

end Sys2Proof.Machine
end

