-- ==== Sys2Proof/Machine/HostState.lean ====
section
/-! DEFINITION. What the host port, the command engine, the security unit and the identification block hold, as plain data with its
reset content (R213 to R248, R267 to R281, R378 to R399, R428 to R438). -/
namespace Sys2Proof.Machine

/-! ## Host port -/

/-- A submission ring (R221 to R224): LOG2 of its size in bytes, published head and last tail in 16-byte units. -/
structure SubRing where
  en   : Bool := false
  base : BitVec 64 := 0
  log2 : Nat := 12
  head : Nat := 0
  tail : Nat := 0
  err  : Bool := false
  /-- units fetched of a packet whose last units are not published yet (R223) -/
  part : Nat := 0
  deriving DecidableEq, Repr

/-- A reply ring (R226, R227), in entries: `tail` is the device's, `head` the last RQ_HEAD. `open_`: replies can still be written; it
outlives `en` until RQ_DISABLE_DONE (R433). -/
structure ReplyRing where
  en    : Bool := false
  open_ : Bool := false
  base  : BitVec 64 := 0
  log2  : Nat := 12
  head  : Nat := 0
  tail  : Nat := 0
  deriving DecidableEq, Repr

/-- A reply entry (R238). -/
structure Reply where
  tag    : Word
  opcode : BitVec 16
  code   : Byte
  ring   : Fin 4
  gen    : BitVec 16
  dkind  : Byte
  detail : Word
  data   : List Byte
  deriving DecidableEq, Repr

/-- A function of the device (R213, R219 to R232, R432). `page`: the mirror page as last written; `siteLatch`: words 1 to 7 of each
site record as last latched (R434). -/
structure HostFunc where
  sq        : Vector SubRing 4 := Vector.replicate 4 {}
  rq        : ReplyRing := {}
  replies   : List Reply := []
  mirrorOn  : Bool := false
  mirrorAddr : BitVec 64 := 0
  mirrorSeq : Word := 0
  page      : List Byte := []
  dbErr     : Word := 0
  regErr    : Word := 0
  siteLatch : Vector (List Byte) 12 := Vector.replicate 12 (List.replicate 32 0)
  busMaster : Bool := false
  memSpace  : Bool := false
  /-- BAR0, the PF's BAR2, and AER status bits 15:0 (R213, R219, R343) -/
  bar0      : BitVec 64 := 0
  bar2      : BitVec 64 := 0
  aer       : BitVec 16 := 0
  deriving DecidableEq, Repr

/-- The scheduler observables as sampled for the mirror (R230). -/
structure Samples where
  depth    : Vector Word 4 := Vector.replicate 4 0
  done     : Vector Word 4 := Vector.replicate 4 0
  flowWait : Vector (BitVec 16) 12 := Vector.replicate 12 0
  busy     : Vector (BitVec 16) 16 := Vector.replicate 16 0
  hist     : Vector Word 64 := Vector.replicate 64 0
  deriving DecidableEq, Repr

/-- A write the device made into host memory, by bus address (R214, R216). -/
structure HostWrite where
  addr  : BitVec 64
  bytes : List Byte
  deriving DecidableEq, Repr

/-- A read request of the device (R214, R223), by bus address and size in bytes. -/
structure HostRead where
  addr : BitVec 64
  size : Nat
  deriving DecidableEq, Repr

/-- The host port. `writes`, `reads`: what the device has written into host memory, and the read requests of its ring fetches (log 9), oldest first;
`busRead`: the value the last register read returned (log 9). -/
structure HostPort where
  fn         : Vector HostFunc 13 := Vector.replicate 13 {}
  owner      : Vector Func 12 := Vector.replicate 12 0
  ownRefused : Bool := false
  numVfs     : Fin 13 := 0
  ptm        : Bool := false
  aspm       : Bool := false
  speed      : BitVec 4 := 0
  width      : BitVec 4 := 0
  flit       : Bool := false
  /-- Max Payload Size and Max Read Request Size, each 128 · 2^code bytes (R213) -/
  mps        : Fin 3 := 0
  mrrs       : Fin 6 := 2
  samples    : Samples := {}
  writes     : List HostWrite := []
  reads      : List HostRead := []
  busRead    : Option Word := none
  deriving DecidableEq, Repr

/-! ## Command engine (R267 to R281) -/

/-- CMD_MCHECK (R281). -/
structure MCheck where
  postCrux : Bool
  stack    : Bool
  half     : Bool
  uaddr    : BitVec 14
  deriving DecidableEq, Repr

/-- What the engine holds while it executes microwords (R268, R269): the address of the next one, working registers W0 to W15, the flags of the
latest arithmetic micro-op, the micro-stack with its top first, and whether CRUX or REFUSE has executed (R271). -/
structure Micro where
  pc    : BitVec 14 := 0
  w     : Vector (BitVec 64) 16 := Vector.replicate 16 0
  z     : Bool := false
  n     : Bool := false
  c     : Bool := false
  stack : List (BitVec 14) := []
  past  : Bool := false
  /-- microwords executed so far: each draws its free values with it (log 38) -/
  draw  : Nat := 0
  deriving DecidableEq, Repr

/-- The command engine between routines. `slot`: the packets that wait to restart, the latest abandoned first, with the times each has been abandoned (R274, R275);
`run`: RUN of CMD_STATUS; `running`, `postCrux`, `deferAll`: those of a routine a machine check has stopped (log 38); `ptr`: the rotating pointer of
each ring priority (R225); `store`: the bundle the micro-store was loaded from, and `struck` its halves hit by a parity error since (R267); `micro`:
where the engine stands. -/
structure CmdEngine where
  halted   : Bool := false
  opcode   : BitVec 16 := 0
  run      : BitVec 2 := 0
  deferAll : Bool := false
  abandons : Word := 0
  mcheck   : Option MCheck := none
  slot     : List (Routine × Nat) := []
  running  : Bool := false
  postCrux : Bool := false
  ptr      : Vector Nat 4 := Vector.replicate 4 0
  store    : FwSlot := .erased
  struck   : List (BitVec 14 × Bool) := []
  micro    : Micro := {}
  deriving DecidableEq, Repr

/-! ## Security unit (R378 to R399) -/

/-- A request to a rope neighbour (R396). `nonce`: as sent; `chunks`: received chunks by number; `asked`: the last chunk the latest ATT_RESEND names; `ended`:
when ATT_END arrived. -/
structure NbrRequest where
  port    : Port
  since   : Nat
  nonce   : List Byte := []
  chunks  : List (Nat × List Byte) := []
  resends : Nat := 0
  asked   : Nat := 0
  ended   : Option Nat := none
  deriving DecidableEq, Repr

/-- SEC_NBR_STATUS, FW and MRD (R399). -/
structure NbrStatus where
  state    : Nat := 0
  rollback : Byte := 0
  lost     : Bool := false
  serial   : Bool := false
  nonce    : Bool := false
  sig      : Bool := false
  cert     : Bool := false
  port     : Port := 0
  fw       : Word := 0
  mrd      : BitVec 256 := 0
  deriving DecidableEq, Repr

/-- A region of flash for records of one length (R380): what stands in each 64 KiB sector since it was erased, oldest first, and the sector of the
latest record. -/
structure FlashLog where
  sectors : List (List (List Byte))
  at_     : Nat := 0
  deriving DecidableEq, Repr

def FlashLog.blank (n : Nat) : FlashLog := { sectors := List.replicate n [] }

/-- The regions of records. -/
inductive LogId where
  | boot | journal | tree
  deriving DecidableEq, Repr

/-- The security unit. `bootLog`, `journal`, `treeLog`: the boot-control, journal and tree records in flash (R380); `wrote`: the instant and the region of
the latest record. `active`, `try_`, `bseq`: the boot-control record in force; `end_`, `jseq`: END and JSEQ of the newest journal record; `trees`:
lower trees generated since reset, `treeGen`: the one being generated; `signed`: instants of the signatures of the last 4 s;
`stageNext`: the OFFSET the next chunk must have, while a staging is open. -/
structure Security where
  slots     : Vector FwSlot 2 := ⟨#[.factory, .erased], rfl⟩
  bootLog   : FlashLog := FlashLog.blank 2
  journal   : FlashLog := FlashLog.blank 32
  treeLog   : FlashLog := FlashLog.blank 2
  wrote     : Option (Nat × LogId) := none
  active    : Fin 2 := 0
  try_      : Option (Fin 2) := none
  bseq      : Word := 0
  rollback  : Nat := 0
  bootSlot  : Fin 2 := 0
  header    : List Byte := []
  fallback  : Bool := false
  noImage   : Bool := false
  certBad   : Bool := false
  /-- the first valid copy of the device certificate, found at boot (R388) -/
  cert      : Option (Fin 2) := none
  staged    : Bool := false
  stageNext : Option Nat := none
  mr        : Vector (BitVec 256) 8 := Vector.replicate 8 0
  mr7Data   : Vector Word 8 := Vector.replicate 8 0
  end_      : Nat := 0
  jseq      : Word := 0
  next      : Nat := 0
  trees     : List Nat := []
  treeGen   : Option Nat := none
  signed    : List Nat := []
  /-- the reports taken on a packet's first run, for its restarts (R394): the packet, the content and its index -/
  reserved  : List (Packet × List Byte × Nat) := []
  nbrNonce  : Vector Word 8 := Vector.replicate 8 0
  nbrPort   : Port := 0
  nbrReq    : Option NbrRequest := none
  nbr       : NbrStatus := {}
  nextHi    : Byte := 0
  deriving DecidableEq, Repr

/-! ## Identification block (R407, R408, R428, R429, R437, R438) -/

/-- I3C transfers of host software (R429). -/
structure I3c where
  dir     : Bool := false
  len     : BitVec 5 := 0
  reg     : Byte := 0
  pin     : BitVec 7 := 0
  overrun : Bool := false
  bad     : Bool := false
  absent  : Bool := false
  nack    : Bool := false
  done    : Bool := false
  busy    : Bool := false
  data    : Vector Word 4 := Vector.replicate 4 0
  /-- what the write transfers have sent, oldest first: pin, register offset and bytes -/
  sent    : List (Nat × Byte × List Byte) := []
  deriving DecidableEq, Repr

/-- Diagnostic mode and its window (R437, R438). -/
structure Diag where
  active  : Bool := false
  range   : Bool := false
  ue      : Bool := false
  refused : Bool := false
  cluster : BitVec 4 := 0
  space   : BitVec 2 := 0
  addr    : BitVec 35 := 0
  hi      : Word := 0
  deriving DecidableEq, Repr

/-- The identification block with the companion chips' state. `misses`: reads in a row a pin's chip left unanswered; `polled`: when it was read last. -/
structure IdBlock where
  scratch  : Word := 0
  i3c      : I3c := {}
  diag     : Diag := {}
  misses   : Vector Nat 96 := Vector.replicate 96 0
  polled   : Vector (Option Nat) 96 := Vector.replicate 96 none
  /-- pins with an assigned companion chip (ID_I3C_PRESENT) -/
  assigned : BitVec 96 := 0
  dynAddr  : Option (BitVec 7) := none
  deriving DecidableEq, Repr

end Sys2Proof.Machine
end

