-- ==== Sys2Proof/Machine/State.lean ====
section
/-! DEFINITION. The state of the GL9600 and its content right after power-on: PORST_N and PERST_N low, nothing booted. -/
namespace Sys2Proof.Machine

/-- Faults a step may end in: none. Every command of the table has an effect the spec gives, errors of the hardware included, which
are state (R343). -/
inductive Fault where
  deriving DecidableEq, Repr

/-- Refusals a step may end in. -/
inductive Refusal where
  /-- Raised by an arm of `exec` whose command has no meaning yet; safe: the machine stops where the hardware goes on. -/
  | notModelled (mnemonic : String)
  deriving DecidableEq, Repr

/-- The state of the device. The model's own fields: `pending` (the queue of commands), `now` (the device's count of time, log 2), `free` (the counter
free values are drawn from, log 3). `netOff`: network time less `now` (R306). `reqWait`: requests that wait for REQ_ACK to clear (R441). `recent`: the
latest requests, commits and descriptors, with their instants (R243). `siteOf`: the site index of each cluster (R72). `present`: pins with a companion
chip, less those absent until an arm point (R406); `rejoin`: pins whose chip has joined again; `lostPins`: pins whose chip was lost. -/
structure State where
  pending  : List Instr := []
  now      : Nat := 0
  netOff   : Int := 0
  free     : Nat := 0
  sites    : Vector SiteRec 12 := Vector.replicate 12 {}
  reqWait  : Vector (BitVec 8) 12 := Vector.replicate 12 0
  gens     : Vector GenSlots 12 := Vector.replicate 12 {}
  seqs     : Vector Seqr 12 := Vector.replicate 12 {}
  recent   : Vector Recent 12 := Vector.replicate 12 {}
  cl       : Vector ClusterEng 12 := Vector.replicate 12 {}
  pairs    : Vector Pair 48 := Vector.replicate 48 {}
  siteOf   : Vector Cluster 12 := Vector.ofFn id
  gangs    : Vector (Option Gang) 12 := Vector.replicate 12 none
  mem      : Memory := {}
  sched    : Sched := {}
  rope     : Rope := {}
  time     : TimeUnit := {}
  cal      : Cal := {}
  pwr      : Power := {}
  flt      : Faults := {}
  host     : HostPort := {}
  cmd      : CmdEngine := {}
  sec      : Security := {}
  ids      : IdBlock := {}
  present  : BitVec 96 := 0
  rejoin   : BitVec 96 := 0
  lostPins : BitVec 96 := 0
  deriving DecidableEq, Repr

/-- Right after power-on (R370 to R374). -/
def State.reset : State := {}

end Sys2Proof.Machine
end

