-- ==== Sys2Proof/Machine/CaptureUnit.lean ====
section
/-! DEFINITION. The compare/capture engine of a cluster (R114 to R138): observations, records, capture blocks, the acquisition
engine. The capture FIFO holds the blocks that have not moved to the stream's HBM area, the open one included (log 14). -/
namespace Sys2Proof.Machine

/-- The size of the capture FIFO in bytes (R137). -/
def fifoBytes : Nat := 256 * 1024

/-- A record word: type, and bits 27:0 (R123). -/
def recWord (ty bits : Nat) : Word := BitVec.ofNat 32 (ty * 2 ^ 28 + bits % 2 ^ 28)

/-- 16-bit words packed two to a data word (R124). -/
def pack16 : List (BitVec 16) → List Word
  | [] => []
  | [a] => [a.setWidth 32]
  | a :: b :: rest => (b ++ a) :: pack16 rest

/-- The two words of a 48-bit address in a record: bits 47:32 and 31:0 (R123). -/
def vaddrHi (v : Nat) : Nat := bitsOf v 32 16

def vaddrLo (v : Nat) : Word := BitVec.ofNat 32 v

/-- A 96-bit stamp as three words (R304). -/
def timeWords (t : Int) : List Word :=
  let s := stampOf t
  [s.extractLsb' 0 32, s.extractLsb' 32 32, s.extractLsb' 64 32]

/-- The CAIRN record (R127). -/
def Cairn.words (c : Cairn) : List Word :=
  [recWord 8 (c.cause * 2 ^ 16 + c.entry.toNat), c.segment, vaddrLo c.vaddr,
   BitVec.ofNat 32 (vaddrHi c.vaddr + c.tset.toNat * 2 ^ 16 + c.lset.toNat * 2 ^ 24)] ++ timeWords c.time ++ [c.burstId]

/-- The words of the record being grown, and how many records they are (R123, R125). -/
def OpenRec.words : OpenRec → List Word × Nat
  | .none => ([], 0)
  | .zrun n => ([recWord 1 n], 1)
  | .lit ws 0 => (recWord 2 ws.length :: pack16 ws, 1)
  | .lit ws g => (recWord 2 ws.length :: pack16 ws ++ [recWord 1 g], 2)
  | .raw ws => (recWord 4 ws.length :: pack16 ws, 1)

/-- Body bytes of a block, the record being grown included. -/
def OpenBlock.size (b : OpenBlock) : Nat := 4 * (b.words.length + b.openRec.words.1.length)

/-- The record being grown ends (R125). -/
def OpenBlock.flush (b : OpenBlock) : OpenBlock :=
  let (ws, n) := b.openRec.words
  { b with words := b.words ++ ws, recs := b.recs + n, openRec := .none }

/-- The 4,096 bytes of a capture or stamp block (R121, R148); a block an uncorrectable error struck has its CRC complemented
(R160). -/
def ClosedBlock.bytes (b : ClosedBlock) (magic : Nat) (cluster : Cluster) : List Byte :=
  let body := wordsBytes b.blk.words
  let head := leBytes 4 magic ++ leBytes 1 cluster.val ++ leBytes 1 b.blk.mode
    ++ leBytes 2 (bitAt b.blk.first 0 + bitAt (b.blk.last && b.blk.mode ≠ 0) 1 + bitAt b.blk.dropIn 2)
    ++ leBytes 4 b.seq.toNat ++ leBytes 4 b.blk.burstId.toNat ++ leBytes 2 body.length ++ leBytes 2 b.blk.recs
    ++ leBytes 4 0 ++ leBytes 8 b.blk.firstVaddr
  let data := head ++ body ++ List.replicate (4060 - body.length) 0
  let crc := crc32c data
  data ++ leBytes 4 (if b.bad then ~~~crc else crc).toNat

def captureMagic : Nat := 0x50434C47

def stampMagic : Nat := 0x53544C47

/-- Fill of the capture FIFO in bytes (R137). -/
def Capture.fill (c : Capture) : Nat := 4096 * c.fifo.length + (c.open_.map fun b => 32 + b.size).getD 0

/-- HIGH_WATER (R139). LEVEL and HIGH_WATER count a begun KiB as a whole one: the spec gives no rounding (DESIGN CHOICE, log 26). -/
def Capture.noteFill (c : Capture) : Capture := { c with highWater := max c.highWater ((c.fill + 1023) / 1024) }

/-- Closing the open block and queueing it (R122). -/
def Capture.close (c : Capture) (last : Bool) : Capture :=
  match c.open_ with
  | none => c
  | some b =>
    ({ c with open_ := none, fifo := c.fifo ++ [{ blk := { b.flush with last := last }, seq := c.nextSeq }],
              nextSeq := c.nextSeq + 1, blkCnt := satInc c.blkCnt } : Capture).noteFill

/-- An open block of the burst with room for `need` more bytes of records, the first of which refers to vector `va` (R122). -/
def Capture.room (c : Capture) (need va mode : Nat) (t : Int) (bid : Word) : Capture × OpenBlock :=
  let fresh := fun (c : Capture) =>
    ({ c with firstBlk := false },
     { since := t, firstVaddr := va, first := c.firstBlk, burstId := bid, mode := mode : OpenBlock })
  match c.open_ with
  | none => fresh c
  | some b => if b.size + need ≤ 4060 && b.burstId = bid then (c, b) else fresh (c.close false)

/-- What the writer still holds for the reader (R137, R138): the bytes in the capture FIFO; in WINDOW mode, where the history buffer takes
the FIFO's place, two bytes for each vector from the oldest one whose block has not moved to HBM up to vector `va`. -/
def Capture.backlog (c : Capture) (va mode : Nat) (bid : Word) : Nat :=
  if mode = 4 then
    let blks := c.fifo.map (·.blk) ++ c.open_.toList
    let older := (blks.filter fun b => b.burstId ≠ bid).length
    4096 * older + 2 * ((blks.find? fun b => b.burstId = bid).map fun b => va - b.firstVaddr).getD 0
  else c.fill

/-- The size of the buffer in use: the FIFO's 256 KiB, or the history buffer's 512 KiB (R131, R137). -/
def bufferBytes (mode : Nat) : Nat := if mode = 4 then 2 * fifoBytes else fifoBytes

/-- A record of `need` bytes finds no room (R138). -/
def Capture.full (c : Capture) (need va mode : Nat) (bid : Word) : Bool :=
  if mode = 4 then decide (bufferBytes mode ≤ c.backlog va mode bid) else decide (bufferBytes mode < c.backlog va mode bid + need)

/-- A record finds no room: the discarding of R138 begins at vector `va`. -/
def Capture.startDrop (c : Capture) (va : Nat) : Capture :=
  { c with dropping := some (c.dropping.getD va) }

/-- A vector whose observations are discarded (R138). -/
def Capture.lose (c : Capture) (va : Nat) : Capture :=
  { c with lostFrom := if c.dropped = 0 then va else min va c.lostFrom, dropped := c.dropped + 1, burstLoss := true }

/-- One whole record (R122): it ends the record being grown. -/
def Capture.record (c : Capture) (ws : List Word) (va mode : Nat) (t : Int) (bid : Word) : Capture :=
  if c.dropping.isSome then c
  else if c.full (4 * ws.length) va mode bid then c.startDrop va
  else
    let c := { c with open_ := c.open_.map OpenBlock.flush }
    let (c, b) := c.room (4 * ws.length) va mode t bid
    { c with open_ := some { b with words := b.words ++ ws, recs := b.recs + 1 } }.noteFill

/-- One more 16-bit word of a RAW record (R123, R126). -/
def Capture.pushRaw (c : Capture) (w : BitVec 16) (va mode : Nat) (t : Int) (bid : Word) : Capture :=
  if c.dropping.isSome then c
  else if c.full 8 va mode bid then c.startDrop va
  else
    let grow := fun (b : OpenBlock) => match b.openRec with
      | .raw ws => if ws.length < 2028 && { b with openRec := .raw (ws ++ [w]) }.size ≤ 4060
          then some { b with openRec := .raw (ws ++ [w]) } else none
      | _ => none
    match c.open_.bind grow with
    | some b => { c with open_ := some b }.noteFill
    | none =>
      let (c, b) := { c with open_ := c.open_.map OpenBlock.flush }.room 8 va mode t bid
      { c with open_ := some { b with openRec := .raw [w] } }.noteFill

/-- The record after one more residue word (R125), if it still grows the record in hand. -/
def OpenRec.grow (r : OpenRec) (w : BitVec 16) : Option OpenRec :=
  match r, w == 0 with
  | .zrun n, true => if n < 268435455 then some (.zrun (n + 1)) else none
  | .lit ws g, true => if g < 4 then some (.lit ws (g + 1)) else none
  | .lit ws g, false =>
    if ws.length + g + 1 ≤ 2028 then some (.lit (ws ++ List.replicate g 0 ++ [w]) 0) else none
  | _, _ => none

/-- One more residue word in TOTAL mode (R125). A fifth zero after an RLIT turns the gap into a ZRUN. -/
def Capture.pushResidue (c : Capture) (w : BitVec 16) (va : Nat) (t : Int) (bid : Word) : Capture :=
  if c.dropping.isSome then c
  else if c.full 8 va 2 bid then c.startDrop va
  else
    let start : OpenRec := if w = 0 then .zrun 1 else .lit [w] 0
    let grown := c.open_.bind fun b => (b.openRec.grow w).bind fun r =>
      if { b with openRec := r }.size ≤ 4060 then some { b with openRec := r } else none
    let tooLong := c.open_.bind fun b => match b.openRec with
      | .lit ws 4 => if w = 0 then some { { b with openRec := .lit ws 0 }.flush with openRec := .zrun 5 } else none
      | _ => none
    match grown, tooLong with
    | some b, _ | none, some b => { c with open_ := some b }.noteFill
    | none, none =>
      let (c, b) := { c with open_ := c.open_.map OpenBlock.flush }.room (if w = 0 then 4 else 8) va 2 t bid
      { c with open_ := some { b with openRec := start } }.noteFill

/-! ## Observations and compares -/

/-- The OBS of pin `k` in an observation word (R124). -/
def obsAt (w : BitVec 16) (k : Nat) : BitVec 2 := w.extractLsb' (2 * k) 2

/-- The residue word of a vector (R124). -/
def Vec.residue (v : Vec) (prev : BitVec 16) : BitVec 16 :=
  (List.finRange 8).foldl (fun acc (k : Fin 8) =>
    let e := if v.clock.getLsbD k then obsAt prev k else (v.syms[k].expected).getD (obsAt prev k)
    acc ||| ((obsAt v.obs k ^^^ e).setWidth 16 <<< (2 * k.val))) 0

/-- Whether pin `k` of a vector is compared (R115). -/
def Vec.compared (v : Vec) (k : Fin 8) : Bool := v.syms[k].compares && !v.clock.getLsbD k

/-- Whether an observation fails pin `k` (R115). -/
def Vec.fails (v : Vec) (k : Fin 8) (obs : BitVec 16) : Bool :=
  v.compared k && some (obsAt obs k) ≠ v.syms[k].expected

/-- OBS of a channel from the states of its port's comparators (R114): at S0, or in WINDOW mode, for a symbol that compares, the first state
at which its pass condition does not hold. A clock pin's symbol is ignored (R30), yet R114 speaks of every pin: the model lets the symbol of a clock pin in
WINDOW mode choose the state it observes, as it does on any pin (DESIGN CHOICE, log 26). -/
def Vec.choose (v : Vec) (k : Fin 8) (w : PortWave) : BitVec 2 :=
  if v.window.getLsbD k.val then
    match v.syms[k].compares, v.syms[k].expected with
    | true, some e => ((w.atS0 :: w.later).find? (· ≠ e)).getD w.atS0
    | _, _ => w.atS0
  else w.atS0

/-- The pin whose comparators channel `k` reads (R85, R114). -/
def Vec.port (v : Vec) (k : Nat) : Nat := if v.mux.getLsbD (k / 2) then k - k % 2 else k

/-- The observation word of a vector from its ports' comparators (R114); an absent port observes 0b11 (R406). -/
def Vec.observation (v : Vec) (absent : Byte) (ws : Vector PortWave 8) : BitVec 16 :=
  (List.finRange 8).foldl (fun acc (k : Fin 8) =>
    let o : BitVec 2 := if absent.getLsbD (v.port k.val) then 0b11 else v.choose k ws[k]
    acc ||| (o.setWidth 16 <<< (2 * k.val))) 0

/-- The vector's state after the observations of the pins in `pins` (R114). -/
def Vec.observe (v : Vec) (pins : Byte) (obs : BitVec 16) : Vec :=
  let m := (List.range 8).foldl (fun acc k => if pins.getLsbD k then acc ||| ((0b11 : BitVec 16) <<< (2 * k)) else acc) 0
  { v with seen := v.seen ||| pins, obs := (v.obs &&& ~~~m) ||| (obs &&& m) }

/-- The engine with the parts of earlier bursts that own a vector marked: a tail compare of theirs (R119). -/
def Capture.markTail (c : Capture) (v : Vec) : Capture :=
  if c.older.any (·.bid = v.cairn.burstId) then
    { c with older := c.older.map fun p => if p.bid = v.cairn.burstId then { p with burst := { p.burst with burstTail := true } } else p }
  else { c with burstTail := true }

/-- Whether RESULT of the burst a vector belongs to has been written (R119). -/
def Capture.over (c : Capture) (v : Vec) : Bool := c.ended || c.older.any (·.bid = v.cairn.burstId)

/-- The counters a completed compare of pin `k` reaches (R117), or those a tail compare reaches (R119). -/
def Capture.compare (c : Capture) (v : Vec) (k : Fin 8) (obs : BitVec 16) : Capture × Vec :=
  if !v.compared k then (c, v)
  else
    let bad := v.fails k obs
    if c.over v then
      ({ c with tail := true, tailFail := if bad then satInc c.tailFail else c.tailFail }.markTail v, v)
    else
      let c := { c with cmpCnt := satInc c.cmpCnt }
      if !bad then (c, v)
      else
        let newVec := v.failed = 0
        let first := match c.firstFail with
          | none => some (v.vaddr, bitMask 8 k)
          | some (a, m) => if v.vaddr < a then some (v.vaddr, bitMask 8 k)
              else if a = v.vaddr then some (a, setBit m k) else some (a, m)
        ({ c with pinFail := upd c.pinFail k satInc, fail := true,
                  failVec := if newVec then satInc c.failVec else c.failVec, firstFail := first },
         { v with failed := setBit v.failed k })

/-! ## Forming vectors -/

/-- The newest `n` cairns of a history stay; the older ones are gone (R136). -/
def keepCairns : Nat → List HistVec → List HistVec
  | _, [] => []
  | n, h :: rest =>
    if h.cairn.cause = 0 then h :: keepCairns n rest
    else if n = 0 then { h with cairn := { h.cairn with cause := 0 } } :: keepCairns 0 rest
    else h :: keepCairns (n - 1) rest

/-- A vector enters the history buffer of 262,144 words, with its cairn among the last 512 (R131, R136). -/
def AcqState.push (a : AcqState) (v : Vec) : AcqState :=
  if !a.active then a
  else
    let h : HistVec := ⟨v.vaddr, v.obs, v.failed, v.cairn.segment, bitOf v.cairn.cause 0, v.start, v.cairn⟩
    { a with history := keepCairns 512 ((h :: a.history).take 262144),
             fillBase := some (a.fillBase.getD (v.vaddr, v.start)) }

/-- One vector of an acquisition window: its cairn, then its observation (R136); or it is lost (R138). -/
def Capture.windowVec (c : Capture) (h : HistVec) (t : Int) (bid : Word) : Capture :=
  let c := if h.cairn.cause = 0 then c else c.record h.cairn.words h.vaddr 4 t bid
  let c := c.pushRaw h.obs h.vaddr 4 t bid
  if c.dropping.isSome then c.lose h.vaddr
  else { c with acq := { c.acq with written := h.vaddr + 1, posted := if c.acq.trig.any (· ≤ h.vaddr) then c.acq.posted + 1 else c.acq.posted } }

/-- The ACQ_BEGIN record of an acquisition that has triggered: where it finds no room, or a drop is running, it is written once the drop is over
(R136, R138). -/
def Capture.openAcq (c : Capture) (t : Int) (bid : Word) : Capture :=
  match c.acq.beginDue with
  | none => c
  | some ws =>
    let d := c.record ws c.acq.written 4 t bid
    if d.dropping.isSome then { c with dropping := d.dropping } else { d with acq := { d.acq with beginDue := none } }

/-- The window of the history recorded so far, from `written` to the vector before `stop`, behind its ACQ_BEGIN (R136). -/
def Capture.windowUpTo (c : Capture) (stop : Nat) (t : Int) (bid : Word) : Capture :=
  let c := c.openAcq t bid
  if c.acq.beginDue.isSome then c
  else (c.acq.history.reverse.filter fun h => c.acq.written ≤ h.vaddr && h.vaddr < stop).foldl (fun c h => c.windowVec h t bid) c

/-- ACQ_BEGIN, then the window as far as it is recorded (R136). -/
def Capture.begin_ (c : Capture) (g : AcqConfig) (source : Nat) (tv : Nat) (forced bnd : Bool) (tt : Int) (t : Int) (bid : Word) :
    Capture :=
  let ws := [recWord 5 (source * 2 ^ 24 + bitAt forced 16 + bitAt bnd 17), g.armId, vaddrLo tv,
    BitVec.ofNat 32 (vaddrHi tv), BitVec.ofNat 32 g.pre, BitVec.ofNat 32 g.post] ++ timeWords tt ++ [0]
  ({ c with acqTrig := some tv, boundary := c.boundary || bnd,
            acq := { c.acq with trig := some tv, forced := forced, written := tv - g.pre, posted := 0, waiting := none, beginDue := some ws } } :
    Capture).windowUpTo (tv + g.post) t bid

def AcqSource.code : AcqSource → Nat
  | .force => 0 | .fail => 1 | .vaddr => 2 | .segment => 3 | .pattern => 4 | .evt => 5 | .time => 6 | .rope => 7

/-- A vector is lost in a drop (R138): a stamped trigger that waited for it takes it all the same (R133). -/
def Capture.loseVec (c : Capture) (a : AcqConfig) (va : Nat) (t : Int) (bid : Word) : Capture :=
  let c := c.lose va
  match c.acq.waiting with
  | some (tv, bnd, tt) => if tv = va then c.begin_ a a.source.code tv false bnd tt t bid else c
  | none => c

/-- A vector with every observation formed is recorded (R123, R125, R126, R136), or lost (R138). -/
def Capture.form (c : Capture) (g : CapConfig) (a : AcqConfig) (v : Vec) (t : Int) (bid : Word) : Capture :=
  let res := v.residue c.prevObs
  let c := { c with prevObs := v.obs }
  let mark := fun (c : Capture) (m : Nat) => if v.cairn.cause = 0 then c else c.record v.cairn.words v.vaddr m t bid
  let lost := fun (c : Capture) => if c.dropping.isSome then c.lose v.vaddr else c
  if g.mode = .off || v.lost then c
  else if c.dropping.isSome then c.loseVec a v.vaddr t bid
  else match g.mode with
    | .off => c
    | .failLog =>
      let c := mark c 1
      lost (if v.failed = 0 then c
        else c.record [recWord 3 (v.failed.toNat * 2 ^ 20 + vaddrHi v.vaddr), vaddrLo v.vaddr] v.vaddr 1 t bid)
    | .total => lost ((mark c 2).pushResidue res v.vaddr t bid)
    | .raw => lost ((mark c 3).pushRaw v.obs v.vaddr 3 t bid)
    | .window =>
      let c := { c with acq := c.acq.push v }
      match c.acq.trig, c.acq.waiting with
      | some tv, _ => c.windowUpTo (tv + a.post) t bid
      | none, some (tv, bnd, tt) => if tv = v.vaddr then c.begin_ a a.source.code tv false bnd tt t bid else c
      | none, none => c

/-! ## Triggers without a stamp (R133, R134) -/

/-- The first vector of the pre-trigger fill (R134). -/
def Capture.fillFrom (c : Capture) : Nat := (c.acq.fillBase.map (·.1)).getD 0

/-- An acquisition has still to be triggered (R132). -/
def Capture.pending (c : Capture) : Bool := c.acq.active && c.acq.trig.isNone && c.acq.waiting.isNone && c.burstOpen

/-- It waits for its source's trigger; a TIME trigger once ignored cannot recur (R134). -/
def Capture.watching (c : Capture) : Bool := c.pending && !c.acq.retired

/-- Whether a recorded vector meets the condition of a source without a stamp (R133). -/
def AcqConfig.met (g : AcqConfig) (h : HistVec) : Bool :=
  match g.source with
  | .force => true
  | .fail => h.failed &&& byteAt g.sparam 0 ≠ 0
  | .vaddr => h.vaddr = fieldAt g.sparam 0 6
  | .segment => h.first && h.segment = u32At g.sparam 0
  | .pattern => (h.obs ^^^ u16At g.sparam 0) &&& u16At g.sparam 2 = 0
  | .evt | .time | .rope => false

/-- The recorded vectors from `scan` on that meet an unstamped condition, the newest first. -/
def Capture.hits (c : Capture) (g : AcqConfig) : List HistVec := c.acq.history.filter fun h => c.acq.scan ≤ h.vaddr && g.met h

/-- A trigger of a source without a stamp (R133, R134): ignored before the fill is complete, FORCE apart. -/
def Capture.plainTrigger (c : Capture) (g : AcqConfig) (t : Int) (bid : Word) : Capture :=
  let base := c.fillFrom
  if g.source = .force then
    match (c.acq.history.filter fun h => base + g.pre ≤ h.vaddr).getLast? with
    | some h => c.begin_ g g.source.code h.vaddr true false h.start t bid
    | none => c
  else match (c.hits g).getLast? with
    | none => c
    | some h =>
      if h.vaddr < base + g.pre then { c with trigIgn := satInc c.trigIgn, acq := { c.acq with scan := h.vaddr + 1 } }
      else c.begin_ g g.source.code h.vaddr false false h.start t bid

/-- A burst whose RESULT is written still records its tail vectors (R119), and a trigger without a stamp may be one of them (R133): those it ignores
are counted, and the first of the others is taken. -/
def Capture.tailTrigger (c : Capture) (g : AcqConfig) (t : Int) (bid : Word) : Capture :=
  if !c.watching then c
  else if g.source = .force then c.plainTrigger g t bid
  else
    let early := (c.hits g).filter fun h => h.vaddr < c.fillFrom + g.pre
    ({ c with trigIgn := satAdd c.trigIgn early.length,
              acq := { c.acq with scan := if early.isEmpty then c.acq.scan else c.fillFrom + g.pre } } : Capture).plainTrigger g t bid

/-! ## The end of an acquisition and of a burst -/

/-- ACQ_END (R136): the acquisition is complete. A record without room is written once the drop it begins has ended (R138). -/
def Capture.acqEnd (c : Capture) (a : AcqConfig) (t : Int) (bid : Word) : Capture :=
  match c.acq.trig with
  | none => c
  | some tv =>
    let short := decide (c.acq.written < tv + a.post)
    let d := c.record [recWord 6 (bitAt short 0), BitVec.ofNat 32 c.acq.posted] tv 4 t bid
    if d.dropping.isSome then { c with dropping := d.dropping }
    else
      { d with acqDone := true, trunc := d.trunc || short, forced := d.forced || d.acq.forced,
               acq := { d.acq with trig := none, active := false, doneIds := a.armId :: d.acq.doneIds } }

/-- The cluster's BURST_END record, which closes the block as the burst's last (R119, R122, R123). Three points the spec leaves open (DESIGN
CHOICE, log 26): as the first record of a block, ACQ_END refers to the trigger vector and BURST_END to the burst's last vector (0 when none
played); a BURST_END that falls due during a drop, or finds no room, is written when the drop ends. -/
def Capture.burstEnd (c : Capture) (g : CapConfig) (a : AcqConfig) (mode vectors : Nat) (t : Int) (bid : Word) : Capture :=
  if g.mode = .off || !c.burstOpen then { c with burstOpen := false }
  else
    let c := (c.acqEnd a t bid).record [recWord 9 (bitAt c.fail 0 + bitAt c.burstTail 1 + bitAt c.burstLoss 2), c.failVec,
      vaddrLo vectors, BitVec.ofNat 32 (vaddrHi vectors)] (vectors - 1) mode t bid
    if c.dropping.isSome then c else { c.close true with burstOpen := false }

def CapMode.code : CapMode → Nat
  | .off => 0 | .failLog => 1 | .total => 2 | .raw => 3 | .window => 4

/-- The vectors one burst lost in a drop that is over (R138): what an acquisition recorded before them, then one DROP record. A drop that outlasts
its burst is one DROP record in each burst's own blocks, as a block holds one burst (R122; DESIGN CHOICE, log 26). -/
def Capture.endLoss (c : Capture) (g : CapConfig) (a : AcqConfig) (t : Int) (bid : Word) : Capture :=
  let n := c.dropped
  if c.dropping.isSome || n = 0 then c
  else
    let c := match c.acq.trig with
      | some tv => c.windowUpTo (min (tv + a.post) c.lostFrom) t bid
      | none => c
    let d := c.record [recWord 0xC (vaddrHi c.lostFrom), vaddrLo c.lostFrom, vaddrLo n, BitVec.ofNat 32 (vaddrHi n)] c.lostFrom g.mode.code t bid
    if d.dropping.isSome then { c with dropping := d.dropping }
    else
      { d with loss := true, dropVec := satAdd d.dropVec n, dropped := 0, open_ := d.open_.map fun b => { b with dropIn := true },
               acq := { d.acq with written := max d.acq.written (d.lostFrom + n) } }

/-- A burst whose RESULT is written: its tail triggers, its DROP record, and once its last observation is formed (`tail`: not yet) its BURST_END
(R119, R133, R138). -/
def Capture.finish (c : Capture) (g : CapConfig) (a : AcqConfig) (vectors : Nat) (tail : Bool) (t : Int) (bid : Word) : Capture :=
  let c := (c.tailTrigger a t bid).endLoss g a t bid
  if tail then c else c.burstEnd g a g.mode.code vectors t bid

/-- An operation of the engine on an earlier burst's part: the engine after it, and the part. -/
def Capture.under (c : Capture) (p : CapPart) (f : Capture → Capture) : Capture × CapPart :=
  let d := f { c with toCapBurst := p.burst }
  ({ d with toCapBurst := c.toCapBurst }, { p with burst := d.toCapBurst })

/-- An acquisition of the identifier has run: none of a later burst runs again (R132). -/
def AcqState.disown (x : AcqState) (id : Word) : AcqState :=
  if x.armId = id && x.trig.isNone then { x with active := false, waiting := none, doneIds := id :: x.doneIds } else x

/-- The acquisitions completed so far: one that had triggered when its burst ended is complete (R132, R136). -/
def AcqState.completed (a : AcqState) : List Word := if a.trig.isSome || a.waiting.isSome then a.armId :: a.doneIds else a.doneIds

/-- The earlier bursts are finished in their order (R119): each once its last observation is formed and its BURST_END written. `fuel` counts them. -/
def Capture.settleOlder (t : Int) : Nat → Capture → Capture
  | 0, c => c
  | n + 1, c => match c.older with
    | [] => c
    | p :: ps =>
      let (c, q) := c.under p fun x => x.finish p.config p.acqCfg p.vectors (x.vecs.any (·.cairn.burstId = p.bid)) t p.bid
      let ran := q.burst.acq.armId ≠ 0 && q.burst.acq.completed.contains q.burst.acq.armId
      let later := fun (x : AcqState) => if ran then x.disown q.burst.acq.armId else x
      let c := { c with acq := later c.acq }
      let ps := ps.map fun (x : CapPart) => { x with burst := { x.burst with acq := later x.burst.acq } }
      if q.burst.burstOpen then { c with older := q :: ps } else { c with older := ps }.settleOlder t n

/-- What the engine writes as soon as it can (R119, R136, R138), the earlier bursts first: `vectors` the burst in hand has played. -/
def Capture.settle (c : Capture) (g : CapConfig) (a : AcqConfig) (vectors : Nat) (t : Int) (bid : Word) : Capture :=
  let c := c.settleOlder t c.older.length
  if !c.older.isEmpty then c
  else if c.ended && c.burstOpen then c.finish g a vectors (!c.vecs.isEmpty) t bid
  else c.endLoss g a t bid

/-- One formed vector: of the oldest earlier burst, or of the burst in hand. -/
def Capture.formOne (c : Capture) (g : CapConfig) (a : AcqConfig) (v : Vec) (t : Int) (bid : Word) : Capture :=
  match c.older.find? (·.bid = v.cairn.burstId) with
  | some p =>
    let (c, q) := c.under p fun c => c.form p.config p.acqCfg v t p.bid
    { c with older := c.older.map fun (x : CapPart) => if x.bid = p.bid then q else x }.settleOlder t c.older.length
  | none => c.form g a v t bid

/-- Every vector at the front whose eight observations are formed (R114); `fuel` counts the vectors waiting. -/
def Capture.formAll (g : CapConfig) (a : AcqConfig) (t : Int) (bid : Word) : Nat → Capture → Capture
  | 0, c => c
  | n + 1, c => match c.vecs with
    | v :: rest => if v.seen = 0xFF then ({ c with vecs := rest }.formOne g a v t bid).formAll g a t bid n else c
    | [] => c

/-- The vector a completed compare names: the oldest one at its address with a pin of those named still to come. -/
def Capture.target (c : Capture) (vaddr : Nat) (pins : Byte) : Option Vec :=
  c.vecs.find? fun v => v.vaddr = vaddr && pins &&& ~~~v.seen ≠ 0

/-- The completed compares of a vector (R56): the engine, and for each pin its completion instant and whether it failed; the last answer:
whether it is the vector's first failure. -/
def Capture.complete (c : Capture) (g : CapConfig) (a : AcqConfig) (v : Vec) (pins : Byte) (obs : BitVec 16) (t : Int) (bid : Word) :
    Capture × List (Int × Nat × Bool) × Bool :=
  let new := pins &&& ~~~v.seen
  let tail := c.over v
  let o := v.observe new obs
  let (c, o, done) := (List.finRange 8).foldl (fun (c, o, done) (k : Fin 8) =>
    if new.getLsbD k then
      let (c', o') := c.compare o k obs
      (c', o', if v.compared k && !tail then done ++ [(v.closing[k] + 16 * nsUnits, k.val, v.fails k obs)] else done)
    else (c, o, done)) (c, o, ([] : List (Int × Nat × Bool)))
  let vecs := c.vecs.map fun x => if x = v then o else x
  ({ c with vecs := vecs }.formAll g a t bid vecs.length, done, v.failed = 0 && o.failed ≠ 0)

/-- The vectors of the burst in hand that wait for observations. -/
def Capture.mine (c : Capture) : List Vec := c.vecs.filter fun v => !(c.older.any (·.bid = v.cairn.burstId))

/-- Every vector the engine has lost since its last DROP records. -/
def Capture.lostNow (c : Capture) : Nat := c.dropped + (c.older.map (·.burst.dropped)).sum

/-- The vectors played whose observations are still to come when a drop ends: they are the last the drop loses (R138), each in its own burst. The
next vector to play is the one at which recording resumes (DEDUCED, log 26). -/
def Capture.loseFlight (c : Capture) (g : CapConfig) (a : AcqConfig) (t : Int) (bid : Word) : Capture :=
  let one := fun (c : Capture) (v : Vec) => match c.older.find? (·.bid = v.cairn.burstId) with
    | some p =>
      if p.config.mode = .off then c
      else
        let (c, q) := c.under p fun c => c.loseVec p.acqCfg v.vaddr t p.bid
        { c with older := c.older.map fun (x : CapPart) => if x.bid = p.bid then q else x }
    | none => if g.mode = .off then c else c.loseVec a v.vaddr t bid
  let d := (c.vecs.filter fun v => !v.lost).foldl one c
  { d with vecs := d.vecs.map fun v => { v with lost := true } }

/-- The end of a drop (R138): DROP records, the oldest burst's first, and DROP_END on the next vector to play, which the stamp stream takes with the
other causes of that vector (R127, R148). -/
def Capture.endDrop (c : Capture) (g : CapConfig) (a : AcqConfig) (vectors : Nat) (t : Int) (bid : Word) : Capture :=
  let c := c.loseFlight g a t bid
  ({ c with dropping := none, cause := if c.lostNow = 0 then c.cause else c.cause ||| 64 } : Capture).settle g a vectors t bid

/-- The burst that ends at an arm point before it is finished stays with the engine (R119, R122): `vectors` it played, under the
configuration `g` and `a`. -/
def Capture.keep (c : Capture) (g : CapConfig) (a : AcqConfig) (bid : Word) (vectors : Nat) : Capture :=
  if c.ended && (c.burstOpen || !c.mine.isEmpty) then { c with older := c.older ++ [⟨g, a, bid, vectors, c.toCapBurst⟩] } else c

/-- The arm point of the engine (R117, R132, R134, R317); a DROP_END not yet carried is the next burst's (R127); what it held of the burst before is kept
by `keep`. -/
def Capture.arm (c : Capture) (g : CapConfig) (a : AcqConfig) : Capture :=
  let same := c.acq.armId = a.armId
  let done := c.acq.completed
  { c with toCapBurst := { burstOpen := true, firstBlk := true, acq :=
             { armId := a.armId, active := g.mode = .window && a.armId ≠ 0 && !done.contains a.armId, doneIds := done,
               autoAcc := if same then c.acq.autoAcc else 0, retired := same && c.acq.retired } },
           pinFail := Vector.replicate 8 0, firstFail := none, cmpCnt := 0, cause := c.cause &&& 64 }

end Sys2Proof.Machine
end

