-- ==== Sys2Proof/Machine/TdcUnit.lean ====
section
/-! DEFINITION. The TDC channels (R140 to R154): conversion, arming, stamps, the stamp stream, statistics, pair differences,
code density. Stamp times are in units of 2 FU (R144), which are 64 SUBNS units. -/
namespace Sys2Proof.Machine

/-- The capacity of a channel's FIFO (R146). -/
def tdcFifo : Nat := 16384

/-- One stamp unit of 2 FU in SUBNS units (R144, R147). -/
def stampUnits : Nat := 2 * fuUnits

/-- The dead time of 2.5 ns in stamp units (R141): 2.5 ns × 2,048 FU/ns / 2. -/
def deadStamps : Int := 2560

/-- The conversion of R144: coarse tick, raw fine code, widths in 2^-6 FU, correction in FU. -/
def stampTime (tick : Int) (code : Nat) (w : List Nat) (corr : Rat) : Int :=
  let half := if code < 64 then 2 * (w.take code).sum + w.getD code 0 else (w.take 64).sum + 640 * 64
  let num := tick * (640 * 128) + half - (roundRat corr + Sys2Proof.Config.tdcLatency) * 128
  (num + 128) / 256

/-- Within 4 FU of a boundary (R130). -/
def nearEdge (t b : Int) : Bool := t - b ≤ 4 * fuUnits && b - t ≤ 4 * fuUnits

/-- Half-open windows (R129). -/
def inWindow (t : Int) (w : Int × Int) : Bool := w.1 ≤ t && t < w.2

/-- The end of a run of vectors: one period after its last vector's start. -/
def Span.stop (s : Span) : Int := s.start + (s.n * s.period * fuUnits : Nat)

/-- A vector and its span (R129): its address, its start, and the start of the next vector, if there is one to come. -/
structure SpanHit where
  vaddr : Nat
  start : Int
  stop  : Option Int
  deriving DecidableEq, Repr

/-- The last vector of a run, with the end of its span. -/
def Span.final (s : Span) (stop : Option Int) : SpanHit := ⟨s.vaddr + s.n - 1, s.stop - (s.period * fuUnits : Nat), stop⟩

/-- The vector whose span [start of v, start of v + 1) holds instant `t` (R129): the span of the vector before a stall reaches to the start of the
next pattern vector, or is still open while the site stalls (`stalled`). The last vector of a burst has no next one, and its span is one period. -/
def spanAt (stalled : Bool) : List Span → Int → Option SpanHit
  | [], _ => none
  | x :: rest, t =>
    let p : Int := ((x.period * fuUnits : Nat) : Int)
    let k := (t - x.start) / p
    let next := (rest.head?).map (·.start)
    if t < x.start then none
    else if k + 1 < (x.n : Int) then some ⟨x.vaddr + k.toNat, x.start + k * p, some (x.start + (k + 1) * p)⟩
    else match next with
      | some y => if t < y then some (x.final (some y)) else spanAt stalled rest t
      | none => if stalled then some (x.final none) else if t < x.stop then some (x.final (some x.stop)) else none

/-- The vector playing at instant `t`, with its start: none in a gap or a stall (R142). -/
def Span.vectorAt (s : Span) (t : Int) : Option (Nat × Int) :=
  let p : Int := ((s.period * fuUnits : Nat) : Int)
  let k := (t - s.start) / p
  if s.start ≤ t && k < (s.n : Int) then some (s.vaddr + k.toNat, s.start + k * p) else none

def vectorAt (ss : List Span) (t : Int) : Option (Nat × Int) := ss.findSome? fun s => s.vectorAt t

/-- The start of a vector address. -/
def Span.startOf (s : Span) (va : Nat) : Option Int :=
  if s.vaddr ≤ va && va < s.vaddr + s.n then some (s.start + ((va - s.vaddr) * s.period * fuUnits : Nat)) else none

def startOf (ss : List Span) (va : Nat) : Option Int := ss.findSome? fun s => s.startOf va

/-- The mode window of a channel, as instants (R142): VWINDOW needs the vectors of the burst. -/
def TdcConfig.vwindow (g : TdcConfig) (ss : List Span) (t : Int) : Bool :=
  match vectorAt ss t with
  | none => false
  | some (v, _) => bitsOf g.start.toNat 0 48 ≤ v && v < bitsOf g.stop.toNat 0 48

/-- The boundary at vector `va` (R142): its start, or the end of the vector before it where `va` is not played. -/
def boundAt (ss : List Span) (va : Nat) : Option Int :=
  (startOf ss va).or (ss.findSome? fun s => if s.vaddr + s.n = va then some (s.start + (s.n * s.period * fuUnits : Nat)) else none)

/-- The boundaries of the mode window (R142). -/
def TdcConfig.bounds (g : TdcConfig) (ss : List Span) : List Int :=
  match g.arm with
  | .vwindow => (boundAt ss (bitsOf g.start.toNat 0 48)).toList ++ (boundAt ss (bitsOf g.stop.toNat 0 48)).toList
  | .twindow => [timeOf g.start, timeOf g.stop]
  | _ => []

/-- The sources that arm a channel at instant `t`, lowest code first (R142, R147). -/
def TdcChan.armedBy (c : TdcChan) (g : TdcConfig) (ss : List Span) (t : Int) : Option Nat :=
  if !g.en then none
  else if c.tWin.any (inWindow t) then some 0
  else match g.arm with
    | .symbol => none
    | .vwindow => if g.vwindow ss t then some 1 else none
    | .twindow => if inWindow t (timeOf g.start, timeOf g.stop) then some 2 else none
    | .continuous => some 3

/-- BOUNDARY of a stamp (R142). -/
def TdcChan.onBoundary (c : TdcChan) (g : TdcConfig) (ss : List Span) (t : Int) : Bool :=
  (g.bounds ss).any (nearEdge t) || c.tWin.any fun w => nearEdge t w.1 || nearEdge t w.2

/-! ## Statistics -/

/-- Saturation to the signed 32-bit range (R150). -/
def sat32 (x : Int) : Int := max (-2147483648) (min x 2147483647)

def bumpBin (b : Nat) : List (Nat × Word) → List (Nat × Word)
  | [] => [(b, 1)]
  | (i, n) :: rest => if i = b then (i, satInc n) :: rest else if b < i then (b, 1) :: (i, n) :: rest
      else (i, n) :: bumpBin b rest

/-- One value into a statistics engine (R150). -/
def Stats.add (s : Stats) (origin : BitVec 32) (bin : BitVec 16) (x0 : Int) : Stats :=
  let x := sat32 x0
  let s := { s with count := s.count + 1, min := if s.count = 0 then x else Min.min s.min x,
                    max := if s.count = 0 then x else Max.max s.max x, sum := s.sum + x, sumSq := s.sumSq + (x * x).toNat }
  let b := (x - origin.toInt) / (bin.toNat : Int)
  if b < 0 then { s with unders := satInc s.unders }
  else if b ≤ 1023 then { s with hist := bumpBin b.toNat s.hist }
  else { s with overs := satInc s.overs }

/-- MEAN in 2^-16 of 2 FU (R154); the nearest value, ties up (log 13). -/
def Stats.mean (s : Stats) : Int := if s.count = 0 then 0 else (2 * s.sum * 65536 + s.count) / (2 * s.count : Nat)

/-- RMS deviation from the mean in 2^-16 of 2 FU (R154): the root of the exact variance, rounded down (log 13). -/
def Stats.rms (s : Stats) : Nat :=
  if s.count = 0 then 0
  else Nat.sqrt (((s.count * s.sumSq : Nat) - s.sum * s.sum).toNat * 2 ^ 32 / (s.count * s.count))

/-- The statistics block of R154. -/
def Stats.block (s : Stats) : List Byte :=
  let i32 := fun (x : Int) => leBytes 4 (BitVec.ofInt 32 x).toNat
  leBytes 8 s.count ++ i32 s.min ++ i32 s.max ++ leBytes 8 (BitVec.ofInt 64 s.mean).toNat ++ leBytes 8 s.rms
    ++ leBytes 4 s.unders.toNat ++ leBytes 4 s.overs.toNat ++ List.replicate 24 0

/-- The histogram of R154: bins 0 to 1,023, four bytes each. -/
def Stats.histogram (s : Stats) : List Byte :=
  (List.range 1024).flatMap fun b => leBytes 4 (((s.hist.find? fun p => p.1 = b).map fun p => p.2.toNat).getD 0)

/-- A channel's statistics cleared (R151): the next stamp sets the reference of INTERVAL. -/
def TdcChan.clearStats (c : TdcChan) : TdcChan := { c with stats := {}, last := none }

/-- A stamp enters its channel's statistics (R150). VPHASE is to the nearest unit, ties up (log 13). -/
def TdcChan.count (c : TdcChan) (g : TdcConfig) (ss : List Span) (stalled : Bool) (t : Int) : TdcChan :=
  let x : Option Int := if g.interval then c.last.map fun l => t - l
    else (spanAt stalled ss (t * stampUnits)).map fun p => (t * stampUnits - p.start + fuUnits) / stampUnits
  { c with last := some t, stats := (x.map fun x => c.stats.add g.origin g.bin x).getD c.stats }

/-! ## Pairs (R153) -/

/-- A stamp of channel A or B at time `t`: paired with the other channel's oldest unpaired stamp within MAXD, or left waiting;
waiting stamps of the other channel more than MAXD before it are dropped. -/
def Pair.stamp (p : Pair) (isA : Bool) (t : Int) : Pair :=
  let other := (if isA then p.waitB else p.waitA).filter fun u => t - u ≤ (p.maxd : Int)
  match other with
  | u :: rest =>
    let d := if isA then u - t else t - u
    if -(p.maxd : Int) ≤ d && d ≤ (p.maxd : Int) then
      let p := if isA then { p with waitB := rest } else { p with waitA := rest }
      { p with stats := p.stats.add p.origin p.bin d }
    else if isA then { p with waitB := other, waitA := p.waitA ++ [t] } else { p with waitA := other, waitB := p.waitB ++ [t] }
  | [] => if isA then { p with waitB := [], waitA := p.waitA ++ [t] } else { p with waitA := [], waitB := p.waitB ++ [t] }

/-! ## The stamp stream -/

/-- The time a channel's FIFO takes to drain one stamp: 25 M stamps/s (R146). The rule gives that rate as the least one; the model drains at
exactly it, as the chapter's example does (DESIGN CHOICE, log 46). -/
def drainUnits : Nat := 40 * nsUnits

/-- A channel's FIFO as it has drained by the network time `t` (R146). -/
def TdcChan.drainTo (c : TdcChan) (t : Int) : TdcChan :=
  let n := (t - c.fillAt).toNat / drainUnits
  if c.fill ≤ n then { c with fill := 0, fillAt := max t c.fillAt } else { c with fill := c.fill - n, fillAt := c.fillAt + (n * drainUnits : Nat) }

/-- Stamps of channel `k` that have no room in the stream's HBM area: those of the closed blocks that wait for it, and of the open one behind
them (log 14). -/
def StampStream.held (s : StampStream) (k : Nat) : Nat :=
  if s.fifo.isEmpty then 0 else getN s.stamps k 0 + (s.fifo.map fun b => getN b.stamps k 0).sum

/-- Stamps in the FIFO of channel `k` at the network time `t` (R146). -/
def TdcChan.level (c : TdcChan) (s : StampStream) (k : Nat) (t : Int) : Nat := max (c.drainTo t).fill (s.held k)

/-- Closing the open stamp block (R148); `halt`: the block closed at HALT, which completes its host buffer (R176). -/
def StampStream.close (s : StampStream) (halt : Bool) : StampStream :=
  match s.open_ with
  | none => s
  | some b =>
    { s with open_ := none, stamps := Vector.replicate 8 0, nextSeq := s.nextSeq + 1,
             fifo := s.fifo ++ [{ blk := { b.flush with last := halt }, seq := s.nextSeq, stamps := s.stamps }] }

/-- The cairn stamps refer to at instant `t` (R147, R148): the latest one; before the first, one at the whole 10 µs (log 14). -/
def StampStream.ref (s : StampStream) (t : Int) (bid : Word) : Cairn :=
  s.latest.getD { cause := 0, entry := 0, segment := 0xFFFFFFFF, vaddr := 0, tset := 0, lset := 0, time := t - t % (10 * usUnits : Nat),
                  burstId := bid }

/-- One record of the stamp stream (R148): a new block opens with the latest cairn, its cause bits 0, unless the record is one. -/
def StampStream.record (s : StampStream) (ws : List Word) (isCairn : Bool) (t : Int) (bid : Word) : StampStream :=
  let fits := match s.open_ with
    | none => false
    | some b => b.size + 4 * ws.length ≤ 4060
  let s := if fits then s else s.close false
  let cn := s.ref t bid
  let head := if isCairn then [] else { cn with cause := 0 }.words
  let b : OpenBlock := s.open_.getD
    { since := t, burstId := bid, first := s.lastBid ≠ some bid, firstVaddr := cn.vaddr, words := head, recs := if isCairn then 0 else 1 }
  { s with latest := some cn, lastBid := some b.burstId, open_ := some { b with words := b.words ++ ws, recs := b.recs + 1 } }

/-- A CAIRN in the stamp stream (R148). -/
def StampStream.cairn (s : StampStream) (c : Cairn) (t : Int) : StampStream := { s with latest := some c }.record c.words true t c.burstId

/-- The stamp record of R147. OFFSET is in units of 2 FU, and the rule does not say how a reference cairn at an odd number of FU rounds: the model
rounds down (DESIGN CHOICE, log 13). -/
def stampRecord (k : Nat) (cml falling bnd : Bool) (by_ : Nat) (t : Int) (ref : Int) : List Word :=
  let off := ((t * stampUnits - ref) / stampUnits).toNat
  let sat := 2 ^ 40 ≤ off
  let off := min off (2 ^ 40 - 1)
  [BitVec.ofNat 32 (0xA * 2 ^ 28 + k * 2 ^ 25 + bitAt cml 24 + bitAt falling 23 + bitAt bnd 22 + by_ * 2 ^ 20 + bitAt sat 19
     + off / 2 ^ 32), BitVec.ofNat 32 off]

/-- The loss record of R149. -/
def lossRecord (k lost : Nat) : List Word := [BitVec.ofNat 32 (0xB * 2 ^ 28 + k * 2 ^ 25), BitVec.ofNat 32 (min lost 0xFFFFFFFF)]

/-! ## Code density (R155, R156) -/

/-- Bin widths in 2^-6 FU from the hits of a run (R155), to the nearest unit, ties up (log 13). -/
def densityTable (h : List Nat) : List Nat :=
  let n := max h.sum 1
  (List.range 64).map fun i => (2 * 640 * 64 * h.getD i 0 + n) / (2 * n)

/-- Check 1 of R156: the sum lies from 633.6 to 646.4 FU. -/
def sumOk (w : List Nat) : Bool := 6336 * 64 ≤ w.sum * 10 && w.sum * 10 ≤ 6464 * 64

/-- Check 2: no width exceeds 20 FU. -/
def widthOk (w : List Nat) : Bool := w.all fun x => x ≤ 20 * 64

/-- Check 3: w[i] / (sum / 64) - 1 within ±0.9. -/
def dnlOk (w : List Nat) : Bool := w.all fun x => w.sum ≤ 640 * x && 640 * x ≤ 19 * w.sum

/-- A run is abandoned when its channel becomes armed (R155). -/
def TdcChan.abandon (c : TdcChan) : TdcChan :=
  if c.running then { c with running := false, cmd := false, abandoned := satInc c.abandoned } else c

end Sys2Proof.Machine
end

