-- ==== Sys2Proof/Machine/Ops.lean ====
section
/-! DEFINITION. The named operations every meaning is written with: time and the REQ handshake (R441), site records (R12), clusters,
free values, and playing the vectors of a burst up to an instant (R16, R29, R55). -/
namespace Sys2Proof.Machine

/-- The next state an outcome gives, or the state as it was. -/
def stateOf (s : State) (o : Host.Outcome State Fault Refusal) : State :=
  match o with
  | .next t => t
  | _ => s

/-! ## Updates of one element -/

def State.updSite (s : State) (k : Cluster) (f : SiteRec → SiteRec) : State := { s with sites := upd s.sites k f }

def State.updSeq (s : State) (k : Cluster) (f : Seqr → Seqr) : State := { s with seqs := upd s.seqs k f }

def State.updCl (s : State) (c : Cluster) (f : ClusterEng → ClusterEng) : State := { s with cl := upd s.cl c f }

def State.updGen (s : State) (c : Cluster) (f : GenSlots → GenSlots) : State := { s with gens := upd s.gens c f }

/-- The local clusters of the site whose index is `k` (R12, R72). -/
def State.members (s : State) (k : Cluster) : List Cluster := (List.finRange 12).filter fun c => s.siteOf[c] = k

/-- Whether `k` is a site index. -/
def State.isSite (s : State) (k : Cluster) : Bool := s.siteOf[k] = k

def State.siteIdxs (s : State) : List Cluster := (List.finRange 12).filter fun c => s.isSite c

/-- An update of every local cluster of a site. -/
def State.updMembers (s : State) (k : Cluster) (f : Cluster → ClusterEng → ClusterEng) : State :=
  (s.members k).foldl (fun s c => s.updCl c (f c)) s

def State.multi (s : State) (k : Cluster) : Bool := s.gangs[k].isSome

/-- The hop diameter H of a site (R53). -/
def State.hops (s : State) (k : Cluster) : Nat := (s.gangs[k].map (·.hops)).getD 0

/-- The configuration in force on a cluster (R279). -/
def State.config (s : State) (c : Cluster) : ClusterConfig := (s.gens[c]).cur.config

/-- The configuration a later burst arms with: the pending generation, or the one in force (R10). -/
def State.armConfig (s : State) (c : Cluster) : ClusterConfig := ((s.gens[c]).pend.getD (s.gens[c]).cur).config

/-- A fresh free value (log 3). -/
def State.fresh (s : State) : State × BitVec 64 := ({ s with free := s.free + 1 }, Config.freeValue s.free)

/-! ## Requests (R12, R441) -/

/-- REQ bits, in the order R12 names the requests (log 16). -/
def reqJump : BitVec 8 := 1
def reqStop : BitVec 8 := 2
def reqResume : BitVec 8 := 4
def reqAbort : BitVec 8 := 8

/-- A request is pending while its REQ bit is 1 and its REQ_ACK bit is 0 (R441). -/
def SiteRec.pends (r : SiteRec) (b : BitVec 8) : Bool := r.req &&& b &&& ~~~r.reqAck ≠ 0

/-- The index of a request's instant. -/
def reqIndex (b : BitVec 8) : Nat := if b = reqJump then 0 else if b = reqStop then 1 else if b = reqResume then 2 else 3

/-- The crux point latches a request; it waits while the request's REQ_ACK bit is still 1 (R441). -/
def State.latchReq (s : State) (k : Cluster) (b : BitVec 8) : State :=
  let note := fun (x : Recent) => if s.sites[k].pends b then x else { x with reqAt := updN x.reqAt (reqIndex b) fun _ => s.now }
  let s := { s with recent := upd s.recent k note }
  if s.sites[k].reqAck &&& b = 0 then s.updSite k fun r => { r with req := r.req ||| b }
  else { s with reqWait := upd s.reqWait k (· ||| b) }

/-- The sequencer consumes a pending request: step 1 of R441. -/
def State.consumeReq (s : State) (k : Cluster) (b : BitVec 8) : State :=
  s.updSite k fun r => { r with reqAck := r.reqAck ||| (r.req &&& b) }

/-- One 1 ns step of the handshake of a record (R441): steps 2 and 3, and a waiting request after REQ_ACK has cleared. -/
def handshake (r : SiteRec) (wait : BitVec 8) : SiteRec × BitVec 8 :=
  let enter := wait &&& ~~~r.req &&& ~~~r.reqAck
  ({ r with req := (r.req &&& ~~~r.reqAck) ||| enter, reqAck := r.reqAck &&& r.req }, wait &&& ~~~enter)

def State.handshakeStep (s : State) : State :=
  { s with sites := Vector.ofFn fun (k : Fin 12) => (handshake s.sites[k] s.reqWait[k]).1,
           reqWait := Vector.ofFn fun (k : Fin 12) => (handshake s.sites[k] s.reqWait[k]).2 }

def State.handshakes : Nat → State → State
  | 0, s => s
  | n + 1, s => State.handshakes n s.handshakeStep

/-! ## Time (log 2) -/

/-- Network time now, in SUBNS units. -/
def State.net (s : State) : Int := s.now + s.netOff

/-- One datapath cycle of 1.25 ns (R16). -/
def datapathUnits : Nat := 4 * tickUnits

/-- An instant of the device's own count falls in a datapath cycle before that of network time `d` (R243). -/
def State.earlier (s : State) (at_ : Nat) (d : Int) : Bool := (at_ + s.netOff) / datapathUnits < d / datapathUnits

/-- A pending request whose crux point fell in a datapath cycle before that of instant `d` (R60, R243). -/
def State.pendsBy (s : State) (k : Cluster) (b : BitVec 8) (d : Int) : Bool :=
  s.sites[k].pends b && s.earlier (getN (s.recent[k]).reqAt (reqIndex b) 0) d

/-! ## Time-tree links (R288, R318) -/

/-- TIME_LOCKED of an IDENT frame sent on a port (R318): the time-tree links are the upstream and the ports a TIME_REQ has arrived on
within 1 ms. -/
def State.timeLocked (s : State) (p : Port) : Bool :=
  let up := s.time.source = .rope && s.time.port = p
  (match s.time.state with
    | .freeRun | .locked | .holdover => true
    | .refused => !up
    | .acquiring => false)
  && (up || (s.rope.ports[p]).reqAt.any fun t => s.now ≤ t + msUnits)

/-- FL_OK: FIXED_LATENCY, TIME_LOCKED at both ends, a channel delay of 8 ns at most (16,384 FU). -/
def State.flOk (s : State) (p : Port) : Bool :=
  let q := s.rope.ports[p]
  q.fixedLat && q.aligned && q.delay.toNat ≤ 16384 && s.timeLocked p && q.partner.any (·.timeLocked)

/-! ## Sites -/

def State.siteState (s : State) (k : Cluster) : SiteState := s.sites[k].state

def SiteState.busy : SiteState → Bool
  | .running | .stalled | .belay => true
  | _ => false

/-- IDLE or HALTED (R18, R72). -/
def SiteState.rests : SiteState → Bool
  | .idle | .halted => true
  | _ => false

/-- The time a staged set of the site's clusters has been due while the site was active is brought up to now (R336). -/
def State.accountDue (s : State) (k : Cluster) : State :=
  let active := !(s.siteState k).rests
  (s.members k).foldl (fun s c =>
    { s with cal := { s.cal with due := upd s.cal.due c fun d => if active && (s.cal.staged[c]).isSome then d + (s.now - s.cal.dueFrom[c]) else d,
                                 dueFrom := upd s.cal.dueFrom c fun _ => s.now } }) s

/-- The ports that carry a path of the site: their time without use starts afresh (R292). -/
def State.touchPaths (s : State) (k : Cluster) : State :=
  match s.gangs[k] with
  | none => s
  | some g =>
    let touch := fun (n : Fin 4) => if g.ports.contains n then { s.rope.ports[n] with lastBusy := s.now } else s.rope.ports[n]
    { s with rope := { s.rope with ports := Vector.ofFn touch } }

def State.setState (s : State) (k : Cluster) (x : SiteState) : State :=
  let s := (s.accountDue k).updSite k fun r => { r with state := x }
  if x.rests then s.touchPaths k else s

/-- The program entry `i` of the site's sequencer: that of its index cluster under the configuration in force (R73). -/
def State.entry (s : State) (k : Cluster) (i : Nat) : Option Entry := (s.config k).program.entry i

/-- The length of an entry's segment on the site (R52). -/
def State.segLen (s : State) (k : Cluster) (id : Word) : Nat := ((findSeg s.mem.segs[k] id).map (·.len)).getD 512

/-- The period of a timing set in SUBNS units. -/
def Play.step (p : Play) : Int := (p.period * fuUnits : Nat)

/-- The instant just after a play's last vector: the successor's start (R55). -/
def Play.stop (p : Play) : Int := p.start + (p.len : Int) * p.step

/-- The number of a play's vectors that have started by instant `t`. -/
def Play.started (p : Play) (t : Int) : Nat := if t < p.start then 0 else min p.len (((t - p.start) / p.step).toNat + 1)

/-- Its decision point, as a vector (R53). -/
def Play.decision (p : Play) (lead : Nat) : Nat := p.len - lead

def Play.startOf (p : Play) (v : Nat) : Int := p.start + (v : Int) * p.step

/-- The instance a play consumes (R162): the only one of a STORED segment, the oldest of a STREAM segment. -/
def State.instOf (s : State) (c : Cluster) (id : Word) : Inst := ((findSeg s.mem.segs[c] id).bind (·.insts.head?)).getD {}

def instWord (i : Inst) (j : Nat) : Word := runWord (i.blocks.flatMap (·.runs)) j
where
  runWord : List (Nat × Word) → Nat → Word
    | [], _ => 0
    | (n, w) :: rest, j => if j < n then w else runWord rest (j - n)

/-- Pins of a cluster that are absent (R406). -/
def State.absentMask (s : State) (c : Cluster) : Byte := ~~~(s.present.extractLsb' (8 * c.val) 8)

/-- Pins of a cluster whose lines are held whatever the formats: absent ones, or all while the cluster is parked (R345, R406). -/
def State.heldMask (s : State) (c : Cluster) : Byte := if s.flt.parked.getLsbD c.val then 0xFF else s.absentMask c

/-! ## Playing vectors -/

/-- What the vectors of a play bring with them. -/
structure PlayView where
  g    : ClusterConfig
  held : Byte
  play : Play
  seg  : Word
  inst : Inst
  bid  : Word

/-- 10 µs instants (R127). -/
def cairnUnits : Nat := 10 * usUnits

/-- The 'T' windows of one vector (R24, R142), and the code-density runs of channels it arms (R155). -/
def addTWindows (tdc : Vector TdcChan 8) (g : ClusterConfig) (ts : TimingSet) (v : Int) (va : Nat) (syms : Vector Sym 8) : Vector TdcChan 8 :=
  Vector.ofFn fun (k : Fin 8) =>
    let x := g.tdc[k]
    let c := tdc[k]
    let inV := x.arm = .vwindow && bitsOf x.start.toNat 0 48 ≤ va && va < bitsOf x.stop.toNat 0 48
    if !x.en then c
    else if syms[k] = .T then { c.abandon with tWin := c.tWin ++ [(edgeAt v (ts.pins[k]).s0, edgeAt v (ts.pins[k]).s1)] }
    else if inV then c.abandon else c

/-- The cairn of the play's vector `j`, which starts at `v` (R127). -/
def PlayView.cairn (w : PlayView) (e : ClusterEng) (j : Nat) (v : Int) : Cairn :=
  { cause := bitAt (j = 0) 0 + bitAt (e.cap.nextPeriodic ≤ v) 1 + e.cap.cause,
    entry := BitVec.ofNat 16 w.play.entry,
    segment := w.seg, vaddr := w.play.vaddr + j, tset := w.play.tset, lset := w.play.lset, time := v, burstId := w.bid }

/-- One vector of a play on one cluster: decompressor, decoder, formatter, compare instants, TDC windows, cairns, which the stamp stream
takes too (R148); and the vector as its observations will be formed. -/
def ClusterEng.playVec (e : ClusterEng) (w : PlayView) (j : Nat) : ClusterEng × Vec :=
  let v := w.play.startOf j
  let ts := w.g.timing[w.play.tset.toFin]
  let (dec, syms) := e.dec.vector (instWord w.inst j)
  let cn := w.cairn e j v
  let next := if e.cap.nextPeriodic ≤ v then e.cap.nextPeriodic + ((v - e.cap.nextPeriodic) / cairnUnits + 1) * cairnUnits
    else e.cap.nextPeriodic
  let window := BitVec.ofNat 8 ((List.finRange 8).map fun (k : Fin 8) => bitAt (ts.pins[k]).window k).sum
  let vec : Vec := { vaddr := w.play.vaddr + j, start := v, syms := syms, clock := w.g.clockMask, window := window, mux := w.g.mux,
                     closing := w.g.closings e.coeffs ts v, cairn := cn, seen := 0, obs := 0, failed := 0 }
  ({ e with dec := { dec with vcnt := dec.vcnt + 1 }, tim := e.tim.format w.g e.coeffs w.held ts v syms,
            tdc := addTWindows e.tdc w.g ts v (w.play.vaddr + j) syms,
            stamp := if cn.cause ≠ 0 then e.stamp.cairn cn v else e.stamp,
            cap := { e.cap with nextPeriodic := next, cause := 0 } }, vec)

/-- Vectors `j` to `j + n - 1` of a play on one cluster; `vs`: those before them, the latest first. -/
def ClusterEng.playRun (w : PlayView) : Nat → Nat → List Vec → ClusterEng → ClusterEng
  | 0, _, vs, e => { e with cap := { e.cap with vecs := e.cap.vecs ++ vs.reverse } }
  | n + 1, j, vs, e =>
    let (e, v) := e.playVec w j
    ClusterEng.playRun w n (j + 1) (v :: vs) e

def State.playView (s : State) (k c : Cluster) (p : Play) : PlayView :=
  let seg := ((s.entry k p.entry).map (·.segment)).getD 0xFFFFFFFF
  ⟨s.config c, s.heldMask c, p, seg, s.instOf c seg, s.sites[k].burstId⟩

/-- A stall vector (R182): the stall word's edges, with no compare, no TDC window, no change of history. -/
def ClusterEng.stallVec (e : ClusterEng) (g : ClusterConfig) (held : Byte) (ts : TimingSet) (v : Int) (w : Word) : ClusterEng :=
  let (_, syms) := e.dec.vector w
  { e with tim := e.tim.format g e.coeffs held ts v syms }

def ClusterEng.stallRun (g : ClusterConfig) (held : Byte) (ts : TimingSet) (start : Int) (step : Int) (w : Word) :
    Nat → Nat → ClusterEng → ClusterEng
  | 0, _, e => e
  | n + 1, j, e => ClusterEng.stallRun g held ts start step w n (j + 1) (e.stallVec g held ts (start + j * step) w)

def Stall.step (t : Stall) : Int := (t.period * fuUnits : Nat)

/-- The vectors of site `k`'s burst that start at or before the network time `t` are played. -/
def State.playTo (s : State) (k : Cluster) (t : Int) : State :=
  let q := s.seqs[k]
  match q.play with
  | some p =>
    let n := min (p.started t) (q.abortAt.getD p.len)
    if n ≤ p.played then s
    else
      let s := s.updMembers k fun c e =>
        let w := s.playView k c p
        let e := ClusterEng.playRun w (n - p.played) p.played [] e
        { e with tim := { e.tim with vstart := BitVec.ofInt 64 ((p.startOf (n - 1) - q.vec0) / fuUnits) } }
      s.updSeq k fun q => { q with play := some { p with played := n }, vectors := p.vaddr + n }
  | none => match q.stall, q.desc with
    | some st, some d =>
      let n := if t < st.start then 0 else ((t - st.start) / st.step).toNat + 1
      let n := min n (q.abortAt.getD n)
      if !d.stallWord || n ≤ st.played then s
      else
        let s := s.updMembers k fun c e =>
          let g := s.config c
          ClusterEng.stallRun g (s.heldMask c) g.timing[st.tset.toFin] st.start st.step (d.stall[c]) (n - st.played) st.played e
        s.updSeq k fun q => { q with stall := some { st with played := n } }
    | _, _ => s

/-- Every site's burst is played up to the datapath cycle of now: what a vector of the cycle itself sets or counts comes after a host access of that
cycle (R426). -/
def State.playAll (s : State) : State := s.siteIdxs.foldl (fun s k => s.playTo k (s.net / datapathUnits * datapathUnits - 1)) s

end Sys2Proof.Machine
end

