-- ==== Sys2Proof/Machine/SeqOps.lean ====
section
/-! DEFINITION. The operations of a site's sequencer that several commands share: arming (R10, R66 to R69), plays (R48, R55),
aborts (R60), readiness and underrun (R180), conditions (R51) and successors (R49). -/
namespace Sys2Proof.Machine

/-! ## Self-refresh (R368) -/

/-- A request meets the HBM: self-refresh begins to be left, and the request waits for the exit. -/
def State.askHbm (s : State) : State :=
  if s.mem.selfRef && s.mem.srExit.isNone then { s with mem := { s.mem with srExit := some s.now } } else s

/-- Something the self-refresh of R368 waits for has ended: its 100 µs start afresh. -/
def State.noteHbm (s : State) : State := { s with pwr := { s.pwr with hbmIdle := s.now } }

/-- Placement moves between the HBM and a vector store: self-refresh is left for it, or its 100 µs start afresh (R368). -/
def State.useHbm (s : State) : State := s.askHbm.noteHbm

/-! ## Frames the device issues -/

/-- The ages of the entries reached through a port, and its own, have stood still for `d` (R292, R296). -/
def State.holdAges (s : State) (n : Port) (d : Nat) : State :=
  { s with rope := { s.rope with ports := upd s.rope.ports n fun p => { p with lastRx := p.lastRx + d },
                                 topo := s.rope.topo.map fun e => if e.port = n then { e with seen := e.seen + d } else e } }

/-- The hottest die temperature, in whole degrees. -/
def State.hotDegrees (s : State) : Int := s.pwr.temps.toList.foldl max (s.pwr.temps[0]) / 16

/-- A port that leaves IDLE (R293): the fast exit, or a full training from the preset after 100 ms or a change of more than 15 degrees; the ages
of what is reached through it go on (R292, R296). -/
def State.leaveIdle (s : State) (n : Port) : State :=
  let p := s.rope.ports[n]
  if p.state ≠ .idle then s
  else
    let d := s.hotDegrees - p.trainTemp.toInt
    let retrain := p.idleAt + 100 * msUnits ≤ s.now || 15 < d || d < -15
    let s := s.holdAges n (s.now - p.idleAt)
    let wake := fun (p : RopePort) =>
      if retrain then { p with state := .train, training := some { began := s.now, lastReq := s.now }, retryAt := none, partner := none, level := 0,
                               remoteLoop := false, pre := 0, main := 15, post := 0, marginal := false, aligned := false }
      else { p with state := .up, training := none, retryAt := none, lastBusy := s.now }
    { s with rope := { s.rope with ports := upd s.rope.ports n wake } }

/-- A port a frame of class SITE, TRIG or GEVT leaves by (R285, R288, R297): FL_OK, at the frame's lowest level, UP, or in IDLE, which the frame
ends (R293). -/
def State.openTo (s : State) (ctype : Byte) (n : Port) : Bool :=
  ((s.rope.ports[n]).state = .up || (s.rope.ports[n]).state = .idle) && s.flOk n && (ctype ≠ 0x20 || (s.rope.ports[n]).level = 3)

/-- Frames leave by some ports, the body of each by the level of its link. A port in IDLE leaves it first; where that is by a full training, the
frame is not sent. -/
def State.emit (s : State) (ports : List Port) (ctype hops : Byte) (tick : BitVec 16) (src : BitVec 64) (body : Nat → List Byte) : State :=
  let s := ports.foldl State.leaveIdle s
  let ports := ports.filter fun n => (s.rope.ports[n]).state = .up
  let out := ports.map fun n => (⟨n, ctype, hops, tick, src, body (s.rope.ports[n]).level⟩ : Sent)
  let busy := fun (n : Port) (p : RopePort) => if ports.contains n then { p with lastBusy := s.now } else p
  { s with rope := { s.rope with sent := s.rope.sent ++ out, ports := Vector.ofFn fun (n : Fin 4) => busy n s.rope.ports[n] } }

/-- A frame issued locally (R285, R288): delivery is due 128 master ticks after the issue tick. -/
def State.issue (s : State) (ctype : Byte) (body : Nat → List Byte) : State :=
  s.emit ((List.finRange 4).filter (s.openTo ctype)) ctype 0 (BitVec.ofInt 16 (s.net / tickUnits + 128)) Config.serial body

/-- The short stamp of a network time (R305). -/
def shortStamp (t : Int) : Nat := (t / nsUnits % 2 ^ 32).toNat

/-- SEND_TIME of a TRIG or GEVT frame (R285): the full stamp at L3, the short stamp at L2. -/
def sendTime (t : Int) (level : Nat) : List Byte :=
  if level = 3 then leBytes 12 (stampOf t).toNat else leBytes 4 (shortStamp t) ++ List.replicate 8 0

def State.gangTag (s : State) (k : Cluster) : Word := (s.gangs[k].map (·.tag)).getD 0

/-- SITE_ABORT with its cause (R285). -/
def State.sendAbort (s : State) (k : Cluster) (cause : Nat) : State :=
  if s.multi k then s.issue 0x22 (fun _ => leBytes 4 (s.gangTag k).toNat ++ leBytes 1 cause ++ List.replicate 11 0) else s

/-- SITE_COND of the decision in hand (R61, R285). -/
def State.sendCond (s : State) (k : Cluster) (entry : Nat) (v : Bool) : State :=
  s.issue 0x20 (fun _ => leBytes 4 (s.gangTag k).toNat ++ leBytes 4 s.seqs[k].dseq.toNat ++ leBytes 2 entry ++ leBytes 1 (bitAt v 0)
    ++ List.replicate 5 0)

/-- SITE_VOTE (R68, R285, R299). -/
def State.sendVote (s : State) (k : Cluster) (desc : BitVec 16) (ready levelDrop : Bool) (sched : Int) : State :=
  s.issue 0x21 (fun _ => leBytes 4 (s.gangTag k).toNat ++ leBytes 2 desc.toNat ++ leBytes 1 (bitAt ready 0 + bitAt levelDrop 1) ++ [0]
    ++ leBytes 4 (sched / nsUnits % 1000000000).toNat ++ List.replicate 4 0)

/-! ## Work items -/

/-- POST_TIME of a work item (R188) for a network time. -/
def postTime (t : Int) : BitVec 64 :=
  BitVec.ofInt 64 (t / (1000000000 * nsUnits : Nat) % 2 ^ 32 * 2 ^ 32 + t / nsUnits % 1000000000)

/-- An item of the sequencer of site `k`, posted at the network time `t` (R188). -/
def State.seqItem (s : State) (k : Cluster) (ty : ItemType) (payload : List Byte) (t : Int) : Item :=
  { type := ty, prio := 0, flow := k.val, site := some k, source := 0, taint := s.sites[k].taint, burstId := s.sites[k].burstId,
    postTime := postTime t, payload := payload, queuedAt := (t - s.netOff).toNat }

/-! ## Aborts -/

/-- The start of a site, armed or pending, is cancelled (R60, R257): STATE returns to IDLE from ARMED. -/
def State.cancelStart (s : State) (k : Cluster) : State :=
  let s := (s.updSeq k fun q => { q with start := none, armed := none }).touchPaths k
  if s.siteState k = .armed then s.setState k .idle else s

/-- The stall begins once the play that ran to its address has ended (R182). -/
def Seqr.enterStall (q : Seqr) (t : Int) : Seqr :=
  match q.stall with
  | some st => if st.start ≤ t then { q with play := none } else q
  | none => q

/-- The granule boundary strictly after instant `t`, in vectors from `start` (R60). -/
def boundaryAfter (start step t : Int) : Nat := if t < start then 64 else (((t - start) / step).toNat / 64 + 1) * 64

/-- A consumed ABORT (R60): the burst ends at the next granule boundary; in ARMED the start is cancelled at once. -/
def State.abortNow (s : State) (k : Cluster) : State :=
  if s.siteState k = .armed then s.cancelStart k
  else
    s.updSeq k fun q0 =>
      let q := q0.enterStall s.net
      match q.play, q.stall with
      | some p, _ => { q with abortAt := some (min (q.abortAt.getD p.len) (min p.len (boundaryAfter p.start p.step s.net))) }
      | none, some st =>
        let b := boundaryAfter st.start st.step s.net
        { q with abortAt := some (min (q.abortAt.getD b) b) }
      | none, none => q

/-! ## Readiness (R180) -/

/-- The instance `skip` places behind the oldest is whole on the cluster, or the segment needs none (R180). -/
def State.instReady (s : State) (c : Cluster) (seg : Word) (skip : Nat) : Bool :=
  match findSeg s.mem.segs[c] seg with
  | some g => !g.stream || ((g.insts.drop skip).head?).any (·.done)
  | none => true

/-- Whether a play of entry `i` may start: a STREAM play needs its whole instance on every cluster of the site. -/
def State.ready (s : State) (k : Cluster) (i : Nat) : Bool :=
  match s.entry k i with
  | none => true
  | some e => (s.members k).all fun c => s.instReady c e.segment 0

/-- The instances a play that follows entry `cur` leaves aside: the one in hand, when it plays the same segment. -/
def State.skipOf (s : State) (k : Cluster) (cur : Option Nat) (i : Nat) : Nat :=
  match cur.bind (s.entry k), s.entry k i with
  | some a, some b => if a.segment = b.segment then 1 else 0
  | _, _ => 0

/-- The successor play of entry `j` must not be the instance in hand: the play ending now consumes the oldest instance first. -/
def State.readyAfter (s : State) (k : Cluster) (cur j : Nat) : Bool :=
  match s.entry k j with
  | none => true
  | some e => (s.members k).all fun c => s.instReady c e.segment (s.skipOf k (some cur) j)

/-- The PLAY stream of a cluster bound to a segment. -/
def State.playStream (s : State) (c : Cluster) (id : Word) : Option (Fin 24) :=
  (List.finRange 24).find? fun t => (s.mem.ins[t]).isOpen && (s.mem.ins[t]).play && (s.mem.ins[t]).bound = id && c.val = t.val / 2

/-- The inbound stream whose lateness holds entry `i` back after entry `cur` (R182, R184, R185): that of the first cluster of the site whose instance
is not whole, or, where that cluster has none of its own, the site's stream bound to the segment. -/
def State.lateStream (s : State) (k : Cluster) (cur : Option Nat) (i : Nat) : Fin 24 :=
  match s.entry k i with
  | none => 0
  | some e =>
    let late := (s.members k).filter fun c => !s.instReady c e.segment (s.skipOf k cur i)
    ((late ++ s.members k).findSome? fun c => s.playStream c e.segment).getD 0

/-- The HBM of `n` blocks of an instance on cluster `c` is released: MEM_IN_STAGED of its stream falls (R162). -/
def State.unstage (s : State) (c : Cluster) (id : Word) (n : Nat) : State :=
  match s.playStream c id with
  | none => s
  | some t => { s with mem := { s.mem with ins := upd s.mem.ins t fun x => { x with staged := x.staged - n } } }

/-- The instance a STREAM play consumed leaves the segment when the play ends, and with it the blocks not released yet (R162). -/
def State.consumeInst (s : State) (k : Cluster) (i : Nat) : State :=
  match s.entry k i with
  | none => s
  | some e => (s.members k).foldl (fun s c =>
      let held := match findSeg s.mem.segs[c] e.segment with
        | some g => if g.stream then (g.insts.head?.map fun x => x.blocks.length - x.released).getD 0 else 0
        | none => 0
      let s := s.unstage c e.segment held
      { s with mem := { s.mem with segs := upd s.mem.segs c fun l => updSeg l e.segment fun g =>
          if g.stream then { g with insts := g.insts.drop 1 } else g } }) s

/-! ## Plays -/

/-- Trigger outputs of a play (R63): the output stays high for its width from the play's first vector, moved by its skew correction (R326). -/
def EventIo.pulse (o : EventIo) (co : Coeffs) (e : Entry) (t : Int) : EventIo :=
  let rise := fun (i : Fin 2) => t + corrUnits co.trig[i]
  let w := fun (i : Fin 2) (x : BitVec 9) => rise i + (max 1 (min x.toNat 500) * 2 * nsUnits : Nat)
  let first := fun (i : Fin 2) (on : Bool) (hi : Option Int) => if on && !hi.any (rise i ≤ ·) then some (rise i) else o.trigFrom[i]
  { o with trigFrom := #v[first 0 (e.trig0 && o.trigIn.en0) o.trig0Until, first 1 (e.trig1 && o.trigIn.en1) o.trig1Until],
           trig0Until := if e.trig0 && o.trigIn.en0 then some (w 0 o.trigIn.width0) else o.trig0Until,
           trig1Until := if e.trig1 && o.trigIn.en1 then some (w 1 o.trigIn.width1) else o.trig1Until }

/-- What a play's first vector does on one cluster (R48, R84, R99, R63): `switch` at a change of timing set. -/
def ClusterEng.startPlay (e : ClusterEng) (g : ClusterConfig) (en : Entry) (t : Int) (isSwitch : Bool) : ClusterEng :=
  let ts := BitVec.ofNat 6 en.tset.val
  let tim := if isSwitch then e.tim.switch t else e.tim
  { e with io := e.io.pulse e.coeffs en t, dec := { e.dec with seg := en.segment },
           tim := { tim with curTset := ts, period := BitVec.ofNat 32 (g.timing[en.tset]).period },
           lvl := e.lvl.strobe e.coeffs g.railEn (BitVec.ofNat 4 en.lset.val) g.levels[en.lset] (ceilTo t dacUnits) }

/-- Some cluster of the site reads the play's vectors from the HBM: a STAGED or STREAM play (R164, R170). -/
def State.readsHbm (s : State) (k : Cluster) (id : Word) : Bool :=
  (s.members k).any fun c => (findSeg s.mem.segs[c] id).any fun g => g.stream || decide (g.pages < g.wholePages)

/-- A play of entry `i` starts at `t` with vector address `va` (R48, R55, R64); its reads of the HBM end self-refresh (R368). -/
def State.startPlay (s : State) (k : Cluster) (i : Nat) (t : Int) (va : Nat) (belay firstPlay : Bool) : State :=
  match s.entry k i with
  | none => s
  | some e =>
    let per := (((s.config k).timing[e.tset])).period
    let len := s.segLen k e.segment
    let old := (s.cl[k]).tim.curTset
    let isSwitch := !firstPlay && old ≠ BitVec.ofNat 6 e.tset.val
    let s := if s.readsHbm k e.segment then s.askHbm else s
    let s := s.updMembers k fun c eng => eng.startPlay (s.config c) e t isSwitch
    let p : Play := { entry := i, start := t, vaddr := va, len := len, period := per, tset := BitVec.ofNat 6 e.tset.val,
                      lset := BitVec.ofNat 4 e.lset.val, belay := belay }
    let s := s.updSeq k fun q => { q with play := some p, stall := none, curEntry := BitVec.ofNat 16 i,
                                          spans := q.spans ++ [⟨t, per, va, len⟩] }
    let s := if e.ropeTrig then
        s.issue 0x30 (fun l => leBytes 1 k.val ++ [0] ++ leBytes 2 i ++ sendTime t l)
      else s
    s.playTo k t

/-- A cairn cause for the next pattern vector of every cluster of the site (R127). -/
def State.markNext (s : State) (k : Cluster) (bit : Nat) : State :=
  s.updMembers k fun _ e => { e with cap := { e.cap with cause := e.cap.cause ||| 2 ^ bit } }

/-! ## Arming -/

/-- One more than the address of the last vector played, in this burst or before it (R148): 0 when none was. -/
def Seqr.played (q : Seqr) : Nat := if q.vectors = 0 then q.lastCount else q.vectors

/-- A swap of generations (R280). -/
def GenSlots.swap (g : GenSlots) : GenSlots :=
  match g.pend with
  | none => g
  | some p => { g with cur := p, pend := none, pendRevert := false, prev := if g.pendRevert then none else some g.cur }

/-- A coefficient set comes into force (R332, R334): each channel counts those of its bin-width tables it changes (R158). -/
def ClusterEng.putCoeffs (e : ClusterEng) (co : Coeffs) : ClusterEng :=
  { e with coeffs := co, tdc := Vector.ofFn fun (k : Fin 8) =>
      let mux := 8 + k.val / 2
      let n := bitAt (co.bins[k] ≠ e.coeffs.bins[k]) 0 + bitAt (k.val % 2 = 1 && getN co.bins mux [] ≠ getN e.coeffs.bins mux []) 0
      { e.tdc[k] with tables := satAdd (e.tdc[k]).tables n } }

/-- The arm point on one cluster (R10, R29, R59, R74, R85, R87, R89, R101, R117, R151, R345): the configuration `g` and the coefficients
come into force; `old` is the configuration they replace, `bid` and `vectors` the burst that ran under it. A channel whose mode arms it now abandons
its code-density run (R155). -/
def ClusterEng.arm (e : ClusterEng) (old g : ClusterConfig) (staged : Option Coeffs) (startSet : Fin 16) (bid : Word) (vectors : Nat) (t : Int) :
    ClusterEng :=
  let co := staged.getD e.coeffs
  let e := e.putCoeffs co
  let io := { e.io with ctlIn := e.io.ctl, trigIn := e.io.trig }
  let io := if io.ctlIn.clrArm then { io with evt0 := false, evt1 := false, gevt := 0 } else io
  let tdc := Vector.ofFn fun (k : Fin 8) =>
    let c := if old.tdc[k] = g.tdc[k] then e.tdc[k] else (e.tdc[k]).clearStats
    if (c.armedBy g.tdc[k] [] t).isSome then c.abandon else c
  let pins := g.armPins e.tim.pins t
  let clk := Vector.ofFn fun (j : Fin 2) => (e.tim.clk[j]).arm g.clk[j] (pins[6 + j.val]).edge t
  { e with io := io, dec := e.dec.armReset,
           tim := { e.tim with switchCnt := 0, clk := clk, pins := pins },
           lvl := e.lvl.arm co g.railEn g.range g.levels[startSet] t,
           cap := (e.cap.keep old.capture old.acq bid vectors).arm g.capture g.acq, tdc := tdc }

/-- Arming (R66): the swap of R10 and the resets of R29, R50 and R59 on every cluster of the site; STATE becomes ARMED. A background deskew run is
abandoned (R327). Coefficients staged in the arm point's own datapath cycle stay due for the next one (R335). The start entry is judged ready under the
configuration that comes into force (R180). A BURST_STOP or ABORT still pending is consumed at once, and cancels the start (R60). RPP_SITE_LEVEL takes 0
of a single-device site (R303). -/
def State.doArm (s : State) (k : Cluster) (a : Armed) (seq : Descriptor) : State :=
  let t := a.armedAt
  let s := s.accountDue k
  let first := seq.candidates.headD 0
  let s := (s.members k).foldl (fun s c =>
    let old := s.config c
    let s := s.updGen c GenSlots.swap
    let g := s.config c
    let set := ((s.entry k first).map (·.lset)).getD 0
    let late := !s.earlier s.cal.stagedAt[c] t
    let staged := if late then s.cal.stagedOld[c] else s.cal.staged[c]
    let s := s.updCl c fun e => e.arm old g staged set s.sites[k].burstId (s.seqs[k]).vectors t
    let force := fun (x : CalCluster) =>
      let x := { x with background := x.background &&& 0xD }
      if staged.isSome then { x with applied := satInc x.applied, stale := false } else x
    { s with cal := { s.cal with staged := upd s.cal.staged c fun x => if late then x else none, due := s.cal.due.set c.val 0 c.isLt, cl := upd s.cal.cl c force },
             flt := { s.flt with parked := s.flt.parked &&& ~~~(bitMask 12 c.val) },
             present := s.present ||| (s.rejoin &&& (0xFF#96 <<< (8 * c.val))),
             rejoin := s.rejoin &&& ~~~(0xFF#96 <<< (8 * c.val)) }) s
  let g := s.config k
  let h := s.hops k
  let ready := s.ready k first
  let s := s.updSeq k fun q =>
    { q with start := none, armed := some { a with ready := ready }, desc := some seq, play := none, stall := none, belay := none, ending := none,
             loops := Vector.replicate 4 0, stack := [], playCnt := 0, window := [], failBurst := false, vectors := 0,
             lastCount := q.played, failVecs := [],
             spans := [], receipts := [], dseq := 0, siteAbort := false, abortAt := none, succValid := false, succHalt := false,
             lead := Vector.ofFn fun (i : Fin 64) => BitVec.ofNat 16 (leadOf (g.timing[i]).period h), hops := BitVec.ofNat 3 h }
  let s := s.updSite k fun r => { r with state := .armed, curGen := (s.gens[k]).cur.number,
                                         pendGen := ((s.gens[k]).pend.map (·.number)).getD (s.gens[k]).cur.number }
  let s := if s.multi k then s else
    { s with rope := { s.rope with siteLevel := s.rope.siteLevel &&& ~~~(3#24 <<< (2 * k.val)) } }
  if s.sites[k].pends (reqStop ||| reqAbort) then (s.consumeReq k (reqStop ||| reqAbort)).cancelStart k else s

/-- Whole ns of a delay, saturating (R67, R74). -/
def slipOf (t sched : Int) : Word := satNat 32 ((t - sched) / nsUnits).toNat

/-- Arm points are blocked now (R363). -/
def State.armBlocked (s : State) : Bool := s.pwr.thermWarn || (s.pwr.tbWarm && !s.pwr.warmArm)

/-- The power manager's flags change, and with them perhaps whether arm points are blocked (R363). -/
def State.setPower (s : State) (p : Power) : State :=
  let t := { s with pwr := p }
  if t.armBlocked = s.armBlocked then t
  else { s with pwr := { p with blockAt := s.now, blockWas := if s.earlier s.pwr.blockAt s.net then s.armBlocked else s.pwr.blockWas } }

/-- An arm point at network time `t` is blocked: by what held in the cycle before it (R363). -/
def State.blockedAt (s : State) (t : Int) : Bool := if s.earlier s.pwr.blockAt t then s.armBlocked else s.pwr.blockWas

/-- Every cluster of the site is in READY or RUN (R18, R367). -/
def State.powered (s : State) (k : Cluster) : Bool := (s.members k).all fun c => ((s.pwr.cl[c]).state) ≤ 1

/-- What an arm point needs beside its instant and an end of the block (R66, R67, R18). -/
def State.canArm (s : State) (k : Cluster) (st : Start) : Bool :=
  s.seqs[k].front.any (fun d => d.seq = st.seq) && (s.siteState k).rests && s.powered k

/-- A late start arms as soon as nothing holds it back, and starts 600 ns later (R67). -/
def State.tryLate (s : State) (k : Cluster) : State :=
  match s.seqs[k].start, s.seqs[k].front with
  | some st, some d =>
    if st.late && s.canArm k st && !s.armBlocked && !s.multi k then
      let t := s.net
      let sched := st.sched.getD t
      let due := t + 600 * nsUnits
      let first := d.candidates.headD 0
      let a : Armed := { mode := st.mode, desc := d, sched := sched, armedAt := t, due := due,
                         entry := if st.mode = .chained then none else some first, slip := true }
      let s := s.doArm k a d
      s.updSeq k fun q => { q with startSlip := true, slipNs := slipOf due sched }
    else s
  | _, _ => s

/-- The site as the sequencer sees it at the instant `t` (R243): a descriptor or a generation published in its datapath cycle is not there yet. -/
def State.holdBack (s : State) (k : Cluster) (t : Int) : State :=
  let s := if s.earlier (s.recent[k]).frontAt t then s else s.updSeq k fun q => { q with front := (s.recent[k]).front }
  (s.members k).foldl (fun s c =>
    if s.earlier (s.recent[c]).commitAt t then s
    else s.updGen c fun g => { g with pend := (s.recent[c]).pend.map (·.1), pendRevert := (s.recent[c]).pend.any (·.2) }) s

/-- What was published in the instant's own datapath cycle is there again for the next start (R243); `s0`: the site before. -/
def State.giveBack (s : State) (s0 : State) (k : Cluster) (t : Int) : State :=
  let s := if s0.earlier (s0.recent[k]).frontAt t then s else s.updSeq k fun q => { q with front := (s0.seqs[k]).front }
  let s := (s.members k).foldl (fun s c =>
    if s0.earlier (s0.recent[c]).commitAt t then s
    else s.updGen c fun g => { g with pend := (s0.gens[c]).pend, pendRevert := (s0.gens[c]).pendRevert }) s
  s.updSite k fun r => { r with pendGen := ((s.gens[k]).pend.map (·.number)).getD (s.gens[k]).cur.number }

/-- A single-device arm point at its instant `t` (R65 to R67): the start arms, or is late. -/
def State.armSingle (s : State) (k : Cluster) (st : Start) (t : Int) : State :=
  let h := if st.mode = .asap then s else s.holdBack k t
  match h.seqs[k].front with
  | some d =>
    if !st.late && h.canArm k st && !s.blockedAt t then
      let first := d.candidates.headD 0
      let sched := st.sched.getD (t + 600 * nsUnits)
      let a := h.doArm k { mode := st.mode, desc := d, sched := sched, armedAt := t, due := sched,
                           entry := if st.mode = .chained then none else some first } d
      if st.mode = .asap then a else a.giveBack s k t
    else (s.updSeq k fun q => { q with start := some { st with late := true } }).tryLate k
  | none => s.updSeq k fun q => { q with start := some { st with late := true } }

/-! ## Conditions (R51) -/

/-- The window of the decision at `d` (R56): compares that completed before it and since the previous decision. -/
def Seqr.inWindow (q : Seqr) (d : Int) : List (Int × Nat × Bool) := q.window.filter fun w => w.1 < d

/-- A latch edge on the device's own count came before the instant `d` (R58). -/
def State.latched (s : State) (set : Bool) (from_ : Nat) (d : Int) : Bool := set && (from_ : Int) + s.netOff < d

/-- The value of a condition at the decision point `d`, before INVERT: an edge or a request at or after it does not count (R58, R60, R243). -/
def State.cond (s : State) (k : Cluster) (p : Program) (c : Cond) (par : Nat) (count : Word) (d : Int) : Bool :=
  let q := s.seqs[k]
  let w := q.inWindow d
  let mask := getN p.masks (par % 16) 0
  match c with
  | .fail => w.any fun x => x.2.2
  | .failMask => w.any fun x => x.2.2 && mask.getLsbD x.2.1
  | .match_ =>
    let m := w.filter fun x => mask.getLsbD x.2.1
    !m.isEmpty && m.all fun x => !x.2.2
  | .failBurst => q.failBurst || w.any fun x => x.2.2
  | .evt => match (s.members k).find? fun c => c.val = par % 16 with
    | some c =>
      let io := s.cl[c].io
      if bitOf par 4 then s.latched io.evt1 io.evtFrom[1] d else s.latched io.evt0 io.evtFrom[0] d
    | none => false
  | .gevt => (s.members k).any fun c => s.latched ((s.cl[c].io.gevt).getLsbD (par % 8)) (getN (s.cl[c].io.gevtFrom) (par % 8) 0) d
  | .hostJump => s.pendsBy k reqJump d
  | .scFlag => scFlag s.sites[k].scFlags (par % 16)
  | .cntEq => getN q.loops (par % 4) 0 = count
  | .ropeSite => false

/-- The latches a decision at `d` that tests a condition consumes (R58, R60); an edge at or after it stays for the next one. -/
def State.consume (s : State) (k : Cluster) (c : Cond) (par : Nat) (d : Int) : State :=
  match c with
  | .evt => s.updMembers k fun c e =>
    if c.val = par % 16 then
      { e with io :=
          if bitOf par 4 then { e.io with evt1 := e.io.evt1 && !s.latched true e.io.evtLast[1] d,
                                          evtFrom := upd e.io.evtFrom 1 fun _ => e.io.evtLast[1] }
          else { e.io with evt0 := e.io.evt0 && !s.latched true e.io.evtLast[0] d, evtFrom := upd e.io.evtFrom 0 fun _ => e.io.evtLast[0] } }
    else e
  | .gevt => s.updMembers k fun _ e =>
    let n := par % 8
    let gone := s.latched true (getN e.io.gevtLast n 0) d
    { e with io := { e.io with gevt := if gone then e.io.gevt &&& ~~~(bitMask 8 n) else e.io.gevt,
                               gevtFrom := updN e.io.gevtFrom n fun _ => getN e.io.gevtLast n 0 } }
  | .hostJump => if s.pendsBy k reqJump d then s.consumeReq k reqJump else s
  | _ => s

def Cond.ofCode (n : Nat) : Option Cond :=
  match n with
  | 0 => some .fail | 1 => some .failMask | 2 => some .match_ | 3 => some .failBurst | 4 => some .evt | 5 => some .gevt
  | 6 => some .hostJump | 7 => some .scFlag | 8 => some .cntEq | 9 => some .ropeSite | _ => none

/-- The condition a decision tests: the direct one, or the local one inside ROPE_SITE, with its parameter (R51). -/
def Entry.tested (e : Entry) : Cond × Nat :=
  match e.cond with
  | .ropeSite => ((Cond.ofCode (e.cparam.toNat % 32)).getD .fail, bitsOf e.cparam.toNat 8 5)
  | c => (c, e.cparam.toNat % 32)

/-- The index of the SEQ_LATE counter of the latch an entry's condition tests on a cluster (R58, R74). -/
def Entry.latch (e : Entry) : Option (Nat × Nat) :=
  if !e.op.conditional then none
  else match e.tested with
    | (.evt, par) => some (if bitOf par 4 then 1 else 0, par % 16)
    | (.gevt, par) => some (2 + par % 8, 12)
    | (.hostJump, _) => some (10, 12)
    | _ => none

/-- The instant of a play's decision point (R53). -/
def State.decisionOf (s : State) (k : Cluster) (p : Play) : Int := p.startOf (p.decision (leadOf p.period (s.hops k)))

/-- A late arrival at latch `idx` (R58, R74). -/
def Seqr.countLate (q : Seqr) (idx : Nat) : Seqr := { q with late := updN q.late idx satInc, lateFlag := true }

/-- A latch edge at or after the decision point of a play that tests the latch, before the end of its last vector (R58); a request counts by its
datapath cycle (R60, R243). `idx`: the counter; `cl`: the cluster whose EVT latch it is, 12 for a latch of the site. -/
def State.noteLate (s : State) (k : Cluster) (idx cl : Nat) : State :=
  match s.seqs[k].play with
  | none => s
  | some p => match s.entry k p.entry with
    | none => s
    | some e =>
      let d := s.decisionOf k p
      let after := if idx = 10 then d / datapathUnits ≤ s.net / datapathUnits else d ≤ s.net
      if after && !p.belay && e.latch = some (idx, cl) && s.net < p.stop then s.updSeq k fun q => q.countLate idx else s

/-! ## Successors (R49, R50) -/

/-- What a decision makes of the sequencer: the successor, the counters, and whether the call stack failed. -/
structure Decision where
  succ    : Succ
  loops   : Vector Word 4
  stack   : List Nat
  playCnt : Word
  stackErr : Bool := false
  deriving DecidableEq, Repr

/-- The successor of entry `i` and its effects, given the condition's value (R49, R50). -/
def Seqr.successor (q : Seqr) (i : Nat) (e : Entry) (cond : Bool) : Decision :=
  let k := e.cparam.toNat % 4
  let go := fun (n : Nat) => (⟨.entry n, q.loops, q.stack, q.playCnt, false⟩ : Decision)
  match e.op with
  | .next | .signal => go (i + 1)
  | .jump => go e.target.toNat
  | .branch => if cond then go e.target.toNat else go (i + 1)
  | .loopBegin => { go (i + 1) with loops := updN q.loops k fun _ => e.count }
  | .loopEnd =>
    let n := getN q.loops k 0
    if n = 0 then go (i + 1)
    else { (if n = 1 then go (i + 1) else go e.target.toNat) with loops := updN q.loops k fun _ => n - 1 }
  | .call => if 8 ≤ q.stack.length then { go i with succ := .halt, stackErr := true }
    else { go e.target.toNat with stack := (i + 1) :: q.stack }
  | .ret => match q.stack with
    | [] => { go i with succ := .halt, stackErr := true }
    | r :: rest => { go r with stack := rest }
  | .matchLoop | .wait => if cond then go (i + 1) else if e.count ≠ 0 && q.playCnt = e.count then go e.target.toNat else go i
  | .halt => { go i with succ := .halt }

/-- MATCH_LOOP and WAIT keep a play count (R49). -/
def SeqOp.counts : SeqOp → Bool
  | .matchLoop | .wait => true
  | _ => false

/-- The play count of the entry a decision at entry `i` enters: 1 from a different entry, one more from itself (R49). The spec does not say what follows
0xFFFF_FFFF: the count stays there (DESIGN CHOICE, log 23). -/
def Decision.settle (d : Decision) (i : Nat) (p : Program) : Decision :=
  match d.succ with
  | .entry j => if (p.entry j).any fun e => e.op.counts then { d with playCnt := if j = i then satInc d.playCnt else 1 } else d
  | .halt => d

end Sys2Proof.Machine
end

