-- ==== Sys2Proof/Machine/Collector.lean ====
section
/-! DEFINITION. The fault collector (R14, R23, R343 to R354, R440): sources, reactions, the first-error record, history, merging, the
persistent log. -/
namespace Sys2Proof.Machine

/-- The listed sources, their classes and default reactions (R343). -/
def sourceOf (n : Nat) : Option (FaultClass × Reaction) :=
  match n with
  | 0 | 1 | 2 | 3 | 4 => some (.device, .haltDevice)
  | 8 | 9 => some (.cluster, .parkCluster)
  | 10 => some (.cluster, .haltCluster)
  | 16 | 17 | 18 | 19 | 20 | 21 | 22 => some (.site, .taint)
  | 32 | 33 | 34 | 35 | 36 | 37 | 38 | 39 | 40 | 41 | 42 | 43 | 44 => some (.advisory, .log)
  | _ => none

def FaultClass.code : FaultClass → Nat
  | .advisory => 0 | .site => 1 | .cluster => 2 | .device => 3

def Reaction.code : Reaction → Nat
  | .log => 0 | .taint => 1 | .haltCluster => 2 | .parkCluster => 3 | .haltDevice => 4

def Reaction.ofCode (n : Nat) : Option Reaction :=
  match n with
  | 0 => some .log | 1 => some .taint | 2 => some .haltCluster | 3 => some .parkCluster | 4 => some .haltDevice | _ => none

/-- The class of an event (R202, R343): SC_WATCHDOG is ADVISORY when its item names no site, and its mask is then 0 (R440). -/
def classOf (e : FaultEvent) : FaultClass :=
  if e.source = 22 && e.mask = 0 then .advisory else ((sourceOf e.source).map (·.1)).getD .advisory

/-- The reaction in force for a source (R346). -/
def Faults.reaction (f : Faults) (n : Nat) : Reaction :=
  ((f.react.find? fun p => p.1 = n).map (·.2)).getD (((sourceOf n).map (·.2)).getD .log)

def Reaction.max (a b : Reaction) : Reaction := if a.code ≤ b.code then b else a

def FaultClass.max (a b : FaultClass) : FaultClass := if a.code ≤ b.code then b else a

/-! ## Reactions (R345) -/

/-- The sites that hold the clusters of a mask. -/
def State.sitesOf (s : State) (m : BitVec 12) : List Cluster :=
  s.siteIdxs.filter fun k => (s.members k).any fun c => m.getLsbD c.val

def State.maskOf (s : State) (k : Cluster) : BitVec 12 := (s.members k).foldl (fun m c => setBit m c.val) 0

/-- PARK_CLUSTER on one cluster at `t`: drivers disabled, clock pins stopped, TRIG outputs low, rails parked (R112, R345). -/
def ClusterEng.park (e : ClusterEng) (t : Int) : ClusterEng :=
  { e with tim := { e.tim with pins := Vector.replicate 8 .disabled,
                               clk := e.tim.clk.map fun c => { c with on := false, offAt := none, level := false } },
           io := { e.io with trig0Until := none, trig1Until := none }, lvl := e.lvl.park true t }

/-- HALT_CLUSTER on one site: ABORT, the pending start cancelled, SITE_ABORT with cause 3 (R345). -/
def State.haltSite (s : State) (k : Cluster) : State :=
  let s := s.abortNow k
  ((s.updSeq k fun q => { q with start := none }).touchPaths k).sendAbort k 3

/-- TAINT on the sites of a mask (R345, R351); all sites under HALT_DEVICE. -/
def State.taintSites (s : State) (m : BitVec 12) : State :=
  (s.sitesOf m).foldl (fun s k => s.updSite k fun r => { r with taint := true }) s

/-- The reaction `r` issued on the clusters of `m0` (R345); TAINT is never withheld and is set apart (R351). -/
def State.react (s : State) (r : Reaction) (m0 : BitVec 12) : State :=
  let m := if r = .haltDevice then 0xFFF else m0
  let s := if 2 ≤ r.code then
      let s := (s.sitesOf m).foldl State.haltSite s
      { s with flt := { s.flt with halted := s.flt.halted ||| m } }
    else s
  let s := if 3 ≤ r.code then
      let s := ((List.finRange 12).filter fun c => m.getLsbD c.val).foldl (fun s c => s.updCl c fun e => e.park s.net) s
      { s with flt := { s.flt with parked := s.flt.parked ||| m } }
    else s
  if r = .haltDevice then { s with flt := { s.flt with device := true } } else s

/-! ## Collecting -/

def bumpCount (n : Nat) (l : List (Nat × Byte)) : List (Nat × Byte) :=
  let v := ((l.find? fun p => p.1 = n).map (·.2)).getD 0
  (n, satInc v) :: l.filter fun p => p.1 ≠ n

/-- The persistent log takes every real DEVICE-class event (R356). -/
def CycleEvent.logged (e : CycleEvent) : Bool := classOf e.event = .device && !e.injected

/-- A logged event enters the pending records; a ninth drops the oldest (R356). `fw`: the active firmware's version; `tmax`: the hottest die
temperature. -/
def Faults.logPersistent (f : Faults) (h : HistEntry) (fw : Word) (tmax : Int) : Faults :=
  let pend := f.plogPend ++ [⟨0, h, fw, tmax⟩]
  { f with plogPend := if 8 < pend.length then pend.drop 1 else pend }

/-- The clusters a reaction acts on (R345). -/
def Reaction.mask (r : Reaction) (m : BitVec 12) : BitVec 12 := if r = .haltDevice then 0xFFF else m

/-- One event enters the collector's records (R347, R349 to R351, R353); the second answer: its reaction is issued. -/
def State.take (s : State) (f : Faults) (e : CycleEvent) : Faults × Bool :=
  let ⟨source, mask, detail⟩ := e.event
  let cls := classOf e.event
  let rc := e.rc
  let tainted := 1 ≤ rc.code && !(s.sitesOf (rc.mask mask)).isEmpty
  let entry : HistEntry := ⟨e.stamp, source, mask, detail, cls, e.injected, true, false, false, tainted, rc, 0, f.count + 1⟩
  let f := { f with count := f.count + 1 }
  let bit : BitVec 64 := BitVec.ofNat 64 (2 ^ source)
  let (f, entry, issue) : Faults × HistEntry × Bool := match f.first with
    | none => ({ f with first := some ⟨e.stamp, source, mask, detail, cls, e.injected, false, rc, 0, bit, e.stamp⟩ }, entry, true)
    | some r =>
      let worse := r.cls.code < cls.code
      let realOverInjected := r.injected && !e.injected && r.reaction.code < rc.code
      let issue := worse || realOverInjected
      let r' := { r with clusters := r.clusters ||| mask, cause := r.cause ||| bit, merged := satInc r.merged, lastStamp := e.stamp,
                         cls := r.cls.max cls, realMerged := r.realMerged || (r.injected && !e.injected),
                         reaction := if issue then r.reaction.max rc else r.reaction }
      ({ f with first := some r' }, { entry with first := false, merged := true, escalated := issue, mcount := r'.merged }, issue)
  let f := { f with history := (entry :: f.history).take 32 }
  (if e.logged then f.logPersistent entry (u32At s.sec.header 4) (s.pwr.temps.toList.foldl max s.pwr.temps[0]) else f, issue)

/-- Whether event `a` is served before `b` in one cycle (R23, R353). -/
def before (a b : CycleEvent) : Bool :=
  let (p, q) := (classOf a.event, classOf b.event)
  let (m, n) := (a.event.source, b.event.source)
  q.code < p.code || (p = q && (m < n || (m = n && (!a.injected || b.injected))))

def insertFault (e : CycleEvent) : List CycleEvent → List CycleEvent
  | [] => [e]
  | x :: xs => if before x e then x :: insertFault e xs else e :: x :: xs

/-- The collector's cycle at the instant `t` (R23): of 1 ns while the control clock runs, which is from the start of boot, else of 80 ns. -/
def State.cycleAt (s : State) (t : Nat) : Nat × Bool :=
  let clocked := s.pwr.phase ≠ .held
  (t / (if clocked then nsUnits else 80 * nsUnits), clocked)

/-- The collector's cycle now (R23). -/
def State.collectorCycle (s : State) : Nat × Bool := s.cycleAt s.now

/-- The reactions of the cycle in hand are issued, and the cycle is over (R14, R345). -/
def State.issueFaults (s : State) : State :=
  match s.flt.taking with
  | none => s
  | some c => (c.events.filter (·.issued)).foldl (fun s e => s.react e.rc e.event.mask) { s with flt := { s.flt with taking := none } }

/-- The cycle in hand ends where `t` lies past it: only then is it settled which event was the first (R23), and within the 50 ns of R14 its
reactions are issued (log 29). -/
def State.endCycle (s : State) (t : Nat) : State :=
  if s.flt.taking.any fun c => s.cycleAt t ≠ (c.cycle, c.clocked) then s.issueFaults else s

/-- The cycle a report falls in: the one in hand, or a fresh one over what the collector holds (R23). -/
def State.openCycle (s : State) : FaultCycle :=
  let f := s.flt
  f.taking.getD ⟨s.collectorCycle.1, s.collectorCycle.2, f.first, f.history, f.count, f.plogPend, []⟩

/-- The cycle's events served in their order (R23) over the records as they stood before it. -/
def State.serve (s : State) (c : FaultCycle) : State :=
  let base : Faults := { s.flt with first := c.first, history := c.history, count := c.count, plogPend := c.plogPend }
  let (f, out) : Faults × List CycleEvent := c.events.foldl (fun (f, out) e =>
    let (f, issue) := s.take f e
    (f, out ++ [{ e with issued := issue }])) (base, [])
  { s with flt := { f with taking := some { c with events := out } } }

/-- TAINT of an event's sites, whatever becomes of its reaction (R351). -/
def State.taintFor (s : State) (e : CycleEvent) : State :=
  if 1 ≤ e.rc.code then s.taintSites (e.rc.mask e.event.mask) else s

/-- The event counts that no order of service changes: by source (R359), and the pending records that a logged one drops (R356). -/
def Faults.tally (f : Faults) (e : CycleEvent) : Faults :=
  { f with counts := bumpCount e.event.source f.counts,
           plogDrop := if e.logged && decide (8 ≤ f.plogPend.length) then satInc f.plogDrop else f.plogDrop }

/-- One event reaches the collector (R23): with those of the same cycle it is served the most severe class first, equal classes by source
number, a real event before an injected one. -/
def State.collectOne (s : State) (e : FaultEvent × Bool) : State :=
  let c := s.openCycle
  let x : CycleEvent := ⟨e.1, e.2, s.flt.reaction e.1.source, s.net, false⟩
  let s : State := { s with flt := s.flt.tally x }
  (s.serve { c with events := insertFault x c.events }).taintFor x

/-- Events reach the collector (R14, R23). -/
def State.collect (s : State) (es : List (FaultEvent × Bool)) : State := es.foldl State.collectOne (s.endCycle s.now)

/-- A report by a block (R14). -/
def State.report (s : State) (source : Nat) (mask : BitVec 12) (detail : Word) : State := s.collect [(⟨source, mask, detail⟩, false)]

/-- The first-error record that was held before the cycle in hand (R354). -/
def State.heldRecord (s : State) : Option FaultRec := (s.endCycle s.now).openCycle.first

/-- A DEVICE-class fault is present (R348). -/
def State.devFault (s : State) : Bool := s.flt.first.any fun r => r.cls = .device

/-- The words of the first-error record (R347). -/
def FaultRec.bytes (r : FaultRec) (valid : Bool) : List Byte :=
  leBytes 12 (stampOf r.stamp).toNat ++ leBytes 2 r.source ++ leBytes 2 r.clusters.toNat ++ leBytes 4 r.detail.toNat
    ++ leBytes 1 (r.cls.code + bitAt r.injected 2 + bitAt r.realMerged 3 + bitAt valid 7) ++ leBytes 1 r.reaction.code
    ++ leBytes 2 r.merged.toNat ++ leBytes 8 r.cause.toNat ++ leBytes 12 (stampOf r.lastStamp).toNat ++ leBytes 4 0

/-- The bytes of a history entry (R349). -/
def HistEntry.bytes (h : HistEntry) : List Byte :=
  leBytes 12 (stampOf h.stamp).toNat ++ leBytes 2 h.source ++ leBytes 2 h.mask.toNat ++ leBytes 4 h.detail.toNat
    ++ leBytes 1 (h.cls.code + bitAt h.injected 2 + bitAt h.first 3 + bitAt h.merged 4 + bitAt h.escalated 5 + bitAt h.tainted 6)
    ++ leBytes 1 h.reaction.code ++ leBytes 2 h.mcount.toNat ++ leBytes 4 h.seq.toNat ++ leBytes 4 0

/-- The bytes of a persistent-log record (R356). -/
def PlogRec.bytes (r : PlogRec) : List Byte :=
  let data := leBytes 4 0x4C464C47 ++ leBytes 4 r.pseq.toNat ++ r.entry.bytes ++ leBytes 4 r.fw.toNat
    ++ leBytes 2 (BitVec.ofInt 16 r.tmax).toNat ++ List.replicate 14 0
  data ++ leBytes 4 (crc32c data).toNat

/-- The floor of FAULT_CONFIG by class (R346). -/
def FaultClass.floor : FaultClass → Reaction
  | .advisory => .log
  | .site | .cluster => .taint
  | .device => .haltDevice

/-- The hottest cluster, the lowest-numbered of several (R440). -/
def State.hottest (s : State) : Cluster :=
  (List.finRange 12).foldl (fun b c => if s.pwr.temps[b] < s.pwr.temps[c] then c else b) 0

/-- The event of a thermal source (R343, R440). -/
def State.thermEvent (s : State) (src : Nat) (c : Cluster) : FaultEvent :=
  ⟨src, bitMask 12 c.val, BitVec.ofNat 32 ((BitVec.ofInt 16 s.pwr.temps[c]).toNat + c.val * 2 ^ 16)⟩

/-- The events condition sources report again after a FAULT_ACK, for conditions that still hold (R344). -/
def State.conditions (s : State) : List FaultEvent :=
  ((List.finRange 12).flatMap fun c => (List.finRange 8).filterMap fun r =>
    if (s.cl[c].lvl.rails[r]).limiting then some ⟨8, bitMask 12 c.val, BitVec.ofNat 32 r.val⟩ else none)
  ++ s.pwr.supplyOut.map (fun p => ⟨3, 0, BitVec.ofNat 32 (p.1.toNat + p.2.toNat * 2 ^ 16)⟩)
  ++ ((List.finRange 12).filterMap fun c => if s.pwr.tripped.getLsbD c.val then some (s.thermEvent 1 c) else none)
  ++ (if s.pwr.thermWarn then [s.thermEvent 43 s.hottest] else [])
  ++ ((List.finRange 96).filterMap fun p => if s.lostPins.getLsbD p.val then
      some ⟨10, bitMask 12 (p.val / 8), BitVec.ofNat 32 p.val⟩ else none)

end Sys2Proof.Machine
end

