-- ==== Sys2Proof/Machine/Clock.lean ====
section
/-! DEFINITION. The passage of time (log 2): the REQ handshake (R441) and the sequencers' posts that fall due (R188, R191). -/
namespace Sys2Proof.Machine

/-! ## Work items the sequencers post (R188, R190, R191) -/

/-- What takes the place of a BURST_DONE, or follows it, while a procedure is installed on its flow (R188, R207 to R209); a step's payload is empty. -/
def State.doneItems (s : State) (i : Item) : List Item :=
  if i.type ≠ .burstDone then [i]
  else
    let r := u64At i.payload 0
    let first := match s.sched.proc i.flow with
      | some (.search _) => { i with type := .searchStep, payload := [], result := r }
      | some (.trim _) => { i with type := .trimStep, payload := [], result := r }
      | _ => i
    first :: if (s.sched.reduction i.flow).isSome then [{ i with type := .failReduce, payload := [], result := r }] else []

/-- A reduction's item that never runs: its burst's records are no longer held (R209, log 28). -/
def Sched.skipReduce (x : Sched) (i : Item) : Sched :=
  match i.type, i.source, x.reduction i.flow with
  | .failReduce, 0, some p => x.setReduction i.flow { p with last := i.burstId }
  | _, _, _ => x

/-- One post reaches the scheduler (R188, R190): TAINT is the site's at that instant; a flow that holds MAX_PENDING items loses a sequencer's, and
none of the calibration unit's, which has its descriptor (R189). -/
def State.postNow (s : State) (i : Item) : State :=
  let i := { i with taint := (i.site.map fun k => s.sites[k].taint).getD false }
  if i.source ≠ 0 then { s with sched := s.sched.post i }
  else if (s.sched.flow i.flow).maxPending ≤ s.sched.pendingOf i.flow || s.sched.free = 0 then
    let x := { s.sched.skipReduce i with lost := satInc s.sched.lost, overflow := true, lastFlow := BitVec.ofNat 12 i.flow }
    ({ s with sched := x } : State).report 21 ((i.site.map s.maskOf).getD 0) (BitVec.ofNat 32 i.flow)
  else
    let s := { s with sched := s.sched.post i }
    match i.type, i.site with
    | .burstDone, some k => { s with sched := { s.sched.updFlow i.flow (fun f => { f with bursts := f.bursts + 1 }) with
                                                snaps := upd s.sched.snaps k fun _ => i.snapshot } }
    | _, _ => s

/-- The place of a post among those of its cycle (R191): class, site index with SITE 0xFF last, function, flow. -/
def State.postRank (s : State) (i : Item) : Nat :=
  let owner := if h : i.flow < 12 then s.host.owner[s.siteOf[(⟨i.flow, h⟩ : Cluster)]] else (s.sched.flow i.flow).owner
  ((s.sched.postClass i * 13 + (i.site.map (·.val)).getD 12) * 13 + owner.val) * 4096 + i.flow

/-- A post is under way (R188): it reaches the scheduler at its `queuedAt`. -/
def State.schedulePost (s : State) (i : Item) : State := { s with sched := { s.sched with due := insertDue s.postRank i s.sched.due } }

/-- The posts whose instant is at or before `t` reach the scheduler, each at its instant, in the order of R191. -/
def State.settlePosts (s : State) (t : Nat) : State :=
  let here := s.sched.due.filter fun i => i.queuedAt ≤ t
  if here.isEmpty then s
  else
    let s := { s with sched := { s.sched with due := s.sched.due.filter fun i => t < i.queuedAt } }
    here.foldl (fun s i => (s.doneItems i).foldl State.postNow { s with now := max s.now i.queuedAt }) s

/-- The posts that R191 numbers before `i`, which reaches the scheduler now, are made: those of earlier cycles, and of this one those of a lower
rank. -/
def State.settleBefore (s : State) (i : Item) : State :=
  let mine := s.now / nsUnits
  let (first, rest) := s.sched.due.partition fun x => x.queuedAt / nsUnits < mine || (x.queuedAt / nsUnits = mine && s.postRank x ≤ s.postRank i)
  let t := ({ s with sched := { s.sched with due := first } } : State).settlePosts (mine * nsUnits + (nsUnits - 1))
  { t with now := s.now, sched := { t.sched with due := rest } }

/-- All the posts of the scheduler cycle in hand have reached the scheduler, in the order of R191, before what else the cycle brings. -/
def State.settleCycle (s : State) : State := { s.settlePosts (s.now / nsUnits * nsUnits + (nsUnits - 1)) with now := s.now }

/-! ## Time -/

/-- Time has passed to the instant `t` of the device's own count: the handshake's cycles, of which three are as good as any more, and the posts of
the scheduler cycles that are over, and the reactions of a collector cycle that is (R14, R23). -/
def State.advance (s : State) (t : Nat) : State :=
  if t ≤ s.now then s
  else
    let u := (if s.sched.due.isEmpty then s else s.settlePosts (t / nsUnits * nsUnits - 1)).endCycle t
    State.handshakes (min 3 (t / nsUnits - s.now / nsUnits)) { u with now := t }

/-- Time has passed to the network time `t`. -/
def State.advanceNet (s : State) (t : Int) : State := s.advance (t - s.netOff).toNat

/-- One idle nanosecond (log 2): time passes, and the handshake of R441 goes one cycle on. -/
def State.idle (s : State) : State := s.advance (s.now + nsUnits)

end Sys2Proof.Machine
end

