-- ==== Sys2Proof/Machine/Operands.lean ====
section
/-! DEFINITION. The operand forms: every record a packet's payload carries, read from its bytes with the first field it refuses, and
written back to bytes (R47, R76, R77, R88, R96, R97, R120, R131, R145, R152, R188, R193, R198). Offsets are payload offsets. -/
namespace Sys2Proof.Machine

/-- The first failing field of a list of fields with their verdicts, in order. -/
def firstBad (l : List (Nat × Bool)) : Option Nat := (l.find? fun p => !p.2).map (·.1)

/-- A value once its fields pass, or the offset of the first field refused. -/
def checked {α : Type} (l : List (Nat × Bool)) (v : α) : Except Nat α :=
  match firstBad l with
  | some o => .error o
  | none => .ok v

/-- A single field of `n` bytes below a bound. -/
def below (bs : List Byte) (off n bound : Nat) : Nat × Bool := (off, fieldAt bs off n < bound)

def isZero (bs : List Byte) (off n : Nat) : Nat × Bool := (off, zeroAt bs off n)

/-! ## Timing sets (R76, R83) -/

def Format.ofCode (n : Nat) : Option Format :=
  match n with
  | 0 => some .off | 1 => some .nrz | 2 => some .rz | 3 => some .r1 | 4 => some .sbc | 5 => some .dnrz | _ => none

def Format.code : Format → Nat
  | .off => 0 | .nrz => 1 | .rz => 2 | .r1 => 3 | .sbc => 4 | .dnrz => 5

/-- A pin block, its reserved bits apart. -/
def PinTiming.of (b : List Byte) : PinTiming :=
  { fmt := (Format.ofCode (bitsOf (fieldAt b 0 1) 0 3)).getD .off, window := bitOf (fieldAt b 0 1) 3,
    e0 := fieldAt b 8 8, e1 := fieldAt b 0x10 8, e2 := fieldAt b 0x18 8, e3 := fieldAt b 0x20 8,
    s0 := fieldAt b 0x28 8, s1 := fieldAt b 0x30 8 }

def PinTiming.bytes (p : PinTiming) : List Byte :=
  leBytes 1 (p.fmt.code + bitAt p.window 3) ++ List.replicate 7 0
    ++ ([p.e0, p.e1, p.e2, p.e3, p.s0, p.s1].flatMap fun e => leBytes 8 e)

/-- Check 4 of R83. -/
def PinTiming.ordered (p : PinTiming) (period : Nat) : Bool :=
  (match p.fmt with
    | .rz | .r1 => p.e1 < p.e2
    | .sbc => p.e0 < p.e1 && p.e1 < p.e2
    | _ => true) && p.s0 + 64 ≤ p.s1 && p.s1 ≤ p.s0 + period

/-- A timing-set record under checks 1 to 4 of R83, or the first that fails with its pin. Two points the spec leaves open (DESIGN CHOICE, log 19): of
several pins that fail one check the lowest is recorded, and a failure no single pin causes (check 1, a header byte in check 2) records PIN 0. -/
def parseTiming (tset : Nat) (b : List Byte) : Except TimingFail TimingSet :=
  let period := fieldAt b 0 4
  let blk := fun (k : Nat) => b.drop (0x10 + 56 * k)
  let pins := Vector.ofFn fun (k : Fin 8) => PinTiming.of (blk k)
  let inRange := fun (k : Fin 8) =>
    let p := pins[k]
    [p.e0, p.e1, p.e2, p.e3, p.s0, p.s1].all (fun e => e < 2 ^ 33 && e < 2 * period)
      && bitsOf (fieldAt (blk k) 0 1) 4 4 = 0 && zeroAt (blk k) 1 7
  let formatOk := fun (k : Fin 8) => (Format.ofCode (bitsOf (fieldAt (blk k) 0 1) 0 3)).isSome
  let fail := fun (check pin : Nat) => Except.error (⟨check, tset, 0, pin⟩ : TimingFail)
  if period < 640 then fail 1 0
  else if !zeroAt b 4 12 then fail 2 0
  else match (List.finRange 8).find? fun k => !inRange k with
    | some k => fail 2 k
    | none => match (List.finRange 8).find? fun k => !formatOk k with
      | some k => fail 3 k
      | none => match (List.finRange 8).find? fun k => !(pins[k]).ordered period with
        | some k => fail 4 k
        | none => .ok ⟨period, pins⟩

def TimingSet.bytes (t : TimingSet) : List Byte :=
  leBytes 4 t.period ++ List.replicate 12 0 ++ t.pins.toList.flatMap PinTiming.bytes

/-- TIM_LAST_REFUSE of a failed check (R92). -/
def TimingFail.word (f : TimingFail) : Word :=
  BitVec.ofNat 32 (f.check + f.tset * 16 + f.dst * 1024 + f.pin * 65536)

/-! ## Level sets (R96, R97), pin configuration (R77), clock pins (R88) -/

def RailSet.of (b : List Byte) : RailSet := ⟨u16At b 0, u16At b 2, u16At b 4, bitOf (fieldAt b 6 1) 0⟩

def RailSet.bytes (r : RailSet) : List Byte :=
  leBytes 2 r.code.toNat ++ leBytes 2 r.step.toNat ++ leBytes 2 r.interval.toNat ++ leBytes 1 (bitAt r.rangeB 0) ++ [0]

/-- A level-set record at payload offset `off` (R98). -/
def parseLevels (b : List Byte) (off : Nat) : Except Nat LevelSet :=
  let blk := fun (r : Nat) => b.drop (off + 8 * r)
  checked ((List.range 8).flatMap fun r =>
      [(off + 8 * r + 2, fieldAt (blk r) 2 2 ≠ 0), (off + 8 * r + 6, fieldAt (blk r) 6 1 < 2), (off + 8 * r + 7, zeroAt (blk r) 7 1)])
    (Vector.ofFn fun (r : Fin 8) => RailSet.of (blk r))

def levelBytes (l : LevelSet) : List Byte := l.toList.flatMap RailSet.bytes

/-- A clock pin's payload (R249, check 7 of R83): the pin and its content. -/
def parseClock (b : List Byte) : Except Nat (Fin 2 × ClockPin) :=
  let en := bitOf (fieldAt b 1 1) 0
  checked [(0, fieldAt b 0 1 = 6 || fieldAt b 0 1 = 7), below b 1 1 2, (2, en || zeroAt b 2 2), (4, en || zeroAt b 4 6), isZero b 10 6]
    (if fieldAt b 0 1 = 6 then 0 else 1, ⟨en, u16At b 2, BitVec.ofNat 48 (fieldAt b 4 6)⟩)

/-- Check 7 of R83: an enabled clock's frequency word is from 1 to 2^47. -/
def ClockPin.fwOk (c : ClockPin) : Bool := !c.enable || (0 < c.fw.toNat && c.fw.toNat ≤ 2 ^ 47)

def ClockPin.bytes (c : ClockPin) (pin : Nat) : List Byte :=
  leBytes 1 pin ++ leBytes 1 (bitAt c.enable 0) ++ leBytes 2 c.ph.toNat ++ leBytes 6 c.fw.toNat ++ List.replicate 6 0

/-! ## Sequence entries (R47, R52) -/

def SeqOp.ofCode (n : Nat) : Option SeqOp :=
  match n with
  | 0 => some .next | 1 => some .jump | 2 => some .branch | 3 => some .loopBegin | 4 => some .loopEnd | 5 => some .call
  | 6 => some .ret | 7 => some .matchLoop | 8 => some .wait | 9 => some .signal | 10 => some .halt | _ => none

def SeqOp.code : SeqOp → Nat
  | .next => 0 | .jump => 1 | .branch => 2 | .loopBegin => 3 | .loopEnd => 4 | .call => 5 | .ret => 6 | .matchLoop => 7
  | .wait => 8 | .signal => 9 | .halt => 10

def condOfCode (n : Nat) : Option Cond :=
  match n with
  | 0 => some .fail | 1 => some .failMask | 2 => some .match_ | 3 => some .failBurst | 4 => some .evt | 5 => some .gevt
  | 6 => some .hostJump | 7 => some .scFlag | 8 => some .cntEq | 9 => some .ropeSite | _ => none

def Cond.code : Cond → Nat
  | .fail => 0 | .failMask => 1 | .match_ => 2 | .failBurst => 3 | .evt => 4 | .gevt => 5 | .hostJump => 6 | .scFlag => 7
  | .cntEq => 8 | .ropeSite => 9

/-- Whether a 5-bit parameter has no reserved bit set under a condition (R51), and its EVT cluster field. -/
def condParamOk (c : Cond) (par : Nat) : Bool :=
  match c with
  | .fail | .failBurst | .hostJump => par = 0
  | .failMask | .match_ | .scFlag => par < 16
  | .evt => par < 32
  | .gevt => par < 8
  | .cntEq => par < 4
  | .ropeSite => true

/-- Reserved bits of CPARAM under ROPE_SITE (R51). -/
def ropeParamOk (par : Nat) : Bool :=
  bitsOf par 5 3 = 0 && bitsOf par 13 2 = 0 && match condOfCode (par % 32) with
    | some .cntEq | some .ropeSite | none => false
    | some c => condParamOk c (bitsOf par 8 5)

/-- What an operation uses (R49, R51): COUNT, TARGET, CPARAM, COND. -/
def SeqOp.uses : SeqOp → Bool × Bool × Bool × Bool
  | .next | .ret | .halt => (false, false, false, false)
  | .jump | .call => (false, true, false, false)
  | .branch => (true, true, true, true)
  | .loopBegin => (true, false, true, false)
  | .loopEnd => (false, true, true, false)
  | .matchLoop | .wait => (true, true, true, true)
  | .signal => (false, false, true, false)

/-- An entry of 16 bytes under the encoding, unused-field and range checks of R52, for a program of `total` entries. -/
def parseEntry (b : List Byte) (total : Nat) : Option Entry := do
  let opf := fieldAt b 14 1
  let cf := fieldAt b 15 1
  let op ← SeqOp.ofCode (opf % 16)
  let cond ← condOfCode (cf % 32)
  let count := fieldAt b 4 4
  let target := fieldAt b 8 2
  let par := fieldAt b 10 2
  let (uCount, uTarget, uPar, uCond) := op.uses
  let countUsed := uCount && (op ≠ .branch || cond = .cntEq)
  let paramOk := if uCond then (if cond = .ropeSite then ropeParamOk par else par < 32 && condParamOk cond par)
    else if op = .loopBegin || op = .loopEnd then par < 4 else true
  let evtOk := !uCond || (match cond with
    | .evt => par % 16 < 12
    | .ropeSite => par % 32 ≠ 4 || bitsOf par 8 4 < 12
    | _ => true)
  let countOk := (op ≠ .loopBegin && op ≠ .matchLoop) || count ≠ 0
  if !bitOf opf 7 && cf < 64 && fieldAt b 12 1 < 64 && fieldAt b 13 1 < 16
      && (countUsed || count = 0) && (uTarget || target = 0) && (uPar || par = 0) && (uCond || cf = 0)
      && (cond ≠ .cntEq || op = .branch) && paramOk && evtOk && countOk && (!uTarget || target < total)
      && fieldAt b 0 4 ≠ 0xFFFFFFFF then
    some { segment := u32At b 0, count := u32At b 4, target := u16At b 8, cparam := u16At b 10,
           tset := Fin.ofNat 64 (fieldAt b 12 1), lset := Fin.ofNat 16 (fieldAt b 13 1), op := op, trig0 := bitOf opf 4,
           trig1 := bitOf opf 5, ropeTrig := bitOf opf 6, cond := cond, invert := bitOf cf 5 }
  else none

def Entry.bytes (e : Entry) : List Byte :=
  leBytes 4 e.segment.toNat ++ leBytes 4 e.count.toNat ++ leBytes 2 e.target.toNat ++ leBytes 2 e.cparam.toNat
    ++ leBytes 1 e.tset.val ++ leBytes 1 e.lset.val
    ++ leBytes 1 (e.op.code + bitAt e.trig0 4 + bitAt e.trig1 5 + bitAt e.ropeTrig 6) ++ leBytes 1 (e.cond.code + bitAt e.invert 5)

/-- Whether an entry's operation may continue at the next entry, or return there (R52: fall-through). -/
def Entry.fallsThrough (e : Entry) : Bool :=
  match e.op with
  | .next | .branch | .loopBegin | .loopEnd | .call | .matchLoop | .wait | .signal => true
  | .jump | .ret | .halt => false

/-! ## Capture, acquisition, TDC (R120, R131, R145, R152) -/

def CapMode.ofCode (n : Nat) : Option CapMode :=
  match n with
  | 0 => some .off | 1 => some .failLog | 2 => some .total | 3 => some .raw | 4 => some .window | _ => none

def parseCapture (b : List Byte) : Except Nat CapConfig :=
  checked [(0, (CapMode.ofCode (fieldAt b 0 1)).isSome), below b 1 1 2, isZero b 4 12]
    ⟨(CapMode.ofCode (fieldAt b 0 1)).getD .off, bitOf (fieldAt b 1 1) 0, u16At b 2⟩

def CapConfig.bytes (c : CapConfig) : List Byte :=
  leBytes 1 c.mode.code ++ leBytes 1 (bitAt c.align 0) ++ leBytes 2 c.closeUs.toNat ++ List.replicate 12 0

def AcqSource.ofCode (n : Nat) : Option AcqSource :=
  match n with
  | 0 => some .force | 1 => some .fail | 2 => some .vaddr | 3 => some .segment | 4 => some .pattern | 5 => some .evt
  | 6 => some .time | 7 => some .rope | _ => none

/-- Source parameters in range, unused bytes 0 (R131, R133). -/
def acqParamOk (s : AcqSource) (p : List Byte) : Bool :=
  match s with
  | .force => zeroAt p 0 16
  | .fail => zeroAt p 1 15
  | .vaddr => zeroAt p 6 10
  | .segment => zeroAt p 4 12
  | .pattern => zeroAt p 4 12
  | .evt => fieldAt p 0 1 < 4 && zeroAt p 1 15
  | .time => fieldAt p 2 4 < 1000000000 && zeroAt p 12 4
  | .rope => fieldAt p 8 1 < 12 && fieldAt p 9 1 < 2 && zeroAt p 12 4

/-- The acquisition record: ACQ_FORCE takes SOURCE FORCE only, ACQ_ARM any other (R131). -/
def parseAcq (b : List Byte) (force : Bool) : Except Nat AcqConfig :=
  let src := AcqSource.ofCode (fieldAt b 4 1)
  let auto := bitOf (fieldAt b 5 1) 0
  checked [(0, fieldAt b 0 4 ≠ 0), (4, src.isSome && (src == some .force) == force), below b 5 1 2, isZero b 6 2,
      (8, fieldAt b 8 4 ≤ 258048), (12, fieldAt b 12 4 ≠ 0), (16, auto == (fieldAt b 16 4 != 0)), isZero b 20 4,
      (24, acqParamOk (src.getD .force) ((b.drop 24).take 16))]
    ⟨u32At b 0, src.getD .force, auto, fieldAt b 8 4, fieldAt b 12 4, fieldAt b 16 4, (b.drop 24).take 16⟩

def AcqConfig.bytes (a : AcqConfig) : List Byte :=
  leBytes 4 a.armId.toNat ++ leBytes 1 a.source.code ++ leBytes 1 (bitAt a.auto 0) ++ leBytes 2 0 ++ leBytes 4 a.pre ++ leBytes 4 a.post
    ++ leBytes 4 a.autoUs ++ leBytes 4 0 ++ a.sparam

def ArmMode.ofCode (n : Nat) : ArmMode :=
  match n with
  | 0 => .symbol | 1 => .vwindow | 2 => .twindow | _ => .continuous

def ArmMode.code : ArmMode → Nat
  | .symbol => 0 | .vwindow => 1 | .twindow => 2 | .continuous => 3

def TdcConfig.of (b : List Byte) : TdcConfig :=
  let c := fieldAt b 0 1
  { en := bitOf c 0, cml := bitOf c 1, edge := BitVec.ofNat 2 (bitsOf c 2 2), arm := ArmMode.ofCode (bitsOf c 4 2), log := bitOf c 6,
    interval := bitOf (fieldAt b 1 1) 0, origin := u32At b 4, bin := u16At b 8, start := u96At b 16, stop := u96At b 28 }

def TdcConfig.bytes (t : TdcConfig) : List Byte :=
  leBytes 1 (bitAt t.en 0 + bitAt t.cml 1 + t.edge.toNat * 4 + t.arm.code * 16 + bitAt t.log 6) ++ leBytes 1 (bitAt t.interval 0)
    ++ leBytes 2 0 ++ leBytes 4 t.origin.toNat ++ leBytes 2 t.bin.toNat ++ List.replicate 6 0 ++ leBytes 12 t.start.toNat
    ++ leBytes 12 t.stop.toNat

/-- START and END under the arming mode (R145). -/
def tdcWindowOk (b : List Byte) (off : Nat) : Bool :=
  match bitsOf (fieldAt b 0 1) 4 2 with
  | 1 => zeroAt b (off + 6) 6
  | 2 => fieldAt b (off + 2) 4 < 1000000000
  | _ => zeroAt b off 12

/-- The eight channel blocks at payload offset `off` (R145). -/
def parseTdc (b : List Byte) (off : Nat) : Except Nat (Vector TdcConfig 8) :=
  let blk := fun (k : Nat) => b.drop (off + 40 * k)
  checked ((List.range 8).flatMap fun k =>
      let o := off + 40 * k
      [(o, fieldAt (blk k) 0 1 < 128 && bitsOf (fieldAt (blk k) 0 1) 2 2 ≠ 0), (o + 1, fieldAt (blk k) 1 1 < 2),
       (o + 2, zeroAt (blk k) 2 2), (o + 8, fieldAt (blk k) 8 2 ≠ 0), (o + 10, zeroAt (blk k) 10 6),
       (o + 16, tdcWindowOk (blk k) 16), (o + 28, tdcWindowOk (blk k) 28)])
    (Vector.ofFn fun (k : Fin 8) => TdcConfig.of (blk k))

/-- A pair entry at payload offset `off` (R152). -/
def parsePair (b : List Byte) (off : Nat) : Except Nat Pair :=
  let d := b.drop off
  checked [(off, fieldAt d 0 1 < 2), (off + 1, fieldAt d 1 1 < 96), (off + 2, fieldAt d 2 1 < 96 && fieldAt d 1 1 ≠ fieldAt d 2 1),
      (off + 3, zeroAt d 3 1), (off + 4, 0 < fieldAt d 4 4 && fieldAt d 4 4 < 2 ^ 31), (off + 12, fieldAt d 12 2 ≠ 0),
      (off + 14, zeroAt d 14 2)]
    { en := bitOf (fieldAt d 0 1) 0, pinA := fieldAt d 1 1, pinB := fieldAt d 2 1, maxd := fieldAt d 4 4, origin := u32At d 8,
      bin := u16At d 12 }

/-! ## The configuration of a cluster, concatenated (R393) -/

def Program.bytes (p : Program) : List Byte :=
  leBytes 4 p.total ++ (p.masks.toList.flatMap fun m => leBytes 12 m.toNat)
    ++ (List.range p.total).flatMap fun i => ((p.entry i).map Entry.bytes).getD (List.replicate 16 0)

def ClusterConfig.bytes (g : ClusterConfig) : List Byte :=
  (g.timing.toList.flatMap TimingSet.bytes) ++ leBytes 16 g.mux.toNat
    ++ (g.levels.toList.flatMap levelBytes) ++ leBytes 16 g.railEn.toNat
    ++ (g.clk[0]).bytes 6 ++ (g.clk[1]).bytes 7 ++ g.program.bytes ++ g.capture.bytes ++ g.acq.bytes
    ++ g.tdc.toList.flatMap TdcConfig.bytes

/-! ## Burst descriptors (R255) -/

/-- The symbols a stall word may hold (R182). -/
def stallSymOk (w : Word) : Bool := (List.range 8).all fun k =>
  match symAt w k with
  | .d0 | .d1 | .X | .D | .U | .K => true
  | _ => false

/-- The descriptor of BURST_COMMIT and COMMIT_GEN, under the Descriptor check of R255: `total` entries in the arming program, `site`
its clusters. -/
def parseDescriptor (b : List Byte) (total : Nat) (site : List Cluster) (level : Nat) : Except Nat (Descriptor × Bool) :=
  let n := fieldAt b 2 1
  let fl := fieldAt b 3 1
  let word := bitOf fl 0
  let cand := fun (i : Nat) => fieldAt b (4 + 2 * i) 2
  let bind := fieldAt b 12 3
  let stall := Vector.ofFn fun (c : Fin 12) => u32At b (16 + 4 * c.val)
  checked ([(0, decide (fieldAt b 0 2 ≠ 0)), (2, decide (1 ≤ n) && decide (n ≤ 4)), (3, decide (fl < 4))]
      ++ ((List.range 4).map fun i => (4 + 2 * i, if n ≤ i then cand i == 0 else decide (cand i < total)))
      ++ [(12, (List.finRange 24).all fun s => !bitOf bind s.val || site.any fun c => c.val = s.val / 2), isZero b 15 1]
      ++ ((List.finRange 12).map fun c => (16 + 4 * c.val,
          if word && site.contains c then stallSymOk stall[c] else stall[c] == 0)))
    (⟨u16At b 0, (List.range (min n 4)).map cand, BitVec.ofNat 24 bind, word, stall, level⟩, bitOf fl 1)

/-! ## Rule tables, items, flows (R188, R193, R198) -/

def RuleOpnd.ofCode (n : Nat) : Option RuleOpnd :=
  match n with
  | 0 => some .zero | 1 => some .resFail | 2 => some .resFailVecs | 3 => some .resHaltAddr | 4 => some .resBits | 5 => some .pinFail
  | 6 => some .scFlag | 7 => some .scBin | 8 => some .var | 9 => some .itemOpnd | 10 => some .itemFlags | 11 => some .entry
  | 12 => some .tdcMean | 13 => some .bursts | _ => none

def RuleCmp.ofCode (n : Nat) : Option RuleCmp :=
  match n with
  | 0 => some .always | 1 => some .eq | 2 => some .ne | 3 => some .lt | 4 => some .le | 5 => some .gt | 6 => some .ge
  | 7 => some .all | 8 => some .any | _ => none

def RuleAct.ofCode (n : Nat) : Option RuleAct :=
  match n with
  | 0 => some .none | 1 => some .setFlag | 2 => some .select | 3 => some .setBin | 4 => some .setVar | 5 => some .addVar
  | 6 => some .setLevel | 7 => some .setEdge | 8 => some .restart | 9 => some .stopSite | _ => none

/-- OPARAM within its source's range (R198). -/
def oparamOk (o : RuleOpnd) (p : Nat) : Bool :=
  match o with
  | .pinFail => p < 96
  | .scFlag => p < 16
  | .var => p < 8
  | .itemOpnd => p < 4
  | .tdcMean => if bitOf p 15 then bitsOf p 7 8 = 0 && p % 128 < 96 else p < 48
  | _ => p = 0

/-- One rule at payload offset `off` (R198). -/
def parseRule (b : List Byte) (off : Nat) : Except Nat Rule :=
  let d := b.drop off
  let o := RuleOpnd.ofCode (fieldAt d 0 1)
  let c := RuleCmp.ofCode (fieldAt d 1 1)
  let a := RuleAct.ofCode (fieldAt d 16 1)
  let fl := fieldAt d 17 1
  checked [(off, o.isSome), (off + 1, c.isSome), (off + 2, oparamOk (o.getD .zero) (fieldAt d 2 2)), (off + 4, zeroAt d 4 4),
      (off + 16, a.isSome), (off + 17, fl < 4), (off + 20, zeroAt d 20 4)]
    { opnd := o.getD .zero, cmp := c.getD .always, oparam := u16At d 2, k := s64At d 8, act := a.getD .none, stop := bitOf fl 0,
      valVar := bitOf fl 1, aparam := u16At d 18, value := s64At d 24 }

/-- A rule table (R198): its number and rules. -/
def parseRules (b : List Byte) : Except Nat (Nat × List Rule) := do
  let n := fieldAt b 2 2
  let _ ← checked [(2, 1 ≤ n && n ≤ 256), isZero b 4 12] ()
  let rs ← (List.range n).mapM fun i => parseRule b (16 + 32 * i)
  pure (fieldAt b 0 2, rs)

def ItemType.ofCode (n : Nat) : Option ItemType :=
  match n with
  | 1 => some .burstDone | 2 => some .ruleEval | 3 => some .searchStep | 4 => some .trimStep | 5 => some .failReduce
  | 6 => some .binAssign | 7 => some .calStep | 8 => some .tdcStat | 9 => some .placement | 10 => some .hostItem | _ => none

/-- The payload of an item as ITEM_POST checks it: bytes the type's table leaves reserved are 0 (R188; R207 to R209). -/
def itemReservedOk (ty : ItemType) (p : List Byte) : Bool :=
  match ty with
  | .searchStep => zeroAt p 0x21 7
  | .trimStep => zeroAt p 0x11 23
  | .failReduce => zeroAt p 0x10 24
  | .binAssign => fieldAt p 1 1 < 2 && zeroAt p 2 38
  | .hostItem => zeroAt p 2 6
  | _ => true

end Sys2Proof.Machine
end

