-- ==== Sys2Proof/Machine/Package.lean ====
section
/-! DEFINITION. The balls of the package (R400 to R403) and the contract with the companion chips (R404, R405). -/
namespace Sys2Proof.Machine

/-! ## Rows and columns (R400) -/

/-- The letters of a row's name, in order. -/
def rowLetters : List Char := "ABCDEFGHJKLMNPTUVWY".toList

/-- The name of the row with index `i`, 1 to 55 (R400). -/
def rowName (i : Nat) : List Char :=
  let letter := rowLetters.getD ((i - 1) % 19) 'A'
  if i ≤ 19 then [letter] else if i ≤ 38 then ['A', letter] else ['B', letter]

/-- The index of a row by its name. -/
def rowIndex (name : String) : Option Nat := (List.range' 1 55).find? fun i => rowName i = name.toList

/-! ## What a ball carries (R400 to R403) -/

/-- The lines of a pin. -/
inductive PinLine where
  | drv | den | cmh | cml
  deriving DecidableEq, Repr

/-- The supplies. -/
inductive Supply where
  | vddIo | vddTim | vddCore | vddSram | vddHbm | vddqHbm | vppHbm | vddAo | vddaDac
  deriving DecidableEq, Repr

/-- A ball's signal; `pos`: the P line of a pair. -/
inductive Ball where
  | pin (line : PinLine) (n : Pin) (pos : Bool)
  | rail (c : Cluster) (r : Lane)
  | gnds (c : Cluster)
  | evt (c : Cluster) (n : Fin 2)
  | trig (c : Cluster) (n : Fin 2)
  | pcie (tx : Bool) (n : Lane) (pos : Bool)
  | rope (tx : Bool) (n : Port) (pos : Bool)
  | single (name : String)
  | strap (n : Fin 4)
  | supply (s : Supply)
  | vss
  | rsvd
  deriving DecidableEq, Repr

/-- A ball of a cluster band, by its row `k` of the band and the column `j` counted from the edge (R401). -/
def bandBall (c : Cluster) (k : Fin 9) (j : Nat) : Ball :=
  if h : k.val < 8 then
    let line := fun (x : PinLine) => Ball.pin x (Fin.ofNat 96 (8 * c.val + k.val)) (j % 2 = 1)
    if j ≤ 2 then line .drv
    else if j ≤ 4 then line .den
    else if j ≤ 6 then line .cmh
    else if j ≤ 8 then line .cml
    else if j = 9 then .rail c ⟨k.val, h⟩
    else if k.val < 2 then .evt c (Fin.ofNat 2 k.val)
    else if k.val < 4 then .trig c (Fin.ofNat 2 k.val)
    else if k.val < 7 then .supply .vddaDac
    else .vss
  else if j = 9 then .gnds c else .vss

/-- The single balls of a row, from a column on (R402). -/
def singleBalls : List (String × Nat × List String) :=
  [("A", 33, ["REFCLK_P", "REFCLK_N"]), ("C", 33, ["CAL_TIN_P", "CAL_TIN_N"]), ("E", 33, ["CAL_VREF"]), ("E", 35, ["OCXO_READY"]),
   ("BP", 20, ["PCIE_REFCLK_P", "PCIE_REFCLK_N"]), ("BH", 12, ["ALIVE", "PORST_N", "PERST_N", "CLKREQ_N", "THERM_A", "THERM_K"]),
   ("BJ", 12, ["TCK", "TMS", "TDI", "TDO", "TRST_N"]),
   ("BK", 12, ["I3C0_SCL", "I3C0_SDA", "I3C1_SCL", "I3C1_SDA", "I3CT_SCL", "I3CT_SDA"]),
   ("BM", 12, ["XSPI_CK", "XSPI_CS_N", "XSPI_DQS", "XSPI_DQ0", "XSPI_DQ1", "XSPI_DQ2", "XSPI_DQ3", "XSPI_DQ4", "XSPI_DQ5", "XSPI_DQ6", "XSPI_DQ7",
     "XSPI_RESET_N"])]

/-- The other signal balls (R402). -/
def otherBall (row : List Char) (col : Nat) : Option Ball :=
  let inRow := fun (r : String) => row = r.toList
  let link := (inRow "BT" || inRow "BV") && decide (17 ≤ col) && decide (col ≤ 40)
  let ropes := (inRow "A" || inRow "C") && decide (20 ≤ col) && decide (col ≤ 30)
  if link then
    let n := (col - 17) / 3
    some (if (col - 17) % 3 = 2 then .vss else .pcie (inRow "BT") (Fin.ofNat 8 n) ((col - 17) % 3 = 0))
  else if ropes then
    let n := (col - 20) / 3
    some (if (col - 20) % 3 = 2 then .vss else .rope (inRow "A") (Fin.ofNat 4 n) ((col - 20) % 3 = 0))
  else if (inRow "BU" && decide (17 ≤ col) && decide (col ≤ 40)) || (inRow "B" && decide (20 ≤ col) && decide (col ≤ 30)) then some .vss
  else if inRow "BN" && decide (12 ≤ col) && decide (col ≤ 43) then some .rsvd
  else if inRow "BG" && decide (12 ≤ col) && decide (col ≤ 15) then some (.strap (Fin.ofNat 4 (col - 12)))
  else
    (singleBalls.find? fun x => inRow x.1 && decide (x.2.1 ≤ col) && decide (col < x.2.1 + x.2.2.length)).map fun x =>
      .single (x.2.2.getD (col - x.2.1) "")

/-- The supply of the area a ball lies in, by its row index and column; the always-on area goes first (R403). -/
def areaOf (i col : Nat) : Option Supply :=
  let box := fun (r0 r1 c0 c1 : Nat) => decide (r0 ≤ i) && decide (i ≤ r1) && decide (c0 ≤ col) && decide (col ≤ c1)
  if box 45 46 18 25 then some .vddAo
  else if box 1 3 11 45 then some .vddIo
  else if box 4 9 11 45 then some .vddTim
  else if box 10 38 11 33 then some .vddCore
  else if box 39 44 11 33 then some .vddSram
  else if box 10 27 34 45 then some .vddHbm
  else if box 28 38 34 45 then some .vddqHbm
  else if box 39 44 34 45 then some .vppHbm
  else if box 45 55 11 45 then some .vddIo
  else none

/-- The ball at row index `i` and column `col`, each 1 to 55 (R400 to R403). -/
def ballAt (i col : Nat) : Option Ball :=
  if i = 0 || 55 < i || col = 0 || 55 < col then none
  else if col ≤ 10 || 46 ≤ col then
    let band := (i - 1) / 9
    let left := decide (col ≤ 10)
    if i = 55 then some .vss
    else some (bandBall (Fin.ofNat 12 (if left then band else band + 6)) (Fin.ofNat 9 ((i - 1) % 9)) (if left then col else 56 - col))
  else
    (otherBall (rowName i) col).or ((areaOf i col).map fun s => if (i + col) % 2 = 0 then .supply s else .vss)

/-- A ball by its name: row and column. -/
def ballNamed (row : String) (col : Nat) : Option Ball := (rowIndex row).bind fun i => ballAt i col

/-! ## The companion chips' lines (R404, R405) -/

/-- The four levels of a DRV line. -/
inductive DrvLevel where
  | l0 | l1 | l2 | l3
  deriving DecidableEq, Repr

/-- The nominal differential voltage in mV. -/
def DrvLevel.mv : DrvLevel → Int
  | .l0 => -400 | .l1 => -133 | .l2 => 133 | .l3 => 400

/-- The level that carries a data bit under a level pair. -/
def drvLevel (d pairB : Bool) : DrvLevel :=
  match d, pairB with
  | false, false => .l0
  | false, true => .l1
  | true, true => .l2
  | true, false => .l3

/-- The level a pin's DRV line stands at: L0 for DRV 0 of pair A, as at reset and while parked. -/
def PinOut.level (o : PinOut) : DrvLevel := drvLevel o.drv o.pairB

/-- What the companion chip drives: nothing while DEN is at driver-disable, else the high or the low level of a pair, A or B. -/
def PinOut.drives (o : PinOut) : Option (Bool × Bool) := if o.den then some (o.drv, o.pairB) else none

/-- What the companion chip drives on CMH and CML for a pin voltage, in mV against VOH and VOL (R25, R405). -/
def comparators (v voh vol : Int) : Bool × Bool := (decide (voh < v), decide (v < vol))

/-- The companion chip applies VTT: whenever the driver is disabled and its own configuration enables the termination (R405). -/
def PinOut.terminated (o : PinOut) (enabled : Bool) : Bool := !o.den && enabled

end Sys2Proof.Machine
end

