-- ==== Sys2Proof/Machine/Flags.lean ====
section
/-! DEFINITION. The flag computations: every status word that is computed from the state (R74, R232, R296, R310, R318, R365, R366, R377),
and the content of a status-mirror page (R232). -/
namespace Sys2Proof.Machine

/-! ## Pending starts, ownership -/

/-- A start is pending for a site and not yet armed (R257). -/
def State.startPending (s : State) (k : Cluster) : Bool := (s.seqs[k]).start.isSome

/-- The site's one start is taken (R65, R256; log 22): a start is pending, or armed and not yet at its first vector. -/
def State.startHeld (s : State) (k : Cluster) : Bool := s.startPending k || s.siteState k = .armed

/-- The site is IDLE or HALTED with no start pending. -/
def State.quietSite (s : State) (k : Cluster) : Bool := (s.siteState k).rests && !s.startPending k

def State.allQuiet (s : State) : Bool := s.siteIdxs.all s.quietSite

/-- The site a cluster belongs to. -/
def State.site (s : State) (c : Cluster) : Cluster := s.siteOf[c]

def State.owns (s : State) (f : Func) (c : Cluster) : Bool := s.host.owner[c] = f

/-- The owner of a flow (R193): that of the site's clusters for a decision flow. -/
def State.flowOwner (s : State) (n : Nat) : Func :=
  if h : n < 12 then s.host.owner[s.site ⟨n, h⟩] else (s.sched.flow n).owner

def State.isReady (s : State) : Bool := s.pwr.phase = .ready

/-! ## Power (R364 to R366) -/

/-- Exit latency to READY in ns (R364). -/
def exitLatency (state : Nat) : Nat :=
  match state with
  | 0 | 1 => 0 | 2 => 1000 | 3 => 25000 | _ => 350000

/-- The FIFOs of the cluster hold what no passing of time takes out of them (R365): capture data, or stamps whose block has not moved on. -/
def ClusterEng.holdsBlocks (e : ClusterEng) : Bool :=
  e.cap.open_.isSome || !e.cap.fifo.isEmpty || (List.finRange 8).any fun k => 0 < e.stamp.held k.val || 0 < e.stamp.stamps[k]

/-- The capture FIFO or a TDC FIFO of the cluster is not empty at the network time `t` (R365): a stamp leaves it once its block has moved on. -/
def ClusterEng.holdsData (e : ClusterEng) (t : Int) : Bool := e.holdsBlocks || (List.finRange 8).any fun k => 0 < ((e.tdc[k]).drainTo t).fill

/-- The network time at which the TDC FIFOs have drained (R146). -/
def ClusterEng.drainedAt (e : ClusterEng) : Int := e.tdc.toList.foldl (fun t x => max t (x.fillAt + (x.fill * drainUnits : Nat))) 0

def State.limSite (s : State) (c : Cluster) : Bool := !s.quietSite (s.site c)
def State.limTdc (s : State) (c : Cluster) : Bool :=
  (s.config c).tdc.toList.any fun t => t.en && (t.arm = .continuous || t.arm = .twindow)
def State.limClock (s : State) (c : Cluster) : Bool := (s.config c).isClock 6 || (s.config c).isClock 7
def State.limFifo (s : State) (c : Cluster) : Bool := (s.cl[c]).holdsData s.net
def State.limCal (s : State) (c : Cluster) : Bool := (s.cal.cl[c]).what ≠ 0

/-- The deepest state the limits other than the FIFOs' permit while the site rests with no start pending (R365). -/
def State.permitted (s : State) (c : Cluster) : Nat :=
  if s.limCal c then 1 else if s.limTdc c || s.limClock c then 2 else 4

/-- The deepest state within the tolerance (R366). -/
def PwrCl.tolerated (p : PwrCl) : Nat :=
  let tol := p.tol.toNat
  if 350000 ≤ tol then 4 else if 25000 ≤ tol then 3 else if 1000 ≤ tol then 2 else 1

/-- The deepest state the tolerance and the limits allow, whatever the site does (R365, R366). -/
def State.allowed (s : State) (c : Cluster) : Nat := if s.limFifo c then 1 else min (s.pwr.cl[c]).tolerated (s.permitted c)

/-- The choice but for the FIFO limit. -/
def State.chooseBare (s : State) (c : Cluster) : Nat := if s.limSite c then 1 else min (s.pwr.cl[c]).tolerated (s.permitted c)

/-- The chosen state (R365, R366). -/
def State.choose (s : State) (c : Cluster) : Nat := if s.limFifo c then 1 else s.chooseBare c

/-- The power state of a cluster: RUN exactly while its site is ARMED, RUNNING, STALLED or BELAY (R365). -/
def State.power (s : State) (c : Cluster) : Nat := if (s.siteState (s.site c)).rests then (s.pwr.cl[c]).state else 0

/-- The choice as it stood before what changes it now, with the instant since when: FIFOs that have drained meanwhile ended their limit by
themselves (R365, R366). -/
def State.chosenBefore (s : State) (c : Cluster) : Nat × Nat :=
  let p := s.pwr.cl[c]
  if p.fed && !s.limFifo c && p.bare ≠ p.chosen then (p.bare, ((s.cl[c]).drainedAt - s.netOff).toNat) else (p.chosen, p.since)

/-- The chosen state of every cluster is looked at again, and the time it has stayed the same starts afresh where it changed
(R366). -/
def State.repick (s : State) : State :=
  { s with pwr := { s.pwr with cl := Vector.ofFn fun (c : Fin 12) =>
      let (old, since) := s.chosenBefore c
      let n := s.choose c
      { s.pwr.cl[c] with chosen := n, since := if old = n then since else s.now, bare := s.chooseBare c,
                         fed := s.limFifo c && !(s.cl[c]).holdsBlocks } } }

/-- Every cluster is in NAP or BIVOUAC (R368, R369). -/
def State.allDeep (s : State) : Bool := (List.finRange 12).all fun c => 3 ≤ s.power c

def LinkState.code : LinkState → Nat
  | .l0 => 0 | .l1 => 1 | .l11 => 2 | .l12 => 3 | .down => 4

/-- PWR_STATUS (R377); REFCLK_OK and BC_INTOSC follow the clock from PORST_N on. -/
def State.pwrStatus (s : State) : Word :=
  let p := s.pwr
  BitVec.ofNat 32 (bitAt p.bootDone 15 + bitAt (p.bcIntosc && !p.porst) 14 + bitAt (p.refclkOk && !p.porst) 13 + bitAt p.ocxo 12 + bitAt p.tbWarm 11
    + bitAt p.thermWarn 10 + bitAt (p.tripped ≠ 0) 9 + p.hbm % 4 * 128 + (LinkState.code p.link) * 16)

/-- A commanded run has begun on the cluster: it is in READY (R367). -/
def State.calOn (s : State) (c : Cluster) : Bool := (s.pwr.cl[c]).state ≤ 1

/-- A path's need of correction in SUBNS units (R324, log 7), within the limits of R326. -/
def pathUnits (output line : Nat) : Int := max (-1024) (min 1024 (Config.pathNeed output line)) * fuUnits

/-- The lines of a pin as the timing generator has them, DRV at `drvAt` and DEN at `denAt` (R87): one pipeline latency, common to the device, after
their programmed and corrected times. -/
def State.generated (s : State) (c : Cluster) (k : Lane) (drvAt denAt : Int) : PinOut :=
  let l : Int := (Config.pipeLatency * fuUnits : Nat)
  (s.cl[c]).tim.lines (s.cl[c]).coeffs k (drvAt - l) (denAt - l)

/-- The output lines of a pin at its ball at network time `t`, on the calibrated reference plane (R87, R324): the plane takes the common latency out,
and an edge comes as much after its programmed time as its correction exceeds what its path needs; calibration makes the two equal. Disabled, with DRV
0, on an absent pin or a parked cluster (R345, R406); else the formatter or its clock generator has the lines. While a commanded calibration run acts on
the cluster (R367), DEN is at driver-disable (R328); a deskew run toggles DRV behind it, in a pattern the spec does not give and a free value stands for
(R71, log 35). -/
def State.ballOut (s : State) (c : Cluster) (k : Lane) (t : Int) : PinOut :=
  if (s.heldMask c).getLsbD k.val then .disabled
  else
    let pin := 8 * c.val + k.val
    let l : Int := (Config.pipeLatency * fuUnits : Nat)
    let o := s.generated c k (t + l + pathUnits pin 0) (t + l + pathUnits pin 1)
    let x := s.cal.cl[c]
    let drv := if x.what.getLsbD 1 && !x.what.getLsbD 0 then Config.deskewDrv pin t else o.drv
    if s.limCal c && s.calOn c then { o with den := false, drv := drv, events := [] } else o

/-- A rail at its ball at network time `t` (R103, R104): its code and range, 10 ns after the DAC clock edge; none on the park switch, at the
cluster's ground. -/
def State.railBall (s : State) (c : Cluster) (r : Lane) (t : Int) : Option (Nat × Bool) :=
  let x := ((s.cl[c]).lvl.upTo t).rails[r]
  if x.shown then some (x.ballCode t, x.rangeB) else none

/-- What a pin's DRV line shows at its ball (R404). -/
def State.drvBall (s : State) (c : Cluster) (k : Lane) (t : Int) : DrvLevel := (s.ballOut c k t).level

/-- The slot of one of the 1,024 pulses of a commanded trigger-skew run, which takes 1 ms (R328). -/
def skewSlot : Nat := 1000 * usUnits / 1024

/-- A commanded trigger-skew run that began at `start` has its output high at `t` (R328): 1,024 pulses of 2 ns, one in each slot; where in the slot is
open (log 35). -/
def skewHigh (c : Cluster) (i : Fin 2) (start t : Int) : Bool :=
  let n := (t - start) / skewSlot
  let at_ := start + n * skewSlot + (Config.skewWait c.val i.val n.toNat % (skewSlot - 2 * nsUnits) : Nat)
  0 ≤ n && n < 1024 && at_ ≤ t && t < at_ + (2 * nsUnits : Nat)

/-- A TRIG output at its ball at network time `t` (R63, R324, R374): high within a pulse, a program's or a commanded trigger-skew run's (R328). -/
def State.trigBall (s : State) (c : Cluster) (i : Fin 2) (t : Int) : Bool :=
  let io := (s.cl[c]).io
  let last := if i = 0 then io.trig0Until else io.trig1Until
  let u := t + pathUnits (96 + 2 * c.val + i.val) 0
  if (s.cal.cl[c]).what = 8 && s.calOn c then skewHigh c i (s.cal.cl[c]).kindFrom t else (io.trigFrom[i]).any (· ≤ u) && last.any (u < ·)

/-- An output ball that is not a device pin: at a level, released, in electrical idle, or driven as its protocol has it. -/
inductive Pad where
  | low | high | released | idle | busy
  deriving DecidableEq, Repr

/-- A rope port's transmitter (R282, R292, R300, R374): electrical idle until ROPE_CONFIG, in IDLE, and in a near-end serial test, which does not
drive the balls. -/
def State.ropePad (s : State) (n : Port) : Pad :=
  let p := s.rope.ports[n]
  if s.pwr.porst || p.state = .disabled || p.state = .idle || (p.state = .test && p.test.running && p.test.loop = 1) then .idle else .busy

/-- CLKREQ_N (R369, R374), which is active low: asserted from boot on, and released in L1.1 and L1.2. -/
def State.clkreqPad (s : State) : Pad :=
  if s.pwr.porst then .released
  else match s.pwr.link with
    | .l11 | .l12 => .released
    | _ => .low

/-- The device boots (R374). -/
def State.booting (s : State) : Bool := match s.pwr.phase with
  | .booting _ _ => true
  | _ => false

/-- The engine runs a CAL_STORE, which writes flash before its crux point (R272, R342). -/
def State.storing (s : State) : Bool := s.cmd.running && s.cmd.opcode = 0x0901 && !s.cmd.postCrux

/-- The chip select of the flash (R374), active low: high but for the reads of boot and the accesses of a command; an access that a command completes
within its own step shows in no state. -/
def State.flashPad (s : State) : Pad := if !s.pwr.porst && (s.booting || s.storing) then .busy else .high

/-- SCL and SDA of an I3C controller bus (R374): address assignment at boot and transfers drive them. -/
def State.i3cPad (s : State) (bus : Fin 2) : Pad :=
  if !s.pwr.porst && (s.booting || (s.ids.i3c.busy && s.ids.i3c.pin.toNat / 48 = bus.val)) then .busy else .released

/-- A PCIe transmit lane (R374, R409): in electrical idle in reset and below L0, and lanes 4 to 7 under STRAP2. -/
def State.pciePad (s : State) (lane : Lane) : Pad :=
  let low := match s.pwr.link with
    | .l1 | .l11 | .l12 => true
    | .l0 | .down => false
  if s.pwr.porst || s.pwr.perst || low || (s.pwr.straps.getLsbD 2 && 4 ≤ lane.val) then .idle else .busy

/-! ## Clock domains (R17, R360) -/

/-- The clock domains of R17. -/
inductive ClockDomain where
  | baseCamp | master | control | datapath (c : Cluster) | dac (c : Cluster) | hbm | rope | hostPort
  deriving DecidableEq, Repr

/-- Some rope port is enabled (R360). -/
def State.ropeOn (s : State) : Bool := s.rope.ports.toList.any fun p => p.state ≠ .disabled

/-- The time the rope PLL takes to lock (R360). -/
def ropeLock : Nat := 60 * usUnits

/-- Whether a domain runs (R360). A stopped one is back within the time R360 gives, which the latencies of what needs it include. -/
def State.clockRuns (s : State) (d : ClockDomain) : Bool :=
  let on := s.pwr.phase ≠ .held
  match d with
  | .baseCamp => !s.pwr.porst
  | .master | .control => on && !s.pwr.pllLost
  | .datapath c => on && s.power c ≤ 1
  | .dac c => on && s.power c ≠ 4 && ((s.cl[c]).lvl.upTo s.net).rails.toList.any (·.live)
  | .hbm => on && s.pwr.hbm = 1
  | .rope => s.ropeOn && s.rope.clockAt + ropeLock ≤ s.now
  | .hostPort => match s.pwr.link with
    | .l12 => false
    | _ => !s.pwr.porst && !s.pwr.perst

/-! ## Time unit (R309, R310, R318) -/

def TimeState.code : TimeState → Nat
  | .freeRun => 0 | .acquiring => 1 | .locked => 2 | .holdover => 3 | .refused => 4

def TimeSource.code : TimeSource → Nat
  | .freeRun => 0 | .ptm => 1 | .rope => 2

/-- HOLDOVER of TME_STATUS and of DEV_STATE. -/
def TimeUnit.heldOver (t : TimeUnit) : Bool :=
  match t.state with
  | .acquiring | .holdover | .refused => true
  | _ => false

/-! ## Rope (R283, R288) -/

def PortState.code : PortState → Nat
  | .disabled => 0 | .detect => 1 | .train => 2 | .align => 3 | .ident => 4 | .up => 5 | .idle => 6 | .test => 7

/-- Whether a port carries a path of a multi-device site (R264, R292). -/
def State.carries (s : State) (p : Port) (k : Cluster) : Bool := s.isSite k && (s.gangs[k]).any fun g => g.ports.contains p

/-- The port carries a path of a site that is not IDLE or HALTED, or has a pending start. -/
def State.portInUse (s : State) (p : Port) : Bool := s.siteIdxs.any fun k => s.carries p k && !s.quietSite k

def Rope.find (r : Rope) (serial : BitVec 64) : Option TopoEntry := r.topo.find? fun e => e.serial = serial

/-- The site level (R297): the lowest topology-entry level of the members, 0 for a single-device site. -/
def State.siteLevel (s : State) (k : Cluster) : Nat :=
  match s.gangs[k] with
  | none => 0
  | some g => g.members.foldl (fun l m => min l (((s.rope.find m).map (·.level)).getD 2)) 3

/-! ## Memory -/

/-- Data accepted and unplayed in an inbound area, in KiB (log 15): 4 KiB for each block whose HBM is not released. -/
def InStream.kib (t : InStream) : Nat := if t.play then 4 * t.staged else 0

def OutStream.kib (t : OutStream) : Nat := 4 * t.area.length

/-- Whether an outbound area holds closed blocks (R368, R369). -/
def State.areasHold (s : State) : Bool := s.mem.outs.toList.any fun o => !o.area.isEmpty

/-- A LOAD stream with blocks to fetch is paused: the HBM free pool holds less than 4 KiB (R174). -/
def State.loadPaused (s : State) (i : Fin 24) : Bool :=
  let t := s.mem.ins[i]
  t.isOpen && !t.play && !t.descs.isEmpty && decide (s.mem.freeBytes < 4096)

/-- HBM_FULL of MEM_STATUS (R186). -/
def State.hbmFull (s : State) : Bool := (List.finRange 24).any s.loadPaused

/-! ## Words of the mirror (R232) -/

/-- DEV_STATE. -/
def State.devState (s : State) : Word :=
  BitVec.ofNat 32 (bitAt s.isReady 0 + bitAt s.devFault 1 + bitAt s.pwr.tbWarm 2 + bitAt (s.time.state = .refused) 3
    + bitAt s.time.heldOver 4 + bitAt (s.cal.cl.toList.any (·.stale)) 5 + bitAt s.cal.reject 6 + bitAt s.cal.older 7
    + bitAt s.pwr.thermWarn 8 + bitAt s.mem.ready 9 + bitAt s.mem.reclaim 10 + bitAt s.mem.eccUeBit 11)

/-- Entries of a reply ring, and those free (R227). -/
def ReplyRing.entries (r : ReplyRing) : Nat := 2 ^ (r.log2 - 5)

def ReplyRing.free (r : ReplyRing) : Nat := (r.head + 2 * r.entries - r.tail - 1) % r.entries

def ReplyRing.full (r : ReplyRing) : Bool := r.open_ && r.free = 0

/-- RING_STATE. -/
def HostFunc.ringState (h : HostFunc) : Word :=
  BitVec.ofNat 32 (((List.finRange 4).map fun (r : Fin 4) => bitAt (h.sq[r]).en r + bitAt (h.sq[r]).err (8 + r)).sum
    + bitAt h.rq.en 16 + bitAt h.rq.full 17)

def SiteState.code : SiteState → Nat
  | .idle => 0 | .armed => 1 | .running => 2 | .halted => 3 | .stalled => 4 | .belay => 5

def State.anyMember (s : State) (k : Cluster) (p : Cluster → Bool) : Bool := (s.members k).any p

/-- EVENTS of a site record. -/
def State.events (s : State) (k : Cluster) : Nat :=
  let q := s.seqs[k]
  bitAt q.lateFlag 0 + bitAt q.startSlip 1 + bitAt q.notRun 2 + bitAt q.aborted 3 + bitAt q.chainTmo 4 + bitAt q.stackErr 5
    + bitAt q.condMiss 6 + bitAt (s.anyMember k fun c => (s.mem.perCl[c]).underrun) 7
    + bitAt (s.anyMember k fun c => (s.cl[c]).cap.loss) 8
    + bitAt (s.anyMember k fun c => (s.cl[c]).tdc.toList.any (·.ovf)) 9
    + bitAt (s.anyMember k fun c => (s.cl[c]).lvl.lvlSc ≠ 0) 10 + bitAt (s.anyMember k fun c => ((s.cl[c]).lvl.upTo s.net).busy) 11

/-- A site record of function `f`'s page: 32 bytes. -/
def State.siteRecord (s : State) (f : Func) (k : Cluster) : List Byte :=
  if !s.isSite k || !s.owns f k then List.replicate 32 0
  else
    let r := s.sites[k]
    leBytes 1 (SiteState.code r.state + bitAt r.taint 3) ++ leBytes 1 r.req.toNat ++ leBytes 1 r.reqAck.toNat ++ leBytes 1 1
      ++ leBytes 2 r.curGen.toNat ++ leBytes 2 r.pendGen.toNat ++ leBytes 4 r.burstId.toNat ++ leBytes 4 r.scFlags.toNat
      ++ leBytes 8 r.result.toNat ++ leBytes 4 (s.events k) ++ leBytes 4 (s.seqs[k]).slipNs.toNat

def State.inEntry (s : State) (f : Func) (i : Fin 24) : List Byte :=
  let t := s.mem.ins[i]
  let c : Cluster := Fin.ofNat 12 (i.val / 2)
  if !s.owns f c then List.replicate 8 0
  else leBytes 2 t.head ++ leBytes 2 (bitAt t.isOpen 0 + bitAt t.play 1 + bitAt t.tmo 2 + bitAt t.oversize 3
      + bitAt (s.loadPaused i) 5) ++ leBytes 4 t.kib

def State.outEntry (s : State) (f : Func) (i : Fin 24) : List Byte :=
  let t := s.mem.outs[i]
  let c : Cluster := Fin.ofNat 12 (i.val / 2)
  if !s.owns f c then List.replicate 8 0
  else leBytes 2 t.head ++ leBytes 2 (bitAt t.isOpen 0 + bitAt t.reclaim 4) ++ leBytes 4 t.kib

def State.clusterEntry (s : State) (f : Func) (c : Cluster) : List Byte :=
  let e := s.cl[c]
  if !s.owns f c then List.replicate 4 0
  else leBytes 1 (s.power c) ++ leBytes 1 ((e.lvl.upTo s.net).mask fun r => r.phase ≠ .none).toNat ++ leBytes 1 e.lvl.lvlSc.toNat
    ++ leBytes 1 (bitAt (e.tdc.toList.any (·.ovf)) 0 + bitAt e.cap.loss 1 + bitAt e.cap.dropping.isSome 2)

/-- Whether function `f` owns a cluster, and so a site, at all (R211). -/
def State.ownedMask (s : State) (f : Func) : Nat := ((List.finRange 12).map fun (c : Fin 12) => bitAt (s.owns f c) c).sum

/-- The 4 KiB mirror page of function `f`, with its sequence counter (R232). -/
def State.mirrorPage (s : State) (f : Func) (seq : Word) : List Byte :=
  let h := s.host.fn[f]
  let fst := s.flt.first
  let sm := s.host.samples
  let head := leBytes 4 seq.toNat ++ leBytes 1 f.val ++ leBytes 1 1 ++ leBytes 2 (s.ownedMask f) ++ leBytes 12 (stampOf s.net).toNat
    ++ leBytes 4 s.devState.toNat ++ leBytes 4 h.rq.tail ++ leBytes 4 h.ringState.toNat
    ++ (h.sq.toList.flatMap fun r => leBytes 4 r.head)
    ++ leBytes 1 ((fst.map fun r => r.cls.code + 128).getD 0) ++ leBytes 1 0 ++ leBytes 2 ((fst.map (·.source)).getD 0)
    ++ leBytes 4 s.flt.count.toNat ++ leBytes 4 0 ++ leBytes 4 s.rope.topoChange.toNat
  let sites := (List.finRange 12).flatMap (s.siteRecord f)
  let streams := (List.finRange 24).flatMap (s.inEntry f) ++ (List.finRange 24).flatMap (s.outEntry f)
  let flows := (List.finRange 12).flatMap fun (k : Fin 12) =>
    leBytes 2 (if s.isSite k && s.owns f k then (sm.flowWait[k]).toNat else 0)
  let sched := (sm.depth.toList.flatMap fun w => leBytes 4 w.toNat) ++ (sm.done.toList.flatMap fun w => leBytes 4 w.toNat)
    ++ flows ++ leBytes 8 0 ++ (sm.busy.toList.flatMap fun w => leBytes 2 w.toNat) ++ (sm.hist.toList.flatMap fun w => leBytes 4 w.toNat)
  let clusters := (List.finRange 12).flatMap (s.clusterEntry f)
  head ++ sites ++ streams ++ sched ++ clusters ++ List.replicate 2864 0

end Sys2Proof.Machine
end

