-- ==== Sys2Proof/Machine/CalOps.lean ====
section
/-! DEFINITION. The calibration unit's computations (R330 to R337): interpolation over the temperature sets, targets, staging, and the
checks that judge a run. -/
namespace Sys2Proof.Machine

/-! ## Interpolation (R330) -/

/-- The valid sets a cluster has recorded, by rising temperature (ties in set order). -/
def State.calSets (s : State) (c : Cluster) : List CalSet :=
  let sets := (s.cal.image.toList.filterMap fun x => x.map fun v => v[c])
  sets.foldl (fun l x => l.filter (fun y => y.temp ≤ x.temp) ++ [x] ++ l.filter (fun y => x.temp < y.temp)) []

/-- A value between two, at the fraction `q` of the way. -/
def lerp (q a b : Rat) : Rat := a + (b - a) * q

/-- Every coefficient of two sets combined: bin widths to the nearest 2^-6 FU, ties up (log 13). -/
def Coeffs.zip (f : Rat → Rat → Rat) (a b : Coeffs) : Coeffs :=
  { gain := Vector.ofFn fun (i : Fin 16) => f a.gain[i] b.gain[i],
    offset := Vector.ofFn fun (i : Fin 16) => f a.offset[i] b.offset[i], iref := f a.iref b.iref,
    drv := Vector.ofFn fun (i : Fin 8) => f a.drv[i] b.drv[i], den := Vector.ofFn fun (i : Fin 8) => f a.den[i] b.den[i],
    cmp := Vector.ofFn fun (i : Fin 8) => f a.cmp[i] b.cmp[i], tdc := Vector.ofFn fun (i : Fin 12) => f a.tdc[i] b.tdc[i],
    trig := Vector.ofFn fun (i : Fin 2) => f a.trig[i] b.trig[i],
    bins := Vector.ofFn fun (i : Fin 12) =>
      (List.range 64).map fun j => (roundRat (f (((a.bins[i]).getD j 0 : Nat) : Rat) (((b.bins[i]).getD j 0 : Nat) : Rat))).toNat }

/-- The interpolated value of what the sets hold, at temperature `t` in 1/16 degree. -/
def interp (sets : List CalSet) (get : CalSet → Coeffs) (t : Int) : Coeffs :=
  match (sets.filter fun x => x.temp ≤ t).getLast?, (sets.filter fun x => t < x.temp).head? with
  | none, none => {}
  | some a, none => get a
  | none, some b => get b
  | some a, some b => Coeffs.zip (lerp ((t - a.temp : Int) / (b.temp - a.temp : Int) : Rat)) (get a) (get b)

/-- The die temperature lies outside the cluster's calibrated range (R330). -/
def State.outOfRange (s : State) (c : Cluster) : Bool :=
  let sets := s.calSets c
  let t := s.pwr.temps[c]
  !(sets.any (fun x => x.temp ≤ t) && sets.any fun x => t ≤ x.temp)

/-! ## Targets (R331 to R333) -/

/-- The bin-width table a route uses (R331): its latest accepted run's, for 120 s, else the sets'. -/
def State.binsFor (s : State) (c : Cluster) (route : Fin 12) (base : List Nat) : List Nat :=
  match (s.cal.cl[c]).tables[route] with
  | some (w, t) => if s.now ≤ t + 120 * 1000 * msUnits then w else base
  | none => base

/-- Base values and the baseline of the drift readings (R332, R333): those of the accepted commanded runs the targets follow, else the
interpolated ones. -/
def State.calBase (s : State) (c : Cluster) : Coeffs × Coeffs :=
  let x := s.cal.cl[c]
  let sets := s.calSets c
  let t := s.pwr.temps[c]
  let pick := fun (i : Nat) (run : CalDone → Coeffs) (set : CalSet → Coeffs) =>
    match if x.follow.getLsbD i then getN x.kinds i none else none with
    | some d => run d
    | none => interp sets set t
  let mix := fun (run : CalDone → Coeffs) (set : CalSet → Coeffs) =>
    { gain := (pick 0 run set).gain, offset := (pick 0 run set).offset, iref := (pick 0 run set).iref, drv := (pick 1 run set).drv,
      den := (pick 1 run set).den, cmp := (pick 1 run set).cmp, tdc := (pick 1 run set).tdc, trig := (pick 3 run set).trig,
      bins := (interp sets set t).bins : Coeffs }
  (mix CalDone.values CalSet.values, mix CalDone.drift CalSet.drift)

/-- drift_now of one reading (R332, R333): the latest accepted background one, and until there is one since what the targets are based on, that
baseline, so that after an accepted commanded run of kind `i` the targets are that run's values. -/
def CalCluster.now_ {α : Type} (x : CalCluster) (i : Nat) (reading : Option (α × Nat)) (base : α) : α :=
  let since := match if x.follow.getLsbD i then getN x.kinds i none else none with
    | some d => d.nth
    | none => 0
  match reading with
  | some (v, n) => if since ≤ n then v else base
  | none => base

/-- The target coefficients of a cluster (R332). -/
def State.calTarget (s : State) (c : Cluster) : Coeffs :=
  let x := s.cal.cl[c]
  let (base, drift) := s.calBase c
  let iref := x.now_ 0 x.irefNow drift.iref
  let skew := x.now_ 1 x.skewNow drift
  let trig := (x.now_ 3 x.skewNow drift).trig
  let corr := fun {n : Nat} (b n0 d : Vector Rat n) => Vector.ofFn fun (i : Fin n) => b[i] + (n0[i] - d[i])
  { gain := base.gain.map fun g => g * (iref / drift.iref),
    offset := Vector.ofFn fun (i : Fin 16) => base.offset[i] + (x.now_ 0 x.offNow[i] drift.offset[i] - drift.offset[i]), iref := iref,
    drv := corr base.drv skew.drv drift.drv, den := corr base.den skew.den drift.den, cmp := corr base.cmp skew.cmp drift.cmp,
    tdc := corr base.tdc skew.tdc drift.tdc, trig := corr base.trig trig drift.trig,
    bins := Vector.ofFn fun (r : Fin 12) => s.binsFor c r base.bins[r] }

/-! ## Staging (R334) -/

def absRat (q : Rat) : Rat := if q < 0 then -q else q

/-- Twice the centre of each of the codes 0 to 64, in 2^-6 FU (R144). -/
def centres (w : List Nat) : List Nat :=
  ((List.range 64).map fun i => 2 * (w.take i).sum + w.getD i 0) ++ [(w.take 64).sum + 640 * 64]

def natDiff (a b : Nat) : Nat := (a - b) + (b - a)

/-- A target set differs enough from the one in force (R334), whose timing corrections were rounded to the nearest FU when they were applied
(R332). -/
def Coeffs.departs (t f : Coeffs) : Bool :=
  let far := fun {n : Nat} (a b : Vector Rat n) => (List.finRange n).any fun i => 1 < absRat (a[i] - (roundRat b[i] : Rat))
  far t.drv f.drv || far t.den f.den || far t.cmp f.cmp || far t.tdc f.tdc || far t.trig f.trig
    || (List.finRange 8).any (fun r => [false, true].any fun b => [(0xFFFF : BitVec 16), 0].any fun x =>
          1 < (t.corrected r b x - f.corrected r b x).natAbs)
    || (List.finRange 12).any fun r => ((centres t.bins[r]).zip (centres f.bins[r])).any fun p => 128 < natDiff p.1 p.2

/-- The complete target set of a cluster is staged (R334); a set already due stays due without a break (log 35). The set staged before this
datapath cycle is what an arm point of the cycle takes (R335). -/
def State.stageSet (s : State) (c : Cluster) (t : Coeffs) : State :=
  let x := s.cal
  { s with cal := { x with staged := upd x.staged c fun _ => some t,
                           stagedOld := upd x.stagedOld c fun old => if s.earlier x.stagedAt[c] s.net then x.staged[c] else old,
                           stagedAt := upd x.stagedAt c fun _ => s.now,
                           dueFrom := upd x.dueFrom c fun d => if (x.staged[c]).isSome then d else s.now } }

/-- The recomputation of a cluster's targets (R332, R333): a commanded run stops being followed once the die is more than 5 degrees from
its temperature; a set is staged under R334, or because a commanded run has been accepted. -/
def State.retarget (s : State) (c : Cluster) (commanded : Bool) : State :=
  let near := fun (i : Nat) => match getN (s.cal.cl[c]).kinds i none with
    | some d => s.pwr.temps[c] - d.temp ≤ 80 && d.temp - s.pwr.temps[c] ≤ 80
    | none => false
  let keep := BitVec.ofNat 4 ((List.range 4).map fun i => bitAt (near i) i).sum
  let s := { s with cal := { s.cal with cl := upd s.cal.cl c fun x => { x with follow := x.follow &&& keep } } }
  let t := s.calTarget c
  let s := { s with cal := { s.cal with cl := upd s.cal.cl c fun x => { x with target := t } } }
  if commanded || t.departs (s.cl[c]).coeffs then s.stageSet c t else s

/-! ## Judging a run (R326, R337) -/

/-- The readings as a coefficient set. -/
def Readings.coeffs (r : Readings) : Coeffs :=
  let v := fun (n : Nat) (l : List Rat) (d : Rat) => Vector.ofFn fun (i : Fin n) => l.getD i d
  { gain := v 16 r.gain 1, offset := v 16 r.offset 0, iref := r.iref, drv := v 8 r.drv 0, den := v 8 r.den 0, cmp := v 8 r.cmp 0,
    tdc := v 12 r.tdcCorr 0, trig := v 2 r.trig 0 }

/-- The bits of CAL_REJ_CAUSE the resulting target or measured values set by the limits of R326, for one kind. -/
def Coeffs.limits (c : Coeffs) (k : CalKind) : BitVec 10 :=
  let out := fun {n : Nat} (v : Vector Rat n) (lim : Rat) => v.toList.any fun x => lim < absRat x
  BitVec.ofNat 10 (match k with
    | .dac => bitAt (c.gain.toList.any fun g => 1 / 50 < absRat (g - 1)) 1 + bitAt (out c.offset 20000) 2
    | .deskew => bitAt (out c.drv 1024 || out c.den 1024 || out c.cmp 1024) 3 + bitAt (out c.tdc 1024) 4
    | .tdc => 0
    | .trig => bitAt (out c.trig 1024) 5)

/-- The further checks of R337. -/
def State.calChecks (s : State) (c : Cluster) (k : CalKind) (commanded : Bool) (r : CalResult) : BitVec 10 :=
  let v := s.cal.vrefUv
  let start := if commanded then (s.cal.cl[c]).tinRun else (s.cal.cl[c]).tinBack
  let vref := k = .dac && v < 50 * natDiff r.vref v
  let tin := (k = .deskew || k = .trig) && s.cal.tinEver && !(start && s.cal.tin)
  let rep := commanded && (k = .dac || k = .deskew) && 4 < r.repeatDiff
  BitVec.ofNat 10 (bitAt vref 7 + bitAt tin 8 + bitAt rep 9)

/-- CAL_REJECT (R337): the cause bits, the cluster, and the advisory fault are the caller's to report. -/
def Cal.noteReject (x : Cal) (c : Cluster) (cause : BitVec 10) : Cal :=
  { x with reject := true, rejCause := x.rejCause ||| cause, rejCl := BitVec.ofNat 4 c.val }

/-! ## The commit record (R338) -/

/-- MAGIC of a commit record. -/
def calMagic : Word := 0x52434C47

/-- Bytes 0x00 to 0x17 of a commit record, SETS being that of `sets`. -/
def CalCommit.head (r : CalCommit) (sets : Vector (Option (Vector CalSet 12)) 5) : List Byte :=
  leBytes 4 r.magic.toNat ++ leBytes 4 r.seq.toNat ++ leBytes 4 r.length ++ leBytes 1 ((List.finRange 5).map fun i => bitAt sets[i].isSome i.val).sum
    ++ [r.slot] ++ leBytes 2 0 ++ leBytes 8 r.serial.toNat

/-- The bytes of an image (log 35). -/
def calImageBytes (draw : Nat) : List Byte := (Config.calImage draw).take 130816

/-- The last page of a slot, where its commit record stands; erased flash reads 0xFF. -/
def CalSlot.commitPage (x : CalSlot) : List Byte :=
  match x with
  | .image r _ sets => r.head sets ++ leBytes 32 r.digest.toNat ++ List.replicate 200 0
  | .erased | .partialStore => List.replicate 256 0xFF

/-- A slot holds a valid record (R341): MAGIC, SLOT and SERIAL match, and DIGEST matches the image. -/
def CalSlot.valid (x : CalSlot) (slot : Fin 32) : Bool :=
  match x with
  | .image r draw sets => r.magic = calMagic && r.slot.toNat = slot.val && r.serial = Config.serial
      && r.digest = Config.shake256 (calImageBytes draw ++ r.head sets)
  | .erased | .partialStore => false

/-- The slot a store leaves (R338, R339): the image of draw `v`, and DIGEST over it and the head of the record. -/
def CalSlot.stored (slot : Fin 32) (seq : Word) (v : Nat) (sets : Vector (Option (Vector CalSet 12)) 5) : CalSlot :=
  let image := calImageBytes v
  let r : CalCommit := ⟨calMagic, seq, image.length, BitVec.ofNat 8 slot.val, Config.serial, 0⟩
  .image { r with digest := Config.shake256 (image ++ r.head sets) } v sets

/-- A complete record of `sets` under sequence number `seq` stands in slot `slot` (R339). -/
def CalSlot.holds (x : CalSlot) (slot : Fin 32) (seq : Word) (sets : Vector (Option (Vector CalSet 12)) 5) : Bool :=
  match x with
  | .image r _ v => r.seq = seq && v = sets && x.valid slot
  | .erased | .partialStore => false

/-- Seconds since an instant, saturating. -/
def secondsSince (now : Nat) (t : Option Nat) (most : Nat) : Nat :=
  match t with
  | none => most
  | some u => min ((now - u) / (1000 * msUnits)) most

end Sys2Proof.Machine
end

