-- ==== Sys2Proof/Machine/SecOps.lean ====
section
/-! DEFINITION. The security unit (R378 to R394): bundles and their checks, boot-control records, measurement registers, signature indices
and lower trees, attestation reports. -/
namespace Sys2Proof.Machine

/-! ## Bundles (R381, R382) -/

/-- `n` bytes of a slot from `off` on; an erased byte of flash reads 0xFF. -/
def FwSlot.read (x : FwSlot) (off n : Nat) : List Byte :=
  let got := match x with
    | .erased => []
    | .factory => (Config.factoryHeader.drop off).take n
    | .bytes b => (b.drop off).take n
  got ++ List.replicate (n - got.length) 0xFF

/-- Header bytes 0x000 to 0x0FF of a slot. -/
def FwSlot.header (x : FwSlot) : List Byte := x.read 0 256

/-- EPOCH of a header. -/
def epochOf (h : List Byte) : Nat := fieldAt h 0x0C 1

/-- The image entries of a header: type, offset, length, digest (R381). -/
def imagesOf (h : List Byte) : List (Nat × Nat × Nat × Nat) :=
  (List.range 3).map fun i =>
    let o := 0x10 + 48 * i
    (fieldAt h o 1, fieldAt h (o + 4) 4, fieldAt h (o + 8) 4, fieldAt h (o + 16) 32)

/-- The DIGEST of the image of a type. -/
def digestOf (h : List Byte) (ty : Nat) : BitVec 256 :=
  BitVec.ofNat 256 ((((imagesOf h).find? fun x => x.1 = ty).map fun x => x.2.2.2).getD 0)

/-- Check 1 of R382. -/
def formatOk (h : List Byte) : Bool :=
  let len := fieldAt h 8 4
  fieldAt h 0 4 = 0x57464C47 && len ≤ 6 * 2 ^ 20
    && (imagesOf h).all (fun x => x.2.1 + x.2.2.1 ≤ len && x.2.1 % 4096 = 0)
    && (List.range 3).all (fun ty => (imagesOf h).any fun x => x.1 = ty)
    && zeroAt h 0x0E 2 && (List.range 3).all (fun i => zeroAt h (0x11 + 48 * i) 3 && zeroAt h (0x1C + 48 * i) 4) && zeroAt h 0xE4 28

/-- A slot holds a valid bundle (R382): the checks in order; the provisioned bundle passes the first four (log 12). -/
def FwSlot.valid (x : FwSlot) (rollback : Nat) : Bool :=
  let h := x.header
  let sound := match x with
    | .erased => false
    | .factory => true
    | .bytes _ =>
      formatOk h && (Config.shake256 ((h.drop 0xA0).take 68) = Config.fwKeyHash)
        && Config.xmssVerify ((h.drop 0xA0).take 68) h (x.read 0x100 2820)
        && (imagesOf h).all fun i => (Config.shake256 (x.read i.2.1 i.2.2.1)).toNat = i.2.2.2
  sound && epochOf h ≤ 64 && rollback ≤ epochOf h

/-- The image of a type in a slot: 0 microcode, 1 core firmware, 2 rope firmware (R381). -/
def FwSlot.image (x : FwSlot) (ty : Nat) : List Byte :=
  (((imagesOf x.header).find? fun i => i.1 = ty).map fun i => x.read i.2.1 i.2.2.1).getD []

/-! ## Records in flash (R380, R383, R389, R390) -/

/-- A record closed by the CRC-32C of the bytes before it (R35). -/
def withCrc (b : List Byte) : List Byte := b ++ leBytes 4 (crc32c b).toNat

/-- A record of `len` bytes as flash holds it is valid: it is whole, and its MAGIC and its CRC fit; one cut short by power loss fails (R383, R389). -/
def recordOk (magic len : Nat) (b : List Byte) : Bool := b.length = len && fieldAt b 0 4 = magic && withCrc (b.take (len - 4)) = b

/-- Bytes of a sector (R380). -/
def sectorSize : Nat := 65536

/-- Sector `i` has no room for another record of `len` bytes. -/
def FlashLog.full (x : FlashLog) (len i : Nat) : Bool := sectorSize / len ≤ (x.sectors.getD i []).length

/-- A record is appended: to the sectors in turn, or to the one in hand until that is full. A sector without room is erased first; for the
boot-control and tree records, of which the spec does not say so, that is the model's choice (DESIGN CHOICE, log 12). -/
def FlashLog.append (x : FlashLog) (inTurn : Bool) (b : List Byte) : FlashLog :=
  let i := if inTurn || x.full b.length x.at_ then (x.at_ + 1) % x.sectors.length else x.at_
  let kept := if x.full b.length i then [] else x.sectors.getD i []
  { sectors := x.sectors.set i (kept ++ [b]), at_ := i }

/-- The latest record as it reads back. -/
def FlashLog.latest (x : FlashLog) : List Byte := (x.sectors.getD x.at_ []).getLastD []

/-- The valid record with the largest sequence number, which stands at 0x04 (R383, R389). -/
def FlashLog.newest (x : FlashLog) (magic len : Nat) : Option (List Byte) :=
  x.sectors.flatten.foldl (fun m b => if recordOk magic len b && m.all (fun a => fieldAt a 4 4 < fieldAt b 4 4) then some b else m) none

/-- The latest record keeps its first `n` bytes only. -/
def FlashLog.cut (x : FlashLog) (n : Nat) : FlashLog :=
  { x with sectors := x.sectors.modify x.at_ fun l => l.dropLast ++ [(l.getLastD []).take n] }

/-- A boot-control record (R383). -/
def bootBytes (bseq : Word) (active : Fin 2) (try_ : Option (Fin 2)) : List Byte :=
  withCrc (leBytes 4 0x43424C47 ++ leBytes 4 bseq.toNat ++ leBytes 1 active.val ++ leBytes 1 ((try_.map (·.val)).getD 0xFF)
    ++ List.replicate 50 0)

/-- A journal record (R389). -/
def journalBytes (jseq : Word) (end_ : Nat) : List Byte :=
  withCrc (leBytes 4 0x4A534C47 ++ leBytes 4 jseq.toNat ++ leBytes 8 (end_ % 2 ^ 40) ++ List.replicate 12 0)

/-- The record of a tree whose root is signed (R390). -/
def treeRecord (t : Nat) : List Byte :=
  let body := leBytes 4 0x52544C47 ++ leBytes 4 t ++ leBytes 32 (Config.attRoot Config.attSeeds t).toNat
    ++ (Config.attUpper Config.attSeeds t).take 2784
  withCrc ((body ++ List.replicate 4092 0).take 4092)

/-- A region's records with one more, written at `now`. -/
def Security.write (x : Security) (now : Nat) (i : LogId) (b : List Byte) : Security :=
  let x := { x with wrote := some (now, i) }
  match i with
  | .boot => { x with bootLog := x.bootLog.append true b }
  | .journal => { x with journal := x.journal.append false b }
  | .tree => { x with treeLog := x.treeLog.append true b }

/-- Power is lost at `now`: the record written at that very instant may be cut short, of which `n` bytes are there (log 12). -/
def Security.cutShort (x : Security) (now n : Nat) : Security :=
  match x.wrote.filter fun w => w.1 = now with
  | none => x
  | some (_, .boot) => { x with bootLog := x.bootLog.cut n }
  | some (_, .journal) => { x with journal := x.journal.cut n }
  | some (_, .tree) => { x with treeLog := x.treeLog.cut n }

/-- The records in force as flash shows them (R383, R389): the boot-control record, else slot A and no TRY; END of the newest journal record. -/
def Security.reread (x : Security) : Security :=
  let b := x.bootLog.newest 0x43424C47 64
  let j := x.journal.newest 0x4A534C47 32
  let slot := fun (n : Byte) => if n = 0 then some (0 : Fin 2) else if n = 1 then some 1 else none
  { x with active := (b.bind fun b => slot (byteAt b 8)).getD 0, try_ := b.bind fun b => slot (byteAt b 9), bseq := (b.map (u32At · 4)).getD 0,
           end_ := (j.map fun j => fieldAt j 8 8 % 2 ^ 40).getD 0, jseq := (j.map (u32At · 4)).getD 0 }

/-- The flash map (R380): offset and bytes of each region. -/
inductive FlashRegion where
  | slot (n : Fin 2) | bootControl | journal | certificate | trees | faultLog | calibration
  deriving DecidableEq, Repr

def FlashRegion.base : FlashRegion → Nat
  | .slot n => 0x600000 * n.val
  | .bootControl => 0xC00000
  | .journal => 0xC20000
  | .certificate => 0xE20000
  | .trees => 0xE30000
  | .faultLog => 0xF00000
  | .calibration => 0x1000000

def FlashRegion.size : FlashRegion → Nat
  | .slot _ => 6 * 2 ^ 20
  | .bootControl | .trees | .faultLog => 2 * sectorSize
  | .journal => 32 * sectorSize
  | .certificate => sectorSize
  | .calibration => 4 * 2 ^ 20

/-- Byte `o` of a region of records; erased flash reads 0xFF. -/
def FlashLog.byte (x : FlashLog) (o : Nat) : Byte := ((x.sectors.getD (o / sectorSize) []).flatten).getD (o % sectorSize) 0xFF

/-- Byte `o` of a calibration slot (R338): the image from its start, the commit record in the last page; what a store cut short has left is open. -/
def CalSlot.byte (x : CalSlot) (o : Nat) : Option Byte :=
  match x with
  | .erased => some 0xFF
  | .partialStore => none
  | .image _ draw _ => some (if o < 130816 then (calImageBytes draw).getD o 0xFF else byteAt x.commitPage (o - 130816))

/-- Byte `o` of a region of the flash (R380). -/
def State.flashByte (s : State) (r : FlashRegion) (o : Nat) : Option Byte :=
  let log := fun (l : List PlogRec) => (l.reverse.flatMap PlogRec.bytes).getD (o % sectorSize) 0xFF
  match r with
  | .slot n => (s.sec.slots[n].read o 1).head?
  | .bootControl => some (s.sec.bootLog.byte o)
  | .journal => some (s.sec.journal.byte o)
  | .certificate => some (if o % 0x1000 < 2996 && o / 0x1000 < 2 then byteAt (Config.certificate (o / 0x1000)) (o % 0x1000) else 0xFF)
  | .trees => some (s.sec.treeLog.byte o)
  | .faultLog => some (log (if o / sectorSize = s.flt.sector then s.flt.active else s.flt.other))
  | .calibration => (s.cal.flash[Fin.ofNat 32 (o / 0x20000)]).byte (o % 0x20000)

/-! ## Records and measurements (R383, R387) -/

/-- A boot-control record is appended, and is in force (R383). -/
def Security.bootRecord (x : Security) (now : Nat) (active : Fin 2) (try_ : Option (Fin 2)) : Security :=
  { x.write now .boot (bootBytes (x.bseq + 1) active try_) with active := active, try_ := try_, bseq := x.bseq + 1 }

/-- The pending TRY is cancelled, if there is one. -/
def Security.cancelTry (x : Security) (now : Nat) : Security := if x.try_.isNone then x else x.bootRecord now x.active none

/-- Extending a measurement register (R387). -/
def Security.extend (x : Security) (i : Fin 8) (d : BitVec 256) : Security :=
  { x with mr := upd x.mr i fun m => Config.shake256 (leBytes 32 m.toNat ++ leBytes 32 d.toNat) }

/-! ## Signatures (R389 to R391) -/

/-- The lower tree of an index (R390). -/
def treeOf (i : Nat) : Nat := i / 2 ^ 20

/-- The reports signed in the last 4 s. -/
def State.signedLately (s : State) : List Nat := s.sec.signed.filter fun t => s.now < t + 4000 * msUnits

/-- A signature is available (R391). -/
def State.sigAvailable (s : State) : Bool := s.sec.trees.contains (treeOf s.sec.next) && s.signedLately.length < 1024

/-- The tree the unit has to generate, if any (R390). -/
def Security.wanted (x : Security) : Option Nat :=
  let t := treeOf x.next
  if !x.trees.contains t then some t
  else if 2 ^ 20 * (t + 1) - x.next ≤ 65536 && !x.trees.contains (t + 1) then some (t + 1) else none

/-- A generation begins when one is wanted and none runs. -/
def Security.plant (x : Security) : Security := { x with treeGen := x.treeGen.or x.wanted }

/-- The journal holds an END beyond the next index (R389): at the end of a block a record of the next one is appended and read back, and what it shows
counts. -/
def Security.reserve (x : Security) (now : Nat) : Security :=
  if x.next < x.end_ then x
  else
    let x := x.write now .journal (journalBytes (x.jseq + 1) (x.next + 64))
    let back := x.journal.latest
    if recordOk 0x4A534C47 32 back then { x with end_ := fieldAt back 8 8 % 2 ^ 40, jseq := u32At back 4 } else x

/-- A signature may be released: one is available (R391), and the journal shows an END beyond its index (R389). -/
def State.maySign (s : State) : Bool := s.sigAvailable && decide (s.sec.next < (s.sec.reserve s.now).end_)

/-- The next index is taken for one signature (R389). -/
def State.takeIndex (s : State) : State × Nat :=
  let i := s.sec.next
  let x := { s.sec.reserve s.now with next := i + 1, signed := s.now :: s.signedLately }
  ({ s with sec := x.plant }, i)

/-- A valid record of a tree stands in flash (R390). -/
def Security.treeHeld (x : Security) (t : Nat) : Bool :=
  x.treeLog.sectors.flatten.any fun b => recordOk 0x52544C47 4096 b && fieldAt b 4 4 = t

/-- A tree's root is signed with the upper-layer index of its number, unless a record holds the signature already (R390). -/
def Security.signRoot (x : Security) (now t : Nat) : Security := if x.treeHeld t then x else x.write now .tree (treeRecord t)

/-! ## The device certificate (R388) -/

/-- A certificate is valid (R388): its MAGIC, VERSION and reserved bytes are right, its CA key's hash is CA_KEY_HASH, and its signature verifies. -/
def certValid (cert : List Byte) : Bool :=
  let ca := (cert.drop 0x64).take 68
  fieldAt cert 0 4 = 0x54434C47 && fieldAt cert 4 2 = 1 && zeroAt cert 6 2 && zeroAt cert 0x1C 4 && zeroAt cert 0xA8 8
    && Config.shake256 ca = Config.caKeyHash && Config.xmssVerify ca (cert.take 0xB0) ((cert.drop 0xB0).take 2820)

/-- At boot each copy is verified, and the first valid one is in use (R388). -/
def Security.readCert (x : Security) : Security :=
  let got := (List.finRange 2).find? fun n => certValid (Config.certificate n.val)
  { x with cert := got, certBad := got.isNone }

/-! ## Reports (R392, R393) -/

/-- The length of a report (R392). -/
def reportLen : Nat := 9420

/-- The digest of a cluster's current generation (R393). -/
def State.genDigest (s : State) (c : Cluster) : BitVec 256 := Config.shake256 (s.config c).bytes

/-- The content a report's signature covers (R392, R393): bytes 0x000 to 0x32F. -/
def State.reportBody (s : State) (requester : Nat) (nonce : List Byte) : List Byte :=
  let x := s.sec
  let gen := fun (c : Cluster) =>
    if 0 < requester && requester < 13 && s.host.owner[c].val ≠ requester then List.replicate 40 0
    else leBytes 2 (s.gens[c]).cur.number.toNat ++ leBytes 1 s.host.owner[c].val ++ List.replicate 5 0
      ++ leBytes 32 (s.genDigest c).toNat
  leBytes 4 0x54414C47 ++ leBytes 2 1 ++ leBytes 1 requester
    ++ leBytes 1 (bitAt x.fallback 0 + bitAt x.try_.isSome 1 + bitAt x.certBad 2) ++ leBytes 4 reportLen ++ leBytes 4 0
    ++ leBytes 8 Config.serial.toNat ++ leBytes 12 (stampOf s.net).toNat ++ leBytes 4 (fieldAt x.header 4 4) ++ leBytes 1 0xB0
    ++ leBytes 1 x.bootSlot.val ++ leBytes 1 x.rollback ++ leBytes 1 (fieldAt x.header 0x0D 1) ++ leBytes 4 0
    ++ (nonce ++ List.replicate 32 0).take 32 ++ (x.mr.toList.flatMap fun m => leBytes 32 m.toNat)
    ++ (List.finRange 12).flatMap gen

/-- Exactly `n` bytes. -/
def padTo (n : Nat) (b : List Byte) : List Byte := (b ++ List.replicate n 0).take n

/-- `n` big-endian bytes of a number: the byte order inside signatures and public keys (R378). -/
def beBytes (n x : Nat) : List Byte := (leBytes n x).reverse

/-- The attestation signature of a message with one index, 5,605 bytes (R378): the index in five bytes, the randomiser with the lower layer's part,
then the upper layer's signature of the lower tree's root, which the tree record holds (R390). -/
def attSign (index : Nat) (message : List Byte) : List Byte :=
  beBytes 5 index ++ padTo 2816 (Config.attLower Config.attSeeds index message) ++ padTo 2784 (Config.attUpper Config.attSeeds (treeOf index))

/-- The attestation public key, 68 bytes (R378, R388): computed from ATT_SEEDS at provisioning, whose last third is PUB_SEED (R379). -/
def attPublic : List Byte :=
  beBytes 4 Config.attOid.toNat ++ beBytes 32 (Config.attRootOf Config.attSeeds).toNat ++ leBytes 32 (Config.attSeeds.toNat / 2 ^ 512)

/-- A whole report: content, signature with one index, certificate (R388, R392). -/
def State.report9420 (s : State) (body : List Byte) (index : Nat) : List Byte :=
  body ++ attSign index body ++ List.replicate 3 0
    ++ padTo 2996 ((s.sec.cert.map fun n => Config.certificate n.val).getD [])

end Sys2Proof.Machine
end

