-- ==== Sys2Proof/Machine/Micro.lean ====
section
/-! DEFINITION. The micro-store and the microwords of the command engine (R267 to R269, R271, R277): parity, fields, sequencing, the micro-stack.
What the other micro-ops do to the working registers the spec does not give; free values stand for it (log 38). -/
namespace Sys2Proof.Machine

/-- A stored microword: bits 31:0, and the parity bits of its lower and its upper half in bits 32 and 33 (R267). -/
abbrev StoredWord := BitVec 34

def ones (n : Nat) (x : Nat) : Nat := ((List.range n).filter fun i => x.testBit i).length

/-- The stored word of a microword: each half and its parity bit hold an odd number of ones (R267). -/
def storedWord (w : Word) : StoredWord :=
  let p := fun (h : Nat) => bitAt (ones 16 (bitsOf w.toNat (16 * h) 16) % 2 = 0) (32 + h)
  BitVec.ofNat 34 (w.toNat + p 0 + p 1)

/-- Half `h` of a stored word fails its parity check (R267). -/
def StoredWord.fails (w : StoredWord) (h : Nat) : Bool :=
  (ones 16 (bitsOf w.toNat (16 * h) 16) + bitsOf w.toNat (32 + h) 1) % 2 = 0

/-- Stored word `a` of the microcode image of a bundle (R267, R381): each takes 5 bytes, its 34 bits followed by 6 zero bits. -/
def FwSlot.microWord (f : FwSlot) (a : BitVec 14) : Option StoredWord :=
  match f with
  | .erased => none
  | .factory => some (storedWord (Config.microWord a))
  | .bytes b =>
    let image := (List.range 3).find? fun i => fieldAt b (0x10 + 48 * i) 1 = 0
    image.bind fun i =>
      let off := fieldAt b (0x10 + 48 * i + 4) 4
      if 5 * a.toNat + 5 ≤ fieldAt b (0x10 + 48 * i + 8) 4 then some (BitVec.ofNat 34 (fieldAt b (off + 5 * a.toNat) 5)) else none

/-- Word `a` of the micro-store (R267): of the image it was loaded from, all zero beyond it; a half a parity error has struck has one bit changed. -/
def CmdEngine.stored (e : CmdEngine) (a : BitVec 14) : StoredWord :=
  let w := (e.store.microWord a).getD 0
  let hit := fun (h : Bool) => if e.struck.contains (a, h) && !StoredWord.fails w (bitAt h 0) then bitMask 34 (if h then 33 else 32) else 0
  w ^^^ hit false ^^^ hit true

/-- The micro-op groups (R269). -/
inductive MicroGroup where
  | sequencing | packet | arithmetic | stateRead | delta | external | refuse | crux | postCnt | postXfer | done
  deriving DecidableEq, Repr

def MicroGroup.of (uop : Nat) : MicroGroup :=
  if uop < 0x08 then .sequencing else if uop < 0x10 then .packet else if uop < 0x20 then .arithmetic else if uop < 0x2C then .stateRead
  else if uop < 0x36 then .delta else if uop < 0x3B then .external
  else match uop with
    | 0x3B => .refuse | 0x3C => .crux | 0x3D => .postCnt | 0x3E => .postXfer | _ => .done

/-- What a routine may use after CRUX or REFUSE (R271). -/
def MicroGroup.afterCrux : MicroGroup → Bool
  | .sequencing | .arithmetic | .postCnt | .postXfer | .done => true
  | _ => false

/-- The fields of a microword (R268). -/
def uopOf (w : Word) : Nat := bitsOf w.toNat 26 6

def opndOf (w : Word) : BitVec 12 := w.extractLsb' 14 12

/-- The working registers fields A, B and C of OPND name (R268). -/
def regsOf (w : Word) : Fin 16 × Fin 16 × Fin 16 :=
  (Fin.ofNat 16 (bitsOf w.toNat 22 4), Fin.ofNat 16 (bitsOf w.toNat 18 4), Fin.ofNat 16 (bitsOf w.toNat 14 4))

def nextOf (w : Word) : BitVec 14 := w.extractLsb' 0 14

/-- The alternate target (R269): NEXT bits 13:12 joined to OPND. -/
def altOf (w : Word) : BitVec 14 := (nextOf w).extractLsb' 12 2 ++ opndOf w

/-- What one microword does: the engine goes on, ends its routine, or meets a machine check. -/
inductive MicroNext where
  | run (m : Micro)
  | ended (m : Micro)
  | check (stack half : Bool)
  deriving DecidableEq, Repr

/-- The sequencing micro-ops (R269): NOP, BRZ, BRNZ, BRN, BRC, MCALL, MRET, WAITX. -/
def Micro.sequence (m : Micro) (uop : Nat) (w : Word) : MicroNext :=
  let branch := fun (b : Bool) => MicroNext.run { m with pc := if b then altOf w else nextOf w }
  match uop with
  | 1 => branch m.z
  | 2 => branch !m.z
  | 3 => branch m.n
  | 4 => branch m.c
  | 5 => if 4 ≤ m.stack.length then .check true false else .run { m with pc := altOf w, stack := nextOf w :: m.stack }
  | 6 => match m.stack with
    | [] => .check true false
    | a :: rest => .run { m with pc := a, stack := rest }
  | _ => branch false

/-- One microword (R267 to R269, R271, R277): both parity bits are checked first, and a failing one is not executed. `draw` is the free value it
draws: a micro-op may change the working registers its fields name, and no others. A micro-op that waits for its block's answer draws it (R268). -/
def Micro.step (m : Micro) (x : StoredWord) (draw : Nat) : MicroNext :=
  if StoredWord.fails x 0 then .check false false
  else if StoredWord.fails x 1 then .check false true
  else
    let w : Word := x.setWidth 32
    let (a, b, c) := regsOf w
    let out := Config.microRegs draw w m.w
    let named := fun (i : Fin 16) => i = a || i = b || i = c
    let m' := { m with pc := nextOf w, w := Vector.ofFn fun i => if named i then out[i] else m.w[i] }
    match MicroGroup.of (uopOf w) with
    | .sequencing => m.sequence (uopOf w) w
    | .arithmetic =>
      let f := Config.microFlags draw w m.w
      .run { m' with z := f.getLsbD 0, n := f.getLsbD 1, c := f.getLsbD 2 }
    | .refuse | .crux => .run { m with pc := nextOf w, past := true }
    | .done => .ended { m with pc := nextOf w, stack := [], past := false }
    | .packet | .stateRead | .delta | .external | .postCnt | .postXfer => .run m'

/-- A routine's microwords from `m` on, as far as END, a machine check, or the word at `stop`; `fuel` bounds what the model shows of a routine (log 38). -/
def CmdEngine.wordsFrom (e : CmdEngine) (stop : Option (BitVec 14)) : Nat → Micro → Micro
  | 0, m => m
  | n + 1, m =>
    if stop = some m.pc then m
    else match m.step (e.stored m.pc) m.draw with
      | .run x => e.wordsFrom stop n { x with draw := m.draw + 1 }
      | .ended x => { x with draw := m.draw + 1 }
      | .check _ _ => m

/-- The microwords of the routine of an opcode, from its first one (R268, R271). That they meet no machine check is what a packet's row says; where they do,
MACHINE_CHECK is the row (log 38). -/
def CmdEngine.words (e : CmdEngine) (op : BitVec 16) (stop : Option (BitVec 14)) : Micro :=
  e.wordsFrom stop 1024 { e.micro with pc := Config.microEntry op, stack := [], past := false }

/-- CMD_MCHECK (R281). -/
def MCheck.word (x : MCheck) : Word := BitVec.ofNat 32 (2 ^ 31 + bitAt x.postCrux 30 + bitAt x.stack 15 + bitAt x.half 14 + x.uaddr.toNat)

/-- Where the engine stands when a machine check halts it before the microword at `a` (R277). -/
def CmdEngine.halt (e : CmdEngine) (a : BitVec 14) (postCrux stack half : Bool) : CmdEngine :=
  { e with halted := true, running := true, postCrux := postCrux, micro := { e.micro with pc := a, past := postCrux },
           struck := if stack || e.struck.contains (a, half) then e.struck else (a, half) :: e.struck }

end Sys2Proof.Machine
end

