-- ==== Sys2Proof/Machine/Engine.lean ====
section
/-! DEFINITION. The command engine: fetch and its arbiter (R19 to R22, R221 to R227, R274), the check stages (R235, R236, R241), replies (R226,
R238, R239). A packet's routine runs as a whole, in the step of its command. -/
namespace Sys2Proof.Machine

/-! ## Opcodes (R236, R244) -/

/-- TARGET forms (R236). -/
inductive Form where
  | none | clusters | cluster | sites | site | func
  deriving DecidableEq, Repr

/-- What the GEN field of a reply holds (R238): the shadow number of the lowest named cluster, the PEND_GEN of the lowest named
site, or 0. -/
inductive GenField where
  | zero | shadow | pend
  deriving DecidableEq, Repr

/-- A row of the opcode table for one packet (R244): `units` is the LENGTH required, `badSel` the payload offset of a byte that LENGTH
or TARGET form depends on and whose value is outside the opcode's range (R236). -/
structure OpSpec where
  opcode : Nat
  form   : Form
  units  : Nat
  badSel : Option Nat := none
  pfOnly : Bool := false
  gen    : GenField := .zero
  /-- accepted while HALT_DEVICE holds (R345) -/
  underHalt : Bool := false
  /-- refused in diagnostic mode (R437) -/
  notInDiag : Bool := false
  /-- refused while HALT_CLUSTER holds on the site (R345) -/
  haltSites : Bool := false

/-- The opcode table (R244). -/
def opcodes : List Nat :=
  [0x0001, 0x0002, 0x0003, 0x0010, 0x0100, 0x0101, 0x0102, 0x0103, 0x0110, 0x0111, 0x0112, 0x0200, 0x0201, 0x0210, 0x0211, 0x0212]
  ++ [0x0213, 0x0214, 0x0215, 0x0220, 0x0300, 0x0301, 0x0302, 0x0303, 0x0400, 0x0401, 0x0402, 0x0500, 0x0501, 0x0600, 0x0601]
  ++ [0x0602, 0x0700, 0x0701, 0x0702, 0x0800, 0x0801, 0x0900, 0x0901, 0x0902, 0x0A00, 0x0A01, 0x0A02, 0x0B00, 0x0C00, 0x0C01, 0x0C02]

/-! ## Verdicts -/

/-- How a routine ends (R239, R271): its reply code, DKIND, DETAIL, DATA, a GEN of its own, and the state its crux point leaves. -/
structure Ending where
  code   : Nat
  dkind  : Nat := 0
  detail : Nat := 0
  data   : List Byte := []
  gen    : Option (BitVec 16) := none
  state  : State

/-- DONE (R239). -/
def State.done (s : State) : Ending := { code := 0x00, state := s }
/-- ACCEPTED (R239). -/
def State.accepted (s : State) : Ending := { code := 0x01, state := s }
/-- BAD_PARAM with the packet offset of the payload field at `off` (R238). -/
def State.badField (s : State) (off : Nat) : Ending := { code := 0x11, dkind := 1, detail := 16 + off, state := s }
/-- BAD_PARAM with another DETAIL. -/
def State.badParam (s : State) (dkind detail : Nat) : Ending := { code := 0x11, dkind := dkind, detail := detail, state := s }
/-- BUSY (R239). -/
def State.busy (s : State) : Ending := { code := 0x12, state := s }
/-- INTEGRITY (R239). -/
def State.integrity (s : State) : Ending := { code := 0x17, state := s }

/-- A payload whose fields are read first: the first field refused ends the routine (R240). -/
def State.parsed {α : Type} (s : State) (r : Except Nat α) (k : α → Ending) : Ending :=
  match r with
  | .error off => s.badField off
  | .ok a => k a

/-! ## The packet as host memory holds it (R4, R235) -/

/-- The bytes of a packet: header, then payload. -/
def Packet.bytes (p : Packet) (op : BitVec 16) : List Byte :=
  leBytes 2 op.toNat ++ leBytes 2 p.flags.toNat ++ leBytes 4 p.tag.toNat ++ leBytes 2 p.length.toNat ++ leBytes 2 p.target.toNat
    ++ leBytes 2 p.expectGen.toNat ++ leBytes 2 p.reserved.toNat ++ p.payload

/-- The OPCODE and the fields read from the units of a packet, which ring `ring` of function `f` holds; none while the header is not whole. -/
def Packet.ofBytes (f : Func) (ring : Fin 4) (b : List Byte) : Option (BitVec 16 × Packet) :=
  if b.length < 16 then none
  else
    let h := fun (o : Nat) => BitVec.ofNat 16 (fieldAt b o 2)
    some (h 0, { func := f, ring := ring, flags := h 2, tag := u32At b 4, length := h 8, target := h 0xA, expectGen := h 0xC, reserved := h 0xE,
                 payload := (b.drop 16).take (16 * fieldAt b 8 2 - 16) })

/-! ## Fetch -/

/-- Units of a submission ring, and those between its head and its tail (R222). -/
def SubRing.units (r : SubRing) : Nat := 2 ^ (r.log2 - 4)

def SubRing.held (r : SubRing) : Nat := (r.tail + r.units - r.head) % r.units

def pktLen (p : Packet) : Nat := p.length.toNat

/-- The reply entries reserved for the function's packets that wait to restart (R227, R274). -/
def State.restarts (s : State) (f : Func) : Nat := (s.cmd.slot.filter fun r => r.1.packet.func = f).length

/-- The engine may start a command of the function's ring (R214, R221, R224, R227, R233, R277). -/
def State.ringOpen (s : State) (f : Func) (r : Fin 4) : Bool :=
  let h := s.host.fn[f]
  s.isReady && h.busMaster && (h.sq[r]).en && h.rq.en && !(h.sq[r]).err && s.restarts f < h.rq.free && !s.cmd.halted

/-- The packet in the restart slot (R274), and how often it has been abandoned; of several, the latest abandoned (log 38). -/
def State.restartOf (s : State) (op : Nat) (p : Packet) : Option (Routine × Nat) :=
  s.cmd.slot.head?.filter fun r => r.1.opcode = BitVec.ofNat 16 op && r.1.packet = p

/-- A packet waits to restart and may run: its reply entry is reserved, and its reply ring can still be written (R433). -/
def State.restartable (s : State) (op : Nat) (p : Packet) : Bool :=
  (s.restartOf op p).isSome && s.isReady && (s.host.fn[p.func]).busMaster && !s.cmd.halted

/-! ## The arbiter of the ring fetch (R19 to R22, R225) -/

/-- Internal commands of R195 and R200 wait on flows the function owns. -/
def State.internalOf (s : State) (f : Func) : Bool :=
  s.sched.internal.any (fun x => s.flowOwner x.flow = f)
    || (s.sched.rechain ≠ 0 && (List.finRange 12).any fun k => s.sched.rechain.getLsbD k.val && s.flowOwner k.val = f)

/-- Those the engine may fetch: they need no ring (R200, R225). -/
def State.internalReady (s : State) (f : Func) : Bool := s.isReady && !s.cmd.halted && s.internalOf f

/-- The functions that have published, unfetched units in an open ring of priority `r`, and for priority 0 those with internal commands (R200, R225). -/
def State.requesters (s : State) (r : Fin 4) : List Func :=
  (List.finRange 13).filter fun f => (s.ringOpen f r && decide (0 < ((s.host.fn[f]).sq[r]).held)) || (r = 0 && s.internalReady f)

/-- The requester a pure tie of priority `r` grants: the lowest at or above the pointer, else the lowest (R20). -/
def State.tieWinner (s : State) (r : Fin 4) : Option Func :=
  let l := s.requesters r
  (l.find? fun f => decide (s.cmd.ptr[r] ≤ f.val)).or l.head?

/-- The ring is next (R225, R274): the winner of its priority, with no work in a ring of higher priority, for ring 0 no internal command of its
function, and for rings 1 to 3 no packet in the restart slot. -/
def State.granted (s : State) (f : Func) (r : Fin 4) : Bool :=
  s.tieWinner r == some f && (List.finRange 4).all (fun q => decide (r ≤ q) || (s.requesters q).isEmpty)
    && (if r = 0 then !s.internalReady f else s.cmd.slot.isEmpty)

/-- The pointer of a ring's priority after a grant: past the winner of a tie, else 0 (R20). -/
def State.movePtr (s : State) (f : Func) (r : Fin 4) : State :=
  { s with cmd := { s.cmd with ptr := upd s.cmd.ptr r fun _ => if 2 ≤ (s.requesters r).length then f.val + 1 else 0 } }

/-- The packet waits to restart, or stands at the head of its open ring with its last unit published (R223): the engine can run it, other
work apart. -/
def State.couldRun (s : State) (op : Nat) (p : Packet) : Bool :=
  let r := (s.host.fn[p.func]).sq[p.ring]
  s.restartable op p || (s.ringOpen p.func p.ring && 0 < r.held && pktLen p ≤ r.part + r.held && r.part < pktLen p
    && p.payload.length + 16 = 16 * pktLen p)

/-- The packet is next to run: a packet in the restart slot runs once no function holds work for ring 0 or an internal command (R274); else the ring
is granted. Nothing goes before a routine that runs already. -/
def State.fetchable (s : State) (op : Nat) (p : Packet) : Bool :=
  s.couldRun op p && (s.cmd.running || if s.restartable op p then (s.requesters 0).isEmpty else s.granted p.func p.ring)

def State.updFn (s : State) (f : Func) (g : HostFunc → HostFunc) : State := { s with host := { s.host with fn := upd s.host.fn f g } }

/-- The ring's head moves past the units of a packet not fetched before (R223). -/
def SubRing.consume (r : SubRing) (n : Nat) : SubRing := { r with head := (r.head + (n - r.part)) % r.units, part := 0 }

/-- The read requests of `n` units from the ring's head on, none larger than `most` bytes (R213, R223); `fuel`: their greatest number. -/
def SubRing.requests (r : SubRing) (most : Nat) : Nat → Nat → Nat → List HostRead
  | 0, _, _ => []
  | fuel + 1, at_, n =>
    let k := min (min n (most / 16)) (r.units - at_ % r.units)
    if k = 0 then [] else ⟨r.base + BitVec.ofNat 64 (16 * (at_ % r.units)), 16 * k⟩ :: r.requests most fuel (at_ + k) (n - k)

/-- `n` units of a ring are read (R223). -/
def State.readRing (s : State) (f : Func) (r : Fin 4) (n : Nat) : State :=
  let q := (s.host.fn[f]).sq[r]
  { s with host := { s.host with reads := s.host.reads ++ q.requests (128 * 2 ^ s.host.mrrs.val) n q.head n }, pwr := { s.pwr with quiet := s.now } }

/-- The tail stands inside the packet: its published units are fetched, and the rest waits for a later doorbell (R223). -/
def State.gather (s : State) (p : Packet) : State :=
  let r := (s.host.fn[p.func]).sq[p.ring]
  if s.ringOpen p.func p.ring && s.granted p.func p.ring && r.part + r.held < pktLen p && pktLen p ≤ r.units then
    let s := (s.movePtr p.func p.ring).readRing p.func p.ring r.held
    s.updFn p.func fun h => { h with sq := upd h.sq p.ring fun r => { r with head := r.tail, part := r.part + r.held } }
  else s

/-- A packet is fetched: from the restart slot, or from its ring (R223, R274, R275); the engine executes its routine's microwords (R267 to R269). -/
def State.fetch (s : State) (op : Nat) (p : Packet) : State :=
  match s.restartOf op p with
  | some (_, n) =>
    { s with cmd := { s.cmd with opcode := BitVec.ofNat 16 op, run := BitVec.ofNat 2 (min n 3), running := true, deferAll := decide (3 ≤ n),
                                 slot := s.cmd.slot.tail, micro := s.cmd.words (BitVec.ofNat 16 op) none } }
  | none =>
    let n := pktLen p - ((s.host.fn[p.func]).sq[p.ring]).part
    let s := ((s.movePtr p.func p.ring).readRing p.func p.ring n).updFn p.func fun h => { h with sq := upd h.sq p.ring fun r => r.consume (pktLen p) }
    { s with cmd := { s.cmd with opcode := BitVec.ofNat 16 op, run := 0, running := true, deferAll := false,
                                 micro := s.cmd.words (BitVec.ofNat 16 op) none } }

/-! ## Replies -/

def Reply.bytes (r : Reply) : List Byte :=
  leBytes 4 r.tag.toNat ++ leBytes 2 r.opcode.toNat ++ leBytes 1 r.code.toNat ++ leBytes 1 r.ring.val ++ leBytes 2 r.gen.toNat
    ++ leBytes 1 r.dkind.toNat ++ leBytes 1 0 ++ leBytes 4 r.detail.toNat ++ r.data

/-- The device writes bytes into host memory (R214). -/
def State.writeHost (s : State) (addr : BitVec 64) (bytes : List Byte) : State :=
  { s with host := { s.host with writes := s.host.writes ++ [⟨addr, bytes⟩] }, pwr := { s.pwr with quiet := s.now } }

/-- The writes of a stretch of data, none longer than `most` bytes (R213); `fuel`: their greatest number. -/
def payloads (most : Nat) : Nat → BitVec 64 → List Byte → List HostWrite
  | 0, _, _ => []
  | fuel + 1, a, b => if b.isEmpty then [] else ⟨a, b.take most⟩ :: payloads most fuel (a + BitVec.ofNat 64 most) (b.drop most)

/-- The device writes data longer than one payload: reports, statistics, capture and stamp blocks (R213, R214). -/
def State.writeData (s : State) (addr : BitVec 64) (bytes : List Byte) : State :=
  { s with host := { s.host with writes := s.host.writes ++ payloads (128 * 2 ^ s.host.mps.val) bytes.length addr bytes },
           pwr := { s.pwr with quiet := s.now } }

/-- END (R271, R275): no routine runs. -/
def State.endRoutine (s : State) : State := { s with cmd := { s.cmd with running := false, deferAll := false } }

/-- END and the reply entry at the reply ring's tail, then the tail moves on (R226); neither after a machine check (R277). -/
def State.reply (s : State) (f : Func) (r : Reply) : State :=
  let q := (s.host.fn[f]).rq
  if s.cmd.mcheck.isSome then s
  else (s.endRoutine.writeHost (q.base + BitVec.ofNat 64 (32 * q.tail)) r.bytes).updFn f fun h =>
    { h with replies := h.replies ++ [r], rq := { h.rq with tail := (h.rq.tail + 1) % h.rq.entries } }

/-- Sixteen bytes of DATA. -/
def data16 (d : List Byte) : List Byte := (d ++ List.replicate 16 0).take 16

/-! ## The check stages (R241) -/

/-- The clusters a TARGET names, if it has the form (R236); of a SITE target, all the clusters of the site. -/
def State.target (s : State) (form : Form) (t : BitVec 16) : Option (List Cluster) :=
  let cl := maskClusters t
  let fn := t.toNat / 4096
  match form with
  | .none => if t = 0 then some [] else none
  | .func => if cl.isEmpty && fn ≤ s.host.numVfs.val then some [] else none
  | .clusters => if fn = 0 && !cl.isEmpty then some cl else none
  | .cluster => if fn = 0 && cl.length = 1 then some cl else none
  | .sites => if fn = 0 && !cl.isEmpty && cl.all (fun c => (s.members (s.site c)).all cl.contains) then some cl else none
  | .site => match cl with
    | [c] => if fn = 0 && s.isSite c then some (s.members c) else none
    | _ => none

/-- FUNC of TARGET (R235). -/
def targetFunc (p : Packet) : Nat := p.target.toNat / 4096

/-- GEN_CHECK (R235). -/
def genCheck (p : Packet) : Bool := p.flags.getLsbD 0

/-- Stage 2 (R241): the packet offset of the first field refused, in the order of the header (log 18). -/
def State.frameFault (s : State) (o : OpSpec) (p : Packet) : Option Nat :=
  if o.badSel.isSome then o.badSel.map (16 + ·)
  else if p.flags.toNat / 2 ≠ 0 || (genCheck p && (o.form = .none || o.form = .func)) then some 2
  else if pktLen p ≠ o.units then some 8
  else if (s.target o.form p.target).isNone then some 0x0A
  else if !genCheck p && p.expectGen ≠ 0 then some 0x0C
  else if p.reserved ≠ 0 then some 0x0E
  else none

/-- Stage 3 (R241) on the clusters named; `owns` judges what the payload names and answers the packet offset refused. -/
def State.roleFault (s : State) (o : OpSpec) (p : Packet) (cl : List Cluster) (owns : Option Nat) : Option Nat :=
  if o.pfOnly && p.func ≠ 0 then some 0
  else if !cl.all (s.owns p.func) then some 0x0A
  else owns

/-- The GEN field of a reply (R238). -/
def State.genField (s : State) (g : GenField) (cl : List Cluster) : BitVec 16 :=
  match cl with
  | [] => 0
  | c :: _ => match g with
    | .zero => 0
    | .shadow => (s.gens[c]).shadow.number
    | .pend => s.sites[s.site c].pendGen

/-- Stage 5's BUSY refusals that come before an opcode's own checks (R345, R437). -/
def State.stageBusy (s : State) (o : OpSpec) (cl : List Cluster) : Bool :=
  (s.flt.device && !o.underHalt) || (o.haltSites && cl.any fun c => s.flt.halted.getLsbD c.val) || (o.notInDiag && s.ids.diag.active)

/-- The stages of R241 after stage 1, and the routine's body after them. -/
def State.stages (s : State) (o : OpSpec) (p : Packet) (owns : Option Nat) (body : List Cluster → State → Ending) : Ending × List Cluster :=
  match s.frameFault o p with
  | some off => (s.badParam 1 off, (s.target o.form p.target).getD [])
  | none =>
    let cl := (s.target o.form p.target).getD []
    match s.roleFault o p cl owns with
    | some off => ({ code := 0x13, dkind := 1, detail := off, state := s }, cl)
    | none => match if genCheck p then (maskClusters p.target).find? fun c => (s.gens[c]).shadow.number ≠ p.expectGen else none with
      | some c => ({ code := 0x14, dkind := 5, detail := c.val, state := s }, cl)
      | none => if s.stageBusy o cl then (s.busy, cl) else (body cl s, cl)

/-- The reply to a packet (R238). -/
def Ending.reply (v : Ending) (o : OpSpec) (p : Packet) (cl : List Cluster) : Reply :=
  { tag := p.tag, opcode := BitVec.ofNat 16 o.opcode, code := BitVec.ofNat 8 v.code, ring := p.ring,
    gen := v.gen.getD (v.state.genField o.gen cl), dkind := BitVec.ofNat 8 v.dkind, detail := BitVec.ofNat 32 v.detail,
    data := data16 v.data }

/-- A packet's routine from fetch to reply (R242). Of a packet whose units are not all published those published are fetched; one the engine cannot
run next changes nothing (log 1). -/
def State.runPacket (s : State) (o : OpSpec) (p : Packet) (owns : Option Nat) (body : List Cluster → State → Ending) : State :=
  if !s.fetchable o.opcode p then s.gather p
  else
    let (v, cl) := (s.fetch o.opcode p).stages o p owns body
    v.state.reply p.func (v.reply o p cl)

/-! ## ATTEST's first run (R394) -/

/-- ATTEST's row of the table (R244). -/
def attestSpec : OpSpec := { opcode := 0x0C00, form := .none, units := 4, underHalt := true }

/-- ATTEST's field checks (R245, R265). -/
def attestFields (b : List Byte) : List (Nat × Bool) := [(0x20, fieldAt b 0x20 8 % 64 == 0), isZero b 0x2C 4]

/-- The security unit takes the report's content and its index on the packet's first run (R394). -/
def State.reserveReport (s : State) (p : Packet) : State :=
  if (s.frameFault attestSpec p).isSome || (firstBad (attestFields p.payload)).isSome || fieldAt p.payload 0x28 4 < reportLen
      || !s.maySign || s.sec.reserved.any (fun r => r.1 = p) then s
  else
    let body := s.reportBody p.func.val (p.payload.take 32)
    let (s, i) := s.takeIndex
    { s with sec := { s.sec with reserved := (p, body, i) :: s.sec.reserved } }

end Sys2Proof.Machine
end

