-- ==== Sys2Proof/Machine/BurstOps.lean ====
section
/-! DEFINITION. What the command engine does to generations, descriptors and starts: the checks of R52, R83, R98, R253 and R255, commits
(R279), admission (R167, R254), dropping a descriptor, starts (R65, R256), requests (R257), function reset (R247). -/
namespace Sys2Proof.Machine

/-! ## Generations (R278, R279) -/

/-- The number after a shadow number; 0 is never assigned (R278). -/
def nextNumber (n : BitVec 16) : BitVec 16 := if n = 0xFFFF then 1 else n + 1

/-- GEN_COMMIT on one cluster (R279). -/
def GenSlots.commit (g : GenSlots) : GenSlots :=
  { g with pend := some g.shadow, pendRevert := false, shadow := ⟨nextNumber g.shadow.number, g.shadow.config⟩ }

/-- The newest committed generation (R279). -/
def GenSlots.newest (g : GenSlots) : Generation := g.pend.getD g.cur

/-- GEN_REVERT on one cluster (R279). -/
def GenSlots.revert (g : GenSlots) : GenSlots :=
  match g.prev with
  | none => g
  | some p => { g with pend := some p, pendRevert := true, prev := none, shadow := ⟨nextNumber g.shadow.number, p.config⟩ }

/-- GEN_DISCARD on one cluster (R279). -/
def GenSlots.discard (g : GenSlots) : GenSlots := { g with shadow := ⟨nextNumber g.shadow.number, g.newest.config⟩ }

/-- A generation is about to become pending on some clusters: what was pending before this datapath cycle is what an instant of the cycle itself
still sees (R243). -/
def State.noteCommit (s : State) (cl : List Cluster) : State :=
  let note := fun (c : Cluster) (r : Recent) =>
    if s.earlier r.commitAt s.net then
      { r with commitAt := s.now, pend := (s.gens[c]).pend.map fun (g : Generation) => (g, (s.gens[c]).pendRevert) }
    else r
  cl.foldl (fun s c => { s with recent := upd s.recent c (note c) }) s

/-- Commands that make a generation pending act on some clusters (R279, R243). -/
def State.commitAll (s : State) (cl : List Cluster) (f : GenSlots → GenSlots) : State :=
  cl.foldl (fun s c => s.updGen c f) (s.noteCommit cl)

/-- A write into the shadow of every named cluster at one crux point (R249). -/
def State.writeShadow (s : State) (cl : List Cluster) (f : ClusterConfig → ClusterConfig) : State :=
  cl.foldl (fun s c => s.updGen c fun g => { g with shadow := { g.shadow with config := f g.shadow.config } }) s

/-- PEND_GEN of a site: its index cluster's pending number, or its current one (R12, R232). -/
def State.publishPend (s : State) (k : Cluster) : State :=
  s.updSite k fun r => { r with pendGen := ((s.gens[k]).newest).number }

/-- The site indices of some clusters, ascending. -/
def State.sitesFor (s : State) (cl : List Cluster) : List Cluster := s.siteIdxs.filter fun k => cl.any fun c => s.site c = k

/-! ## Refusals of timing checks (R83) -/

/-- TIM_LAST_REFUSE of the clusters takes the failed check (R83). -/
def State.timRefuse (s : State) (cl : List Cluster) (f : TimingFail) : State :=
  let put := fun (t : Timing) =>
    { t with lastCheck := BitVec.ofNat 4 f.check, lastTset := BitVec.ofNat 6 f.tset, lastTo := BitVec.ofNat 6 f.dst,
             lastPin := BitVec.ofNat 3 f.pin }
  cl.foldl (fun s c => s.updCl c fun e => { e with tim := put e.tim }) s

/-- The refusal of a timing check: BAD_PARAM, DKIND 3 (R238). -/
def State.badTiming (s : State) (cl : List Cluster) (f : TimingFail) : Ending :=
  (s.timRefuse cl f).badParam 3 ((cl.headD 0).val * 2 ^ 24 + f.word.toNat)

/-- The checks of R253 on a shadow generation: the refusal, if any. Each check goes over every cluster before the next (log 19). -/
def State.commitFault (s : State) (cl : List Cluster) : Option Ending :=
  let g := fun (c : Cluster) => (s.gens[c]).shadow.config
  match cl.find? fun c => !(g c).program.complete with
  | some c => some (s.badParam 5 c.val)
  | none => match cl.find? fun c => !(g c).rangesAgree with
    | some c => some (s.badParam 5 c.val)
    | none => match cl.findSome? fun c => (g c).check5.map fun f => (c, f) with
      | some (c, f) => some (s.badTiming [c] f)
      | none => (cl.findSome? fun c => (g c).check6.map fun f => (c, f)).map fun x => s.badTiming [x.1] x.2

/-! ## The checks of a descriptor against a generation (R52, R83, R128, R167, R298) -/

/-- The configuration of each cluster of the site, with the program of its index cluster (R73). -/
def siteView (k : Cluster) (cfg : Cluster → ClusterConfig) (c : Cluster) : ClusterConfig := { cfg c with program := (cfg k).program }

/-- The condition of an entry and its parameter, direct or inside ROPE_SITE (R51). -/
def Entry.maskNamed (e : Entry) : Option Nat :=
  if !e.op.conditional then none
  else match e.tested with
    | (.failMask, p) | (.match_, p) => some (p % 16)
    | _ => none

def Entry.evtNamed (e : Entry) : Option Nat :=
  if !e.op.conditional then none
  else match e.tested with
    | (.evt, p) => some (p % 16)
    | _ => none

/-- The device pins of a site's clusters (R1). -/
def State.sitePins (s : State) (k : Cluster) : BitVec 96 :=
  (s.members k).foldl (fun m c => m ||| ((0xFF : BitVec 96) <<< (8 * c.val))) 0

/-- The commit-time checks of R52 in the table's order, each over the reachable entries ascending: the entry refused, and whether the
refusal is LEVEL_REFUSED. -/
def State.programFault (s : State) (k : Cluster) (cfg : Cluster → ClusterConfig) (reach : List Nat) : Option (Nat × Bool) :=
  let site := s.members k
  let p := (cfg k).program
  let es := (sortNat reach).filterMap fun i => (p.entry i).map fun e => (i, e)
  let segs := fun (e : Entry) => site.map fun c => findSeg s.mem.segs[c] e.segment
  let lens := fun (e : Entry) => (segs e).map fun g => (g.map (·.len)).getD 0
  let period := fun (c : Cluster) (e : Entry) => ((cfg c).timing[e.tset]).period
  let segBad := fun (x : Nat × Entry) => (segs x.2).any (·.isNone) || (lens x.2).any (· ≠ (lens x.2).headD 0)
    || (x.2.op = .wait && !(segs x.2).all fun g => g.any (·.idleSafe))
  let periodBad := fun (x : Nat × Entry) => site.any fun c => period c x.2 ≠ period k x.2
  let leadBad := fun (x : Nat × Entry) => x.2.op.conditional && (lens x.2).headD 0 < leadOf (period k x.2) (s.hops k) + 64
  let maskBad := fun (x : Nat × Entry) => (x.2.maskNamed.any fun m => getN p.masks m 0 &&& ~~~(s.sitePins k) ≠ 0)
    || (x.2.evtNamed.any fun c => !site.any fun d => d.val = c)
  let formBad := fun (x : Nat × Entry) => x.2.op.conditional &&
    (if s.multi k then x.2.cond ≠ .ropeSite && x.2.cond ≠ .cntEq else x.2.cond = .ropeSite)
  let levelBad := fun (x : Nat × Entry) => x.2.op.conditional && x.2.cond = .ropeSite && s.multi k && s.siteLevel k ≤ 2
  match [segBad, periodBad, leadBad, maskBad, formBad].findSome? fun bad => (es.find? bad).map (·.1) with
  | some i => some (i, false)
  | none => (es.find? levelBad).map fun x => (x.1, true)

/-- Check 8 of R83: the first cluster, switch and pin that fail. -/
def State.switchFault (s : State) (k : Cluster) (cfg : Cluster → ClusterConfig) (reach : List Nat) : Option (Cluster × TimingFail) :=
  let p := (cfg k).program
  let pairs := (sortNat reach).flatMap fun i => match p.entry i with
    | none => []
    | some e => (p.succs reach i).filterMap fun j => (p.entry j).bind fun f =>
        if reach.contains j && f.tset ≠ e.tset then some (e.tset, f.tset) else none
  (s.members k).findSome? fun c => pairs.findSome? fun x => ((cfg c).check8 x.1 x.2).map fun f => (c, f)

/-- The Level stage of R255: the first cluster whose configuration an L2 site refuses (R128, R298). -/
def State.levelFault (s : State) (k : Cluster) (cfg : Cluster → ClusterConfig) : Option Cluster :=
  if s.multi k && s.siteLevel k ≤ 2 then
    (s.members k).find? fun c => (cfg c).capture.align || (cfg c).acq.source = .time
      || (cfg c).tdc.toList.any fun t => t.arm = .twindow
  else none

/-! ## Horizons held by bursts (R164, R168) -/

/-- The segments a descriptor's horizon plays under a program (R167, R439). -/
def Program.plays (p : Program) (candidates : List Nat) : List Word :=
  (p.reachable candidates).filterMap fun i => (p.entry i).map (·.segment)

/-- The segments the site's armed or running burst can reach. -/
def State.inForce (s : State) (k : Cluster) : List Word :=
  let q := s.seqs[k]
  if (s.siteState k).rests && q.ending.isNone then []
  else (q.desc.map fun d => (s.config k).program.plays d.candidates).getD []

/-- The segments the site's front-buffer descriptor can reach. -/
def State.inFront (s : State) (k : Cluster) : List Word :=
  ((s.seqs[k]).front.map fun d => (s.armConfig k).program.plays d.candidates).getD []

/-- A committed, armed or running burst can reach the segment on the cluster (R164, R169, R171). -/
def State.reaches (s : State) (c : Cluster) (seg : Word) : Bool :=
  (s.inForce (s.site c)).contains seg || (s.inFront (s.site c)).contains seg

/-- Head pages no burst's horizon holds any longer are released (R168). -/
def State.releaseHeads (s : State) (k : Cluster) : State :=
  let kept := s.inForce k ++ s.inFront k
  (s.members k).foldl (fun s c => { s with mem := { s.mem with segs := upd s.mem.segs c fun l => Machine.releaseHeads l kept } }) s

/-- The front buffer is about to change: what it held before this datapath cycle is what an instant of the cycle itself still sees (R243). -/
def State.noteFront (s : State) (k : Cluster) : State :=
  let note := fun (r : Recent) => if s.earlier r.frontAt s.net then { r with frontAt := s.now, front := (s.seqs[k]).front } else r
  { s with recent := upd s.recent k note }

/-- The front buffer is emptied. -/
def State.dropFront (s : State) (k : Cluster) : State := ((s.noteFront k).updSeq k fun q => { q with front := none }).releaseHeads k

/-- MEM_ADMIT takes an admission failure (R167, R186). -/
def State.noteAdmit (s : State) (f : AdmitFail) : State :=
  { s with mem := { s.mem with admEntry := BitVec.ofNat 16 f.entry, admCl := BitVec.ofNat 4 f.cluster.val,
                               admCause := BitVec.ofNat 2 f.cause } }

/-- Admission of a descriptor under a generation (R167). -/
def State.tryAdmit (s : State) (k : Cluster) (cfg : Cluster → ClusterConfig) (d : Descriptor) : Except AdmitFail Memory :=
  s.mem.tryAdmit (s.members k) (siteView k cfg) ((cfg k).program.reachable d.candidates) d.bind fun _ => s.inForce k

/-- The Program, Switch, Level and Admission stages of R255: a refusal, or the memory as placed. -/
def State.deepCheck (s : State) (k : Cluster) (cfg : Cluster → ClusterConfig) (d : Descriptor) : Except Ending Memory :=
  let reach := (cfg k).program.reachable d.candidates
  match s.programFault k cfg reach with
  | some (i, lvl) => .error { s.badParam 2 i with code := if lvl then 0x16 else 0x11 }
  | none => match s.switchFault k cfg reach with
    | some (c, f) => .error (s.badTiming [c] f)
    | none => match s.levelFault k cfg with
      | some c => .error { code := 0x16, dkind := 5, detail := c.val, state := s }
      | none => match s.tryAdmit k cfg d with
        | .ok m => .ok m
        | .error f => .error { code := if f.cause = 2 then 0x11 else 0x12, dkind := 4,
                               detail := f.cause + f.cluster.val * 2 ^ 12 + f.entry * 2 ^ 16, state := s.noteAdmit f }

/-- R254 on one site whose front buffer holds a descriptor, after the commit of its clusters: the descriptor stays with its pages
placed afresh, or it is dropped. A descriptor dropped for check 8 of R83 leaves no mark in TIM_LAST_REFUSE, no packet being refused (DESIGN
CHOICE, log 19). -/
def State.recheck (s : State) (k : Cluster) : State × Bool :=
  match (s.seqs[k]).front with
  | none => (s, false)
  | some d =>
    if d.candidates.any fun i => (s.armConfig k).program.total ≤ i then (s.dropFront k, true)
    else match s.deepCheck k s.armConfig d with
      | .ok m => (({ s with mem := m } : State).useHbm.releaseHeads k, false)
      | .error e =>
        let t := if e.dkind = 4 then e.state else s
        (t.dropFront k, true)

/-- The end of GEN_COMMIT and GEN_REVERT on the named sites (R253, R254): DESC_DROPPED, and GEN. -/
def State.published (s : State) (cl : List Cluster) : Ending :=
  let (s, mask) := (s.sitesFor cl).foldl (fun (s, m) k =>
    let (t, dropped) := (s.publishPend k).recheck k
    (t, m + bitAt dropped k.val)) (s, 0)
  { s.done with data := leBytes 2 mask, gen := cl.head?.map fun c => ((s.gens[c]).newest).number }

/-! ## Starts (R65 to R69, R256) -/

/-- A start becomes pending at the crux point: now. An ASAP start arms at once, a late one as soon as it can; a CHAINED
one waits for the HALT of the burst in progress, and is late against a HALT that has passed (R65 to R67; log 23). -/
def State.makePending (s : State) (k : Cluster) (seq : BitVec 16) (mode : StartMode) (sched : Option Int) : State :=
  let t := s.net
  let st : Start := { mode := mode, seq := seq, sched := sched }
  let s := s.updSite k fun r => { r with taint := false }
  match mode with
  | .asap => s.armSingle k st t
  | .chained =>
    if (s.siteState k).rests then
      let due := ((s.seqs[k]).haltAt.getD t) + 600 * nsUnits
      s.armSingle k { st with sched := some due, late := (s.seqs[k]).haltAt.isSome } t
    else s.updSeq k fun q => { q with start := some st }
  | .atTime =>
    if !s.multi k && decide (sched.getD t - 600 * nsUnits < t) then s.armSingle k { st with late := true } t
    else s.updSeq k fun q => { q with start := some st }

/-- BURST_START's own effect on a site (R256): LATE on a multi-device site whose arm point has gone, else the pending start. -/
def State.burstStart (s : State) (k : Cluster) (seq : BitVec 16) (mode : StartMode) (time : Int) : State :=
  match mode with
  | .atTime => s.makePending k seq mode (some time)
  | .asap => s.makePending k seq mode (some (s.net + 600 * nsUnits))
  | .chained => s.makePending k seq mode none

/-! ## Requests (R257) -/

/-- ABORT for a site that is RUNNING, STALLED or BELAY (R60): the request is latched, and the boundary it ends the burst at is fixed. -/
def State.latchAbort (s : State) (k : Cluster) : State := (s.latchReq k reqAbort).abortNow k

/-- Whether BURST_STOP or ABORT finds the burst playing (R257). -/
def State.playing (s : State) (k : Cluster) : Bool := (s.siteState k).busy

/-! ## Closed blocks (R137, R146, R176, R209; log 14) -/

/-- The FAIL records among a block's record words, and whether one is a DROP (R123, R138, R209). -/
def failRecords : Nat → List Word → List (Nat × Byte) × Bool
  | 0, _ => ([], false)
  | n + 1, ws => match ws with
    | [] => ([], false)
    | w :: rest =>
      let ty := bitsOf w.toNat 28 4
      let (l, d) := failRecords n (ws.drop (if ty = 8 then 8 else if ty = 3 then 2 else 4))
      if ty = 3 then ((bitsOf w.toNat 0 16 * 2 ^ 32 + (rest.headD 0).toNat, BitVec.ofNat 8 (bitsOf w.toNat 20 8)) :: l, d)
      else (l, d || ty = 12)

/-- Blocks of 4 KiB an outbound stream's HBM area can take; none while the stream is closed. -/
def OutStream.room (o : OutStream) : Nat := if o.isOpen then o.areaMib * 256 - o.area.length else 0

def State.fill (s : State) (i : Fin 24) (bs : List ClosedBlock) : State :=
  { s with mem := { s.mem with outs := upd s.mem.outs i fun o => { o with area := o.area ++ bs } } }

/-- The closed capture and stamp blocks of a cluster move to the HBM areas of its outbound streams, as far as those have room; in self-refresh
they wait for its end (R368). -/
def State.drain (s : State) (c : Cluster) : State :=
  let i : Fin 24 := Fin.ofNat 24 (2 * c.val)
  let j : Fin 24 := Fin.ofNat 24 (2 * c.val + 1)
  let a := (s.cl[c]).cap.fifo.take (s.mem.outs[i]).room
  let b := (s.cl[c]).stamp.fifo.take (s.mem.outs[j]).room
  if s.mem.selfRef then if a.isEmpty && b.isEmpty then s else s.askHbm
  else ((s.updCl c fun e => { e with cap := { e.cap with fifo := e.cap.fifo.drop a.length },
                                     stamp := { e.stamp with fifo := e.stamp.fifo.drop b.length } }).fill i a).fill j b

/-- A gap cairn of a cluster's stamp stream at the network time `at_` (R148), whether or not a channel logs. Before any vector has played its VADDR is
a free value (log 3). LSET is the level set of the play (R127), and a gap has none: the model gives the level set in force (DESIGN CHOICE, log 14). -/
def State.gapCairn (s : State) (c : Cluster) (at_ : Int) : State :=
  let q := s.seqs[s.site c]
  let (s, v) := if q.played = 0 then s.fresh else (s, BitVec.ofNat 64 (q.played - 1))
  let e := s.cl[c]
  let cn : Cairn := { cause := 128, entry := 0, segment := 0xFFFFFFFF, vaddr := v.toNat % 2 ^ 48, tset := e.tim.curTset,
                      lset := e.lvl.curLset, time := at_, burstId := s.sites[s.site c].burstId }
  (s.updCl c fun e => { e with stamp := { e.stamp.cairn cn at_ with gapNext := at_ + 1 } }).drain c

/-! ## Function reset (R247) -/

/-- The cluster a stream belongs to (R171). -/
def streamCluster (i : Nat) : Cluster := Fin.ofNat 12 (i / 2)

/-- The staged instances of the segment a PLAY stream is bound to are discarded (R171), on its cluster and on those of its site that have no stream
of their own for the segment. -/
def State.dropInstances (s : State) (i : Fin 24) : State :=
  let t := s.mem.ins[i]
  if t.play then
    ((s.members (s.site (streamCluster i))).filter fun c => (s.playStream c t.bound).all fun j => j = i).foldl (fun s c =>
      { s with mem := { s.mem with segs := upd s.mem.segs c fun l => updSeg l t.bound fun g =>
          if g.stream then { g with insts := [] } else g } }) s
  else s

/-- An inbound stream closes: its staged blocks and posted buffers are gone (R171, R220). The spec does not say how a load that stands between a segment's
FIRST and LAST block goes on: the model lets the next block be a FIRST one, and the part of a STORED segment loaded so far stays (DESIGN CHOICE, log 21). -/
def State.closeIn (s : State) (i : Fin 24) : State :=
  let s := (s.dropInstances i).noteHbm
  { s with mem := { s.mem with ins := upd s.mem.ins i fun t =>
      { t with isOpen := false, shut := false, descs := [], staged := 0, fetched := 0, good := 0, bad := false, cur := none } } }

/-- An outbound stream closes (R171, R247). -/
def State.closeOut (s : State) (i : Fin 24) : State :=
  let s := s.noteHbm
  { s with mem := { s.mem with outs := upd s.mem.outs i fun t =>
      { t with isOpen := false, shut := false, closing := false, descs := [], area := [], buf := none } } }

/-- The closed blocks a function reset finds unsent are gone, those the cluster's FIFO still holds among them (R247). -/
def State.discardOut (s : State) (i : Fin 24) : State :=
  let t := s.closeOut i
  t.updCl (streamCluster i) fun e =>
    if i.val % 2 = 0 then { e with cap := { e.cap with fifo := [] } } else { e with stamp := { e.stamp with fifo := [] } }

/-- The streams a function reset has marked close once the site of their cluster is IDLE or HALTED (R247). -/
def State.closeShut (s : State) : State :=
  let quiet := fun (s : State) (i : Fin 24) => (s.siteState (s.site (streamCluster i))).rests
  let s := (List.finRange 24).foldl (fun s i => if (s.mem.ins[i]).shut && quiet s i then s.closeIn i else s) s
  (List.finRange 24).foldl (fun s i => if (s.mem.outs[i]).shut && quiet s i then s.discardOut i else s) s

/-- The open streams of a function close once their cluster's site is IDLE or HALTED (R247). -/
def State.resetStreams (s : State) (f : Func) : State :=
  let mark := fun (i : Fin 24) => s.owns f (streamCluster i)
  ({ s with mem := { s.mem with
      ins := Vector.ofFn fun (i : Fin 24) => { s.mem.ins[i] with shut := (s.mem.ins[i]).isOpen && (mark i || (s.mem.ins[i]).shut) },
      outs := Vector.ofFn fun (i : Fin 24) =>
        { s.mem.outs[i] with shut := (s.mem.outs[i]).isOpen && (mark i || (s.mem.outs[i]).shut) } } } : State).closeShut

/-- The rule table an item names, if it names one (R188, R193). -/
def State.tableNum (s : State) (i : Item) : Option Nat :=
  match i.kept with
  | some (n, _) => n
  | none => match i.type with
    | .burstDone => let t := (s.sched.flow i.flow).bdTable; if t = 0xFFFF then none else some t.toNat
    | .ruleEval | .hostItem => some (fieldAt i.payload 0 2)
    | _ => none

/-- The table an item starts with: that of its flow's owner (R198). -/
def State.tableFor (s : State) (i : Item) : Option (List Rule) :=
  match i.kept with
  | some (_, t) => t
  | none => (s.tableNum i).bind fun n => s.sched.tableOf (s.flowOwner i.flow) n

/-- Queued items of the function's flows are dropped, its tables removed, and its flow records reset, OWNER apart (R247). An item in service ends
normally: one that waits in a core's slot keeps the table it would have started with. A post not made yet is no queued item. -/
def State.resetFlows (s : State) (f : Func) : State :=
  let keep := fun (i : Item) => if s.flowOwner i.flow = f then { i with kept := some (s.tableNum i, s.tableFor i) } else i
  { s with sched := { s.sched with
      queue := s.sched.queue.filter fun i => s.flowOwner i.flow ≠ f,
      cores := s.sched.cores.map fun k => { k with slots := k.slots.map keep },
      tables := s.sched.tables.filter fun t => t.owner ≠ f,
      flows := s.sched.flows.map fun x =>
        if s.flowOwner x.1 = f then
          (x.1, { x.2 with prio := (flowReset x.1).prio, rechain := false, bdTable := 0xFFFF, maxPending := 256, rechainDesc := 0 })
        else x } }

/-- RESET_FUNCTION at its crux point (R247). -/
def State.resetFunction (s : State) (f : Func) : State :=
  let s := (s.siteIdxs.filter fun k => s.owns f k).foldl (fun s k =>
    let s := s.cancelStart k
    let s := if s.playing k then s.latchAbort k else s
    s.dropFront k) s
  let s := ((List.finRange 12).filter fun c => s.owns f c).foldl (fun s c => s.updGen c GenSlots.discard) s
  ((s.resetFlows f).resetStreams f).repick

end Sys2Proof.Machine
end

