-- ==== Sys2Proof/Machine/RopeOps.lean ====
section
/-! DEFINITION. The operations of the rope ports that several commands share (R283 to R303): state changes, frames sent, training, tests,
the topology table. -/
namespace Sys2Proof.Machine

def State.updPort (s : State) (n : Port) (f : RopePort → RopePort) : State :=
  { s with rope := { s.rope with ports := upd s.rope.ports n f } }

/-- States with a trained link (R264, R283). -/
def PortState.trained : PortState → Bool
  | .align | .ident | .up | .idle => true
  | _ => false

/-- A port changes state (R283): one that leaves UP, but for IDLE or TEST, counts a loss, sets LINK_DOWN and reports ROPE_DOWN; the ages of what is
reached through one that leaves IDLE go on (R292, R296). -/
def State.portTo (s : State) (n : Port) (x : PortState) : State :=
  let s := if (s.rope.ports[n]).state = .idle && x ≠ .idle then s.holdAges n (s.now - (s.rope.ports[n]).idleAt) else s
  let down := (s.rope.ports[n]).state = .up && x ≠ .up && x ≠ .idle && x ≠ .test
  let s := s.updPort n fun p =>
    let p := { p with state := x, training := none, retryAt := none }
    let p := if x = .ident || x = .up || x = .idle then p else { p with partner := none, level := 0, remoteLoop := x = .test && p.remoteLoop }
    if down then { p with loss := satInc p.loss, linkDown := true } else p
  if down then s.report 38 0 (BitVec.ofNat 32 n.val) else s

/-- A full training begins from the preset (R290). -/
def State.startTraining (s : State) (n : Port) : State :=
  (s.portTo n .train).updPort n fun p =>
    { p with training := some { began := s.now, lastReq := s.now }, pre := 0, main := 15, post := 0, marginal := false, aligned := false }

/-- A frame sent on one port with HOPS 0 and TICK 0 (R285, R310). -/
def State.sendOn (s : State) (n : Port) (ctype : Byte) (body : List Byte) : State :=
  let body := body ++ List.replicate (16 - body.length) 0
  let s := { s with rope := { s.rope with sent := s.rope.sent ++ [⟨n, ctype, 0, 0, Config.serial, body⟩] } }
  if ctype = 0x40 then s else s.updPort n fun p => { p with lastBusy := s.now }

/-- ROPE_LEVEL of the active firmware (R246, R381). -/
def State.ropeLevel (s : State) : Nat := if byteAt s.sec.header 0x0D = 2 then 2 else 3

/-- The level a port offers (R297). -/
def State.offer (s : State) (n : Port) : Nat := min (s.rope.ports[n]).levelMax s.ropeLevel

/-- A test begins (R300 to R303): its counters are zero, and DURATION_US runs from here. -/
def PortTest.begin_ (loop prbs inject duration now : Nat) : PortTest :=
  { loop := loop, prbs := prbs, inject := inject, duration := duration, running := true, waiting := loop == 3,
    endAt := if duration = 0 then none else some (now + duration * usUnits) }

/-- The bits checked while locked up to `now` (R302, R303): 25.78125 a nanosecond. -/
def PortTest.checked (t : PortTest) (now : Nat) : BitVec 64 :=
  t.bits + BitVec.ofNat 64 ((t.lockAt.map fun a => (now - a) * 825 / (32 * nsUnits)).getD 0)

/-- The errors counted while locked up to `now` (R302, R303): those of the lock in hand are free, within the bits checked. -/
def PortTest.errsAt (t : PortTest) (n : Port) (now : Nat) : Word :=
  match t.lockAt with
  | none => t.errs
  | some a => satAdd t.errs (min (Config.lineErrors n.val a now) ((t.checked now).toNat - t.bits.toNat))

/-- The end of a test (R300): the port returns to DETECT. -/
def State.endTest (s : State) (n : Port) : State :=
  let s := s.updPort n fun p =>
    { p with test := { p.test with running := false, waiting := false, done := true, bits := p.test.checked s.now,
                                   errs := p.test.errsAt n s.now, lockAt := none, firstAt := none, endAt := none } }
  if (s.rope.ports[n]).state = .test then s.portTo n .detect else s

/-! ## The topology table (R296) -/

/-- One change of the table (R296). -/
def Rope.changed (r : Rope) (k : Nat) : Rope := { r with topoChange := r.topoChange + BitVec.ofNat 32 k }

/-- Whether a path replaces the one an entry holds: fewer hops, then the lower port; the same path is refreshed (R296). -/
def TopoEntry.better (new old : TopoEntry) : Bool :=
  new.hops < old.hops || (new.hops = old.hops && new.port.val ≤ old.port.val)

/-- The table after an IDENT for `e` has arrived (R296). -/
def Rope.learn (r : Rope) (e : TopoEntry) : Rope :=
  match r.find e.serial with
  | none => if r.topo.length < 64 then { r with topo := r.topo ++ [e] }.changed 1 else { r with topoFull := true }
  | some old =>
    if e.better old then
      let r' := { r with topo := r.topo.map fun x => if x.serial = e.serial then e else x }
      if { old with seen := e.seen } = e then r' else r'.changed 1
    else r

def Rope.forget (r : Rope) (serial : BitVec 64) : Rope := { r with topo := r.topo.filter fun x => x.serial ≠ serial }.changed 1

/-! ## Site level (R297, R299) -/

/-- RPP_SITE_LEVEL takes the level of a site at its arm point (R303). -/
def State.noteLevel (s : State) (k : Cluster) : State :=
  let old := s.rope.siteLevel.toNat
  let i := 2 * k.val
  let n := old - bitsOf old i 2 * 2 ^ i + s.siteLevel k * 2 ^ i
  { s with rope := { s.rope with siteLevel := BitVec.ofNat 24 n } }

/-! ## Pseudo-random patterns (R302) -/

/-- The polynomial x^n + x^m + 1 of a pattern: PRBS7, PRBS15, PRBS23, PRBS31. -/
def prbsTaps (k : Nat) : Nat × Nat :=
  match k with
  | 1 => (7, 6)
  | 2 => (15, 14)
  | 3 => (23, 18)
  | _ => (31, 28)

/-- The next line bit of a pattern after those in `reg`, the latest in bit 0; and the register with it. -/
def prbsNext (k : Nat) (reg : Nat) : Bool × Nat :=
  let (n, m) := prbsTaps k
  let b := xor (reg.testBit (n - 1)) (reg.testBit (m - 1))
  (b, (2 * reg + b.toNat) % 2 ^ n)

/-- The received bits follow the pattern from the register on. -/
def prbsFollows (k : Nat) : Nat → List Bool → Bool
  | _, [] => true
  | reg, b :: rest => let (c, reg') := prbsNext k reg; b == c && prbsFollows k reg' rest

/-- The checker seeds itself from the first received bits and finds the 1,024 after them free of errors. -/
def prbsLocks (k : Nat) (bits : List Bool) : Bool :=
  let n := (prbsTaps k).1
  let seed := (bits.take n).foldl (fun r b => 2 * r + b.toNat) 0
  bits.length = n + 1024 && seed ≠ 0 && prbsFollows k seed (bits.drop n)

end Sys2Proof.Machine
end

