-- ==== Sys2Proof/Machine/CmdBurst.lean ====
section
/-! DEFINITION. Bursts, run control and sites (R72, R195, R200, R254 to R258): descriptors, starts, requests, gangs, and the site
controller's internal commands. -/
namespace Sys2Proof.Machine

/-! ## BURST_COMMIT (R255) -/

/-- The configuration each cluster arms with under a BURST_COMMIT (R255). -/
def State.arming (s : State) (commitGen : Bool) (c : Cluster) : Generation :=
  if commitGen then (s.gens[c]).shadow else (s.gens[c]).newest

/-- BURST_COMMIT at its crux point (R255): the site `k`. -/
def State.burstCommit (s : State) (b : List Byte) (k : Cluster) : Ending :=
  let site := s.members k
  let cg := bitOf (fieldAt b 3 1) 1
  let cfg := fun (c : Cluster) => (s.arming cg c).config
  let v := s.parsed (parseDescriptor b (cfg k).program.total site (s.siteLevel k)) fun (d, _) =>
    match if cg then s.commitFault site else none with
    | some e => e
    | none => match s.deepCheck k cfg d with
      | .error e => e
      | .ok m =>
        let s := ({ s with mem := m } : State).useHbm
        let s := if cg then (s.commitAll site GenSlots.commit).publishPend k else s
        (((s.noteFront k).updSeq k fun q => { q with front := some d }).releaseHeads k |>.tryLate k).done
  { v with gen := some (s.arming cg k).number }

/-- BURST_COMMIT (R255). -/
def execBurstCommit (p : Packet) (s : State) : Host.Outcome State Fault Refusal :=
  .next (s.runPacket { opcode := 0x0210, form := .site, units := 5, gen := .pend, notInDiag := true } p none
    fun cl s => s.burstCommit p.payload (s.site (cl.headD 0)))

/-! ## BURST_START (R256) -/

def StartMode.ofCode (n : Nat) : Option StartMode :=
  match n with
  | 0 => some .atTime | 1 => some .asap | 2 => some .chained | _ => none

/-- The field checks of BURST_START (R256). -/
def parseStart (b : List Byte) (multi : Bool) : Except Nat (BitVec 16 × StartMode × BitVec 96) :=
  let m := StartMode.ofCode (fieldAt b 2 1)
  checked [(0, decide (fieldAt b 0 2 ≠ 0)), (2, m.isSome && !(multi && m != some .atTime)), isZero b 3 1,
      (4, m == some .atTime || zeroAt b 4 12), isZero b 16 16] (u16At b 0, m.getD .atTime, u96At b 4)

/-- The ports of a site's paths leave IDLE at the crux point of its BURST_START (R293). -/
def State.wakePaths (s : State) (k : Cluster) : State := ((s.gangs[k].map (·.ports)).getD []).foldl State.leaveIdle s

/-- BURST_START at its crux point (R256, R328). DATA returns S. -/
def State.startPacket (s : State) (b : List Byte) (k : Cluster) : Ending :=
  s.parsed (parseStart b (s.multi k)) fun (seq, mode, time) =>
    if s.startHeld k || (s.members k).any s.limCal then s.busy
    else if s.multi k && decide (timeOf time - 600 * nsUnits ≤ s.net) then { code := 0x15, state := s }
    else
      let due := match mode with
        | .atTime => leBytes 12 time.toNat
        | .asap => leBytes 12 (stampOf (s.net + 600 * nsUnits)).toNat
        | .chained => []
      { ((s.burstStart k seq mode (timeOf time)).wakePaths k).repick.accepted with data := due }

/-- BURST_START (R256). -/
def execBurstStart (p : Packet) (s : State) : Host.Outcome State Fault Refusal :=
  .next (s.runPacket { opcode := 0x0211, form := .site, units := 3, gen := .pend, notInDiag := true, haltSites := true } p none
    fun cl s => s.startPacket p.payload (s.site (cl.headD 0)))

/-! ## Run control (R60, R257) -/

/-- The start of a site is cancelled, and what it alone held is released (R168, R257). -/
def State.dropStart (s : State) (k : Cluster) : State := ((s.cancelStart k).releaseHeads k).repick

/-- A BURST_STOP at or after the decision point of the play in hand, by datapath cycles, is late (R60, R74, R243). -/
def State.noteStop (s : State) (k : Cluster) : State :=
  match (s.seqs[k]).play with
  | some p => if s.decisionOf k p / datapathUnits ≤ s.net / datapathUnits && s.net < p.stop then s.updSeq k fun q => q.countLate 11 else s
  | none => s

/-- BURST_STOP by site state (R257). -/
def State.stopRequest (s : State) (k : Cluster) : Ending :=
  if s.playing k then ((s.latchReq k reqStop).noteStop k).accepted
  else if s.startHeld k then (s.dropStart k).done
  else s.done

/-- BURST_STOP (R257). -/
def execBurstStop (p : Packet) (s : State) : Host.Outcome State Fault Refusal :=
  .next (s.runPacket { opcode := 0x0212, form := .site, units := 1, gen := .pend } p none
    fun cl s => s.stopRequest (s.site (cl.headD 0)))

/-- JUMP_REQUEST (R58, R60, R257): latched in every state. -/
def execJumpRequest (p : Packet) (s : State) : Host.Outcome State Fault Refusal :=
  .next (s.runPacket { opcode := 0x0213, form := .site, units := 1, gen := .pend } p none fun cl s =>
    let k := s.site (cl.headD 0)
    ((s.latchReq k reqJump).noteLate k 10 12).accepted)

/-- RESUME (R60, R257): refused outside STALLED. -/
def execResume (p : Packet) (s : State) : Host.Outcome State Fault Refusal :=
  .next (s.runPacket { opcode := 0x0214, form := .site, units := 1, gen := .pend } p none fun cl s =>
    let k := s.site (cl.headD 0)
    if s.siteState k = .stalled then (s.latchReq k reqResume).accepted else s.badParam 0 0)

/-- ABORT by site state (R257). -/
def State.abortRequest (s : State) (k : Cluster) : Ending :=
  if s.playing k then (s.latchAbort k).accepted
  else if s.startHeld k then (s.dropStart k).done
  else s.done

/-- ABORT's row of the table (R244). -/
def abortSpec : OpSpec := { opcode := 0x0215, form := .site, units := 1, gen := .pend }

/-- An ABORT packet's own routine (R257). -/
def State.runAbort (s : State) (p : Packet) : State := s.runPacket abortSpec p none fun cl s => s.abortRequest (s.site (cl.headD 0))

/-! ## Sites (R72, R258) -/

/-- Every field of a site's record as its writers set it at a gang (R258); the front buffer is emptied. -/
def State.freshSite (s : State) (k : Cluster) : State :=
  let g := s.gens[k]
  let s := s.updSite k fun _ => { curGen := g.cur.number, pendGen := g.newest.number }
  let s := { s with reqWait := upd s.reqWait k fun _ => 0 }
  s.updSeq k fun q => { q with front := none, start := none, armed := none, desc := none, haltAt := none, selTaken := false }

/-- The W1C bits of SEQ_STATUS clear and SEQ_SLIP returns to 0 (R258). -/
def Seqr.clearFlags (q : Seqr) : Seqr :=
  { q with condMiss := false, stackErr := false, chainTmo := false, aborted := false, notRun := false, startSlip := false,
           lateFlag := false, slipNs := 0 }

/-- The clusters of `cl` form one site, with `gang` when it has members on other devices; what is left of the sites they leave falls
into single-cluster sites (R72, R258). -/
def State.formSite (s : State) (cl : List Cluster) (gang : Option Gang) : State :=
  let k := cl.headD 0
  let touched := (s.sitesFor cl).flatMap s.members
  let s := { s with siteOf := touched.foldl (fun v c => v.set c.val (if cl.contains c then k else c) c.isLt) s.siteOf,
                    gangs := touched.foldl (fun v c => v.set c.val (if c = k then gang else none) c.isLt) s.gangs }
  let heads := k :: touched.filter fun c => !cl.contains c
  let s := heads.foldl (fun s j => ({ s with sched := { s.sched with snaps := upd s.sched.snaps j fun _ => [] } } : State).freshSite j |>.releaseHeads j) s
  touched.foldl (fun s c => s.updSeq c Seqr.clearFlags) s

/-- The field checks of SITE_GANG (R72, R258). -/
def State.parseGang (s : State) (b : List Byte) : Except Nat (Option Gang) :=
  let n := fieldAt b 0 1
  let hops := fieldAt b 1 1
  let tag := u32At b 4
  let known := fun (o : Nat) => (s.rope.find (u64At b o)).any fun e =>
    e.port.val = fieldAt b (o + 8) 1 && e.hops = fieldAt b (o + 9) 1 && e.flPath
      && ((s.rope.ports[e.port]).state = .up || (s.rope.ports[e.port]).state = .idle)
  let member := fun (i : Nat) =>
    let o := 16 + 16 * i
    [(o, (s.rope.find (u64At b o)).isSome), (o + 8, decide (fieldAt b (o + 8) 1 < 4)),
     (o + 9, decide (1 ≤ fieldAt b (o + 9) 1) && decide (fieldAt b (o + 9) 1 ≤ hops)), isZero b (o + 10) 6, (o + 8, known o)]
  checked ([(1, if n = 0 then hops == 0 else decide (1 ≤ hops) && decide (hops ≤ 4)), isZero b 2 2, (4, (n == 0) == (tag == 0)),
      isZero b 8 8] ++ (List.range n).flatMap member)
    (if n = 0 then none else some { tag := tag, members := (List.range n).map fun i => u64At b (16 + 16 * i),
                                    ports := (List.range n).map fun i => Fin.ofNat 4 (fieldAt b (16 + 16 * i + 8) 1), hops := hops })

/-- SITE_GANG at its crux point (R72, R258, R328). -/
def State.siteGang (s : State) (b : List Byte) (cl : List Cluster) : Ending :=
  if !(s.sitesFor cl).all s.quietSite || cl.any s.limCal then s.busy
  else s.parsed (s.parseGang b) fun g => (s.formSite cl g).done

/-- SITE_GANG (R258). -/
def execSiteGang (p : Packet) (s : State) : Host.Outcome State Fault Refusal :=
  let n := fieldAt p.payload 0 1
  .next (s.runPacket { opcode := 0x0220, form := .clusters, units := 2 + n, badSel := if n ≤ 15 then none else some 0, notInDiag := true }
    p none fun cl s => s.siteGang p.payload cl)

/-! ## Internal commands (R195, R200) -/

/-- The clusters whose shadow an internal command writes or commits (R200). -/
def InternalCommand.names (x : InternalCommand) (site : List Cluster) : List Nat :=
  (x.levels.map fun l => bitsOf l.1.toNat 8 4) ++ (x.edges.map fun l => bitsOf l.1.toNat 12 4)
    ++ if x.restart.isSome then site.map (·.val) else []

/-- A SET_EDGE on a timing set (R198). -/
def TimingSet.setEdge (t : TimingSet) (pin edge : Nat) (v : Nat) : TimingSet :=
  { t with pins := updN t.pins pin fun p => match edge with
      | 0 => { p with e0 := v } | 1 => { p with e1 := v } | 2 => { p with e2 := v } | 3 => { p with e3 := v }
      | 4 => { p with s0 := v } | _ => { p with s1 := v } }

/-- Every SET_LEVEL and SET_EDGE of the command in the shadow generations (R200). -/
def State.writeActions (s : State) (x : InternalCommand) : State :=
  let at_ := fun (s : State) (c : Nat) f => s.writeShadow [Fin.ofNat 12 c] f
  let s := x.levels.foldl (fun s (p, v) => at_ s (bitsOf p.toNat 8 4) fun g =>
    { g with levels := updN g.levels (bitsOf p.toNat 4 4) fun l => updN l (bitsOf p.toNat 0 3) fun r => { r with code := BitVec.ofInt 16 v } }) s
  x.edges.foldl (fun s (p, v) => at_ s (bitsOf p.toNat 12 4) fun g =>
    { g with timing := updN g.timing (bitsOf p.toNat 6 6) fun t => t.setEdge (bitsOf p.toNat 3 3) (bitsOf p.toNat 0 3) v.toNat }) s

/-- Checks 2 and 4 of R83 on timing set `n`, which an internal command changed. -/
def TimingSet.edgeFail (t : TimingSet) (n : Nat) : Option TimingFail :=
  let inRange := fun (p : PinTiming) => [p.e0, p.e1, p.e2, p.e3, p.s0, p.s1].all fun e => e < 2 * t.period
  match (List.finRange 8).find? fun k => !inRange t.pins[k] with
  | some k => some ⟨2, n, 0, k⟩
  | none => ((List.finRange 8).find? fun k => !(t.pins[k]).ordered t.period).map fun k => ⟨4, n, 0, k⟩

/-- The clusters whose shadow numbers an internal command's expected generation is compared with (R200): those it names, else its site's index
cluster (log 28). -/
def InternalCommand.compared (x : InternalCommand) (site : List Cluster) : List Nat :=
  if (x.names site).isEmpty then (x.site.map (·.val)).toList else x.names site

/-- The reply code an internal command is refused with, before its writes are judged (R200, R345, R437). -/
def State.internalFault (s : State) (x : InternalCommand) : Option Nat :=
  let site := (x.site.map s.members).getD []
  let names := x.names site
  if !names.all fun c => site.any fun d => d.val = c then some 0x11
  else if (x.stop || x.restart.isSome) && x.site.isNone then some 0x11
  else if site.any fun c => (x.compared site).contains c.val && (s.gens[c]).shadow.number ≠ getN x.expectGen c.val 0 then some 0x14
  else match x.restart, x.site with
    | some seq, some k => if seq = 0 || s.multi k then some 0x11
        else if s.flt.device || s.ids.diag.active || site.any (fun c => s.flt.halted.getLsbD c.val || s.limCal c) then some 0x12 else none
    | _, _ => none

/-- A RESTART's start (R200): it replaces a pending start, and cancels an armed one whose first vector has not begun. -/
def State.restart (s : State) (k : Cluster) (seq : BitVec 16) : State :=
  ((s.cancelStart k).burstStart k seq .asap 0).repick

/-- The internal command's effect, or the code it is refused with and the state that leaves, TIM_LAST_REFUSE apart unchanged (R83, R200, R240). -/
def State.internal (s : State) (x : InternalCommand) : Except (Nat × State) State :=
  match s.internalFault x with
  | some c => .error (c, s)
  | none =>
    let site := (x.site.map s.members).getD []
    let t := s.writeActions x
    let edgeBad := x.edges.findSome? fun e =>
      let c : Cluster := Fin.ofNat 12 (bitsOf e.1.toNat 12 4)
      let n := bitsOf e.1.toNat 6 6
      ((getN (t.gens[c]).shadow.config.timing n {}).edgeFail n).map fun f => (c, f)
    match edgeBad with
    | some (c, f) => .error (0x11, s.timRefuse [c] f)
    | none =>
      match x.restart, x.site with
      | some seq, some k => match t.commitFault site with
        | some e => .error (0x11, { s with cl := e.state.cl })
        | none =>
          let t := ((t.commitAll site GenSlots.commit).published site).state
          let t := t.restart k seq
          .ok (if x.stop then (t.stopRequest k).state else t)
      | _, some k => .ok (if x.stop then (t.stopRequest k).state else t)
      | _, none => .ok t

/-- The search whose step was refused ends with VAR = -2 and DONE_FLAG set (R207). -/
def State.endSearch (s : State) (x : InternalCommand) : State :=
  match x.search, s.sched.proc x.flow with
  | true, some (.search p) =>
    let s := { s with sched := (s.sched.updFlow x.flow fun f => { f with vars := updN f.vars p.var.val fun _ => -2 }).setProc x.flow none }
    match x.site with
    | some k => s.updSite k fun r => { r with scFlags := scSetFlag r.scFlags p.doneFlag.val true }
    | none => s
  | _, _ => s

/-- A refused internal command (R200): CMD_REFUSED, the advisory fault, and the end of a search. -/
def State.internalRefused (s : State) (x : InternalCommand) (code : Nat) : State :=
  let mask := (x.site.map s.maskOf).getD 0
  let s := { s with sched := { s.sched with refused := true, lastFlow := BitVec.ofNat 12 x.flow } }
  (s.endSearch x).report 37 mask (BitVec.ofNat 32 (x.flow + code * 2 ^ 16))

/-- The internal command next in line runs (R200): the oldest of the function whose turn among the REALTIME requests it is (R225). -/
def State.runInternal (s : State) : State :=
  match s.tieWinner 0 with
  | none => s
  | some f => match s.sched.internal.find? fun x => s.flowOwner x.flow = f with
    | none => s
    | some x =>
      let s := s.movePtr f 0
      let s := { s with sched := { s.sched with internal := s.sched.internal.erase x } }
      match s.internal x with
      | .ok t => t
      | .error (c, t) => t.internalRefused x c

/-- The chained start of a rechaining site's next burst (R195); a refusal ends the rechaining, until FLOW_CONFIG sets it up again (log 28). -/
def State.runRechain (s : State) (k : Cluster) : State :=
  let f := s.sched.flow k.val
  let s := s.movePtr (s.flowOwner k.val) 0
  let s := { s with sched := { s.sched with rechain := s.sched.rechain &&& ~~~(bitMask 12 k.val) } }
  if !f.rechain || s.sched.rechainOff.getLsbD k.val then s
  else if f.rechainDesc = 0 || s.multi k || s.startHeld k || s.flt.device || s.ids.diag.active
      || (s.members k).any (fun c => s.flt.halted.getLsbD c.val || s.limCal c) then
    { s with sched := { s.sched with refused := true, lastFlow := BitVec.ofNat 12 k.val, rechainOff := s.sched.rechainOff ||| bitMask 12 k.val } }
  else (s.burstStart k f.rechainDesc .chained 0).repick

end Sys2Proof.Machine
end

