-- ==== Sys2Proof/Machine/Sequence.lean ====
section
/-! DEFINITION. The sequencer's events (R49 to R70, R180 to R185): event latches, arm points, votes, first vectors, plays, decision points,
aborts, burst ends, chained starts, stalls. Each carries the passage of time up to its instant (log 2); an event whose condition does
not hold changes nothing (log 1). -/
namespace Sys2Proof.Machine

/-! ## Event latches (R57, R58) -/

/-- An edge on a line at the instant `now` sets its latch (R57, R58): the earliest and the latest edge held. The latching clock runs at 800 MHz; R58
compares the edge's own instant with the decision point, and the model takes that instant, with no rounding to the 1.25 ns clock edge (DESIGN CHOICE,
log 24). -/
def EventIo.latchEvt (x : EventIo) (line : Fin 2) (now : Nat) : EventIo :=
  let held := if line = 0 then x.evt0 else x.evt1
  { x with evt0 := x.evt0 || line = 0, evt1 := x.evt1 || line = 1,
           evtFrom := upd x.evtFrom line fun f => if held then f else now, evtLast := upd x.evtLast line fun _ => now }

/-- An edge reaches an EVT latch (R57). -/
def State.latchEvt (s : State) (c : Cluster) (line : Fin 2) : State :=
  (s.updCl c fun e => { e with io := e.io.latchEvt line s.now }).noteLate (s.site c) line.val c.val

/-- EVT_EDGE (R57): a pulse of less than 2.5 ns is latched or not; a free value decides (log 3). -/
def execEvtEdge (c : Cluster) (line : Fin 2) (falling : Bool) (width : Nat) (s : State) : Host.Outcome State Fault Refusal :=
  let io := (s.cl[c]).io
  if !s.isReady || falling ≠ (if line = 0 then io.ctlIn.evt0Fall else io.ctlIn.evt1Fall) then .next s
  else if 5 * nsUnits ≤ 2 * width then .next (s.latchEvt c line)
  else
    let (s, v) := s.fresh
    .next (if v.getLsbD 0 then s.latchEvt c line else s)

/-! ## Arm points and votes (R66 to R68) -/

/-- RANGE_BUSY on a rail of the site (R109). -/
def State.rangeBusy (s : State) (k : Cluster) : Bool := s.anyMember k fun c => ((s.cl[c]).lvl.upTo s.net).busy

/-- The arm point of a multi-device site (R68, R109, R180, R243, R299, R363): the member arms unless late, and votes; with the site level below that of
the named descriptor, not ready with LEVEL_DROP. -/
def State.armMulti (s : State) (k : Cluster) (st : Start) (sched : Int) : State :=
  let h := s.holdBack k s.net
  let late := s.updSeq k fun q => { q with start := some { st with late := true } }
  match (h.seqs[k]).front with
  | some d =>
    let drop := d.seq = st.seq && decide (s.siteLevel k < d.level)
    if h.canArm k st && !s.blockedAt s.net then
      let first := d.candidates.headD 0
      let t := (h.doArm k { mode := st.mode, desc := d, sched := sched, armedAt := s.net, due := sched, entry := some first } d).giveBack s k s.net
      let ready := t.ready k first && !drop && !t.rangeBusy k
      (t.updSeq k fun q => { q with armed := q.armed.map fun a => { a with vote := some ready } }).sendVote k d.seq ready drop sched
    else late.sendVote k st.seq false drop sched
  | none => late.sendVote k st.seq false false sched

/-- ARM_POINT of an AT_TIME start (R65 to R68, R256): on the first datapath cycle at or after S - 600 ns. A start already late arms as
soon as nothing holds it back. -/
def execArmPoint (k : Cluster) (s : State) : Host.Outcome State Fault Refusal :=
  match (s.seqs[k]).start with
  | none => .next s
  | some st =>
    if st.late then .next (if s.multi k then s else ((s.tryLate k).noteLevel k).repick)
    else match st.mode, st.sched with
      | .atTime, some sched =>
        let s := s.advanceNet (ceilTo (sched - 600 * nsUnits) datapathUnits)
        let s := if s.multi k then s.armMulti k st sched else s.armSingle k st s.net
        .next (s.noteLevel k).repick
      | _, _ => .next s

/-- A multi-device start is skipped (R68, R70): STATE returns to IDLE, unless a burst runs. HALT_ENTRY of the item is stated nowhere, and is
a free value (log 3). -/
def State.skipBurst (s : State) (k : Cluster) (seq : BitVec 16) : State :=
  let s := s.cancelStart k
  let (s, v) := ((if (s.siteState k).rests then s.setState k .idle else s).releaseHeads k).fresh
  let s := s.updSeq k fun q => { q with notRun := true }
  let i := s.seqItem k .burstDone (leBytes 8 0 ++ leBytes 2 (v.toNat % 65536) ++ leBytes 2 seq.toNat) s.net
  (s.schedulePost { i with notRun := true, snapshot := List.replicate 96 0 }).repick

/-- The ready votes of every other member have arrived (R68). -/
def State.votesIn (s : State) (k : Cluster) (sched : Int) : Bool :=
  ((s.gangs[k].map (·.members)).getD []).all fun m => (s.seqs[k]).receipts.any fun r =>
    r.vote && r.src = m && r.value && r.key = BitVec.ofInt 32 (sched / nsUnits % 1000000000)

/-- VOTE_COUNT at S - 400 ns (R68). -/
def execVoteCount (k : Cluster) (s : State) : Host.Outcome State Fault Refusal :=
  if !s.multi k then .next s
  else match (s.seqs[k]).armed, (s.seqs[k]).start with
    | some a, _ => match a.vote with
      | none => .next s
      | some own =>
        let s := s.advanceNet (a.sched - 400 * nsUnits)
        if own && s.votesIn k a.sched then .next (s.updSeq k fun q => { q with armed := some { a with vote := none } })
        else .next (s.skipBurst k a.desc.seq)
    | none, some st =>
      if !st.late then .next s
      else
        let s := s.advanceNet (st.sched.getD 0 - 400 * nsUnits)
        .next (s.skipBurst k st.seq)
    | none, none => .next s

/-! ## Underruns (R180 to R184) -/

/-- The registers of a stall at vector address `a`, and its fault (R182, R186). -/
def State.noteUnderrun (s : State) (k : Cluster) (a : Nat) (stream : Fin 24) : State :=
  let s := (s.members k).foldl (fun s c => { s with mem := { s.mem with perCl := upd s.mem.perCl c fun m =>
    { m with underrun := true, underVaddr := BitVec.ofNat 48 a, underStream := stream } } }) s
  (s.setState k .stalled).report 16 (s.maskOf k) (BitVec.ofNat 32 stream.val)

/-- Whether the segment a site plays is idle-safe on it. -/
def State.idleSafe (s : State) (k : Cluster) (i : Nat) : Bool :=
  match s.entry k i with
  | some e => e.op = .wait && (s.members k).all fun c => (findSeg s.mem.segs[c] e.segment).any (·.idleSafe)
  | none => false

/-- An underrun at the decision point `d` of the play `p`, whose successor is entry `j` (R181, R182, R184). -/
def State.underrun (s : State) (k : Cluster) (p : Play) (j : Nat) (d : Int) : State :=
  let stream := s.lateStream k (some p.entry) j
  if s.multi k then ((s.abortNow k).sendAbort k 1).report 16 (s.maskOf k) (BitVec.ofNat 32 stream.val)
  else if s.idleSafe k p.entry then
    (s.updSeq k fun q => { q with belay := some { since := d, next := j, stream := stream } }).setState k .belay
  else
    let st : Stall := { since := d, start := p.stop, period := p.period, vaddr := p.vaddr + p.len, next := j, stream := stream,
                        tset := p.tset }
    (s.updSeq k fun q => { q with stall := some st }).noteUnderrun k (p.vaddr + p.len) stream

/-! ## First vectors (R69, R70, R75, R109, R180) -/

/-- The first periodic instant of a burst whose vector 0 starts at `t` (R127). -/
def ClusterConfig.firstCairn (g : ClusterConfig) (t : Int) : Int := if g.capture.align then ceilTo t cairnUnits else t

/-- The first vector of an armed burst at entry `i` (R70, R75, R109): on the first coarse tick at or after its start and the last
RANGE_BUSY clear. A first play that is not ready stalls at address 0, an underrun of the instant that judged it (R180). -/
def State.startBurst (s : State) (k : Cluster) (a : Armed) (i : Nat) : State :=
  let busy := (s.members k).foldl (fun m c => match (s.cl[c]).lvl.busyUntil with
    | some u => max m u
    | none => m) a.due
  let t := ceilTo busy tickUnits
  let s := s.advanceNet t
  let slipped := a.slip || decide (a.due < busy)
  let s := s.updSite k fun r => { r with burstId := r.burstId + 1 }
  let s := s.updSeq k fun q =>
    { q with armed := none, vec0 := t, selTaken := false, startSlip := q.startSlip || slipped,
             slipNs := if slipped then slipOf t a.sched else q.slipNs,
             playCnt := if (s.entry k i).any fun e => e.op.counts then 1 else q.playCnt }
  let s := s.updMembers k fun c e => { e with cap := { e.cap with nextPeriodic := (s.config c).firstCairn t } }
  if a.ready then (s.setState k .running).startPlay k i t 0 false true
  else match s.entry k i with
    | none => s
    | some e =>
      let stream := s.lateStream k none i
      let st : Stall := { since := a.readAt.getD a.armedAt, start := t, period := ((s.config k).timing[e.tset]).period, vaddr := 0, next := i,
                          stream := stream, firstPlay := true, chained := a.mode = .chained, tset := BitVec.ofNat 6 e.tset.val }
      (s.updSeq k fun q => { q with stall := some st, vectors := 0 }).noteUnderrun k 0 stream

/-- FIRST_VECTOR of an AT_TIME or ASAP start (R66, R68, R70, R75). -/
def execFirstVector (k : Cluster) (s : State) : Host.Outcome State Fault Refusal :=
  match (s.seqs[k]).armed with
  | none => .next s
  | some a => match a.entry with
    | none => .next s
    | some i => if a.mode = .chained || a.vote.isSome then .next s else .next (s.startBurst k a i)

/-! ## Plays (R48, R55, R63) -/

/-- SEGMENT_START (R55, R181): the successor, or one more replay in belay hold, starts one period after the last vector. -/
def execSegmentStart (k : Cluster) (s : State) : Host.Outcome State Fault Refusal :=
  let q := s.seqs[k]
  match q.play with
  | none => .next s
  | some p =>
    if q.stall.isSome || q.abortAt.isSome || q.ending.isSome then .next s
    else match p.succ with
      | some (.entry j) =>
        let s := ((s.advanceNet p.stop).playTo k (p.stop - 1)).consumeInst k p.entry
        let va := p.vaddr + p.len
        if q.belay.isSome then
          let s := if p.belay then s else s.markNext k 4
          let s := (s.members k).foldl (fun s c => { s with mem := { s.mem with perCl := upd s.mem.perCl c fun m =>
            { m with belayCnt := satInc m.belayCnt } } }) s
          .next (s.startPlay k p.entry p.stop va true false)
        else
          let s := if p.belay then (s.markNext k 5).setState k .running else s
          .next (s.startPlay k j p.stop va false false)
      | _ => .next s

/-- TRIG_PULSE_END (R63). -/
def execTrigPulseEnd (c : Cluster) (output : Fin 2) (s : State) : Host.Outcome State Fault Refusal :=
  let io := (s.cl[c]).io
  match if output = 0 then io.trig0Until else io.trig1Until with
  | none => .next s
  | some t => .next ((s.advanceNet t).updCl c fun e =>
      { e with io := if output = 0 then { e.io with trig0Until := none } else { e.io with trig1Until := none } })

/-! ## Decision points (R49, R56, R58, R60 to R62) -/

/-- The successor of the play in hand is fixed (R49, R55, R74). -/
def State.fix (s : State) (k : Cluster) (x : Succ) : State :=
  s.updSeq k fun q => { q with play := q.play.map fun p => { p with succ := some x, resolve := none }, succValid := true,
                               succHalt := x = .halt, succ := match x with
                                 | .entry j => BitVec.ofNat 16 j
                                 | .halt => q.succ }

/-- BURST_STOP at the decision point `d` (R60, R243): HALT is the successor. -/
def State.stopHere (s : State) (k : Cluster) (d : Int) : State × Bool :=
  if s.pendsBy k reqStop d then (s.consumeReq k reqStop, true) else (s, false)

/-- The decision of entry `e` of the play `p` takes effect: counters, stack, successor, stack errors, underruns (R49, R50, R180). Where HALT takes the
successor's place (`halt`), no entry is entered, and PLAYS stands. -/
def State.settleDecision (s : State) (k : Cluster) (p : Play) (e : Entry) (v halt : Bool) (d : Int) : State :=
  let x := (s.seqs[k]).successor p.entry e v
  let x := if halt then x else x.settle p.entry (s.config k).program
  let s := s.updSeq k fun q => { q with loops := x.loops, stack := x.stack, playCnt := x.playCnt, stackErr := q.stackErr || x.stackErr }
  let s := if x.stackErr then s.report 19 (s.maskOf k) (BitVec.ofNat 32 p.entry) else s
  let s := s.fix k (if halt then .halt else x.succ)
  match if halt then Succ.halt else x.succ with
  | .halt => s
  | .entry j => if s.readyAfter k p.entry j || (s.seqs[k]).abortAt.isSome then s else s.underrun k p j d

/-- A belay replay's decision point (R181): the successor starts after it once it is ready. -/
def State.belayDecision (s : State) (k : Cluster) (b : Belay) (d : Int) : State :=
  let (s, stop) := s.stopHere k d
  let s := if stop || s.ready k b.next then s.updSeq k fun q => { q with belay := none } else s
  s.fix k (if stop then .halt else .entry b.next)

/-- A SIGNAL posts a RULE_EVAL item (R49, R188, R190). -/
def State.signal (s : State) (k : Cluster) (p : Play) (e : Entry) (vaddr : Nat) : State :=
  s.schedulePost (s.seqItem k .ruleEval (leBytes 2 e.cparam.toNat ++ leBytes 2 p.entry ++ leBytes 6 vaddr) s.net)

/-- The decision point of a play that is no belay replay, at `d` (R49, R51, R58, R60, R61, R62). DSEQ counts the decisions since the arm point (R285); the
spec does not say whether the one in hand is among them: it is, so that the first carries 1 (DESIGN CHOICE, log 23). -/
def State.decideAt (s : State) (k : Cluster) (p : Play) (e : Entry) (d : Int) (vaddr : Nat) : State :=
  let q := s.seqs[k]
  let (c, par) := e.tested
  let v := e.op.conditional && s.cond k (s.config k).program c par e.count d
  let s := if e.op.conditional then s.consume k c par d else s
  let s := s.updSeq k fun q => { q with failBurst := q.failBurst || (q.inWindow d).any fun w => w.2.2,
                                        window := q.window.filter fun w => d ≤ w.1, dseq := q.dseq + 1, siteAbort := false }
  let (s, stop) := s.stopHere k d
  let s := if e.op = .signal then s.signal k p e vaddr else s
  if e.op.conditional && e.cond = .ropeSite && s.multi k then
    let s := s.sendCond k p.entry v
    if stop || q.siteAbort then s.fix k .halt
    else s.updSeq k fun q => { q with play := q.play.map fun p => { p with resolve := some (v, bitOf e.cparam.toNat 15) } }
  else s.settleDecision k p e (v != e.invert) (stop || q.siteAbort) d

/-- DECISION_POINT of the play in hand (R49, R53). -/
def execDecisionPoint (k : Cluster) (s : State) : Host.Outcome State Fault Refusal :=
  match (s.seqs[k]).play with
  | none => .next s
  | some p =>
    let dv := p.decision (leadOf p.period (s.hops k))
    let d := p.startOf dv
    if p.succ.isSome || p.resolve.isSome || (s.seqs[k]).abortAt.any (fun n => n ≤ dv) then .next s
    else
      let s := (s.advanceNet d).playTo k d
      match p.belay, (s.seqs[k]).belay, s.entry k p.entry with
      | true, some b, _ => .next ((s.updSeq k fun q => { q with failBurst := q.failBurst || (q.inWindow d).any fun w => w.2.2,
                                                                window := q.window.filter fun w => d ≤ w.1 }).belayDecision k b d)
      | _, _, some e => .next (s.decideAt k p e d (p.vaddr + dv))
      | _, _, none => .next s

/-- A member's ROPE_SITE value for the decision in hand (R61). -/
def Seqr.valueOf (q : Seqr) (src : BitVec 64) : Option Bool :=
  (q.receipts.find? fun r => !r.vote && r.src = src && r.key = q.dseq).map (·.value)

/-- SITE_COND_RESOLVE at d + 40 ns × H (R61, R62). -/
def execSiteCondResolve (k : Cluster) (s : State) : Host.Outcome State Fault Refusal :=
  match (s.seqs[k]).play with
  | none => .next s
  | some p => match p.resolve, s.entry k p.entry with
    | some (own, isAnd), some e =>
      let d := p.startOf (p.decision (leadOf p.period (s.hops k)))
      let t := d + (40 * s.hops k * nsUnits : Nat)
      let s := (s.advanceNet t).playTo k t
      let got := ((s.gangs[k].map (·.members)).getD []).map (s.seqs[k]).valueOf
      if got.any (·.isNone) then
        let s := (s.fix k .halt).updSeq k fun q => { q with condMiss := true }
        .next ((s.report 20 (s.maskOf k) (BitVec.ofNat 32 p.entry)).sendAbort k 0)
      else
        let vs := own :: got.filterMap id
        let v := if isAnd then vs.all id else vs.any id
        .next (s.settleDecision k p e (v != e.invert) false d)
    | _, _ => .next s

/-! ## Aborts and the end of a burst (R60, R70, R118, R188) -/

/-- ABORT_BOUNDARY (R60): the burst ends at the granule boundary fixed when the abort was latched. -/
def execAbortBoundary (k : Cluster) (s : State) : Host.Outcome State Fault Refusal :=
  let q := s.seqs[k]
  match q.abortAt with
  | none => .next s
  | some n =>
    if q.ending.isSome then .next s
    else
      let own := s.sites[k].pends reqAbort
      let finish := fun (s : State) (last : Int) =>
        let s := s.consumeReq k reqAbort
        let s := if own then s.sendAbort k 2 else s
        s.updSeq k fun q => { q with play := none, stall := none, belay := none, aborted := true, ending := some (last, true) }
      match q.play, q.stall with
      | some p, _ =>
        let t := p.startOf n
        let s := s.updSeq k fun q => { q with spans := q.spans.dropLast ++ (q.spans.getLast?.map fun x => { x with n := n }).toList }
        .next (finish (((s.advanceNet t).playTo k (t - 1)).consumeInst k p.entry) (p.startOf (n - 1)))
      | none, some st =>
        let t := st.start + (n : Int) * st.step
        .next (finish ((s.advanceNet t).playTo k (t - 1)) (t - st.step))
      | none, none => .next s

/-- Compares of the burst in hand are still incomplete on the cluster (R118). -/
def Capture.incomplete (c : Capture) : Bool :=
  c.mine.any fun v => (List.finRange 8).any fun k => v.compared k && !v.seen.getLsbD k.val

/-- RESULT (R118). -/
def State.resultOf (s : State) (k : Cluster) : BitVec 64 :=
  let q := s.seqs[k]
  BitVec.ofNat 64 (bitAt (s.anyMember k fun c => (s.cl[c]).cap.fail) 63 + bitAt (s.anyMember k fun c => (s.cl[c]).cap.incomplete) 62
    + bitAt (s.anyMember k fun c => (s.cl[c]).cap.burstLoss) 61 + min q.failVecs.length 0x1FFF * 2 ^ 48
    + (BitVec.ofInt 48 ((q.vectors : Int) - 1)).toNat)

/-- The burst snapshot (R188): CAP_PIN_FAIL of every pin of the site, 0 elsewhere. -/
def State.snapshot (s : State) (k : Cluster) : List Nat :=
  (List.finRange 12).flatMap fun c => if s.siteOf[c] = k then (s.cl[c]).cap.pinFail.toList.map (·.toNat) else List.replicate 8 0

/-- The end of a burst on one cluster (R119, R122, R148): BURST_END once the last vector's observation is formed, and the records of earlier bursts
are written; and the stamp block. -/
def ClusterEng.endBurst (e : ClusterEng) (g : ClusterConfig) (vectors : Nat) (t : Int) (bid : Word) : ClusterEng :=
  let cap := { e.cap with ended := true, burstTail := e.cap.burstTail || e.cap.incomplete }
  { e with cap := cap.settle g.capture g.acq vectors t bid,
           stamp := e.stamp.close true }

/-- The time AUTO has counted in the burst in hand: playing time since the first vector under the acquisition (R135). -/
def AcqState.played (a : AcqState) (spans : List Span) : Nat :=
  match a.fillBase with
  | none => 0
  | some (_, t0) => (spans.map fun x => ((x.start + ((x.n * x.period * fuUnits : Nat) : Int)) - max x.start t0).toNat).sum

/-- Where and when the burst in hand ends: the start of its last vector, and whether an ABORT ended it. -/
def Seqr.lastVector (q : Seqr) : Option (Int × Bool) :=
  match q.ending, q.play, q.abortAt with
  | some x, _, _ => some x
  | none, some p, none => if p.succ = some .halt then some (p.startOf (p.len - 1), false) else none
  | none, _, _ => none

/-- What follows a HALT at `t`: a CHAINED start arms, a late start arms (R65, R67); what was published in the HALT's own datapath cycle comes after
it (R243). -/
def State.afterHalt (s : State) (k : Cluster) (t : Int) : State :=
  match (s.seqs[k]).start with
  | none => s
  | some st =>
    if st.mode = .chained && st.sched.isNone then
      (s.armSingle k { st with sched := some (t + 600 * nsUnits) } t).noteLevel k
    else ((((s.holdBack k t).tryLate k).giveBack s k t).tryLate k).noteLevel k

/-- BURST_END, 150 ns after the start of the last vector (R70, R118, R168, R188). -/
def execBurstEnd (k : Cluster) (s : State) : Host.Outcome State Fault Refusal :=
  match (s.seqs[k]).lastVector with
  | none => .next s
  | some (last, ab) =>
    let t := last + 150 * nsUnits
    let s := (s.advanceNet t).playTo k t
    let s := match (s.seqs[k]).play with
      | some p => s.consumeInst k p.entry
      | none => s
    let res := s.resultOf k
    let bid := s.sites[k].burstId
    let n := (s.seqs[k]).vectors
    let spans := (s.seqs[k]).spans
    let s := s.updMembers k fun c e =>
      let acq := if e.cap.acq.active then { e.cap.acq with autoAcc := e.cap.acq.autoAcc + e.cap.acq.played spans } else e.cap.acq
      { e with cap := { e.cap with acq := acq } }.endBurst (s.config c) n t bid
    let s := (s.members k).foldl State.drain s
    let s := (s.setState k .halted).updSite k fun r => { r with result := res }
    let desc := ((s.seqs[k]).desc.map (·.seq)).getD 0
    let s := s.updSeq k fun q => { q with play := none, stall := none, belay := none, ending := none, abortAt := none, haltAt := some t }
    let i := s.seqItem k .burstDone (leBytes 8 res.toNat ++ leBytes 2 (s.seqs[k]).curEntry.toNat ++ leBytes 2 desc.toNat) (t + 20 * nsUnits)
    let s := s.schedulePost { i with aborted := ab, snapshot := s.snapshot k }
    .next (((s.releaseHeads k).closeShut.afterHalt k t).repick)

/-! ## Chained starts (R69, R197) -/

/-- SELECTION_READ (R69, R197). -/
def execSelectionRead (k : Cluster) (s : State) : Host.Outcome State Fault Refusal :=
  let q := s.seqs[k]
  let sc := s.sites[k].scFlags.toNat
  match q.armed with
  | none => .next s
  | some a =>
    if a.mode ≠ .chained || a.entry.isSome || q.selTaken || !bitOf sc 27 || bitsOf sc 28 4 ≠ s.sites[k].burstId.toNat % 16 then .next s
    else match a.desc.candidates[bitsOf sc 24 2]? with
      | none => .next s
      | some i =>
        let due := max (s.net + 100 * nsUnits) (a.armedAt + 600 * nsUnits)
        .next (s.updSeq k fun q =>
          { q with selTaken := true, armed := some { a with entry := some i, due := due, ready := s.ready k i, readAt := some s.net } })

/-- A chained start has brought the site into RUNNING (R195): rechaining submits the next start, unless a refusal has stopped it. -/
def State.rechainFrom (s : State) (k : Cluster) : State :=
  if (s.sched.flow k.val).rechain && !s.sched.rechainOff.getLsbD k.val then
    { s with sched := { s.sched with rechain := setBit s.sched.rechain k.val } }
  else s

/-- CHAINED_START (R69, R195). -/
def execChainedStart (k : Cluster) (s : State) : Host.Outcome State Fault Refusal :=
  match (s.seqs[k]).armed with
  | none => .next s
  | some a => match a.entry with
    | none => .next s
    | some i =>
      if a.mode ≠ .chained then .next s
      else if a.ready then .next ((s.startBurst k a i).rechainFrom k) else .next (s.startBurst k a i)

/-- CHAIN_TIMEOUT (R69): the start lapses. -/
def execChainTimeout (k : Cluster) (s : State) : Host.Outcome State Fault Refusal :=
  match (s.seqs[k]).armed with
  | none => .next s
  | some a =>
    let tmo := (s.cl[k]).io.ctlIn.chainTmo.toNat
    if a.mode ≠ .chained || a.entry.isSome || tmo = 0 then .next s
    else
      let s := s.advanceNet (a.armedAt + (tmo * usUnits : Nat))
      .next (((s.cancelStart k).releaseHeads k).updSeq k fun q => { q with chainTmo := true }).repick

/-! ## Stalls (R182, R183, R185) -/

/-- A stall whose first stall vector has come: the play before it is over, and its instance consumed. -/
def State.settleStall (s : State) (k : Cluster) (t : Int) : State :=
  match (s.seqs[k]).play, (s.seqs[k]).stall with
  | some p, some st => if st.start ≤ t then
      (((s.playTo k (p.stop - 1)).consumeInst k p.entry).updSeq k fun q => { q with play := none })
    else s
  | _, _ => s

/-- The successor a stall or a belay hold waits for is ready. -/
def State.awaited (s : State) (k : Cluster) (next : Nat) : Bool :=
  match (s.seqs[k]).play with
  | some p => s.readyAfter k p.entry next
  | none => s.ready k next

/-- The first stall vector from now on whose position is a multiple of 64 and that comes after the datapath cycle RESUME was latched in (R183, R243). -/
def State.resumeAt (s : State) (k : Cluster) (st : Stall) : Int :=
  let gap : Int := 64 * st.step
  let b := if s.net ≤ st.start then st.start else st.start + -(-(s.net - st.start) / gap) * gap
  if s.pendsBy k reqResume b then b else b + gap

/-- STALL_EXIT (R183): at a stall vector whose position is a multiple of 64, with RESUME latched and the successor ready. -/
def execStallExit (k : Cluster) (s : State) : Host.Outcome State Fault Refusal :=
  let q := s.seqs[k]
  match q.stall with
  | none => .next s
  | some st =>
    if q.abortAt.isSome || !s.sites[k].pends reqResume || !s.awaited k st.next then .next s
    else
      let b := s.resumeAt k st
      let s := (((s.advanceNet b).settleStall k b).playTo k (b - 1)).consumeReq k reqResume
      let s := ((s.markNext k 2).markNext k 3).setState k .running
      let s := if st.chained then s.rechainFrom k else s
      let s := if st.firstPlay then
          (s.updSeq k fun q => { q with vec0 := b }).updMembers k fun c e => { e with cap := { e.cap with nextPeriodic := (s.config c).firstCairn b } }
        else s
      .next (s.startPlay k st.next b st.vaddr false st.firstPlay)

/-- STREAM_TIMEOUT (R185): T ms from the underrun without the successor becoming ready; 0 is no limit (R171). -/
def execStreamTimeout (k : Cluster) (s : State) : Host.Outcome State Fault Refusal :=
  let q := s.seqs[k]
  match (q.stall.map fun x => (x.since, x.next, x.stream)).or (q.belay.map fun x => (x.since, x.next, x.stream)) with
  | none => .next s
  | some (since, next, stream) =>
    let ms := (s.mem.ins[stream]).tmoMs
    if ms = 0 || q.abortAt.isSome || s.awaited k next then .next s
    else
      let t := since + (ms * msUnits : Nat)
      let s := (s.advanceNet t).settleStall k t
      let s := (s.playTo k s.net).abortNow k
      let s := { s with mem := { s.mem with ins := upd s.mem.ins stream fun x => { x with tmo := true } } }
      .next (s.report 17 (s.maskOf k) (BitVec.ofNat 32 stream.val))

end Sys2Proof.Machine
end

