-- ==== Sys2Proof/Machine/Observe.lean ====
section
/-! DEFINITION. Compare, capture and acquisition events (R114 to R138): completed compares, drops, cairns, closed blocks, acquisitions. -/
namespace Sys2Proof.Machine

/-- BURST_ID of the site of a cluster. -/
def State.bidOf (s : State) (c : Cluster) : Word := (s.sites[s.site c]).burstId

/-- The burst's vectors up to the one at `vaddr` are played (R116). -/
def State.playThrough (s : State) (k : Cluster) (vaddr : Nat) : State :=
  match (s.seqs[k]).play with
  | some p => if p.vaddr + p.played ≤ vaddr && vaddr < p.vaddr + p.len then
      let t := p.startOf (vaddr - p.vaddr)
      (s.advanceNet t).playTo k t
    else s
  | none => s

/-- The decision windows take the compares a vector has completed (R56, R118). -/
def Seqr.take (q : Seqr) (c : Cluster) (vaddr : Nat) (done : List (Int × Nat × Bool)) (failed : Bool) : Seqr :=
  { q with window := q.window ++ done.map fun x => (x.1, 8 * c.val + x.2.1, x.2.2),
           failVecs := if failed && !q.failVecs.contains vaddr then q.failVecs ++ [vaddr] else q.failVecs }

/-- The capture engine has changed on a cluster: closed blocks move on. -/
def State.afterCap (s : State) (c : Cluster) (f : Capture → Capture) : State := (s.updCl c fun e => { e with cap := f e.cap }).drain c

/-- COMPARE_COMPLETE (R56, R114, R117, R119), 16 ns after the latest closing edge of the pins named: `waves` holds what each port's comparators showed
at S0 and after it. Absent ports observe 0b11 (R406). A vector of an earlier burst that still waits at the address is the one meant. -/
def execCompareComplete (c : Cluster) (vaddr : Nat) (pins : Byte) (waves : Vector PortWave 8) (s : State) : Host.Outcome State Fault Refusal :=
  let k := s.site c
  let s := if ((s.cl[c]).cap.target vaddr pins).isSome then s else s.playThrough k vaddr
  match (s.cl[c]).cap.target vaddr pins with
  | none => .next s
  | some v =>
    let new := pins &&& ~~~v.seen
    let t := (List.finRange 8).foldl (fun t (i : Fin 8) => if new.getLsbD i then max t (v.closing[i] + 16 * nsUnits) else t) s.net
    let s := (s.advanceNet t).playTo k t
    let obs := v.observation (s.absentMask c) waves
    let g := s.config c
    let bid := s.bidOf c
    let (cap, done, failed) := (s.cl[c]).cap.complete g.capture g.acq v pins obs t bid
    let n := (s.seqs[k]).vectors
    .next ((s.updSeq k fun q => q.take c vaddr done failed).afterCap c fun _ => cap.settle g.capture g.acq n t bid)

/-- The buffer in use is at most half full (R138). -/
def Capture.halfEmpty (c : Capture) (mode va : Nat) (bid : Word) : Bool := decide (c.backlog va mode bid ≤ bufferBytes mode / 2)

/-- The vector a drop's record refers to: the first one lost, or the one whose record found no room (R138). -/
def Capture.dropAt (c : Capture) : Nat := if c.dropped = 0 then c.dropping.getD 0 else c.lostFrom

/-- DROP_END (R138): the FIFO is at most half full. The vectors that have started by then are the last the drop loses; the DROP records are written,
and the drop is reported. -/
def execDropEnd (c : Cluster) (s : State) : Host.Outcome State Fault Refusal :=
  let cap := (s.cl[c]).cap
  let g := s.config c
  let bid := s.bidOf c
  if cap.dropping.isNone || !cap.halfEmpty g.capture.mode.code cap.dropAt bid then .next s
  else
    let s := s.playTo (s.site c) s.net
    let lost := ((s.cl[c]).cap.loseFlight g.capture g.acq s.net bid).lostNow
    .next ((s.afterCap c fun x => x.endDrop g.capture g.acq (s.seqs[s.site c]).vectors s.net bid).report 34 (bitMask 12 c.val) (satNat 32 lost))

/-- PERIODIC_CAIRN (R127): the burst plays up to its next 10 µs instant; the first vector at or after it carries the cause. -/
def execPeriodicCairn (c : Cluster) (s : State) : Host.Outcome State Fault Refusal :=
  let k := s.site c
  if !(s.siteState k).busy then .next s
  else
    let s := s.advanceNet (s.cl[c]).cap.nextPeriodic
    .next (s.playTo k s.net)

/-- CAPTURE_BLOCK_CLOSE (R122): CLOSE_US after the block's first record. -/
def execCaptureBlockClose (c : Cluster) (s : State) : Host.Outcome State Fault Refusal :=
  let us := (s.config c).capture.closeUs.toNat
  match (s.cl[c]).cap.open_ with
  | none => .next s
  | some b =>
    if us = 0 then .next s
    else
      let s := s.advanceNet (b.since + (us * usUnits : Nat))
      .next (s.afterCap c fun x => x.close false)

/-! ## Acquisitions (R131 to R136) -/

/-- The first vector of the pre-trigger fill: recorded, or the next to be recorded (R134). -/
def Capture.fillStart (c : Capture) : Option Nat := (c.acq.fillBase.map (·.1)).or (c.mine.head?.map (·.vaddr))

/-- A stamped trigger before the fill is complete is ignored; a TIME trigger with it for good (R134). -/
def Capture.ignore (c : Capture) (g : AcqConfig) : Capture :=
  { c with trigIgn := satInc c.trigIgn, acq := { c.acq with retired := c.acq.retired || g.source = .time } }

/-- A stamped trigger at the event time `te` (R129, R130, R133, R134): the vector whose span holds it, at once or once it is recorded. Before vector 0 the
fill is not complete. -/
def Capture.stampedTrigger (c : Capture) (g : AcqConfig) (stalled : Bool) (ss : List Span) (te t : Int) (bid : Word) : Capture :=
  match spanAt stalled ss te with
  | none => if ss.head?.all fun x => te < x.start then c.ignore g else c
  | some v =>
    let bnd := nearEdge te v.start || v.stop.any (nearEdge te)
    match c.fillStart with
    | none => c.ignore g
    | some base =>
      if v.vaddr < base + g.pre then c.ignore g
      else if c.acq.history.any fun h => h.vaddr = v.vaddr then c.begin_ g g.source.code v.vaddr false bnd te t bid
      else { c with acq := { c.acq with waiting := some (v.vaddr, bnd, te) } }

/-- The event time of a stamped trigger that the configured source takes (R133): EVT on the 1.25 ns clock edge. -/
def AcqConfig.eventTime (g : AcqConfig) (x : AcqEvent) : Option Int :=
  let p := g.sparam
  match g.source, x with
  | .evt, .evt line falling t =>
    if decide (line.val = bitsOf (fieldAt p 0 1) 0 1) && bitOf (fieldAt p 0 1) 1 == falling then some (ceilTo t datapathUnits) else none
  | .time, .time => some (timeOf (u96At p 0))
  | .rope, .rope serial cl entry t =>
    if u64At p 0 = serial && byteAt p 8 = cl && (bitOf (fieldAt p 9 1) 0 || u16At p 10 = entry) then some t else none
  | _, _ => none

/-- Whether an unstamped event names the configured source. -/
def AcqConfig.plain (g : AcqConfig) (x : AcqEvent) : Bool :=
  match g.source, x with
  | .force, .fill | .fail, .fail | .vaddr, .vaddr | .segment, .segment | .pattern, .pattern => true
  | _, _ => false

/-- The site's burst stands in a stall, or its successor is the stall already decided (R182): the span of the last pattern vector runs on to the
stall's end, whose instant is not known yet (R129). -/
def State.inStall (s : State) (k : Cluster) : Bool := (s.seqs[k]).stall.isSome

/-- The site as it will be at the network time `t`, for a boundary up to 4 FU ahead of a stamp (R130, R142): the first vector, the next play, or the
exit of a stall, should one start by then, and the vectors that do. -/
def State.peek (s : State) (k : Cluster) (t : Int) : State :=
  let q := s.seqs[k]
  let s := match q.stall, q.play, q.armed with
    | some st, _, _ => if s.resumeAt k st ≤ t then stateOf s (execStallExit k s) else s
    | none, some p, _ => if p.stop ≤ t then stateOf s (execSegmentStart k s) else s
    | none, none, some a => if a.due ≤ t then stateOf s (if a.mode = StartMode.chained then execChainedStart k s else execFirstVector k s) else s
    | none, none, none => s
  s.playTo k t

/-- An event at the acquisition engine of a cluster (R130, R133, R134, R136); one of before the arm point is none of the acquisition's. -/
def State.acqEvent (s : State) (c : Cluster) (event : AcqEvent) : State :=
  let g := (s.config c).acq
  let bid := s.bidOf c
  let k := s.site c
  if !(s.cl[c]).cap.watching then s
  else if g.plain event then s.afterCap c fun x => x.plainTrigger g s.net bid
  else match g.eventTime event with
    | none => s
    | some te =>
      if (s.seqs[k]).armed.any fun a => te < a.armedAt then s
      else
        let s := (s.advanceNet te).playTo k te
        let ahead := s.peek k (te + 4 * fuUnits)
        s.afterCap c fun x => x.stampedTrigger g (ahead.inStall k) (ahead.seqs[k]).spans te s.net bid

/-- ACQ_TRIGGER (R133, R134, R136). -/
def execAcqTrigger (c : Cluster) (event : AcqEvent) (s : State) : Host.Outcome State Fault Refusal := .next (s.acqEvent c event)

/-- The instant at which `left` units of playing time have passed from `t0` on (R135). -/
def playedBy : List Span → Int → Nat → Option Int
  | [], _, _ => none
  | x :: rest, t0, left =>
    let from_ := max x.start t0
    let n := (x.start + (x.n * x.period * fuUnits : Nat) - from_).toNat
    if left ≤ n then some (from_ + left) else playedBy rest t0 (left - n)

/-- ACQ_AUTO_EXPIRE (R135): the first vector at or after the expiry with the fill complete; FORCED, unless the source's own condition
selects that vector. A forced acquisition has no event, so its TTIME is the start of T under a stamped source too (DESIGN CHOICE, log 26). -/
def execAcqAutoExpire (c : Cluster) (s : State) : Host.Outcome State Fault Refusal :=
  let g := (s.config c).acq
  let cap := (s.cl[c]).cap
  match cap.acq.fillBase with
  | none => .next s
  | some (base, t0) => match playedBy (s.seqs[s.site c]).spans t0 (g.autoUs * usUnits - cap.acq.autoAcc) with
    | none => .next s
    | some at_ =>
      let s := (s.advanceNet at_).playTo (s.site c) at_
      match (cap.acq.history.filter fun h => base + g.pre ≤ h.vaddr && at_ ≤ h.start).getLast? with
      | none => .next s
      | some h =>
        if !g.auto || !cap.pending then .next s
        else
          let own := g.source ≠ .force && g.met h
          .next (s.afterCap c fun x => x.begin_ g g.source.code h.vaddr (!own) false h.start s.net (s.bidOf c))

/-- ACQ_COMPLETE (R136): the post-trigger vectors are written, or lost in a drop that is over. -/
def execAcqComplete (c : Cluster) (s : State) : Host.Outcome State Fault Refusal :=
  let g := (s.config c).acq
  let cap := (s.cl[c]).cap
  match cap.acq.trig with
  | none => .next s
  | some tv =>
    if cap.acq.written < tv + g.post || cap.dropping.isSome then .next s
    else .next (s.afterCap c fun x => x.acqEnd g s.net (s.bidOf c))

end Sys2Proof.Machine
end

