-- ==== Sys2Proof/Machine/CmdConfig.lean ====
section
/-! DEFINITION. The configuration packets (R249 to R254): shadow writes, sequence programs, generations. -/
namespace Sys2Proof.Machine

/-! ## Timing, levels, pins, clocks (R76, R77, R83, R88, R96 to R98) -/

/-- The effect of TIMING_SET_WRITE (R83, R249). -/
def State.timingSetWrite (s : State) (b : List Byte) (cl : List Cluster) : Ending :=
  let tset := fieldAt b 0 1
  s.parsed (checked [below b 0 1 64, isZero b 1 15] ()) fun _ =>
    match parseTiming tset (b.drop 16) with
    | .error f => s.badTiming cl f
    | .ok ts => (s.writeShadow cl fun g => { g with timing := updN g.timing tset fun _ => ts }).done

/-- TIMING_SET_WRITE (R249). -/
def execTimingSetWrite (p : Packet) (s : State) : Host.Outcome State Fault Refusal :=
  .next (s.runPacket { opcode := 0x0100, form := .clusters, units := 31, gen := .shadow } p none
    fun cl s => s.timingSetWrite p.payload cl)

/-- The effect of LEVEL_SET_WRITE (R96 to R98, R249). -/
def State.levelSetWrite (s : State) (b : List Byte) (cl : List Cluster) : Ending :=
  let set := fieldAt b 0 1
  s.parsed (checked [isZero b 1 15] ()) fun _ =>
    if set = 0xFF then
      s.parsed (checked [isZero b 17 15] (BitVec.ofNat 8 (fieldAt b 16 1))) fun en =>
        (s.writeShadow cl fun g => { g with railEn := en }).done
    else s.parsed (parseLevels b 16) fun l => (s.writeShadow cl fun g => { g with levels := updN g.levels set fun _ => l }).done

/-- LEVEL_SET_WRITE (R249). -/
def execLevelSetWrite (p : Packet) (s : State) : Host.Outcome State Fault Refusal :=
  let set := fieldAt p.payload 0 1
  .next (s.runPacket { opcode := 0x0101, form := .clusters, units := if set = 0xFF then 3 else 6, gen := .shadow,
                       badSel := if set < 16 || set = 0xFF then none else some 0 } p none
    fun cl s => s.levelSetWrite p.payload cl)

/-- PIN_FORMAT_WRITE (R77, R249). -/
def execPinFormatWrite (p : Packet) (s : State) : Host.Outcome State Fault Refusal :=
  let b := p.payload
  .next (s.runPacket { opcode := 0x0102, form := .clusters, units := 2, gen := .shadow } p none fun cl s =>
    s.parsed (checked [below b 0 1 16, isZero b 1 15] (BitVec.ofNat 4 (fieldAt b 0 1))) fun m =>
      (s.writeShadow cl fun g => { g with mux := m }).done)

/-- The effect of CLOCK_PIN_SET: check 7 of R83, whose frequency test a disabled clock passes with FW and PH 0 (R88, R249). -/
def State.clockPinSet (s : State) (b : List Byte) (cl : List Cluster) : Ending :=
  let pin := fieldAt b 0 1
  let en := bitOf (fieldAt b 1 1) 0
  let fw := fieldAt b 4 6
  if pin ≠ 6 && pin ≠ 7 then s.badField 0
  else if (en && (fw = 0 || decide (2 ^ 47 < fw))) || decide (1 < fieldAt b 1 1) || !zeroAt b 10 6 then s.badTiming cl ⟨7, 0, 0, pin⟩
  else s.parsed (parseClock b) fun (j, c) => (s.writeShadow cl fun g => { g with clk := upd g.clk j fun _ => c }).done

/-- CLOCK_PIN_SET (R249). -/
def execClockPinSet (p : Packet) (s : State) : Host.Outcome State Fault Refusal :=
  .next (s.runPacket { opcode := 0x0103, form := .clusters, units := 2, gen := .shadow } p none fun cl s => s.clockPinSet p.payload cl)

/-! ## Capture, acquisition, TDC (R120, R131, R145, R152) -/

/-- CAPTURE_CONFIG (R120, R249). -/
def execCaptureConfig (p : Packet) (s : State) : Host.Outcome State Fault Refusal :=
  .next (s.runPacket { opcode := 0x0400, form := .clusters, units := 2, gen := .shadow } p none fun cl s =>
    s.parsed (parseCapture p.payload) fun c => (s.writeShadow cl fun g => { g with capture := c }).done)

/-- The effect of ACQ_ARM and ACQ_FORCE (R131, R249). -/
def State.acqWrite (s : State) (b : List Byte) (force : Bool) (cl : List Cluster) : Ending :=
  s.parsed (parseAcq b force) fun a => s.parsed (checked [isZero b 40 8] ()) fun _ =>
    (s.writeShadow cl fun g => { g with acq := a }).done

/-- ACQ_ARM (R249). -/
def execAcqArm (p : Packet) (s : State) : Host.Outcome State Fault Refusal :=
  .next (s.runPacket { opcode := 0x0401, form := .clusters, units := 4, gen := .shadow } p none
    fun cl s => s.acqWrite p.payload false cl)

/-- ACQ_FORCE (R249). -/
def execAcqForce (p : Packet) (s : State) : Host.Outcome State Fault Refusal :=
  .next (s.runPacket { opcode := 0x0402, form := .clusters, units := 4, gen := .shadow } p none
    fun cl s => s.acqWrite p.payload true cl)

/-- A function owns a device pin (R250). -/
def State.ownsPin (s : State) (f : Func) (pin : Nat) : Bool := s.owns f (Fin.ofNat 12 (pin / 8))

/-- Stage 3 of TDC_CONFIG KIND 1 (R250): both pins of each new entry, and those of an enabled entry it replaces. -/
def State.pairOwner (s : State) (f : Func) (b : List Byte) : Option Nat :=
  let first := fieldAt b 1 1
  (List.range (fieldAt b 2 1)).findSome? fun i =>
    let o := 16 + 16 * i
    let old := getN s.pairs (first + i) {}
    let mine := fun (n : Nat) => 96 ≤ n || s.ownsPin f n
    if !mine (fieldAt b (o + 1) 1) then some (16 + o + 1)
    else if !mine (fieldAt b (o + 2) 1) then some (16 + o + 2)
    else if old.en && !(s.ownsPin f old.pinA && s.ownsPin f old.pinB) then some (16 + o)
    else none

/-- The effect of TDC_CONFIG (R145, R152, R249). KIND 1 takes effect at the crux point. -/
def State.tdcConfig (s : State) (b : List Byte) (cl : List Cluster) : Ending :=
  let first := fieldAt b 1 1
  let n := fieldAt b 2 1
  if fieldAt b 0 1 = 0 then
    s.parsed (checked [isZero b 1 1, isZero b 2 1, isZero b 3 13] ()) fun _ =>
      s.parsed (parseTdc b 16) fun t => (s.writeShadow cl fun g => { g with tdc := t }).done
  else
    s.parsed (checked [below b 1 1 48, (2, decide (first + n ≤ 48)), isZero b 3 13] ()) fun _ =>
      s.parsed ((List.range n).mapM fun i => parsePair b (16 + 16 * i)) fun es =>
        { s with pairs := es.zipIdx.foldl (fun v (e, i) => updN v (first + i) fun _ => e) s.pairs }.done

/-- TDC_CONFIG (R236, R249, R250). -/
def execTdcConfig (p : Packet) (s : State) : Host.Outcome State Fault Refusal :=
  let b := p.payload
  let kind := fieldAt b 0 1
  let n := fieldAt b 2 1
  let sel := if 1 < kind then some 0 else if kind = 1 && (n = 0 || decide (48 < n)) then some 2 else none
  .next (s.runPacket { opcode := 0x0500, form := if kind = 0 then .clusters else .none, units := if kind = 0 then 22 else 2 + n,
                       badSel := sel, gen := .shadow } p (if kind = 0 then none else s.pairOwner p.func b)
    fun cl s => s.tdcConfig b cl)

/-! ## Sequence programs (R251, R252) -/

/-- The program of one cluster's shadow after the packet, or the refusal: a field's offset, or an entry's index. -/
def Program.load (g : Program) (b : List Byte) : Except (Nat ⊕ Nat) Program :=
  let total := fieldAt b 0 4
  let first := fieldAt b 4 4
  let n := fieldAt b 8 4
  let fl := fieldAt b 12 1
  let masks := bitOf fl 0
  let off := if masks then 208 else 16
  if first ≠ 0 && !g.loadOpen then .error (.inl 4)
  else if first ≠ 0 && g.total ≠ total then .error (.inl 0)
  else
    let opened : Program := if first = 0 then { total := total, loadOpen := true } else g
    let opened := if masks then { opened with masks := Vector.ofFn fun (m : Fin 16) => u96At b (16 + 12 * m.val) } else opened
    let parsed := (List.range n).map fun i => (first + i, parseEntry ((b.drop (off + 16 * i)).take 16) total)
    match parsed.find? fun e => e.2.isNone with
    | some (i, _) => .error (.inr i)
    | none =>
      let old := opened.entries.filter fun e => e.1 < first || first + n ≤ e.1
      .ok { opened with entries := old ++ parsed.filterMap fun e => e.2.map fun x => (e.1, x) }

/-- The checks of a LAST packet over the whole program (R52, R252): the entry refused. -/
def ClusterConfig.lastFault (g : ClusterConfig) (p : Program) : Option Nat :=
  match (List.range p.total).find? fun i => (p.entry i).isNone with
  | some i => some i
  | none =>
    if (p.entry (p.total - 1)).any Entry.fallsThrough then some (p.total - 1)
    else
      let range := fun (e : Entry) => (List.finRange 8).map fun (r : Fin 8) => ((g.levels[e.lset])[r]).rangeB
      match p.entry 0 with
      | none => none
      | some e0 => (List.range p.total).find? fun i => (p.entry i).any fun e => range e ≠ range e0

/-- One cluster's shadow configuration after SEQ_LOAD, or the refusal (R252). -/
def ClusterConfig.seqLoad (g : ClusterConfig) (b : List Byte) : Except (Nat ⊕ Nat) ClusterConfig := do
  let p ← g.program.load b
  if bitOf (fieldAt b 12 1) 1 then
    match g.lastFault p with
    | some i => .error (.inr i)
    | none => .ok { g with program := { p with loadOpen := false } }
  else .ok { g with program := p }

/-- The effect of SEQ_LOAD (R252): the packet is refused for every cluster named, or accepted for each. -/
def State.seqLoad (s : State) (b : List Byte) (cl : List Cluster) : Ending :=
  let total := fieldAt b 0 4
  s.parsed (checked [(0, decide (1 ≤ total) && decide (total ≤ 65536)), (8, decide (fieldAt b 4 4 + fieldAt b 8 4 ≤ total)), below b 12 1 4,
      isZero b 13 3] ()) fun _ =>
    let res := cl.map fun c => (c, (s.gens[c]).shadow.config.seqLoad b)
    let bad : Option (Nat ⊕ Nat) := res.findSome? fun r => match r.2 with
      | .error e => some e
      | .ok _ => none
    match bad with
    | some (.inl off) => s.badField off
    | some (.inr i) => s.badParam 2 i
    | none => (res.foldl (fun s r => match r.2 with
        | .ok g => s.writeShadow [r.1] fun _ => g
        | .error _ => s) s).done

/-- SEQ_LOAD (R244, R251). -/
def execSeqLoad (p : Packet) (s : State) : Host.Outcome State Fault Refusal :=
  let b := p.payload
  let n := fieldAt b 8 4
  .next (s.runPacket { opcode := 0x0200, form := .sites, units := 2 + (if bitOf (fieldAt b 12 1) 0 then 12 else 0) + n, gen := .shadow,
                       badSel := if 65521 < n then some 8 else none } p none fun cl s => s.seqLoad b cl)

/-! ## Generations (R253, R254, R279) -/

/-- GEN_COMMIT at its crux point (R253, R279). -/
def State.genCommit (s : State) (cl : List Cluster) : Ending :=
  match s.commitFault cl with
  | some e => e
  | none => (s.commitAll cl GenSlots.commit).published cl

/-- GEN_COMMIT (R253). -/
def execGenCommit (p : Packet) (s : State) : Host.Outcome State Fault Refusal :=
  .next (s.runPacket { opcode := 0x0110, form := .sites, units := 1, gen := .pend } p none fun cl s => s.genCommit cl)

/-- GEN_REVERT at its crux point (R253, R279). -/
def State.genRevert (s : State) (cl : List Cluster) : Ending :=
  match cl.find? fun c => (s.gens[c]).prev.isNone with
  | some c => s.badParam 5 c.val
  | none => (s.commitAll cl GenSlots.revert).published cl

/-- GEN_REVERT (R253). -/
def execGenRevert (p : Packet) (s : State) : Host.Outcome State Fault Refusal :=
  .next (s.runPacket { opcode := 0x0111, form := .sites, units := 1, gen := .pend } p none fun cl s => s.genRevert cl)

/-- GEN_DISCARD (R253, R279). -/
def execGenDiscard (p : Packet) (s : State) : Host.Outcome State Fault Refusal :=
  .next (s.runPacket { opcode := 0x0112, form := .clusters, units := 1, gen := .shadow } p none
    fun cl s => (cl.foldl (fun s c => s.updGen c GenSlots.discard) s).done)

end Sys2Proof.Machine
end

