-- ==== Sys2Proof/Machine/CmdDevice.lean ====
section
/-! DEFINITION. The device and function packets (R244 to R248, R434): NOP, IDENTIFY, RESET_FUNCTION, STATUS_MIRROR_SET, packets with an
unknown opcode, and a bad length at the head of a ring (R224). -/
namespace Sys2Proof.Machine

/-- NOP (R244): reply only. -/
def execNop (p : Packet) (s : State) : Host.Outcome State Fault Refusal :=
  .next (s.runPacket { opcode := 0x0001, form := .none, units := 1, underHalt := true } p none fun _ s => s.done)

/-- Version of the active firmware bundle (R386). -/
def State.fwVersion (s : State) : Word := u32At s.sec.header 4

/-- DATA of IDENTIFY (R246). -/
def State.identity (s : State) (f : Func) : List Byte :=
  leBytes 8 Config.serial.toNat ++ leBytes 4 s.fwVersion.toNat ++ leBytes 1 0xB0 ++ leBytes 1 s.ropeLevel ++ leBytes 2 (s.ownedMask f)

/-- IDENTIFY (R246). -/
def execIdentify (p : Packet) (s : State) : Host.Outcome State Fault Refusal :=
  .next (s.runPacket { opcode := 0x0002, form := .none, units := 1, underHalt := true } p none
    fun _ s => { s.done with data := s.identity p.func })

/-- RESET_FUNCTION (R247): the PF resets any function, a VF itself. -/
def execResetFunction (p : Packet) (s : State) : Host.Outcome State Fault Refusal :=
  let f : Func := Fin.ofNat 13 (targetFunc p)
  .next (s.runPacket { opcode := 0x0003, form := .func, units := 1 } p (if p.func = 0 || p.func = f then none else some 0x0A)
    fun _ s => (s.resetFunction f).accepted)

/-- STATUS_MIRROR_SET (R248). -/
def execStatusMirrorSet (p : Packet) (s : State) : Host.Outcome State Fault Refusal :=
  .next (s.runPacket { opcode := 0x0010, form := .none, units := 2, underHalt := true } p none fun _ s =>
    let b := p.payload
    let addr := u64At b 0
    let en := bitOf (fieldAt b 8 1) 0
    s.parsed (checked [(0, addr.toNat % 4096 == 0 && (en || addr == 0)), below b 8 1 2, isZero b 9 7] ()) fun _ =>
      (s.updFn p.func fun h => { h with mirrorOn := en, mirrorAddr := addr, mirrorSeq := 0, page := [] }).done)

/-- A packet whose OPCODE is reserved or unknown (R239, R241). -/
def execBadOpcode (p : Packet) (opcode : BitVec 16) (s : State) : Host.Outcome State Fault Refusal :=
  let op := opcode.toNat
  if opcodes.contains op || !s.fetchable op p then .next s
  else
    let s := s.fetch op p
    let v : Ending := { code := 0x10, state := s }
    .next (s.reply p.func (v.reply { opcode := op, form := .none, units := p.length.toNat } p []))

/-- A packet header with a LENGTH of 0 or beyond the ring stops the ring once the engine fetches it (R224, R225). -/
def execRingErr (f : Func) (ring : Fin 4) (length : BitVec 16) (s : State) : Host.Outcome State Fault Refusal :=
  let q := (s.host.fn[f]).sq[ring]
  if s.ringOpen f ring && s.granted f ring && q.part = 0 && (length = 0 || decide (q.units < length.toNat)) then
    .next (((s.movePtr f ring).readRing f ring 1).updFn f fun h => { h with sq := upd h.sq ring fun r => { r with err := true } })
  else .next s

end Sys2Proof.Machine
end

