-- ==== Sys2Proof/Machine/CmdStream.lean ====
section
/-! DEFINITION. Segments, streams and statistics packets (R161 to R171, R259 to R261). -/
namespace Sys2Proof.Machine

/-! ## Segments (R259) -/

/-- The ID is bound to an open PLAY stream of the cluster's site (R259). -/
def State.boundOn (s : State) (c : Cluster) (id : Word) : Bool :=
  (List.finRange 24).any fun t => (s.mem.ins[t]).isOpen && (s.mem.ins[t]).play && (s.mem.ins[t]).bound = id
    && s.site (streamCluster t) = s.site c

/-- The ID is bound to another open PLAY stream of the cluster than stream `i` (R260): segments are per cluster (R32). -/
def State.boundBeside (s : State) (c : Cluster) (id : Word) (i : Nat) : Bool :=
  (List.finRange 24).any fun t => t.val ≠ i && (s.mem.ins[t]).isOpen && (s.mem.ins[t]).play && (s.mem.ins[t]).bound = id && streamCluster t = c

/-- SEG_DECLARE at its crux point (R163, R164, R259). A stream of a named cluster that was between the discarded segment's FIRST and
LAST block may bring a FIRST block again (R40, log 21). -/
def State.segDeclare (s : State) (b : List Byte) (cl : List Cluster) : Ending :=
  let id := u32At b 0
  let fl := fieldAt b 8 1
  let g := fieldAt b 4 4
  s.parsed (checked [(0, id != 0xFFFFFFFF), (4, decide (8 ≤ g) && decide (g ≤ 67108864)), (8, decide (fl < 3)), isZero b 9 7] ()) fun _ =>
    if cl.any fun c => s.reaches c id || s.boundOn c id then s.busy
    else
      let seg : Seg := { id := id, len := 64 * g, idleSafe := bitOf fl 0, stream := bitOf fl 1 }
      let put := fun (l : List Seg) => l.filter (fun x => x.id ≠ id) ++ [seg]
      let s := cl.foldl (fun s c => { s with mem := { s.mem with segs := upd s.mem.segs c put } }) s
      let cut := fun (t : Fin 24) => if cl.contains (streamCluster t) && (s.mem.ins[t]).cur = some id then { s.mem.ins[t] with cur := none } else s.mem.ins[t]
      { s with mem := { s.mem with ins := Vector.ofFn cut } }.done

/-- SEG_DECLARE (R259). -/
def execSegDeclare (p : Packet) (s : State) : Host.Outcome State Fault Refusal :=
  .next (s.runPacket { opcode := 0x0201, form := .clusters, units := 2 } p none fun cl s => s.segDeclare p.payload cl)

/-- Free pages of a cluster's vector store (R161). -/
def State.freePages (s : State) (c : Cluster) : Nat := storePages - ((s.mem.segs[c]).map Seg.pages).sum

/-- A segment's residence changes on the named clusters. -/
def State.reside (s : State) (cl : List Cluster) (id : Word) (r : Residence) : State :=
  let s := if r = .pinned then s.useHbm else s
  cl.foldl (fun s c => { s with mem := { s.mem with segs := upd s.mem.segs c fun l => updSeg l id fun g => { g with res := r } } }) s

/-- SEG_PIN at its crux point (R169, R259). -/
def State.segPin (s : State) (b : List Byte) (cl : List Cluster) : Ending :=
  let id := u32At b 0
  let seg := fun (c : Cluster) => findSeg s.mem.segs[c] id
  s.parsed (checked [(0, cl.all fun c => (seg c).any fun g => !g.stream), isZero b 4 12] ()) fun _ =>
    let fits := fun (c : Cluster) => (seg c).any fun g => g.complete && g.wholePages - g.pages ≤ s.freePages c
    if cl.all fits then (s.reside cl id .pinned).done else s.busy

/-- SEG_PIN (R259). -/
def execSegPin (p : Packet) (s : State) : Host.Outcome State Fault Refusal :=
  .next (s.runPacket { opcode := 0x0302, form := .clusters, units := 2 } p none fun cl s => s.segPin p.payload cl)

/-- SEG_UNPIN at its crux point (R169, R259). -/
def State.segUnpin (s : State) (b : List Byte) (cl : List Cluster) : Ending :=
  let id := u32At b 0
  s.parsed (checked [(0, cl.all fun c => (findSeg s.mem.segs[c] id).isSome), isZero b 4 12] ()) fun _ =>
    if cl.any fun c => s.reaches c id then s.busy else (s.reside cl id .hbm).done

/-- SEG_UNPIN (R259). -/
def execSegUnpin (p : Packet) (s : State) : Host.Outcome State Fault Refusal :=
  .next (s.runPacket { opcode := 0x0303, form := .clusters, units := 2 } p none fun cl s => s.segUnpin p.payload cl)

/-! ## Streams (R171, R260) -/

/-- The field checks of STREAM_OPEN on cluster `c` (R260). -/
def State.openFields (s : State) (b : List Byte) (c : Cluster) : List (Nat × Bool) :=
  let i := fieldAt b 0 1
  let inbound := fieldAt b 1 1 = 0
  let play := inbound && fieldAt b 2 1 = 1
  let def_ := bitOf (fieldAt b 3 1) 0
  let size := fieldAt b 0x0C 4
  let tmo := fieldAt b 0x12 2
  let id := u32At b 0x18
  [(0, decide (i < 24) && i / 2 == c.val), below b 1 1 2, (2, if inbound then decide (fieldAt b 2 1 < 2) else zeroAt b 2 1),
   (3, decide (fieldAt b 3 1 < 2) && (play || !def_)), (4, fieldAt b 4 8 % 4096 == 0),
   (0x0C, ((List.range 13).map fun n => 2 ^ (n + 4)).contains size), (0x10, decide (1 ≤ fieldAt b 0x10 2) && decide (fieldAt b 0x10 2 ≤ 4096)),
   (0x12, if play && !def_ then true else tmo == 0),
   (0x18, if play then (findSeg s.mem.segs[c] id).any (·.stream) && !s.boundBeside c id i else id == 0), isZero b 0x1C 4]

/-- STREAM_OPEN at its crux point (R171, R260). -/
def State.streamOpen (s : State) (b : List Byte) (c : Cluster) : Ending :=
  let i : Fin 24 := Fin.ofNat 24 (fieldAt b 0 1)
  let inbound := fieldAt b 1 1 = 0
  let area := fieldAt b 0x10 2
  let base := u64At b 4
  let size := fieldAt b 0x0C 4
  let seq := u32At b 0x14
  s.parsed (checked (s.openFields b c) ()) fun _ =>
    if (if inbound then (s.mem.ins[i]).isOpen else (s.mem.outs[i]).isOpen) || s.mem.freeBytes < area * 2 ^ 20 then s.busy
    else if inbound then
      let tmo := if bitOf (fieldAt b 3 1) 0 then 1000 else fieldAt b 0x12 2
      { s with mem := { s.mem with ins := upd s.mem.ins i fun t =>
          { isOpen := true, play := fieldAt b 2 1 = 1, base := base, size := size, areaMib := area,
            bound := if fieldAt b 2 1 = 1 then u32At b 0x18 else 0xFFFFFFFF, tmoMs := tmo, expect := seq,
            stale := t.stale, dense := t.dense, tmo := t.tmo, oversize := t.oversize } } }.done
    else
      let s := { s with mem := { s.mem with outs := upd s.mem.outs i fun t =>
          { isOpen := true, base := base, size := size, areaMib := area, reclaim := t.reclaim,
            reclaimBytes := t.reclaimBytes } } }
      (s.updCl c fun e => if i.val % 2 = 0 then { e with cap := { e.cap with nextSeq := seq } }
        else { e with stamp := { e.stamp with nextSeq := seq } }).done

/-- STREAM_OPEN (R260). -/
def execStreamOpen (p : Packet) (s : State) : Host.Outcome State Fault Refusal :=
  .next (s.runPacket { opcode := 0x0300, form := .cluster, units := 3 } p none fun cl s => s.streamOpen p.payload (cl.headD 0))

/-- An outbound stream told to close does so once its HBM area has drained (R176, R260). -/
def State.closeDrained (s : State) (i : Fin 24) : State :=
  let t := s.mem.outs[i]
  if t.closing && t.area.isEmpty && t.buf.isNone then s.closeOut i else s

/-- STREAM_CLOSE at its crux point (R171, R260). -/
def State.streamClose (s : State) (b : List Byte) (c : Cluster) : Ending :=
  let n := fieldAt b 0 1
  let i : Fin 24 := Fin.ofNat 24 n
  let inbound := fieldAt b 1 1 = 0
  let isOpen := if inbound then (s.mem.ins[i]).isOpen else (s.mem.outs[i]).isOpen
  s.parsed (checked [(0, decide (n < 24) && n / 2 == c.val && (decide (1 < fieldAt b 1 1) || isOpen)), below b 1 1 2, isZero b 2 14] ())
    fun _ =>
      if inbound then
        let t := s.mem.ins[i]
        if t.play && (s.members (s.site c)).any fun d => s.reaches d t.bound then s.busy else (s.closeIn i).done
      else if !s.quietSite (s.site c) then s.busy
      else
        let s := { s with mem := { s.mem with outs := upd s.mem.outs i fun t => { t with closing := true } } }
        (s.closeDrained i).accepted

/-- STREAM_CLOSE (R260). -/
def execStreamClose (p : Packet) (s : State) : Host.Outcome State Fault Refusal :=
  .next (s.runPacket { opcode := 0x0301, form := .cluster, units := 2 } p none fun cl s => s.streamClose p.payload (cl.headD 0))

/-! ## TDC_STATS (R151, R154, R261) -/

/-- The statistics a TDC_STATS index names: a channel's, or a pair entry's. -/
def State.statsAt (s : State) (pairs : Bool) (n : Nat) : Stats :=
  if pairs then (getN s.pairs n {}).stats else (getN (s.cl[(Fin.ofNat 12 (n / 8) : Cluster)]).tdc (n % 8) {}).stats

/-- CLEAR on one index (R151). -/
def State.clearStats (s : State) (pairs : Bool) (n : Nat) : State :=
  if pairs then { s with pairs := updN s.pairs n fun e => { e with stats := {} } }
  else s.updCl (Fin.ofNat 12 (n / 8)) fun e => { e with tdc := updN e.tdc (n % 8) TdcChan.clearStats }

/-- Stage 3 of TDC_STATS: the sender owns every pin named (R244). -/
def State.statsOwner (s : State) (f : Func) (b : List Byte) : Option Nat :=
  (List.range (fieldAt b 2 1)).findSome? fun i =>
    let n := fieldAt b (16 + i) 1
    let mine := if fieldAt b 0 1 = 0 then 96 ≤ n || s.ownsPin f n
      else 48 ≤ n || (s.ownsPin f (getN s.pairs n {}).pinA && s.ownsPin f (getN s.pairs n {}).pinB)
    if mine then none else some (16 + 16 + i)

/-- TDC_STATS at its crux point: the snapshot, the write to the result buffer, and CLEAR (R151, R245, R261). -/
def State.tdcStats (s : State) (b : List Byte) : Ending :=
  let pairs := fieldAt b 0 1 = 1
  let fl := fieldAt b 1 1
  let n := fieldAt b 2 1
  let idx := (List.range n).map fun i => fieldAt b (16 + i) 1
  let need := n * if bitOf fl 1 then 4160 else 64
  s.parsed (checked ([below b 0 1 2, below b 1 1 4, isZero b 3 1, (8, fieldAt b 8 8 % 64 == 0)]
      ++ (idx.zipIdx.map fun (x, i) => (16 + i, decide (x < if pairs then 48 else 96))) ++ [(16 + n, zeroAt b (16 + n) ((16 - n % 16) % 16))]) ())
    fun _ =>
      if fieldAt b 4 4 < need then s.badParam 6 need
      else
        let out := idx.flatMap fun x => (s.statsAt pairs x).block ++ if bitOf fl 1 then (s.statsAt pairs x).histogram else []
        let s := if bitOf fl 0 then idx.foldl (fun s x => s.clearStats pairs x) s else s
        (s.writeData (u64At b 8) out).done

/-- TDC_STATS (R261). -/
def execTdcStats (p : Packet) (s : State) : Host.Outcome State Fault Refusal :=
  let n := fieldAt p.payload 2 1
  .next (s.runPacket { opcode := 0x0501, form := .none, units := 2 + (n + 15) / 16,
                       badSel := if n = 0 || decide (96 < n) then some 2 else none } p (s.statsOwner p.func p.payload)
    fun _ s => s.tdcStats p.payload)

end Sys2Proof.Machine
end

