-- ==== Sys2Proof/Machine/CmdService.lean ====
section
/-! DEFINITION. The site controller's packets (R189, R193, R198, R262): rule tables, work items, flow records. -/
namespace Sys2Proof.Machine

/-! ## RULE_LOAD (R198) -/

/-- RULE_LOAD at its crux point. -/
def State.ruleLoad (s : State) (f : Func) (b : List Byte) : Ending :=
  s.parsed (parseRules b) fun (num, rules) =>
    let others := s.sched.tables.filter fun t => !(t.owner = f && t.num = num)
    if 65536 < (others.map fun t => 1 + t.rules.length).sum + 1 + rules.length then s.busy
    else { s with sched := { s.sched with tables := ⟨f, num, rules⟩ :: others } }.done

/-- RULE_LOAD (R198, R262). -/
def execRuleLoad (p : Packet) (s : State) : Host.Outcome State Fault Refusal :=
  let n := fieldAt p.payload 2 2
  .next (s.runPacket { opcode := 0x0600, form := .none, units := 2 + 2 * n,
                       badSel := if n = 0 || decide (256 < n) then some 2 else none } p none fun _ s => s.ruleLoad p.func p.payload)

/-! ## ITEM_POST (R188, R189, R262) -/

/-- The item types ITEM_POST accepts (R189). -/
def ItemType.posted : ItemType → Bool
  | .hostItem | .searchStep | .trimStep | .failReduce | .binAssign => true
  | _ => false

/-- The site a flow's items concern (R262): a decision flow's site index. -/
def State.flowSite (s : State) (n : Nat) : Option Cluster :=
  if h : n < 12 then if s.isSite ⟨n, h⟩ then some ⟨n, h⟩ else none else none

/-- ITEM_POST at its crux point: DATA returns the SEQNO assigned. Posts of the same cycle that R191 puts before it are numbered before it. -/
def State.itemPost (s : State) (b : List Byte) : Ending :=
  let ty := ItemType.ofCode (fieldAt b 0 1)
  let n := fieldAt b 2 2
  let pl := (b.drop 24).take 40
  s.parsed (checked [(0, ty.any ItemType.posted), isZero b 1 1, (2, decide (n < 4080)), isZero b 4 20,
      (24, itemReservedOk (ty.getD .hostItem) pl)] ()) fun _ =>
    let site := s.flowSite n
    let post : Item := { type := ty.getD .hostItem, prio := 0, flow := n, site := site, source := 1,
                         burstId := (site.map fun k => s.sites[k].burstId).getD 0, postTime := postTime s.net, payload := pl,
                         queuedAt := s.now }
    let s := s.settleBefore post
    if (s.sched.flow n).maxPending ≤ s.sched.pendingOf n || s.sched.free ≤ 1024 then s.busy
    else { ({ s with sched := s.sched.post post } : State).done with data := leBytes 4 s.sched.seqno.toNat }

/-- ITEM_POST (R262): the sender owns the flow (R189). -/
def execItemPost (p : Packet) (s : State) : Host.Outcome State Fault Refusal :=
  let n := fieldAt p.payload 2 2
  .next (s.runPacket { opcode := 0x0601, form := .none, units := 5 } p
    (if 4080 ≤ n || s.flowOwner n = p.func then none else some 18) fun _ s => s.itemPost p.payload)

/-! ## FLOW_CONFIG (R192, R193) -/

/-- Stage 3 of FLOW_CONFIG: a decision flow's owner, the PF or a user flow's owner, the PF alone for the reserve mask and OWNER. -/
def State.flowRole (s : State) (f : Func) (b : List Byte) : Option Nat :=
  let n := fieldAt b 0 2
  if n = 0xFFFF then if f = 0 then none else some 16
  else if 4080 ≤ n then none
  else if n < 12 then if s.flowOwner n = f then none else some 16
  else if f = 0 then none
  else if s.flowOwner n ≠ f then some 16
  else if fieldAt b 8 1 ≠ f.val then some 24
  else none

/-- FLOW_CONFIG at its crux point (R193, R199): the record, with the variables at 0 and BURSTS afresh. -/
def State.flowConfig (s : State) (b : List Byte) : Ending :=
  let n := fieldAt b 0 2
  if n = 0xFFFF then
    s.parsed (checked [below b 2 1 4, below b 3 1 2, isZero b 9 1, isZero b 12 4] ()) fun _ =>
      { s with sched := { s.sched with reserve := u16At b 10 } }.done
  else
    s.parsed (checked [(0, decide (n < 4080)), below b 2 1 4, below b 3 1 2, (6, !zeroAt b 6 2),
        (8, decide (n < 12) || decide (fieldAt b 8 1 < 13)), isZero b 9 1, isZero b 12 4] ()) fun _ =>
      let x := s.sched.updFlow n fun f =>
        { f with prio := Fin.ofNat 4 (fieldAt b 2 1), rechain := bitOf (fieldAt b 3 1) 0, bdTable := u16At b 4,
                 maxPending := fieldAt b 6 2, owner := if n < 12 then f.owner else Fin.ofNat 13 (fieldAt b 8 1),
                 rechainDesc := u16At b 10, vars := Vector.replicate 8 0, bursts := 0 }
      { s with sched := { x with rechainOff := if n < 12 then x.rechainOff &&& ~~~(bitMask 12 n) else x.rechainOff } }.done

/-- FLOW_CONFIG (R193, R262). -/
def execFlowConfig (p : Packet) (s : State) : Host.Outcome State Fault Refusal :=
  .next (s.runPacket { opcode := 0x0602, form := .none, units := 2 } p (s.flowRole p.func p.payload)
    fun _ s => s.flowConfig p.payload)

end Sys2Proof.Machine
end

