-- ==== Sys2Proof/Machine/CmdManage.lean ====
section
/-! DEFINITION. The management packets (R263 to R266): time, rope ports, calibration, faults, power tolerance. -/
namespace Sys2Proof.Machine

/-! ## Time (R308, R309, R315, R316) -/

def TimeSource.ofCode (n : Nat) : Option TimeSource :=
  match n with
  | 0 => some .freeRun | 1 => some .ptm | 2 => some .rope | _ => none

/-- A source taken at the crux point (R308, R309): ACQUIRING until its first estimate, or FREE_RUN. -/
def TimeUnit.select (t : TimeUnit) (src : TimeSource) (port : Port) (now : Nat) : TimeUnit :=
  { t with source := src, port := port, state := if src = .freeRun then .freeRun else .acquiring,
           stratum := if src = .rope then t.stratum else 0, sums := [], within := 0,
           req := none, corr := 0, lastEst := now }

/-- TIME_SOURCE at its crux point (R263, R264, R308). -/
def State.timeSource (s : State) (b : List Byte) : Ending :=
  let src := TimeSource.ofCode (fieldAt b 0 1)
  let n := fieldAt b 1 1
  let mask := fieldAt b 2 1
  let port : Port := Fin.ofNat 4 n
  s.parsed (checked [(0, src.isSome), (1, if src = some .rope then decide (n < 4) else n == 0), below b 2 1 16, isZero b 3 13,
      (0, src ≠ some .ptm || s.host.ptm), (1, src ≠ some .rope || (s.rope.ports[port]).state.trained)] (src.getD .freeRun)) fun src =>
    let s := if s.time.source = .rope then s.updPort s.time.port fun p => { p with lastBusy := s.now } else s
    { s with time := { s.time.select src port s.now with
        asymCable := Vector.ofFn fun (i : Fin 4) =>
          if bitOf mask i then u32At b (16 + 4 * i.val) else s.time.asymCable[i] } }.done

/-- TIME_SOURCE (R263). -/
def execTimeSource (p : Packet) (s : State) : Host.Outcome State Fault Refusal :=
  .next (s.runPacket { opcode := 0x0700, form := .none, units := 3, pfOnly := true } p none fun _ s => s.timeSource p.payload)

/-- What a burst's acquisition has in hand when network time steps by `d` (R316). -/
def CapBurst.shift (x : CapBurst) (d : Int) : CapBurst :=
  { x with acq := { x.acq with fillBase := x.acq.fillBase.map fun (v, t) => (v, t + d), waiting := x.acq.waiting.map fun (v, b, t) => (v, b, t + d) } }

/-- What a cluster has in hand when network time steps from `old` by `d`, read on the new time: it stands at the same instants, but the clock
pins follow the new epoch (R90, R316, R317). -/
def ClusterEng.shift (e : ClusterEng) (old d : Int) : ClusterEng :=
  { e with io := { e.io with trigFrom := e.io.trigFrom.map (·.map (· + d)), trig0Until := e.io.trig0Until.map (· + d),
                             trig1Until := e.io.trig1Until.map (· + d) },
           tim := { e.tim with pins := e.tim.pins.map (·.shift d), clk := e.tim.clk.map (·.jump old d) },
           lvl := { e.lvl with rails := e.lvl.rails.map (·.shift d) },
           cap := { e.cap with vecs := e.cap.vecs.map fun v => { v with start := v.start + d, closing := v.closing.map (· + d) },
                               open_ := e.cap.open_.map fun b => { b with since := b.since + d },
                               older := e.cap.older.map fun p => { p with burst := p.burst.shift d },
                               toCapBurst := e.cap.toCapBurst.shift d },
           tdc := e.tdc.map fun x => { x with lastEdge := x.lastEdge.map (· + d / (2 * fuUnits)), fillAt := x.fillAt + d,
                                              tWin := x.tWin.map fun (a, b) => (a + d, b + d) },
           stamp := { e.stamp with open_ := e.stamp.open_.map fun b => { b with since := b.since + d } } }

/-- The same of a site (R316). -/
def Seqr.shift (q : Seqr) (d : Int) : Seqr :=
  { q with spans := q.spans.map fun x => { x with start := x.start + d }, haltAt := q.haltAt.map (· + d),
           ending := q.ending.map fun (t, a) => (t + d, a) }

/-- A step of network time by `d` units (R90, R316, R317): stamps and ticks from now on use the new time; a TIME trigger jumped over never
fires, a channel whose window it opens is armed (R155, R327), and each stamp stream takes a gap cairn of the first tick after the step, which thus
precedes every further stamp. -/
def State.stepTime (s : State) (d : Int) : State :=
  let old := s.net
  let s := { s with netOff := s.netOff + d, seqs := s.seqs.map (·.shift d) }
  (List.finRange 12).foldl (fun s c =>
    let a := (s.config c).acq
    let at_ := timeOf (BitVec.ofNat 96 (fieldAt a.sparam 0 12))
    let passed := a.source = .time && (s.cl[c]).cap.acq.active && !(s.cl[c]).cap.acq.retired && (s.cl[c]).cap.acq.trig.isNone && old < at_ && at_ ≤ s.net
    let ss := (s.seqs[s.site c]).spans
    let opens := (List.finRange 8).filter fun (k : Fin 8) =>
      let g := (s.config c).tdc[k]
      g.arm = .twindow && (((s.cl[c]).tdc[k]).armedBy g ss old).isNone && ((((s.cl[c].shift old d)).tdc[k]).armedBy g ss s.net).isSome
    let s := s.updCl c fun e =>
      let e := e.shift old d
      let e := { e with tdc := opens.foldl (fun v k => updN v k.val TdcChan.abandon) e.tdc }
      if passed then { e with cap := { e.cap with trigIgn := satInc e.cap.trigIgn, acq := { e.cap.acq with retired := true } } } else e
    let s := s.gapCairn c (ceilTo (s.net + 1) tickUnits)
    if opens.isEmpty then s
    else { s with cal := { s.cal with cl := upd s.cal.cl c fun y => { y with background := y.background &&& 0xD } } }) s

/-- TIME_ACCEPT at its crux point (R264, R316). -/
def State.timeAccept (s : State) : Ending :=
  if s.time.state ≠ .refused then s.badParam 0 0
  else if !s.allQuiet then s.busy
  else
    let s := s.stepTime (-s.time.theta)
    { s with time := { s.time with state := .locked, stepCnt := satInc s.time.stepCnt, within := 0, sums := [], corr := 0,
                                   lastEst := s.now } }.done

/-- TIME_ACCEPT (R264). -/
def execTimeAccept (p : Packet) (s : State) : Host.Outcome State Fault Refusal :=
  .next (s.runPacket { opcode := 0x0701, form := .none, units := 1, pfOnly := true } p none fun _ s => s.timeAccept)

/-- TIME_THRESHOLD (R263, R315). -/
def execTimeThreshold (p : Packet) (s : State) : Host.Outcome State Fault Refusal :=
  let b := p.payload
  let n := fieldAt b 0 4
  .next (s.runPacket { opcode := 0x0702, form := .none, units := 2, pfOnly := true } p none fun _ s =>
    s.parsed (checked [(0, decide (1 ≤ n) && decide (n ≤ 1000000000)), isZero b 4 12] ()) fun _ =>
      { s with time := { s.time with threshold := n } }.done)

/-! ## Rope ports (R264, R283, R290, R300, R301) -/

/-- ROPE_CONFIG on a port that no busy site's path uses (R283); one that takes the port out of TEST ends the test (R300). -/
def State.configPort (s : State) (n : Port) (en fixed retrain : Bool) (levelMax : Nat) : State :=
  let s := s.updPort n fun p =>
    { p with fixedLat := fixed, levelMax := levelMax, level := if p.partner.isSome then min p.level levelMax else p.level }
  let st := (s.rope.ports[n]).state
  let s := if (s.rope.ports[n]).test.running && (!en || (retrain && st = .test)) then s.endTest n else s
  if !en then s.portTo n .disabled
  else if st = .disabled then
    let s := if s.ropeOn then s else { s with rope := { s.rope with clockAt := s.now } }
    s.portTo n .detect
  else if retrain && st ≠ .detect then s.startTraining n
  else s

/-- ROPE_CONFIG at its crux point (R263, R264). -/
def State.ropeConfig (s : State) (b : List Byte) : Ending :=
  let n : Port := Fin.ofNat 4 (fieldAt b 0 1)
  let c := fieldAt b 1 1
  let lv := fieldAt b 2 1
  s.parsed (checked [below b 0 1 4, below b 1 1 8, (2, lv == 2 || lv == 3), isZero b 3 13] ()) fun _ =>
    if s.portInUse n then s.busy else (s.configPort n (bitOf c 0) (bitOf c 1) (bitOf c 2) lv).accepted

/-- ROPE_CONFIG (R263). -/
def execRopeConfig (p : Packet) (s : State) : Host.Outcome State Fault Refusal :=
  .next (s.runPacket { opcode := 0x0800, form := .none, units := 2, pfOnly := true } p none fun _ s => s.ropeConfig p.payload)

/-- A far-end test asks the partner once its port is UP (R301), for which a port in IDLE leaves it (R293). -/
def State.askLoop (s : State) (n : Port) : State :=
  let s := s.leaveIdle n
  if (s.rope.ports[n]).state = .up then s.sendOn n 0x61 (List.replicate 16 0) else s

/-- One test on one port (R300, R301); none on a port ROPE_CONFIG has not enabled (R282; log 30). -/
def State.startTest (s : State) (n : Port) (loop prbs inject duration : Nat) : State :=
  let s := if (s.rope.ports[n]).test.running then s.endTest n else s
  if (loop = 0 && prbs = 0) || (s.rope.ports[n]).state = .disabled then s
  else
    let s := s.updPort n fun p => { p with test := .begin_ loop prbs inject duration s.now, bitsHi := 0 }
    if loop = 3 then s.askLoop n else s.portTo n .test

/-- ROPE_TEST at its crux point (R263, R264). -/
def State.ropeTest (s : State) (b : List Byte) : Ending :=
  let n : Port := Fin.ofNat 4 (fieldAt b 0 1)
  s.parsed (checked [below b 0 1 4, below b 1 1 4, below b 2 1 5, below b 3 1 3, isZero b 8 8] ()) fun _ =>
    if s.portInUse n then s.busy
    else (s.startTest n (fieldAt b 1 1) (fieldAt b 2 1) (fieldAt b 3 1) (fieldAt b 4 4)).accepted

/-- ROPE_TEST (R263). -/
def execRopeTest (p : Packet) (s : State) : Host.Outcome State Fault Refusal :=
  .next (s.runPacket { opcode := 0x0801, form := .none, units := 2, pfOnly := true } p none fun _ s => s.ropeTest p.payload)

/-! ## Calibration (R265, R266, R328, R329, R339, R340) -/

/-- A TDC channel of the cluster is unarmed now (R142). -/
def State.unarmed (s : State) (c : Cluster) (k : Lane) : Bool :=
  (((s.cl[c]).tdc[k]).armedBy (s.config c).tdc[k] (s.seqs[s.site c]).spans s.net).isNone

/-- The number of a kind (R327). -/
def kindNum : CalKind → Nat
  | .dac => 0 | .deskew => 1 | .tdc => 2 | .trig => 3

/-- Whether a commanded run of the kind is the cluster's next to end: DAC, deskew, TDC, trigger skew (R328). -/
def CalCluster.next (x : CalCluster) (k : CalKind) : Bool :=
  x.what.getLsbD (kindNum k) && (List.range (kindNum k)).all fun i => !x.what.getLsbD i

/-- A commanded TDC run is the cluster's next: it takes place on every channel that is not armed (R155, R158, R328). A background run in hand on a
channel gives way to it (log 35). -/
def State.startDensity (s : State) (c : Cluster) : State :=
  if !((s.cal.cl[c]).next .tdc) then s
  else
    let s := s.updCl c fun e =>
      let run := fun (i : Fin 8) => if s.unarmed c i then { e.tdc[i] with running := true, cmd := true } else e.tdc[i]
      { e with tdc := Vector.ofFn run }
    { s with cal := { s.cal with cl := upd s.cal.cl c fun x => { x with fresh := 0 } } }

/-- The cluster's next kind of run begins (R328, R337): TIN_PRESENT and the instant are noted, and code density starts. -/
def State.beginKind (s : State) (c : Cluster) : State :=
  ({ s with cal := { s.cal with cl := upd s.cal.cl c fun x => { x with tinRun := s.cal.tin, kindFrom := s.net } } } : State).startDensity c

/-- The rails of a commanded DAC run are tied (R328). -/
def State.tie (s : State) (c : Cluster) : State := s.updCl c fun e => { e with lvl := e.lvl.tie s.net }

/-- CAL_RUN at its crux point (R266, R328): the run begins at once on a cluster in READY, and on one below it once that is reached (R367). -/
def State.calRun (s : State) (b : List Byte) (cl : List Cluster) : Ending :=
  let what := fieldAt b 0 1
  s.parsed (checked [(0, decide (0 < what) && decide (what < 16)), isZero b 1 15] ()) fun _ =>
    if !cl.all (fun c => s.quietSite (s.site c)) || ((bitOf what 1 || bitOf what 3) && s.pwr.tbWarm) then s.busy
    else
      let start := fun (v : Vector CalCluster 12) (c : Cluster) => upd v c fun x =>
        { x with what := x.what ||| BitVec.ofNat 4 what, tinRun := if x.what = 0 then s.cal.tin else x.tinRun,
                 kindFrom := if x.what = 0 then s.net else x.kindFrom }
      let on := cl.filter s.calOn
      let idle := on.filter fun c => !(s.cal.cl[c]).next .tdc
      let s := if bitOf what 0 then on.foldl State.tie s else s
      let s := ({ s with cal := { s.cal with cl := cl.foldl start s.cal.cl } } : State)
      (idle.foldl State.startDensity s).repick.accepted

/-- CAL_RUN (R265). -/
def execCalRun (p : Packet) (s : State) : Host.Outcome State Fault Refusal :=
  .next (s.runPacket { opcode := 0x0900, form := .clusters, units := 2, notInDiag := true } p none fun cl s => s.calRun p.payload cl)

/-- Nominal temperatures of the sets, in 1/16 °C (R329). -/
def setTemp (n : Nat) : Int := 16 * [-40, 0, 35, 70, 105].getD n 0

/-- A cluster without an accepted commanded run of every kind near the nominal temperature of set `n` (R329). -/
def State.calMissing (s : State) (n : Nat) : Option Cluster :=
  let far := fun (t : Int) => 160 < t - setTemp n || t - setTemp n < -160
  (List.finRange 12).find? fun c => (s.cal.cl[c]).kinds.toList.any (fun k => (k.map fun d => far d.temp).getD true)
    || (s.cal.cl[c]).cmdTables.toList.any fun t => (t.map fun x => far x.2).getD true

/-- One cluster's record in a set: each kind's latest accepted commanded run, merged (R329). -/
def CalCluster.record (x : CalCluster) : CalSet :=
  let k := fun (i : Nat) => (getN x.kinds i none).getD ⟨0, {}, {}, 0⟩
  let mix := fun (f : CalDone → Coeffs) =>
    { gain := (f (k 0)).gain, offset := (f (k 0)).offset, iref := (f (k 0)).iref, drv := (f (k 1)).drv, den := (f (k 1)).den,
      cmp := (f (k 1)).cmp, tdc := (f (k 1)).tdc, trig := (f (k 3)).trig, bins := x.cmdTables.map fun t => (t.map (·.1)).getD [] : Coeffs }
  ⟨(k 0).temp, mix CalDone.values, mix CalDone.drift⟩

/-- Stores of the last 60 minutes (R340). -/
def State.recentStores (s : State) : Nat := (s.cal.stores.filter fun t => s.now < t + 3600 * 1000 * msUnits).length

/-- CAL_STORE's field checks (R265). -/
def calStoreFields (b : List Byte) : List (Nat × Bool) := [below b 0 1 5, isZero b 1 15]

/-- The five sets with set `n` recorded from every cluster (R329). -/
def State.calImage (s : State) (n : Nat) : Vector (Option (Vector CalSet 12)) 5 :=
  updN s.cal.image n fun _ => some (Vector.ofFn fun (c : Fin 12) => (s.cal.cl[c]).record)

/-- What the store of set `n` leaves in bank B, given a draw for its image (R338, R339): a complete record of its own stays as it is. -/
def State.bankB (s : State) (n v : Nat) : CalSlot :=
  let b := s.cal.flash[s.cal.slot + 1]
  if b.holds (s.cal.slot + 1) (s.cal.seq + 1) (s.calImage n) then b else .stored (s.cal.slot + 1) (s.cal.seq + 1) v (s.calImage n)

/-- The store of R339: bank B takes the image, or is left partial when a read-back fails. -/
def State.calStore (s : State) (b : List Byte) (verified : Bool) : Ending :=
  let n := fieldAt b 0 1
  s.parsed (checked (calStoreFields b) ()) fun _ =>
    match s.calMissing n with
    | some c => s.badParam 5 c.val
    | none =>
      let bankB := s.cal.slot + 1
      let put := fun (x : CalSlot) (s : State) =>
        { s with cal := { s.cal with flash := s.cal.flash.set bankB.val x bankB.isLt } }
      if 8 ≤ s.recentStores then s.busy
      else if !verified then (put .partialStore s).integrity
      else
        let (s, v) := s.fresh
        let image := s.calImage n
        let s := put (s.bankB n v.toNat) s
        { s with cal := { s.cal with image := image, slot := bankB, seq := s.cal.seq + 1, total := satInc s.cal.total,
                                     stores := s.now :: s.cal.stores, none_ := false } }.done

/-- CAL_STORE's row of the table (R244). -/
def calStoreSpec : OpSpec := { opcode := 0x0901, form := .none, units := 2, pfOnly := true }

/-- CAL_STORE (R265, R266). -/
def execCalStore (p : Packet) (verified : Bool) (s : State) : Host.Outcome State Fault Refusal :=
  .next (s.runPacket calStoreSpec p none fun _ s => s.calStore p.payload verified)

/-- CAL_REF_DECLARE (R265, R322, R323). -/
def execCalRefDeclare (p : Packet) (s : State) : Host.Outcome State Fault Refusal :=
  let b := p.payload
  let v := fieldAt b 0 4
  let d := (u32At b 4).toInt
  .next (s.runPacket { opcode := 0x0902, form := .none, units := 2, pfOnly := true } p none fun _ s =>
    s.parsed (checked [(0, decide (1150000 ≤ v) && decide (v ≤ 1250000)), (4, decide (-1048576 ≤ d) && decide (d ≤ 1048576)),
        isZero b 8 8] ()) fun _ =>
      { s with cal := { s.cal with vrefUv := v, tinDelay := d } }.done)

/-! ## Faults (R266, R346, R352, R354) -/

/-- FAULT_CONFIG (R346). -/
def execFaultConfig (p : Packet) (s : State) : Host.Outcome State Fault Refusal :=
  let b := p.payload
  let n := fieldAt b 0 2
  let r := Reaction.ofCode (fieldAt b 2 1)
  .next (s.runPacket { opcode := 0x0A00, form := .none, units := 2, pfOnly := true } p none fun _ s =>
    s.parsed (checked [(0, (sourceOf n).isSome),
        (2, r.any fun r => (sourceOf n).any fun x => decide (x.1.floor.code ≤ r.code)), isZero b 3 13] (r.getD .log)) fun r =>
      { s with flt := { s.flt with react := (n, r) :: s.flt.react.filter fun x => x.1 ≠ n } }.done)

/-- FAULT_INJECT (R352): the event reaches only the collector. -/
def execFaultInject (p : Packet) (s : State) : Host.Outcome State Fault Refusal :=
  let b := p.payload
  let n := fieldAt b 0 2
  .next (s.runPacket { opcode := 0x0A01, form := .none, units := 2, pfOnly := true } p none fun _ s =>
    s.parsed (checked [(0, (sourceOf n).isSome), isZero b 2 2, below b 4 2 4096, isZero b 6 2, isZero b 12 4] ()) fun _ =>
      (s.collect [(⟨n, BitVec.ofNat 12 (fieldAt b 4 2), u32At b 8⟩, true)]).done)

/-- FAULT_ACK at its crux point (R344, R354): the record is released with the reactions it holds; what the crux cycle has reported comes after
it, and conditions that still hold report again in the next collector cycle. -/
def State.faultAck (s : State) : State :=
  let s := s.endCycle s.now
  let s : State := { s with flt := { s.flt with last := s.heldRecord, first := none, halted := 0, device := false } }
  let s := match s.flt.taking with
    | some c => s.serve { c with first := none }
    | none => s
  let t := s.idle
  t.collect (t.conditions.map fun e => (e, false))

/-- FAULT_ACK (R266, R354). -/
def execFaultAck (p : Packet) (s : State) : Host.Outcome State Fault Refusal :=
  let b := p.payload
  .next (s.runPacket { opcode := 0x0A02, form := .none, units := 2, pfOnly := true, underHalt := true } p none fun _ s =>
    s.parsed (checked [(0, s.heldRecord.any fun r => r.source = fieldAt b 0 2), isZero b 2 14] ()) fun _ => s.faultAck.done)

/-! ## Power (R265, R366) -/

/-- POWER_TOLERANCE (R265, R366). -/
def execPowerTolerance (p : Packet) (s : State) : Host.Outcome State Fault Refusal :=
  let b := p.payload
  .next (s.runPacket { opcode := 0x0B00, form := .clusters, units := 2 } p none fun cl s =>
    s.parsed (checked [isZero b 4 12] (u32At b 0)) fun tol =>
      ({ s with pwr := { s.pwr with cl := cl.foldl (fun v c => upd v c fun x => { x with tol := tol }) s.pwr.cl } } : State).repick.done)

end Sys2Proof.Machine
end

