-- ==== Sys2Proof/Machine/CmdSecure.lean ====
section
/-! DEFINITION. The security packets (R265, R266, R392 to R398): ATTEST, FW_STAGE, FW_ACTIVATE. -/
namespace Sys2Proof.Machine

/-! ## ATTEST -/

/-- ATTEST at its crux point (R245, R266, R392, R394): the report goes into the result buffer; a restarted packet writes the one its
first run took. -/
def State.attest (s : State) (p : Packet) : Ending :=
  let b := p.payload
  s.parsed (checked (attestFields b) ()) fun _ =>
    if fieldAt b 0x28 4 < reportLen then s.badParam 6 reportLen
    else
      let s := s.reserveReport p
      match s.sec.reserved.find? fun r => r.1 = p with
      | none => s.busy
      | some (_, body, i) =>
        let s := s.writeData (u64At b 0x20) (s.report9420 body i)
        { s with sec := { s.sec with reserved := s.sec.reserved.filter fun r => r.1 ≠ p } }.done

/-- ATTEST (R244). -/
def execAttest (p : Packet) (s : State) : Host.Outcome State Fault Refusal :=
  .next (s.runPacket attestSpec p none fun _ s => s.attest p)

/-! ## FW_STAGE (R397) -/

/-- The slot that did not boot. -/
def Security.spare (x : Security) : Fin 2 := x.bootSlot + 1

/-- FIRST (R397): the spare slot is erased, a TRY that names it cancelled, STAGED cleared. -/
def Security.stageFirst (x : Security) (now : Nat) : Security :=
  let x := if x.try_ = some x.spare then x.cancelTry now else x
  { x with slots := x.slots.set x.spare.val .erased x.spare.isLt, staged := false, stageNext := some 0 }

/-- A chunk is written at its offset, over what an earlier run of its routine may have left there (R272). -/
def Security.stageChunk (x : Security) (off : Nat) (d : List Byte) : Security :=
  let old := match x.slots[x.spare] with
    | .bytes b => b.take off
    | _ => []
  { x with slots := x.slots.set x.spare.val (.bytes (old ++ d)) x.spare.isLt, stageNext := x.stageNext.map (· + d.length) }

/-- LAST (R382, R397): the staging ends; STAGED and MR6 on success. A failed verification refuses the packet, and nothing of it stays but what its
routine did to the spare slot (R271, R272); `old`: the unit before the packet. -/
def State.stageLast (s : State) (old : Security) : Ending :=
  let slot := s.sec.slots[s.sec.spare]
  if slot.valid s.sec.rollback then
    { s with sec := { s.sec with stageNext := none, staged := true }.extend 6 (Config.shake256 slot.header) }.done
  else ({ s with sec := { old with slots := s.sec.slots } } : State).integrity

/-- FW_STAGE's row of the table (R244). -/
def fwStageSpec (b : List Byte) : OpSpec :=
  let n := fieldAt b 4 4
  { opcode := 0x0C01, form := .none, units := 2 + n / 16, pfOnly := true,
    badSel := if n % 16 = 0 && decide (16 ≤ n) && decide (n ≤ 65536) then none else some 4 }

/-- FW_STAGE's field checks (R265, R266). -/
def Security.stageFields (x : Security) (b : List Byte) : List (Nat × Bool) :=
  let off := fieldAt b 0 4
  let follows := if bitOf (fieldAt b 8 1) 0 then off == 0 else x.stageNext == some off
  [(0, off % 16 == 0 && follows && decide (off + fieldAt b 4 4 ≤ 6 * 2 ^ 20)), below b 8 1 4, isZero b 9 7]

/-- FW_STAGE at its crux point (R265, R266, R397). -/
def State.fwStage (s : State) (b : List Byte) : Ending :=
  s.parsed (checked (s.sec.stageFields b) ()) fun _ =>
    let x := if bitOf (fieldAt b 8 1) 0 then s.sec.stageFirst s.now else s.sec
    let t := { s with sec := x.stageChunk (fieldAt b 0 4) ((b.drop 16).take (fieldAt b 4 4)) }
    if bitOf (fieldAt b 8 1) 1 then t.stageLast s.sec else t.done

/-- FW_STAGE (R244). -/
def execFwStage (p : Packet) (s : State) : Host.Outcome State Fault Refusal :=
  .next (s.runPacket (fwStageSpec p.payload) p none fun _ s => s.fwStage p.payload)

/-! ## FW_ACTIVATE (R398) -/

/-- FW_ACTIVATE at its crux point (R266, R398). -/
def State.fwActivate (s : State) (b : List Byte) : Ending :=
  s.parsed (checked [below b 0 1 2, isZero b 1 15] (Fin.ofNat 2 (fieldAt b 0 1))) fun n =>
    let x := s.sec
    let slot := x.slots[n]
    let mr := fun (x : Security) => x.extend 6 (Config.shake256 slot.header)
    if n = x.bootSlot then ({ s with sec := mr (x.cancelTry s.now) } : State).accepted
    else if !slot.valid x.rollback then s.integrity
    else ({ s with sec := mr (x.bootRecord s.now x.active (some n)) } : State).accepted

/-- FW_ACTIVATE (R244). -/
def execFwActivate (p : Packet) (s : State) : Host.Outcome State Fault Refusal :=
  .next (s.runPacket { opcode := 0x0C02, form := .none, units := 2, pfOnly := true } p none fun _ s => s.fwActivate p.payload)

end Sys2Proof.Machine
end

