-- ==== Sys2Proof/Machine/Interrupts.lean ====
section
/-! DEFINITION. Interrupted routines of the command engine (R272 to R277): what a lost run leaves, the restart slot, deferral to END, machine checks,
and the commands that interrupt: ABORT, the site controller's internal commands, doorbells and faults. -/
namespace Sys2Proof.Machine

/-! ## What a lost run leaves (R272) -/

/-- The times a packet has been abandoned (R275). -/
def State.runsOf (s : State) (r : Routine) : Nat := ((s.restartOf r.opcode.toNat r.packet).map (·.2)).getD 0

/-- The packet passes the stages before its opcode's own checks. -/
def State.reaches5 (s : State) (o : OpSpec) (p : Packet) : Bool :=
  (s.frameFault o p).isNone && (s.roleFault o p [] none).isNone && !s.stageBusy o []

/-- What an FW_STAGE routine has done to the spare slot before its CRUX (R272, R397): with FIRST it is erased; `n` bytes of the chunk are written behind
what it holds. A later run writes the same bytes over them. -/
def Security.strew (x : Security) (first : Bool) (off n : Nat) (d : List Byte) : Security :=
  let old := match x.slots[x.spare] with
    | .bytes b => if first then [] else b.take off
    | _ => []
  let new := if (old ++ d.take n).isEmpty then FwSlot.erased else .bytes (old ++ d.take n)
  { x with slots := x.slots.set x.spare.val new x.spare.isLt }

/-- The side effects a routine has had before the CRUX it did not reach (R272): ATTEST keeps its index; how far the writes of its report, of FW_STAGE
and of CAL_STORE got is free (log 38). -/
def State.residue (s : State) (r : Routine) : State :=
  let b := r.packet.payload
  match r.opcode.toNat with
  | 0x0C00 =>
    let t := s.reserveReport r.packet
    match t.sec.reserved.find? fun x => x.1 = r.packet with
    | none => t
    | some (_, body, i) =>
      let (t, v) := t.fresh
      if s.reaches5 attestSpec r.packet && v.getLsbD 63 then t.writeData (u64At b 0x20) ((t.report9420 body i).take (v.toNat % (reportLen + 1))) else t
  | 0x0C01 =>
    if !s.reaches5 (fwStageSpec b) r.packet || (firstBad (s.sec.stageFields b)).isSome then s
    else
      let (s, v) := s.fresh
      let n := fieldAt b 4 4
      if v.getLsbD 63 then s
      else { s with sec := s.sec.strew (bitOf (fieldAt b 8 1) 0) (fieldAt b 0 4) (v.toNat % (n + 1)) ((b.drop 16).take n) }
  | 0x0901 =>
    if !s.reaches5 calStoreSpec r.packet || (firstBad (calStoreFields b)).isSome || (s.calMissing (fieldAt b 0 1)).isSome || 8 ≤ s.recentStores then s
    else
      let (s, v) := s.fresh
      let b := s.cal.flash[s.cal.slot + 1]
      let got : CalSlot := if v.getLsbD 63 then b else if v.getLsbD 62 then .partialStore else if v.getLsbD 61 then .erased
        else s.bankB (fieldAt r.packet.payload 0 1) v.toNat
      { s with cal := { s.cal with flash := upd s.cal.flash (s.cal.slot + 1) fun _ => got } }
  | _ => s

/-! ## Running a routine to its END -/

/-- The routine of a packet by its opcode (R244): configuration and bursts. -/
def State.performPattern (s : State) (op : Nat) (p : Packet) : Option (Host.Outcome State Fault Refusal) :=
  match op with
  | 0x0001 => some (execNop p s)
  | 0x0002 => some (execIdentify p s)
  | 0x0003 => some (execResetFunction p s)
  | 0x0010 => some (execStatusMirrorSet p s)
  | 0x0100 => some (execTimingSetWrite p s)
  | 0x0101 => some (execLevelSetWrite p s)
  | 0x0102 => some (execPinFormatWrite p s)
  | 0x0103 => some (execClockPinSet p s)
  | 0x0110 => some (execGenCommit p s)
  | 0x0111 => some (execGenRevert p s)
  | 0x0112 => some (execGenDiscard p s)
  | 0x0200 => some (execSeqLoad p s)
  | 0x0201 => some (execSegDeclare p s)
  | 0x0210 => some (execBurstCommit p s)
  | 0x0211 => some (execBurstStart p s)
  | 0x0212 => some (execBurstStop p s)
  | 0x0213 => some (execJumpRequest p s)
  | 0x0214 => some (execResume p s)
  | 0x0215 => some (.next (s.runAbort p))
  | 0x0220 => some (execSiteGang p s)
  | _ => none

/-- The routine of a packet by its opcode (R244): streams, capture, measurement, scheduler. -/
def State.performStream (s : State) (op : Nat) (p : Packet) : Option (Host.Outcome State Fault Refusal) :=
  match op with
  | 0x0300 => some (execStreamOpen p s)
  | 0x0301 => some (execStreamClose p s)
  | 0x0302 => some (execSegPin p s)
  | 0x0303 => some (execSegUnpin p s)
  | 0x0400 => some (execCaptureConfig p s)
  | 0x0401 => some (execAcqArm p s)
  | 0x0402 => some (execAcqForce p s)
  | 0x0500 => some (execTdcConfig p s)
  | 0x0501 => some (execTdcStats p s)
  | 0x0600 => some (execRuleLoad p s)
  | 0x0601 => some (execItemPost p s)
  | 0x0602 => some (execFlowConfig p s)
  | _ => none

/-- The routine of a packet by its opcode (R244): management. Whether a CAL_STORE verifies is free (log 3). -/
def State.performManage (s : State) (op : Nat) (p : Packet) : Option (Host.Outcome State Fault Refusal) :=
  match op with
  | 0x0700 => some (execTimeSource p s)
  | 0x0701 => some (execTimeAccept p s)
  | 0x0702 => some (execTimeThreshold p s)
  | 0x0800 => some (execRopeConfig p s)
  | 0x0801 => some (execRopeTest p s)
  | 0x0900 => some (execCalRun p s)
  | 0x0901 => let (s, v) := s.fresh; some (execCalStore p (v.getLsbD 0) s)
  | 0x0902 => some (execCalRefDeclare p s)
  | 0x0A00 => some (execFaultConfig p s)
  | 0x0A01 => some (execFaultInject p s)
  | 0x0A02 => some (execFaultAck p s)
  | 0x0B00 => some (execPowerTolerance p s)
  | 0x0C00 => some (execAttest p s)
  | 0x0C01 => some (execFwStage p s)
  | 0x0C02 => some (execFwActivate p s)
  | _ => none

/-- A routine that runs goes on to its END (R244): nothing goes before it any more. -/
def State.perform (s : State) (r : Routine) : State :=
  let op := r.opcode.toNat
  let t := { s with cmd := { s.cmd with running := true } }
  let u := stateOf t (((t.performPattern op r.packet).or (t.performStream op r.packet)).or (t.performManage op r.packet)
    |>.getD (execBadOpcode r.packet r.opcode t))
  if u.cmd.mcheck.isSome then u else u.endRoutine

/-! ## Interrupts (R273 to R275) -/

/-- What interrupts a running routine (R273). -/
inductive Interrupt where
  | doorbell | internal | abort | fault (device : Bool)
  deriving DecidableEq, Repr

/-- The interrupt abandons the routine (R273, R275): its packet is in hand, is of a kind the interrupt acts on, and has not been abandoned three times,
but for a DEVICE-class fault. -/
def State.abandons (s : State) (r : Routine) (i : Interrupt) : Bool :=
  s.couldRun r.opcode.toNat r.packet
    && (match i with
      | .doorbell => r.packet.ring ≠ 0
      | .internal => r.packet.ring ≠ 0 && r.opcode ≠ 0x0215
      | .abort => r.opcode ≠ 0x0215
      | .fault _ => true)
    && (i = .fault true || s.runsOf r < 3)

/-- The routine is abandoned before its crux point (R272, R274, R275): its packet goes into the restart slot. -/
def State.abandon (s : State) (r : Routine) : State :=
  let runs := s.runsOf r
  let s := (s.fetch r.opcode.toNat r.packet).endRoutine.residue r
  { s with cmd := { s.cmd with slot := (r, runs + 1) :: s.cmd.slot, abandons := satInc s.cmd.abandons } }

/-- An event of R273: it abandons the running routine; or that runs to its END, at which the interrupt takes effect, before the engine fetches any
further packet (R273, R275). -/
def State.preempt (s : State) (running : Option Routine) (i : Interrupt) : State :=
  match running with
  | some r => if s.abandons r i then s.abandon r else if s.couldRun r.opcode.toNat r.packet then s.perform r else s
  | none => s

/-- A fault report of some classes interrupts the running routine (R273). -/
def State.faultInterrupt (s : State) (running : Option Routine) (cls : FaultClass) : State :=
  match cls with
  | .device => s.preempt running (.fault true)
  | .cluster => s.preempt running (.fault false)
  | .site | .advisory => s

/-- Events of blocks reach the collector, and interrupt the running routine by the most severe class among them (R14, R273). -/
def State.collectOver (s : State) (running : Option Routine) (es : List FaultEvent) : State :=
  (s.faultInterrupt running (es.foldl (fun c e => c.max (classOf e)) .advisory)).collect (es.map fun e => (e, false))

/-! ## ABORT, internal commands, machine checks -/

/-- ABORT (R257), which interrupts every running routine but one of its own (R273). The packet is in the engine's fetch buffer already, so that
nothing else comes between (log 38). -/
def execAbort (p : Packet) (running : Option Routine) (s : State) : Host.Outcome State Fault Refusal :=
  if running.isNone || !s.couldRun 0x0215 p then .next (s.runAbort p)
  else .next ((s.preempt running .abort).perform ⟨0x0215, p⟩)

/-- SC_INTERNAL_COMMAND: the internal command next in line (R200, R225, R273). -/
def execScInternalCommand (running : Option Routine) (s : State) : Host.Outcome State Fault Refusal :=
  if s.sched.internal.isEmpty || !s.isReady || s.cmd.halted then .next s
  else
    let t := s.preempt running .internal
    if t.cmd.halted then .next t else .next t.runInternal

/-- RECHAIN (R195, R273): the chained start of the next burst, submitted once the site entered RUNNING from a chained start. -/
def execRechain (site : Cluster) (s : State) (running : Option Routine := none) : Host.Outcome State Fault Refusal :=
  if !s.sched.rechain.getLsbD site.val || !s.isReady || s.cmd.halted then .next s
  else
    let t := s.preempt running .internal
    if t.cmd.halted || t.tieWinner 0 ≠ some (t.flowOwner site.val) then .next t else .next (t.runRechain site)

/-- MACHINE_CHECK (R240, R277): the engine halts before the microword at `uaddr`. The packet it was running is lost, with its effect if CRUX had
executed, else with what R272 allows before it, and without a reply. -/
def execMachineCheck (postCrux stack half : Bool) (uaddr : BitVec 14) (lost : Option Routine) (s : State) : Host.Outcome State Fault Refusal :=
  if !s.isReady || s.cmd.halted then .next s
  else
    let m : MCheck := ⟨postCrux, stack, half, uaddr⟩
    let s0 := s
    let s := { s with cmd := { s.cmd with mcheck := some m } }
    let s := match lost with
      | none => s
      | some r =>
        if !s.couldRun r.opcode.toNat r.packet then s
        else if postCrux then s.perform r
        else (s.fetch r.opcode.toNat r.packet).residue r
    let at_ := (lost.map fun r => s0.cmd.words r.opcode (some uaddr)).getD s.cmd.micro
    let cmd := { s.cmd with micro := at_ }
    .next (({ s with cmd := { cmd.halt uaddr postCrux stack half with running := lost.isSome } } : State).report 0 0 m.word)

end Sys2Proof.Machine
end

