-- ==== Sys2Proof/Machine/PortRows.lean ====
section
/-! DEFINITION. The host port's own rows (R173, R213 to R234, R431 to R434): doorbells, ownership, ring enables, event clears,
configuration space, the link, status-mirror rewrites. -/
namespace Sys2Proof.Machine

/-! ## Access to the BARs (R219, R233) -/

/-- The function exists and its BARs accept accesses. -/
def State.barOpen (s : State) (f : Func) : Bool := s.isReady && (s.host.fn[f]).memSpace && f.val ≤ s.host.numVfs.val

/-- An ignored write to a doorbell page (R220). -/
def State.countDb (s : State) (f : Func) : State := s.updFn f fun h => { h with dbErr := satInc h.dbErr }

/-- A register write ignored for range, lock or ownership (R432). -/
def State.countReg (s : State) (f : Func) : State := s.updFn f fun h => { h with regErr := satInc h.regErr }

/-! ## Doorbells (R220, R227) -/

/-- The pointers of ring priorities that have no requester: a cycle without a grant returned them to 0 (R20). -/
def State.restPtrs (s : State) : State :=
  { s with cmd := { s.cmd with ptr := Vector.ofFn fun r => if (s.requesters r).isEmpty then 0 else s.cmd.ptr[r] } }

/-- Steps forward from one index to another in a ring of `n`. -/
def ringStep (n a b : Nat) : Nat := (b % n + n - a) % n

/-- SQ_TAIL accepted: the ring is enabled and the tail does not pass the head (R220). -/
def SubRing.takes (r : SubRing) (v : Nat) : Bool := r.en && r.held + ringStep r.units r.tail v < r.units

/-- DOORBELL_SQ_TAIL (R220, R273). -/
def execDoorbellSqTail (f : Func) (ring : Fin 4) (value : Word) (single : Bool) (running : Option Routine) (s : State) :
    Host.Outcome State Fault Refusal :=
  let q := (s.host.fn[f]).sq[ring]
  if !s.barOpen f then .next s
  else if !single || !q.takes value.toNat then .next (s.countDb f)
  else
    let s := s.restPtrs.updFn f fun h => { h with sq := upd h.sq ring fun r => { r with tail := value.toNat % r.units } }
    let s := { s with pwr := { s.pwr with quiet := s.now } }
    .next (if ring = 0 && s.ringOpen f 0 && 0 < ((s.host.fn[f]).sq[ring]).held then s.preempt running .doorbell else s)

/-- DOORBELL_RQ_HEAD (R220, R227). -/
def execDoorbellRqHead (f : Func) (value : Word) (single : Bool) (s : State) : Host.Outcome State Fault Refusal :=
  let q := (s.host.fn[f]).rq
  if !s.barOpen f then .next s
  else if !single || !q.en || ringStep q.entries q.head q.tail < ringStep q.entries q.head value.toNat then .next (s.countDb f)
  else
    let s := s.restPtrs.updFn f fun h => { h with rq := { h.rq with head := value.toNat % h.rq.entries } }
    .next { s with pwr := { s.pwr with quiet := s.now } }

/-- A ring descriptor as host memory holds it (R4, R172), and the fields read back from its bytes. -/
def Desc.bytes (d : Desc) : List Byte := leBytes 8 d.addr.toNat ++ leBytes 2 d.blocks ++ leBytes 2 d.gen.toNat ++ [0, 0, 1, 0]

def Desc.ofBytes (b : List Byte) : Desc := ⟨BitVec.ofNat 64 (fieldAt b 0 8), fieldAt b 8 2, BitVec.ofNat 16 (fieldAt b 0xA 2)⟩

/-- The descriptors a stream doorbell posts, from the bytes of the slots the tail moves past. -/
def posted (descs : List Byte) (n : Nat) : List Desc := (List.range n).map fun i => Desc.ofBytes (descs.drop (16 * i))

/-- DOORBELL_IN_TAIL (R173, R220). -/
def execDoorbellInTail (f : Func) (stream : Fin 24) (value : Word) (single : Bool) (descs : List Byte) (s : State) :
    Host.Outcome State Fault Refusal :=
  let t := s.mem.ins[stream]
  let n := ringStep t.size t.tail value.toNat
  if !s.barOpen f then .next s
  else if !single || !t.isOpen || !s.owns f (streamCluster stream.val) || t.size ≤ ringStep t.size t.head t.tail + n then
    .next (s.countDb f)
  else
    .next { s with mem := { s.mem with ins := upd s.mem.ins stream fun t =>
              { t with tail := value.toNat % t.size, descs := t.descs ++ posted descs n } },
                   pwr := { s.pwr with quiet := s.now } }

/-- DOORBELL_OUT_TAIL (R173, R220). -/
def execDoorbellOutTail (f : Func) (stream : Fin 24) (value : Word) (single : Bool) (descs : List Byte) (s : State) :
    Host.Outcome State Fault Refusal :=
  let t := s.mem.outs[stream]
  let n := ringStep t.size t.tail value.toNat
  if !s.barOpen f then .next s
  else if !single || !t.isOpen || !s.owns f (streamCluster stream.val) || t.size ≤ ringStep t.size t.head t.tail + n then
    .next (s.countDb f)
  else
    .next { s with mem := { s.mem with outs := upd s.mem.outs stream fun t =>
              { t with tail := value.toNat % t.size, descs := t.descs ++ posted descs n } },
                   pwr := { s.pwr with quiet := s.now } }

/-! ## Ownership (R217, R431) -/

/-- A cluster's owner may change: its site rests with no start pending and its four streams are closed (R217). -/
def State.ownerFree (s : State) (c : Cluster) : Bool :=
  s.quietSite (s.site c) && (List.finRange 24).all fun i =>
    streamCluster i.val ≠ c || (!(s.mem.ins[i]).isOpen && !(s.mem.outs[i]).isOpen)

/-- The clusters a write to HST_OWNER[index] gives a new owner, and whether it leaves a field it would change as it is (R431). -/
def State.ownerFields (s : State) (index : Fin 2) (value : Word) : List (Cluster × Func) × Bool :=
  let fields := ((List.finRange 12).filter fun c => c.val / 8 = index.val).map fun c => (c, bitsOf value.toNat (4 * (c.val % 8)) 4)
  let differ := fields.filter fun x => (s.host.owner[x.1]).val ≠ x.2
  let ok := differ.filter fun x => x.2 ≤ s.host.numVfs.val && s.ownerFree x.1
  (ok.map fun x => (x.1, Fin.ofNat 13 x.2), ok.length < differ.length)

/-- HST_OWNER_WRITE by the PF (R217, R431); a write whose field is left for its range or its lock counts (R432, R435). -/
def execHstOwnerWrite (index : Fin 2) (value : Word) (s : State) : Host.Outcome State Fault Refusal :=
  if !s.barOpen 0 then .next s
  else
    let (changes, refused) := s.ownerFields index value
    let s := changes.foldl (fun s x => s.formSite [x.1] none) s
    let owner := changes.foldl (fun v x => v.set x.1.val x.2 x.1.isLt) s.host.owner
    let s : State := { s with host := { s.host with owner := owner, ownRefused := s.host.ownRefused || refused } }
    .next (if refused then s.countReg 0 else s).repick

/-! ## Ring enables (R221, R224, R433) -/

/-- RING_ENABLE: the enable bit of a ring goes from 0 to 1. -/
def execRingEnable (f : Func) (which : RingSel) (s : State) : Host.Outcome State Fault Refusal :=
  if !s.barOpen f then .next s
  else .next (s.updFn f fun h => match which with
    | .sq r => if (h.sq[r]).en then h
        else { h with sq := upd h.sq r fun q => { q with en := true, head := 0, tail := 0, err := false, part := 0 } }
    | .rq => if h.rq.en then h else { h with rq := { h.rq with en := true, open_ := true, head := 0, tail := 0 } })

/-- SQ_DISABLE (R433): the units of a partial packet are discarded. -/
def execSqDisable (f : Func) (ring : Fin 4) (s : State) : Host.Outcome State Fault Refusal :=
  if !s.barOpen f then .next s
  else .next (s.updFn f fun h => { h with sq := upd h.sq ring fun q => { q with en := false, part := 0 } })

/-- RQ_DISABLE (R433): RQ_EN reads 0 at once; the ring stays writable until RQ_DISABLE_DONE. -/
def execRqDisable (f : Func) (s : State) : Host.Outcome State Fault Refusal :=
  if !s.barOpen f then .next s
  else .next (s.updFn f fun h => { h with rq := { h.rq with en := false } })

/-- RQ_DISABLE_DONE (R433): every started command of the function has replied. -/
def execRqDisableDone (f : Func) (s : State) : Host.Outcome State Fault Refusal :=
  let q := (s.host.fn[f]).rq
  if q.en || s.restarts f ≠ 0 then .next s
  else .next (s.updFn f fun h => { h with rq := { h.rq with open_ := false } })

/-! ## HST_EVT_CLR (R434) -/

/-- The W1C bits of SEQ_STATUS that EVENTS bits 0 to 6 copy, where the mask has them. -/
def Seqr.clearEvents (q : Seqr) (m : Nat) : Seqr :=
  { q with lateFlag := q.lateFlag && !bitOf m 0, startSlip := q.startSlip && !bitOf m 1, notRun := q.notRun && !bitOf m 2,
           aborted := q.aborted && !bitOf m 3, chainTmo := q.chainTmo && !bitOf m 4, stackErr := q.stackErr && !bitOf m 5,
           condMiss := q.condMiss && !bitOf m 6 }

/-- The W1C bits of a cluster that EVENTS bits 8 to 10 copy. -/
def ClusterEng.clearEvents (e : ClusterEng) (m : Nat) : ClusterEng :=
  { e with cap := { e.cap with loss := e.cap.loss && !bitOf m 8 },
           tdc := e.tdc.map fun t => { t with ovf := t.ovf && !bitOf m 9 },
           lvl := { e.lvl with lvlSc := if bitOf m 10 then 0 else e.lvl.lvlSc } }

/-- The EVENTS bits of a site clear at their sources. -/
def State.clearEvents (s : State) (k : Cluster) (m : Nat) : State :=
  (s.members k).foldl (fun s c =>
    let s := (s.updSeq c fun q => q.clearEvents m).updCl c fun e => e.clearEvents m
    { s with mem := { s.mem with perCl := upd s.mem.perCl c fun x => { x with underrun := x.underrun && !bitOf m 7 } } }) s

/-- HST_EVT_CLR (R434). -/
def execHstEvtClr (f : Func) (value : Word) (s : State) : Host.Outcome State Fault Refusal :=
  let i := bitsOf value.toNat 0 4
  let k : Cluster := Fin.ofNat 12 i
  if !s.barOpen f then .next s
  else if 12 ≤ i || !s.isSite k || !s.owns f k then .next (s.countReg f)
  else .next (s.playAll.clearEvents k (bitsOf value.toNat 16 12))

/-! ## Configuration space and the link (R213, R229, R233, R264, R369) -/

/-- The bytes a BAR decodes (R219). -/
def barSize (f : Func) (bar2 : Bool) : Nat := if f = 0 && !bar2 then 2 ^ 24 else 2 ^ 16

/-- The function answers configuration requests (R233). -/
def State.configOpen (s : State) (f : Func) : Bool := s.isReady && f.val ≤ s.host.numVfs.val

/-- CONFIG_SPACE_WRITE: configuration requests complete once the device is ready (R233); a BAR keeps the bits its size leaves (R219), and a VF has
no BAR2. The VFs' BARs stand in the PF's configuration space. -/
def execConfigSpaceWrite (w : ConfigWrite) (s : State) : Host.Outcome State Fault Refusal :=
  if !s.isReady then .next s
  else .next (match w with
    | .busMaster f on => if s.configOpen f then s.restPtrs.updFn f fun h => { h with busMaster := on } else s
    | .memorySpace f on => if s.configOpen f then s.updFn f fun h => { h with memSpace := on } else s
    | .vfEnable n => { s with host := { s.host with numVfs := n } }
    | .ptmEnable on => { s with host := { s.host with ptm := on } }
    | .aspmL1 on => { s with host := { s.host with aspm := on } }
    | .bar f bar2 a =>
      let v := BitVec.ofNat 64 (a.toNat - a.toNat % barSize f bar2)
      if bar2 then if f = 0 then s.updFn f fun h => { h with bar2 := v } else s
      else s.updFn f fun h => { h with bar0 := v }
    | .maxPayload n => { s with host := { s.host with mps := n } }
    | .maxRead n => { s with host := { s.host with mrrs := n } }
    | .aerClear f bits => if s.configOpen f then s.updFn f fun h => { h with aer := h.aer &&& ~~~bits } else s)

/-- Some ring holds unfetched work: a submission ring packets, or an inbound stream's buffers with blocks in them (R369). -/
def State.unfetched (s : State) : Bool :=
  (s.host.fn.toList.any fun h => h.sq.toList.any fun q => q.en && !q.err && 0 < q.held)
    || s.mem.ins.toList.any fun t => t.isOpen && !t.descs.isEmpty

/-- The device lets the link enter a state below L0 (R369): ASPM L1 is enabled, no work is unfetched, and for L1.2 every cluster is in NAP or
BIVOUAC. -/
def State.mayL1 (s : State) (l12 : Bool) : Bool := s.isReady && s.host.aspm && s.pwr.link ≠ .down && !s.unfetched && (!l12 || s.allDeep)

/-- The link enters a state below L0: from L0, after 10 µs without requests or doorbells (R369). -/
def State.enterL1 (s : State) (x : LinkState) : State :=
  let s := if s.pwr.link = .l0 then s.advance (s.pwr.quiet + 10 * usUnits) else s
  { s with pwr := { s.pwr with link := x } }

/-- PCIE_LINK_CHANGE: HST_LINK and PWR_STATUS.LINK follow the link (R377, R431); a link that is down shows speed and width 0, and STRAP2 limits it to x4
(R409). The link enters no state below L0 that R369 does not let it enter. -/
def execPcieLinkChange (state : LinkState) (speed width : BitVec 4) (flit : Bool) (s : State) : Host.Outcome State Fault Refusal :=
  let lanes := if s.pwr.straps.getLsbD 2 && 4 < width then 4 else width
  let shown := fun (s : State) (up : Bool) =>
    { s with host := { s.host with speed := if up then speed else 0, width := if up then lanes else 0, flit := up && flit } }
  if s.pwr.porst || s.pwr.perst then .next s
  else .next (match state with
    | .down => shown { s with pwr := { s.pwr with link := .down, quiet := s.now } } false
    | .l0 => shown { s with pwr := { s.pwr with link := .l0, quiet := s.now } } true
    | .l1 | .l11 | .l12 => if s.mayL1 (state = .l12) then shown (s.enterL1 state) true else s)

end Sys2Proof.Machine
end

