-- ==== Sys2Proof/Machine/Frames.lean ====
section
/-! DEFINITION. Receiving a rope frame (R284, R285), and the delivery and relaying of fixed-latency frames (R288, R289). -/
namespace Sys2Proof.Machine

/-- The bytes a frame's CRC covers (R285). -/
def frameBytes (ctype : Byte) (fr : Frame) : List Byte :=
  [ctype, fr.hops] ++ leBytes 2 fr.tick.toNat ++ leBytes 8 fr.src.toNat ++ (fr.body ++ List.replicate 16 0).take 16

/-- States in which a port receives frames (R282, R283, R290 to R292, R300). -/
def PortState.hears : PortState → Bool
  | .train | .align | .ident | .up => true
  | _ => false

/-- The frame types a port takes in each state (R290, R291, R294): all of them in UP. -/
def PortState.takes : PortState → Byte → Bool
  | .train, c => c = 0x50 || c = 0x51
  | .align, c => c = 0x40 || c = 0x50 || c = 0x52 || c = 0x53
  | .ident, c => c = 0x40 || c = 0x52
  | .up, _ => true
  | _, _ => false

/-- The lowest level at which a frame type is defined; none for a reserved one (R285, R310, R395). -/
def frameLevel (c : Byte) : Option Nat :=
  if c = 0x20 then some 3
  else if c = 0x10 || c = 0x11 || c = 0x21 || c = 0x22 || c = 0x30 || c = 0x31 || c = 0x40 then some 2
  else if 0x50 ≤ c.toNat && c.toNat ≤ 0x53 then some 2
  else if 0x60 ≤ c.toNat && c.toNat ≤ 0x67 then some 2
  else none

/-- Hops crossed, counted by the receiver (R285). -/
def crossed (fr : Frame) : Nat := fr.hops.toNat + 1

/-- SITE, TRIG and GEVT frames. -/
def fixedLatency (c : Byte) : Bool := c = 0x20 || c = 0x21 || c = 0x22 || c = 0x30 || c = 0x31

/-- A frame arrives at a port (R285): discarded and counted, or taken, and then `f` acts on it. A frame the port's state has no use for, or one of
fixed latency at a port without FL_OK (R288), is lost. -/
def State.receive (s : State) (n : Port) (ctype : Byte) (fr : Frame) (f : State → State) : State :=
  let p := s.rope.ports[n]
  let level := if p.level = 0 then 2 else p.level
  if !p.state.hears then s
  else if fr.crc ≠ crc32c (frameBytes ctype fr) then s.updPort n fun p => { p with crcErr := satInc p.crcErr }
  else if 4 < crossed fr || !(frameLevel ctype).any (fun l => decide (l ≤ level)) then
    s.updPort n fun p => { p with badFrame := satInc p.badFrame }
  else if !p.state.takes ctype || (fixedLatency ctype && !s.flOk n) then s
  else f (s.updPort n fun p => { p with lastRx := s.now, lastBusy := if ctype = 0x40 then p.lastBusy else s.now })

/-! ## Fixed-latency frames (R288, R289) -/

/-- The frame has been delivered within the last 10 µs (R289). -/
def Rope.copy (r : Rope) (ctype : Byte) (fr : Frame) (now : Nat) : Bool :=
  r.delivered.any fun d => d.src = fr.src && d.ctype = ctype && d.tick = fr.tick && decide (now ≤ d.atNow + 10 * usUnits)

/-- Delivery on the frame's tick (R288, R289): to the device's own blocks, and out of every other port that is UP, FL_OK, and of a level that carries
it (R297). -/
def State.deliver (s : State) (n : Port) (ctype : Byte) (fr : Frame) : State :=
  if s.rope.copy ctype fr s.now then s
  else
    let kept := s.rope.delivered.filter fun d => decide (s.now ≤ d.atNow + 10 * usUnits)
    let s := { s with rope := { s.rope with
      delivered := ⟨fr.src, ctype, fr.tick, s.now⟩ :: kept,
      inbox := s.rope.inbox ++ [⟨n, ctype, crossed fr, s.net, fr.src, fr.body⟩] } }
    if 4 ≤ crossed fr then s
    else s.emit ((List.finRange 4).filter fun m => m ≠ n && (s.rope.ports[m]).state = .up && s.openTo ctype m) ctype
      (BitVec.ofNat 8 (crossed fr)) (fr.tick + 128) fr.src
      fun _ => fr.body

/-- FRAME_DELIVERY (R285, R288, R289): the frame arrives at master tick `atTick`, is late, or is delivered on its tick; one of a reserved CTYPE is
discarded and counted. The other defined types have rows of their own. -/
def execFrameDelivery (n : Port) (ctype : Byte) (fr : Frame) (atTick : Int) (s : State) : Host.Outcome State Fault Refusal :=
  if !fixedLatency ctype && (frameLevel ctype).isSome then .next s
  else .next (s.receive n ctype fr fun s =>
    let d := (fr.tick - BitVec.ofInt 16 atTick).toInt
    if d < 0 then s.updPort n fun p => { p with late := satInc p.late, lateSeen := true }
    else (s.advanceNet ((atTick + d) * tickUnits)).deliver n ctype fr)

/-- A delivered frame that a block acts on leaves the inbox (log 10). -/
def State.takeMsg (s : State) (n : Port) (ctype : Byte) (fr : Frame) : Option (InMsg × State) :=
  let is := fun (m : InMsg) => m.port = n && m.ctype = ctype && m.src = fr.src && m.body = fr.body
  (s.rope.inbox.find? is).map fun m => (m, { s with rope := { s.rope with inbox := s.rope.inbox.eraseP is } })

/-- What the device's blocks make of a delivered frame. -/
def State.onMsg (s : State) (n : Port) (ctype : Byte) (fr : Frame) (f : InMsg → State → State) : State :=
  match s.takeMsg n ctype fr with
  | none => s
  | some (m, s) => f m s

/-- The local sites a SITE frame is for: its tag is theirs, and the sender is a member (R285). -/
def State.siteOfFrame (s : State) (m : InMsg) : List Cluster :=
  s.siteIdxs.filter fun k => (s.gangs[k]).any fun g => g.tag = u32At m.body 0 && g.members.contains m.src

/-- SITE_COND (R61): a member's ROPE_SITE value for one decision. -/
def execSiteCond (n : Port) (fr : Frame) (s : State) : Host.Outcome State Fault Refusal :=
  .next (s.onMsg n 0x20 fr fun m s => (s.siteOfFrame m).foldl (fun s k => s.updSeq k fun q =>
    { q with receipts := q.receipts ++ [⟨m.src, false, u32At m.body 4, bitOf (fieldAt m.body 10 1) 0⟩] }) s)

/-- DESC_SEQ of the start the site's votes are about. -/
def Seqr.votedDesc (q : Seqr) : Option (BitVec 16) := (q.armed.map (·.desc.seq)).or (q.start.map (·.seq))

/-- SITE_VOTE (R68): a member's arm vote. -/
def execSiteVote (n : Port) (fr : Frame) (s : State) : Host.Outcome State Fault Refusal :=
  .next (s.onMsg n 0x21 fr fun m s => (s.siteOfFrame m).foldl (fun s k => s.updSeq k fun q =>
    if q.votedDesc = some (u16At m.body 4) then
      { q with receipts := q.receipts ++ [⟨m.src, true, u32At m.body 8, bitOf (fieldAt m.body 6 1) 0⟩] }
    else q) s)

/-- The entry a site's sequencer is at: of the play in hand, else of the one it starts with (R343). -/
def Seqr.current (q : Seqr) : Nat := ((q.play.map (·.entry)).or (q.armed.bind (·.entry))).getD 0

/-- SITE_ABORT (R62): HALT becomes the successor at the next decision point. The member's result is tainted by a report, TAINT having no other writer
(R12), but for a host's ABORT, which taints nothing (log 23). -/
def execSiteAbort (n : Port) (fr : Frame) (s : State) : Host.Outcome State Fault Refusal :=
  .next (s.onMsg n 0x22 fr fun m s => (s.siteOfFrame m).foldl (fun s k =>
    if (s.siteState k).rests then s
    else
      let s := s.updSeq k fun q => { q with siteAbort := true }
      if fieldAt m.body 4 1 = 2 then s else s.report 20 (s.maskOf k) (BitVec.ofNat 32 (s.seqs[k]).current)) s)

/-- TRIG (R64, R133): the frame serves the acquisition engines; its event is the sender's vector start. -/
def execTrig (n : Port) (fr : Frame) (s : State) : Host.Outcome State Fault Refusal :=
  .next (s.onMsg n 0x30 fr fun m s => (List.finRange 12).foldl (fun s c =>
    s.acqEvent c (.rope m.src (byteAt m.body 0) (u16At m.body 2) (m.time - (40 * m.hops * nsUnits : Nat)))) s)

/-! ## Global events (R57, R58, R286) -/

/-- Global event latches are set at the instant `now` (R57, R58): the earliest and the latest edge held. -/
def EventIo.latchGevt (x : EventIo) (mask : Byte) (now : Nat) : EventIo :=
  { x with gevt := x.gevt ||| mask,
           gevtFrom := Vector.ofFn fun (i : Fin 8) => if mask.getLsbD i && !x.gevt.getLsbD i then now else x.gevtFrom[i],
           gevtLast := Vector.ofFn fun (i : Fin 8) => if mask.getLsbD i then now else x.gevtLast[i] }

/-- The named global event latches are set on every cluster of the device (R57, R286). -/
def State.latchGlobal (s : State) (mask : Byte) : State :=
  let s := (List.finRange 12).foldl (fun s c => s.updCl c fun e => { e with io := e.io.latchGevt mask s.now }) s
  s.siteIdxs.foldl (fun s k => (maskBits mask).foldl (fun s i => s.noteLate k (2 + i) 12) s) s

/-- GEVT (R286). -/
def execGevt (n : Port) (fr : Frame) (s : State) : Host.Outcome State Fault Refusal :=
  .next (s.onMsg n 0x31 fr fun m s => s.latchGlobal (byteAt m.body 0))

/-- GLOBAL_EVENT_WRITE: a write to RPP_GEVT (R286, R303). -/
def execGlobalEventWrite (value : Word) (s : State) : Host.Outcome State Fault Refusal :=
  let mask := value.setWidth 8
  if !s.barOpen 0 || mask = 0 then .next s
  else
    let s := s.latchGlobal mask
    .next (s.issue 0x31 fun l => leBytes 4 mask.toNat ++ sendTime s.net l)

end Sys2Proof.Machine
end

