-- ==== Sys2Proof/Machine/TimeRows.lean ====
section
/-! DEFINITION. The time unit's events (R305, R309 to R318): exchanges over rope, PTM dialogs, estimates, slewing, holdover. -/
namespace Sys2Proof.Machine

/-! ## Estimates (R311, R314, R315) -/

/-- The mean θ of 16 exchanges from twice each θ, to the nearest unit, ties up (R311; log 13). -/
def meanOf (sums : List Int) : Int := (sums.sum + 16) / 32

/-- What an estimate within the threshold makes of the unit (R314, R315): θ is the pending correction, in whole FU. -/
def TimeUnit.agree (t : TimeUnit) : TimeUnit :=
  { t with state := .locked, corr := t.theta.tdiv fuUnits, within := 0 }

/-- An estimate θ is judged (R314, R315): the sixteenth in a row within the threshold ends REFUSED, and corrects nothing yet. -/
def State.estimate (s : State) (theta : Int) : State :=
  let t := { s.time with theta := theta, sums := [], lastEst := s.now }
  if theta.natAbs ≤ t.threshold * nsUnits then
    if t.state = .refused then
      if 16 ≤ t.within + 1 then { s with time := { t with state := .locked, within := 0 } } else { s with time := { t with within := t.within + 1 } }
    else { s with time := t.agree }
  else
    let s' := { s with time := { t with state := .refused, holdSeen := t.holdSeen || t.state ≠ .refused, corr := 0, within := 0 } }
    if t.state = .refused then s' else s'.report 41 0 (satNat 32 (theta.natAbs / nsUnits))

/-- A completed exchange contributes twice its θ; the sixteenth makes an estimate (R311, R313). -/
def State.exchange (s : State) (twice : Int) : State :=
  let sums := s.time.sums ++ [twice]
  if 16 ≤ sums.length then s.estimate (meanOf sums) else { s with time := { s.time with sums := sums } }

/-! ## Exchanges over rope (R310, R311) -/

/-- A stamp to 1 FU (R311). -/
def toFu (t : Int) : Int := t / fuUnits * fuUnits

/-- T2 of a TIME_RESP (R304, R310): the full stamp, or at L2 the short stamp and SUBNS. -/
def t2Bytes (t : Int) (level : Nat) : List Byte :=
  if level = 3 then leBytes 12 (stampOf t).toNat else leBytes 4 (shortStamp t) ++ leBytes 2 (t % nsUnits).toNat ++ List.replicate 6 0

/-- TSTAT of a TIME_RESP (R310). -/
def TimeUnit.tstat (t : TimeUnit) : Nat :=
  let valid := match t.state with
    | .freeRun | .locked | .holdover => true
    | _ => false
  min 15 t.stratum + bitAt valid 4 + bitAt t.heldOver 5

/-- TIME_REQ: answered whatever the unit's own source and state (R310, R318). -/
def execTimeReq (n : Port) (fr : Frame) (turn : BitVec 24) (s : State) : Host.Outcome State Fault Refusal :=
  .next (s.receive n 0x10 fr fun s =>
    let t2 := toFu s.net
    (s.updPort n fun p => { p with reqAt := some s.now }).sendOn n 0x11
      (t2Bytes t2 (s.rope.ports[n]).level ++ leBytes 3 turn.toNat ++ leBytes 1 s.time.tstat))

/-- TIME_REQ_TIMER: a request every 20 µs, at most one outstanding (R310). A port in IDLE is brought up first (R293). -/
def execTimeReqTimer (s : State) : Host.Outcome State Fault Refusal :=
  let t := s.time
  if t.source ≠ .rope || t.req.isSome then .next s
  else
    let s := (s.advance (t.lastReq + 20 * usUnits)).leaveIdle t.port
    match (s.rope.ports[t.port]).state with
    | .up => .next (({ s with time := { t with req := some (s.now, toFu s.net), lastReq := s.now } } : State).sendOn t.port 0x10
        (List.replicate 16 0))
    | _ => .next s

/-- The difference of two short stamps (R305). -/
def sdiff (a b : Nat) : Int := (BitVec.ofNat 32 a - BitVec.ofNat 32 b).toInt

/-- A short stamp widened against a full stamp, in SUBNS units of whole nanoseconds (R305). -/
def widen (short : Nat) (r : Int) : Int := r / nsUnits * nsUnits + sdiff short (shortStamp r) * nsUnits

/-- T2 as the requester reads it (R310, R311). -/
def t2Of (b : List Byte) (level : Nat) (t1 : Int) : Int :=
  if level = 3 then timeOf (u96At b 0) else widen (fieldAt b 0 4) t1 + fieldAt b 4 2

/-- TIME_RESP (R310, R311, R314, R315). -/
def execTimeResp (n : Port) (fr : Frame) (elapsed : Nat) (s : State) : Host.Outcome State Fault Refusal :=
  match s.time.req with
  | none => .next s
  | some (at_, t1) =>
    if s.time.source ≠ .rope || s.time.port ≠ n || 10 * usUnits < elapsed then .next s
    else .next ((s.advance (at_ + elapsed)).receive n 0x11 fr fun s =>
      let b := fr.body
      let t2 := t2Of b (s.rope.ports[n]).level t1
      let t3 := t2 + fieldAt b 12 3 * fuUnits
      let t4 : Int := toFu ((at_ + elapsed : Nat) + s.netOff)
      let tstat := fieldAt b 15 1
      let up := tstat % 16
      let s := { s with time := { s.time with req := none, stratum := min 15 (up + 1) } }
      if !bitOf tstat 4 || up = 15 then s
      else s.exchange ((t4 - t3) - (t2 - t1) - (s.time.asymCable[n]).toInt))

/-- TIME_RESP_TIMEOUT: a request without response after 10 µs is dropped and counted (R310). -/
def execTimeRespTimeout (s : State) : Host.Outcome State Fault Refusal :=
  match s.time.req with
  | none => .next s
  | some (at_, _) =>
    if s.time.source ≠ .rope then .next s
    else
      let s := s.advance (at_ + 10 * usUnits)
      .next { s with time := { s.time with req := none, respTmo := satInc s.time.respTmo } }

/-! ## PTM (R313) -/

/-- PTM_DIALOG_START: one dialog every 1 ms, for which the link is brought to L0 (R313, R369). A dialog still open has failed. -/
def execPtmDialogStart (s : State) : Host.Outcome State Fault Refusal :=
  if s.time.source ≠ .ptm then .next s
  else
    let s := s.advance (s.time.lastReq + msUnits)
    let t := s.time
    .next { s with time := { t with respTmo := if t.req.isSome then satInc t.respTmo else t.respTmo, req := some (s.now, s.net), lastReq := s.now },
                   pwr := { s.pwr with link := if s.pwr.link = .down then .down else .l0, quiet := s.now } }

/-- PTM_DIALOG (R313): θ of a dialog, from its times and the reported delay as the PCIe base specification defines (log 41). -/
def execPtmDialog (t1 t4 master delay : Int) (s : State) : Host.Outcome State Fault Refusal :=
  if s.time.source ≠ .ptm || s.time.req.isNone then .next s
  else
    let s := s.advanceNet t4
    .next (({ s with time := { s.time with req := none, stratum := 0 } } : State).exchange (t1 + t4 - delay - 2 * master))

/-! ## Slewing and holdover (R306, R314) -/

/-- TIME_SLEW_STEP: the master clock's phase and network time move by 1 FU against θ (R306, R314). -/
def execTimeSlewStep (s : State) : Host.Outcome State Fault Refusal :=
  if s.time.state ≠ .locked || s.time.corr = 0 then .next s
  else
    let gap := if s.siteIdxs.any (fun k => !(s.siteState k).rests) then 10 * usUnits else 100 * nsUnits
    let s := s.advance (s.time.lastStep + gap)
    let d : Int := if 0 < s.time.corr then 1 else -1
    .next { s with netOff := s.netOff - d * fuUnits, time := { s.time with corr := s.time.corr - d, lastStep := s.now } }

/-- TIME_HOLDOVER (R309, R314): no estimate within the source's limit, or the upstream port has left UP. -/
def execTimeHoldover (s : State) : Host.Outcome State Fault Refusal :=
  let t := s.time
  if t.state ≠ .locked then .next s
  else
    let s := match t.source with
      | .rope => if (s.rope.ports[t.port]).state = PortState.up then s.advance (t.lastEst + msUnits) else s
      | _ => s.advance (t.lastEst + 20 * msUnits)
    .next (({ s with time := { t with state := .holdover, holdSeen := true, corr := 0 } } : State).report 40 0 0)

end Sys2Proof.Machine
end

