-- ==== Sys2Proof/Machine/RopeRows.lean ====
section
/-! DEFINITION. The rope ports' events (R283, R284, R290 to R303): links, training, alignment, discovery, idling, tests. -/
namespace Sys2Proof.Machine

/-! ## Discovery (R294 to R297) -/

/-- The body of an IDENT frame this device sends (R285, R294, R297, R318). -/
def State.identBody (s : State) (n : Port) : List Byte :=
  leBytes 4 (fieldAt s.sec.header 4 4) ++ leBytes 1 n.val ++ leBytes 1 (s.offer n)
    ++ leBytes 1 (bitAt (s.flOk n) 0 + bitAt (s.timeLocked n) 1) ++ List.replicate 9 0

/-- An IDENT leaves the port. -/
def State.sendIdent (s : State) (n : Port) : State :=
  (s.sendOn n 0x40 (s.identBody n)).updPort n fun p => { p with identAt := s.now }

/-- A port that has come UP: a far-end test that waits for its link asks now (R301). -/
def State.rise (s : State) (n : Port) (was : PortState) : State :=
  let p := s.rope.ports[n]
  if was ≠ .up && p.state = .up && p.test.running && p.test.waiting then s.askLoop n else s

/-- What a partner's own IDENT makes of the port (R283, R294, R297): the link runs at the lower of both offers. -/
def State.meet (s : State) (n : Port) (fr : Frame) : State :=
  let b := fr.body
  let flags := fieldAt b 6 1
  let level := min (s.offer n) (fieldAt b 5 1)
  let was := (s.rope.ports[n]).state
  let s := s.updPort n fun p =>
    { p with partner := some ⟨fr.src, fieldAt b 5 1, bitOf flags 0, bitOf flags 1⟩, level := level,
             state := if p.state = .ident then .up else p.state, lastBusy := if p.state = .ident then s.now else p.lastBusy }
  let s := s.rise n was
  let gone := s.rope.topo.filter fun e => e.port = n && e.hops = 1 && e.serial ≠ fr.src
  { s with rope := gone.foldl (fun r e => r.forget e.serial) s.rope }

/-- The topology entry an IDENT gives (R294, R296). -/
def State.entryOf (s : State) (n : Port) (fr : Frame) : TopoEntry :=
  let b := fr.body
  { serial := fr.src, port := n, hops := crossed fr, level := min (fieldAt b 5 1) (s.rope.ports[n]).level, rport := fieldAt b 4 1 % 4,
    fw := u32At b 0, flPath := bitOf (fieldAt b 6 1) 0 && s.flOk n, seen := s.now }

/-- The body a relayed IDENT carries: its LEVEL lowered to the entry's, FL_OK of the whole path (R295, R296). -/
def relayedIdent (b : List Byte) (e : TopoEntry) : List Byte :=
  b.take 5 ++ leBytes 1 e.level ++ leBytes 1 (bitAt e.flPath 0 + bitAt (bitOf (fieldAt b 6 1) 1) 1) ++ b.drop 7

/-- IDENT (R294 to R297). -/
def execIdent (n : Port) (fr : Frame) (s : State) : Host.Outcome State Fault Refusal :=
  .next (s.receive n 0x40 fr fun s =>
    let s := if fr.hops = 0 then s.meet n fr else s
    let e := s.entryOf n fr
    let s := if fr.src = Config.serial then s.updPort n fun p => { p with looped := true } else { s with rope := s.rope.learn e }
    if 4 ≤ crossed fr then s
    else
      let out := ((List.finRange 4).filter fun m => m ≠ n && (s.rope.ports[m]).state = PortState.up).map fun m =>
        (⟨m, 0x40, BitVec.ofNat 8 (crossed fr), 0, fr.src, relayedIdent fr.body e⟩ : Sent)
      { s with rope := { s.rope with sent := s.rope.sent ++ out } })

/-- IDENT_TIMER: a port in UP sends an IDENT every 100 µs; one in IDENT repeats its own likewise (R294; log 30). -/
def execIdentTimer (n : Port) (s : State) : Host.Outcome State Fault Refusal :=
  let p := s.rope.ports[n]
  if p.state = .up || p.state = .ident then .next ((s.advance (p.identAt + 100 * usUnits)).sendIdent n) else .next s

/-- When the topology entry `e` ages out, unless its port is in IDLE (R292, R296). -/
def State.agesAt (s : State) (e : TopoEntry) : Option Nat :=
  let p := s.rope.ports[e.port]
  if p.state = .idle then none else some ((if e.hops = 1 then p.lastRx else e.seen) + msUnits)

/-- TOPO_AGE_OUT (R296). -/
def execTopoAgeOut (i : Fin 64) (s : State) : Host.Outcome State Fault Refusal :=
  match s.rope.topo[i.val]? with
  | none => .next s
  | some e => match s.agesAt e with
    | none => .next s
    | some t => .next (let s := s.advance t; { s with rope := s.rope.forget e.serial })

/-! ## Links (R283, R284) -/

/-- LINK_DETECT (R283), once the rope PLL has locked (R360). -/
def execLinkDetect (n : Port) (s : State) : Host.Outcome State Fault Refusal :=
  .next (if (s.rope.ports[n]).state = .detect then (s.advance (s.rope.clockAt + ropeLock)).startTraining n else s)

/-- States in which a port can lose lock (R284). -/
def PortState.locks : PortState → Bool
  | .train | .align | .ident | .up | .test => true
  | _ => false

/-- LOSS_OF_LOCK (R284): back to DETECT at once; a test on the port ends. -/
def execLossOfLock (n : Port) (s : State) : Host.Outcome State Fault Refusal :=
  let p := s.rope.ports[n]
  if !p.state.locks then .next s
  else .next ((if p.test.running then s.endTest n else s).portTo n .detect)

/-! ## Training (R290, R312) -/

/-- One tap request: the tap's new step and its STAT (R285, R290): 0 updated, 1 at limit, 2 refused. `ok`: MAIN would stay high enough. -/
def tapStep (cur preset req : Nat) (ok : Nat → Bool) : Nat × Nat :=
  let go := fun (n : Nat) => if n = cur || ok n then (n, 0) else (cur, 2)
  match req with
  | 1 => if 15 ≤ cur then (cur, 1) else go (cur + 1)
  | 2 => if cur = 0 then (cur, 1) else go (cur - 1)
  | 3 => go preset
  | _ => (cur, 0)

/-- The requests of a TRAIN_REQ on a transmitter, PRE first (R290; log 42): its taps and the three STAT bytes. -/
def RopePort.taps (p : RopePort) (b : List Byte) : RopePort × List Nat :=
  let (pre, a) := tapStep p.pre 0 (fieldAt b 0 1) fun x => x + p.post + 4 ≤ p.main
  let (main, m) := tapStep p.main 15 (fieldAt b 1 1) fun x => pre + p.post + 4 ≤ x
  let (post, c) := tapStep p.post 0 (fieldAt b 2 1) fun x => pre + x + 4 ≤ main
  ({ p with pre := pre, main := main, post := post }, [a, m, c])

/-- TRAIN_REQ (R290): the taps move, and TRAIN_STS answers; so too for the partner's last requests, which follow its training's end. -/
def execTrainReq (n : Port) (fr : Frame) (s : State) : Host.Outcome State Fault Refusal :=
  .next (s.receive n 0x50 fr fun s =>
    let (q, stat) := (s.rope.ports[n]).taps fr.body
    let done := fieldAt fr.body 4 1 = 1
    let q := { q with training := q.training.map fun t => { t with gotDone := t.gotDone || done } }
    (s.updPort n fun _ => q).sendOn n 0x51 (([q.pre, q.main, q.post] ++ stat).flatMap fun x => leBytes 1 x))

/-- TRAIN_STS (R290). -/
def execTrainSts (n : Port) (fr : Frame) (s : State) : Host.Outcome State Fault Refusal :=
  .next (s.receive n 0x51 fr fun s => s.updPort n fun p =>
    { p with training := p.training.map fun t => { t with partner := fr.body.take 6 } })

/-- TRAIN_REQ_TIMER: a request every 1 µs; a receiver whose metric has reached 160 sends DONE and holds its requests (R290). -/
def execTrainReqTimer (n : Port) (pre main post : Fin 4) (metric : Byte) (s : State) : Host.Outcome State Fault Refusal :=
  match (s.rope.ports[n]).training with
  | none => .next s
  | some t =>
    let s := s.advance (t.lastReq + usUnits)
    let done := t.sentDone || decide (160 ≤ metric.toNat)
    let req := fun (x : Fin 4) => if done then 0 else x.val
    let t := { t with lastReq := s.now, sentDone := done, metric := metric, best := if t.best ≤ metric then metric else t.best,
                      bestTaps := if t.best ≤ metric then t.partner.take 3 else t.bestTaps }
    .next ((s.updPort n fun p => { p with training := some t }).sendOn n 0x50
      ([req pre, req main, req post, metric.toNat, bitAt done 0].flatMap fun x => leBytes 1 x))

/-- An ALIGN_PROBE with its transmit time in FU (R285, R291). -/
def State.probe (s : State) (n : Port) : State := s.sendOn n 0x52 (leBytes 8 (s.net / fuUnits % 2 ^ 64).toNat)

/-- The requests that take the partner's taps from where its last TRAIN_STS put them to the best setting seen, one step of each tap a request
(R290; log 42). -/
def Training.homing (t : Training) : List (List Nat) :=
  let cur := fun (i : Nat) => fieldAt t.partner i 1
  let want := fun (i : Nat) => if t.bestTaps.isEmpty then cur i else fieldAt t.bestTaps i 1
  let far := (List.range 3).map fun i => natDiff (cur i) (want i)
  (List.range (far.foldl max 0)).map fun j => (List.range 3).map fun i => if far.getD i 0 ≤ j then 0 else if cur i < want i then 1 else 2

/-- Training's end at 2 ms: the best setting seen is asked for (R290). -/
def State.askBest (s : State) (n : Port) (t : Training) : State :=
  t.homing.foldl (fun s r => s.sendOn n 0x50 ((r ++ [t.best.toNat, bitAt t.sentDone 0]).flatMap fun x => leBytes 1 x)) s

/-- TRAIN_END (R290, R312): both receivers have sent DONE, or 2 ms have passed. -/
def execTrainEnd (n : Port) (temp : BitVec 8) (asym : Word) (s : State) : Host.Outcome State Fault Refusal :=
  match (s.rope.ports[n]).training with
  | none => .next s
  | some t =>
    let both := t.sentDone && t.gotDone
    let s := if both then s else (s.advance (t.began + 2 * msUnits)).askBest n t
    let s := { s with time := { s.time with asymInt := upd s.time.asymInt n fun _ => asym } }
    let metric := if both then t.metric else t.best
    if 96 ≤ t.best.toNat then
      let marginal := decide (t.best.toNat < 160)
      let s := (s.portTo n .align).updPort n fun p => { p with metric := metric, marginal := marginal, trainTemp := temp }
      let s := if marginal then s.report 39 0 (BitVec.ofNat 32 (n.val + t.best.toNat * 256)) else s
      .next (s.probe n)
    else .next (s.updPort n fun p =>
      { p with training := none, metric := metric, trainFail := true, trainTemp := temp, retryAt := some (s.now + 100 * msUnits) })

/-- TRAIN_FAIL_RETRY (R290). -/
def execTrainFailRetry (n : Port) (s : State) : Host.Outcome State Fault Refusal :=
  match (s.rope.ports[n]).retryAt with
  | none => .next s
  | some t => .next ((s.advance t).portTo n .detect)

/-! ## Alignment (R291) -/

/-- ALIGN_PROBE: echoed with its transmit time and the turnaround (R285, R291). -/
def execAlignProbe (n : Port) (fr : Frame) (turn : BitVec 64) (s : State) : Host.Outcome State Fault Refusal :=
  .next (s.receive n 0x52 fr fun s => s.sendOn n 0x53 ((fr.body ++ List.replicate 8 0).take 8 ++ leBytes 8 turn.toNat))

/-- ALIGN_ECHO: the channel delay is half the round trip less the partner's turnaround; the port goes on to IDENT, and to UP if the
partner's IDENT has come already (R283, R291). -/
def execAlignEcho (n : Port) (fr : Frame) (roundTrip : Nat) (s : State) : Host.Outcome State Fault Refusal :=
  .next (s.receive n 0x53 fr fun s =>
    if (s.rope.ports[n]).state ≠ .align then s
    else
      let d := satNat 16 ((roundTrip - fieldAt fr.body 8 8) / 2)
      let s := ((s.portTo n .ident).updPort n fun p => { p with delay := d, aligned := true }).sendIdent n
      if (s.rope.ports[n]).partner.isSome then (s.updPort n fun p => { p with state := .up, lastBusy := s.now }).rise n .ident else s)

/-! ## Electrical idle (R292, R293) -/

/-- The port may go idle but for the time without frames (R292). -/
def State.mayIdle (s : State) (n : Port) : Bool := !(s.time.source = .rope && s.time.port = n) && !s.portInUse n

def State.enterIdle (s : State) (n : Port) : State := (s.portTo n .idle).updPort n fun p => { p with idleAt := s.now }

/-- IDLE_ENTRY (R292). -/
def execIdleEntry (n : Port) (s : State) : Host.Outcome State Fault Refusal :=
  if (s.rope.ports[n]).state ≠ .up || !s.mayIdle n then .next s
  else .next (((s.advance ((s.rope.ports[n]).lastBusy + msUnits)).sendOn n 0x60 (List.replicate 16 0)).enterIdle n)

/-- IDLE_NOTICE (R292). -/
def execIdleNotice (n : Port) (fr : Frame) (s : State) : Host.Outcome State Fault Refusal :=
  .next (s.receive n 0x60 fr fun s => s.enterIdle n)

/-- IDLE_EXIT: a frame to send, or signal from the partner (R293). -/
def execIdleExit (n : Port) (s : State) : Host.Outcome State Fault Refusal := .next (s.leaveIdle n)

/-! ## Tests (R300 to R303) -/

/-- LOOP_REQ: the partner's far-end loop is refused, or the port enters TEST for it (R301). -/
def execLoopReq (n : Port) (fr : Frame) (s : State) : Host.Outcome State Fault Refusal :=
  .next (s.receive n 0x61 fr fun s =>
    if !s.mayIdle n then s.sendOn n 0x62 (leBytes 1 1)
    else ((s.sendOn n 0x62 (leBytes 1 0)).portTo n .test).updPort n fun p => { p with remoteLoop := true })

/-- LOOP_ACK: the far-end test runs, or ends as refused (R301). -/
def execLoopAck (n : Port) (fr : Frame) (s : State) : Host.Outcome State Fault Refusal :=
  .next (s.receive n 0x62 fr fun s =>
    let t := (s.rope.ports[n]).test
    if !t.running || !t.waiting then s
    else if fieldAt fr.body 0 1 ≠ 0 then (s.endTest n).updPort n fun p => { p with test := { p.test with refused := true } }
    else (s.portTo n .test).updPort n fun p => { p with test := { p.test with waiting := false } })

/-- TEST_END: DURATION_US has elapsed (R300). -/
def execTestEnd (n : Port) (s : State) : Host.Outcome State Fault Refusal :=
  match (s.rope.ports[n]).test.endAt with
  | none => .next s
  | some t => .next ((s.advance t).endTest n)

/-- A test whose generator and checker run. -/
def RopePort.tests (p : RopePort) : Bool := p.state = .test && p.test.running && !p.test.waiting && p.test.prbs ≠ 0

/-- CHECKER_LOCK (R302): the received bits, the earliest first, fit the pattern; the first injection falls 1 µs after the first LOCK. -/
def execCheckerLock (n : Port) (s : State) (received : List Bool := []) : Host.Outcome State Fault Refusal :=
  let p := s.rope.ports[n]
  if !p.tests || p.test.lockAt.isSome || !prbsLocks p.test.prbs received then .next s
  else
    let first := if p.test.everLock || p.test.inject = 0 then p.test.firstAt else some (s.now + usUnits)
    .next (s.updPort n fun p => { p with test := { p.test with lockAt := some s.now, everLock := true, firstAt := first, lockInj := 0 } })

/-- CHECKER_LOCK_LOSS (R302): 256 of any 1,024 bits are in error; `bits`, `errs`: those the lock has counted, the injected ones among them, which RPP_TEST_ERRS
holds already. -/
def execCheckerLockLoss (n : Port) (bits errs : Nat) (s : State) : Host.Outcome State Fault Refusal :=
  if (s.rope.ports[n]).test.lockAt.isNone || errs < 256 || bits < errs then .next s
  else .next (s.updPort n fun p =>
    { p with test := { p.test with lockAt := none, lockLoss := satInc p.test.lockLoss, bits := p.test.bits + BitVec.ofNat 64 bits,
                                   errs := satAdd p.test.errs (errs - p.test.lockInj) } })

/-- One injection of the test's kind (R302): 1 bit, or 16 consecutive bits; a checker that sees this generator counts them. -/
def PortTest.injectOnce (t : PortTest) : PortTest :=
  let k := if t.inject = 2 then 16 else 1
  let seen := t.lockAt.isSome && t.loop ≠ 0
  { t with injected := satAdd t.injected k, errs := if seen then satAdd t.errs k else t.errs, lockInj := if seen then t.lockInj + k else t.lockInj }

/-- TEST_FIRST_INJECTION (R302). -/
def execTestFirstInjection (n : Port) (s : State) : Host.Outcome State Fault Refusal :=
  match (s.rope.ports[n]).test.firstAt with
  | none => .next s
  | some t => .next ((s.advance t).updPort n fun p => { p with test := { p.test.injectOnce with firstAt := none } })

/-- TEST_INJECT: a write of NOW (R302, R303). -/
def execTestInject (n : Port) (value : Word) (s : State) : Host.Outcome State Fault Refusal :=
  let p := s.rope.ports[n]
  if !s.barOpen 0 || !value.getLsbD 0 || !p.tests || p.test.inject = 0 then .next s
  else .next (s.updPort n fun p => { p with test := p.test.injectOnce })

end Sys2Proof.Machine
end

