-- ==== Sys2Proof/Machine/AttestRows.lean ====
section
/-! DEFINITION. Attestation between rope neighbours (R395, R396, R399) and the generation of lower trees (R390). -/
namespace Sys2Proof.Machine

/-- Chunks of a report (R395). -/
def chunkCount : Nat := 673

/-! ## The responder (R391, R395) -/

/-- The report bytes of chunk `k`, zero-padded (R395). -/
def chunkOf (report : List Byte) (k : Nat) : List Byte := padTo 14 ((report.drop (14 * k)).take 14)

/-- Chunks leave on a port, in order (R395). -/
def State.sendChunks (s : State) (n : Port) (report : List Byte) (ks : List Nat) : State :=
  ks.foldl (fun s k => s.sendOn n 0x65 (leBytes 2 k ++ chunkOf report k)) s

/-- ATT_NONCE_LO (R395). -/
def execAttNonceLo (n : Port) (fr : Frame) (s : State) : Host.Outcome State Fault Refusal :=
  .next (s.receive n 0x63 fr fun s => s.updPort n fun p => { p with nonceLo := some fr.body })

/-- A complete request (R391, R394, R395): the report in chunks and ATT_END; BUSY while no signature is available, with a LENGTH the
manual does not state (log 3). -/
def State.answerNbr (s : State) (n : Port) (nonce : List Byte) : State :=
  if s.maySign then
    let body := s.reportBody (16 + n.val) nonce
    let (s, i) := s.takeIndex
    let report := s.report9420 body i
    let s := s.updPort n fun p => { p with nonceLo := none, report := report }
    (s.sendChunks n report (List.range chunkCount)).sendOn n 0x66 (leBytes 4 reportLen ++ leBytes 1 0)
  else
    let (s, v) := s.fresh
    (s.updPort n fun p => { p with nonceLo := none, report := [] }).sendOn n 0x66 (leBytes 4 v.toNat ++ leBytes 1 0x12)

/-- ATT_NONCE_HI (R395). -/
def execAttNonceHi (n : Port) (fr : Frame) (s : State) : Host.Outcome State Fault Refusal :=
  .next (s.receive n 0x64 fr fun s => match (s.rope.ports[n]).nonceLo with
    | none => s
    | some lo => s.answerNbr n (lo ++ fr.body))

/-- ATT_RESEND: the named chunks of the report kept for the port go out again (R395). -/
def execAttResend (n : Port) (fr : Frame) (s : State) : Host.Outcome State Fault Refusal :=
  .next (s.receive n 0x67 fr fun s =>
    let report := (s.rope.ports[n]).report
    let first := fieldAt fr.body 0 2
    if report.isEmpty then s
    else s.sendChunks n report ((List.range chunkCount).filter fun k => first ≤ k && k < first + fieldAt fr.body 2 2))

/-! ## The requester (R396, R399) -/

/-- NBR_ATTEST_GO: a write of SEC_NBR_CTL with GO = 1 (R396, R399). -/
def execNbrAttestGo (value : Word) (s : State) : Host.Outcome State Fault Refusal :=
  if !s.barOpen 0 then .next s
  else
    let n : Port := Fin.ofNat 4 value.toNat
    let s := { s with sec := { s.sec with nbrPort := n } }
    if !value.getLsbD 2 || s.sec.nbrReq.isSome then .next s
    else if (s.rope.ports[n]).state ≠ .up then .next { s with sec := { s.sec with nbr := { state := 6, port := n } } }
    else
      let nonce := wordsBytes s.sec.nbrNonce.toList
      let s := { s with sec := { s.sec with nbr := { state := 1, port := n }, nbrReq := some { port := n, since := s.now, nonce := nonce } } }
      .next ((s.sendOn n 0x63 (nonce.take 16)).sendOn n 0x64 (nonce.drop 16))

/-- The request ends. -/
def State.endNbr (s : State) (x : NbrStatus) : State := { s with sec := { s.sec with nbrReq := none, nbr := x } }

/-- The report of the received chunks. -/
def NbrRequest.report (q : NbrRequest) : List Byte :=
  ((List.range chunkCount).flatMap fun k => ((q.chunks.find? fun c => c.1 = k).map (·.2)).getD []).take reportLen

/-- Chunks still missing. -/
def NbrRequest.missing (q : NbrRequest) : List Nat := (List.range chunkCount).filter fun k => !(q.chunks.any fun c => c.1 = k)

/-- The outcome of a whole report (R396, R399). -/
def State.judgeNbr (s : State) (q : NbrRequest) : State :=
  let r := q.report
  let cert := (r.drop 0x1918).take 2996
  let badCert := !certValid cert
  let badSig := !Config.attVerify ((cert.drop 0x20).take 68) (r.take 0x330) ((r.drop 0x330).take 5605)
  let badNonce := (r.drop 0x30).take 32 ≠ q.nonce
  let badSerial := (s.rope.ports[q.port]).partner.all fun p => p.serial ≠ u64At r 0x10
  s.endNbr { state := if badCert || badSig || badNonce || badSerial then 3 else 2, rollback := byteAt r 0x2A, serial := badSerial,
             nonce := badNonce, sig := badSig, cert := badCert, port := q.port, fw := u32At r 0x24,
             mrd := Config.shake256 ((r.drop 0x50).take 256) }

/-- The answer has ended or a resend has come in (R396): the report is judged when whole; missing chunks are asked for, at most 3 times,
from the first to the last of them (log 20). -/
def State.pursueNbr (s : State) (q : NbrRequest) : State :=
  match q.missing with
  | [] => s.judgeNbr q
  | k :: ks =>
    if 3 ≤ q.resends then s.endNbr { state := 3, lost := true, port := q.port }
    else
      let last := ks.getLastD k
      let s := { s with sec := { s.sec with nbrReq := some { q with resends := q.resends + 1, asked := last } } }
      s.sendOn q.port 0x67 (leBytes 2 k ++ leBytes 2 (last + 1 - k))

/-- ATT_DATA (R395). -/
def execAttData (n : Port) (fr : Frame) (s : State) : Host.Outcome State Fault Refusal :=
  .next (s.receive n 0x65 fr fun s => match s.sec.nbrReq with
    | none => s
    | some q =>
      let k := fieldAt fr.body 0 2
      if q.port ≠ n || chunkCount ≤ k then s
      else
        let q := { q with chunks := (k, (fr.body.drop 2).take 14) :: q.chunks.filter fun c => c.1 ≠ k }
        if q.ended.isSome && (q.asked = k || q.missing.isEmpty) then s.pursueNbr q else { s with sec := { s.sec with nbrReq := some q } })

/-- ATT_END (R395, R396). -/
def execAttEnd (n : Port) (fr : Frame) (s : State) : Host.Outcome State Fault Refusal :=
  .next (s.receive n 0x66 fr fun s => match s.sec.nbrReq with
    | none => s
    | some q =>
      if q.port ≠ n then s
      else if fieldAt fr.body 4 1 = 0x12 then s.endNbr { state := 5, port := n }
      else s.pursueNbr { q with ended := some s.now })

/-- NBR_ATTEST_TIMEOUT: no ATT_END 10 ms after the nonce (R396). -/
def execNbrAttestTimeout (s : State) : Host.Outcome State Fault Refusal :=
  match s.sec.nbrReq with
  | none => .next s
  | some q =>
    if q.ended.isSome then .next s
    else .next ((s.advance (q.since + 10 * msUnits)).endNbr { state := 4, port := q.port })

/-! ## Lower trees (R390) -/

/-- TREE_GENERATED (R390): the tree is there, its root signed in a tree record; a tree that has come to be wanted follows. -/
def execTreeGenerated (s : State) : Host.Outcome State Fault Refusal :=
  match s.sec.treeGen with
  | none => .next s
  | some t =>
    let x := { s.sec.signRoot s.now t with trees := t :: s.sec.trees, treeGen := none }
    .next { s with sec := x.plant }

end Sys2Proof.Machine
end

