-- ==== Sys2Proof/Machine/Registers.lean ====
section
/-! DEFINITION. The register map (R424 to R434): every register of the device by name, the address decode of PF BAR0 and of a function
page, and the word each register reads as it stands (R46, R74, R92, R113, R139, R158, R186, R212, R281, R303, R321, R342, R359, R377,
R399, R428 to R434, R438). -/
namespace Sys2Proof.Machine

/-! ## Names -/

/-- Registers of a function page (R432). -/
inductive PageReg where
  | ringCtl | status | dbErr | regErr
  | sqBaseLo (r : Fin 4) | sqBaseHi (r : Fin 4) | rqBaseLo | rqBaseHi | rqSize | sqSize (r : Fin 4) | sqHead (r : Fin 4)
  | rqTail | rqHead | mirrorLo | mirrorHi | devState | evtClr | site (i : Fin 12) (w : Fin 8)
  deriving DecidableEq, Repr

/-- Registers of a cluster block (R427). -/
inductive ClReg where
  | seqCtl | seqStatus | seqPos | seqSlip | seqEvtLatch | seqTrigCfg | seqLoopCnt (k : Fin 4) | seqPlayCnt | seqLate (i : Fin 12)
  | seqFmtWarn | seqFmtCause | seqBlkReject | seqBlkCause | seqBlkLastSeg | seqBlkLastPos | seqBlkLastChk | seqDcmpVcntLo
  | seqDcmpVcntHi | seqDcmpSeg | seqLead (t : Fin 64)
  | timStatus | timPeriod | timVstartLo | timVstartHi | timSwitchCnt | timCutCnt | timLastRefuse | timClkFwLo (j : Fin 2)
  | timClkFwHi (j : Fin 2) | timClkStatus | timDeskewOut (k : Lane) | timDeskewIn (k : Lane)
  | lvlStatus | lvlSet | lvlRail (r : Lane) | lvlClipCnt | lvlStrobeCnt | lvlRangeCnt
  | capStatus | capPinFail (k : Lane) | capFailVec | capFirstFailLo | capFirstFailHi | capCmpCntLo | capCmpCntHi | capTailFail
  | capDropVec | capFifo | capBlkCnt | capTrigIgn | capAcqId | capAcqTrigLo | capAcqTrigHi
  | tdcStatus | tdcFifo (k : Lane) | tdcStampCnt (k : Lane) | tdcLost (k : Lane) | tdcDead (k : Lane) | tdcCal (k : Lane)
  deriving DecidableEq, Repr

/-- Registers of PF BAR0 (R424). -/
inductive Reg where
  | idDevice | idSerialLo | idSerialHi | idFwVersion | idCaps | idScratch | idDiagCtl | idDiagSel | idDiagAddrLo | idDiagAddrHi
  | idDiagDataLo | idDiagDataHi | idI3cCtl | idI3cStatus | idI3cData (w : Fin 4) | idI3cPresent (w : Fin 3)
  | hstOwner (i : Fin 2) | hstLink | page (f : Func) (r : PageReg)
  | cmdStatus | cmdAbandon | cmdMcheck | cmdGenA (c : Cluster) | cmdGenB (c : Cluster)
  | fltStatus | fltFirst (w : Fin 12) | fltHistSel | fltHist (w : Fin 8) | fltHistCnt | fltSrc (n : Fin 64) | fltPlogStatus
  | fltPlogSel | fltPlog (w : Fin 16)
  | tmeStatus | tmeNow0 | tmeNow1 | tmeNow2 | tmeShort | tmeOffsetLo | tmeOffsetHi | tmeThreshold | tmeStepCnt | tmeRespTmo
  | tmeAsymInt (n : Port) | tmeAsymCable (n : Port)
  | rppStatus (n : Port) | rppTaps (n : Port) | rppDelay (n : Port) | rppCrcErr (n : Port) | rppBadFrame (n : Port) | rppLate (n : Port)
  | rppLoss (n : Port) | rppTest (n : Port) | rppTestBitsLo (n : Port) | rppTestBitsHi (n : Port) | rppTestErrs (n : Port)
  | rppTestInj (n : Port) | rppTopoChange | rppTopoSel | rppTopoSerialLo | rppTopoSerialHi | rppTopoInfo | rppGevt | rppSiteLevel
  | pwrStatus | pwrCtl | pwrReset | pwrResetCause | pwrTemp | pwrCl (c : Cluster) | pwrClTol (c : Cluster)
  | calStatus | calRejCause | calSeq | calStoreCnt | calVrefMeas | calTinPhase | calSetTemp (n : Fin 5) | calClStatus (c : Cluster)
  | calClAge (c : Cluster)
  | schStatus | schErr | schQdepth (p : Fin 4) | schDone (p : Fin 4) | schFree | schLost | schCoreBusy (n : Fin 16)
  | schHist (b : Fin 64) | schFlowSel | schFlowInfo | schFlowVarLo (v : Lane) | schFlowVarHi (v : Lane)
  | secStatus | secMr (i : Fin 64) | secMr7Data (w : Fin 8) | secMr7Ext | secSigNextLo | secSigNextHi | secNbrNonce (w : Fin 8)
  | secNbrCtl | secNbrStatus | secNbrFw | secNbrMrd (w : Fin 8)
  | memStatus | memEccCe | memEccUe | memEccAddr | memAdmit | memBlkNomask | memHbmFree | memEccWhere | memEccSeg
  | memVsUse (c : Cluster) | memUnderrunLo (c : Cluster) | memUnderrunHi (c : Cluster) | memBelayCnt (c : Cluster)
  | memInState (i : Fin 24) | memInSeq (i : Fin 24) | memInStaged (i : Fin 24) | memInStale (i : Fin 24) | memInDense (i : Fin 24)
  | memOutState (i : Fin 24) | memOutSeq (i : Fin 24) | memOutLevel (i : Fin 24) | memOutReclaim (i : Fin 24)
  | cluster (c : Cluster) (r : ClReg)
  deriving DecidableEq, Repr

/-! ## Address decode -/

/-- A run of registers of one table: the first offset, how many, and their distance. -/
structure RegRow (α : Type) where
  off    : Nat
  n      : Nat
  stride : Nat
  make   : Nat → α

def RegRow.find {α : Type} (a : Nat) : List (RegRow α) → Option α
  | [] => none
  | r :: rest =>
    if r.off ≤ a && (a - r.off) % r.stride = 0 && (a - r.off) / r.stride < r.n then some (r.make ((a - r.off) / r.stride)) else RegRow.find a rest

def one {α : Type} (off : Nat) (r : α) : RegRow α := ⟨off, 1, 4, fun _ => r⟩

def many {α : Type} {n : Nat} [NeZero n] (off stride : Nat) (mk : Fin n → α) : RegRow α := ⟨off, n, stride, fun i => mk (Fin.ofNat n i)⟩

/-- A function page (R432). -/
def pageRows : List (RegRow PageReg) :=
  [one 0x000 .ringCtl, one 0x004 .status, one 0x008 .dbErr, one 0x00C .regErr, many 0x010 8 .sqBaseLo, many 0x014 8 .sqBaseHi,
   one 0x030 .rqBaseLo, one 0x034 .rqBaseHi, one 0x038 .rqSize, many 0x040 4 .sqSize, many 0x050 4 .sqHead, one 0x060 .rqTail,
   one 0x064 .rqHead, one 0x070 .mirrorLo, one 0x074 .mirrorHi, one 0x0F0 .devState, one 0x0F8 .evtClr,
   ⟨0x100, 96, 4, fun i => .site (Fin.ofNat 12 (i / 8)) (Fin.ofNat 8 i)⟩]

/-- A cluster block (R427). -/
def clRows : List (RegRow ClReg) :=
  [one 0x0040 .seqCtl, one 0x0044 .seqStatus, one 0x0048 .seqPos, one 0x004C .seqSlip, one 0x0050 .seqEvtLatch, one 0x0054 .seqTrigCfg,
   many 0x0060 4 .seqLoopCnt, one 0x0070 .seqPlayCnt, many 0x0080 4 .seqLate, one 0x0100 .seqFmtWarn, one 0x0104 .seqFmtCause,
   one 0x0108 .seqBlkReject, one 0x010C .seqBlkCause, one 0x0110 .seqBlkLastSeg, one 0x0114 .seqBlkLastPos, one 0x0118 .seqBlkLastChk,
   one 0x0120 .seqDcmpVcntLo, one 0x0124 .seqDcmpVcntHi, one 0x0128 .seqDcmpSeg, many 0x0200 4 .seqLead]
  ++ [one 0x1000 .timStatus, one 0x1004 .timPeriod, one 0x1008 .timVstartLo, one 0x100C .timVstartHi, one 0x1010 .timSwitchCnt,
   one 0x1014 .timCutCnt, one 0x1018 .timLastRefuse, many 0x1020 8 .timClkFwLo, many 0x1024 8 .timClkFwHi, one 0x1030 .timClkStatus,
   many 0x1100 4 .timDeskewOut, many 0x1120 4 .timDeskewIn]
  ++ [one 0x2000 .lvlStatus, one 0x2004 .lvlSet, many 0x2020 4 .lvlRail, one 0x2040 .lvlClipCnt, one 0x2044 .lvlStrobeCnt,
   one 0x2048 .lvlRangeCnt]
  ++ [one 0x3000 .capStatus, many 0x3020 4 .capPinFail, one 0x3040 .capFailVec, one 0x3044 .capFirstFailLo, one 0x3048 .capFirstFailHi,
   one 0x3050 .capCmpCntLo, one 0x3054 .capCmpCntHi, one 0x3058 .capTailFail, one 0x3060 .capDropVec, one 0x3064 .capFifo,
   one 0x3068 .capBlkCnt, one 0x306C .capTrigIgn, one 0x3070 .capAcqId, one 0x3074 .capAcqTrigLo, one 0x3078 .capAcqTrigHi]
  ++ [one 0x4000 .tdcStatus, many 0x4020 4 .tdcFifo, many 0x4040 4 .tdcStampCnt, many 0x4060 4 .tdcLost, many 0x4080 4 .tdcDead,
   many 0x40A0 4 .tdcCal]

/-- The blocks of PF BAR0 below 0x0010_0000 but for the host port's (R424), as offsets from 0. -/
def idRows : List (RegRow Reg) :=
  [one 0x000 .idDevice, one 0x004 .idSerialLo, one 0x008 .idSerialHi, one 0x00C .idFwVersion, one 0x010 .idCaps, one 0x014 .idScratch,
   one 0x020 .idDiagCtl, one 0x024 .idDiagSel, one 0x028 .idDiagAddrLo, one 0x02C .idDiagAddrHi, one 0x030 .idDiagDataLo,
   one 0x034 .idDiagDataHi, one 0x100 .idI3cCtl, one 0x104 .idI3cStatus, many 0x110 4 .idI3cData, many 0x120 4 .idI3cPresent]

def cmdRows : List (RegRow Reg) :=
  [one 0x000 .cmdStatus, one 0x004 .cmdAbandon, one 0x008 .cmdMcheck, many 0x100 8 .cmdGenA, many 0x104 8 .cmdGenB]

def fltRows : List (RegRow Reg) :=
  [one 0x000 .fltStatus, many 0x010 4 .fltFirst, one 0x040 .fltHistSel, many 0x050 4 .fltHist, one 0x070 .fltHistCnt,
   many 0x100 4 .fltSrc, one 0x200 .fltPlogStatus, one 0x204 .fltPlogSel, many 0x210 4 .fltPlog]

def tmeRows : List (RegRow Reg) :=
  [one 0x00 .tmeStatus, one 0x04 .tmeNow0, one 0x08 .tmeNow1, one 0x0C .tmeNow2, one 0x10 .tmeShort, one 0x14 .tmeOffsetLo,
   one 0x18 .tmeOffsetHi, one 0x1C .tmeThreshold, one 0x20 .tmeStepCnt, one 0x24 .tmeRespTmo, many 0x40 8 .tmeAsymInt,
   many 0x44 8 .tmeAsymCable]

def rppRows : List (RegRow Reg) :=
  [many 0x00 0x100 .rppStatus, many 0x04 0x100 .rppTaps, many 0x08 0x100 .rppDelay, many 0x0C 0x100 .rppCrcErr,
   many 0x10 0x100 .rppBadFrame, many 0x14 0x100 .rppLate, many 0x18 0x100 .rppLoss, many 0x20 0x100 .rppTest,
   many 0x24 0x100 .rppTestBitsLo, many 0x28 0x100 .rppTestBitsHi, many 0x2C 0x100 .rppTestErrs, many 0x30 0x100 .rppTestInj,
   one 0x800 .rppTopoChange, one 0x804 .rppTopoSel, one 0x808 .rppTopoSerialLo, one 0x80C .rppTopoSerialHi, one 0x810 .rppTopoInfo,
   one 0x820 .rppGevt, one 0x824 .rppSiteLevel]

def pwrRows : List (RegRow Reg) :=
  [one 0x000 .pwrStatus, one 0x004 .pwrCtl, one 0x008 .pwrReset, one 0x00C .pwrResetCause, one 0x010 .pwrTemp, many 0x100 8 .pwrCl,
   many 0x104 8 .pwrClTol]

def calRows : List (RegRow Reg) :=
  [one 0x000 .calStatus, one 0x004 .calRejCause, one 0x008 .calSeq, one 0x00C .calStoreCnt, one 0x010 .calVrefMeas,
   one 0x014 .calTinPhase, many 0x020 4 .calSetTemp, many 0x100 0x10 .calClStatus, many 0x104 0x10 .calClAge]

def schRows : List (RegRow Reg) :=
  [one 0x000 .schStatus, one 0x004 .schErr, many 0x010 4 .schQdepth, many 0x020 4 .schDone, one 0x030 .schFree, one 0x034 .schLost,
   many 0x100 4 .schCoreBusy, many 0x200 4 .schHist, one 0x300 .schFlowSel, one 0x304 .schFlowInfo, many 0x340 8 .schFlowVarLo,
   many 0x344 8 .schFlowVarHi]

def secRows : List (RegRow Reg) :=
  [one 0x000 .secStatus, many 0x100 4 .secMr, many 0x200 4 .secMr7Data, one 0x220 .secMr7Ext, one 0x230 .secSigNextLo,
   one 0x234 .secSigNextHi, many 0x300 4 .secNbrNonce, one 0x320 .secNbrCtl, one 0x324 .secNbrStatus, one 0x328 .secNbrFw,
   many 0x340 4 .secNbrMrd]

def memRows : List (RegRow Reg) :=
  [one 0x000 .memStatus, one 0x004 .memEccCe, one 0x008 .memEccUe, one 0x00C .memEccAddr, one 0x010 .memAdmit, one 0x014 .memBlkNomask,
   one 0x018 .memHbmFree, one 0x01C .memEccWhere, one 0x020 .memEccSeg, many 0x100 0x10 .memVsUse, many 0x104 0x10 .memUnderrunLo,
   many 0x108 0x10 .memUnderrunHi, many 0x10C 0x10 .memBelayCnt, many 0x1000 0x20 .memInState, many 0x1004 0x20 .memInSeq,
   many 0x1008 0x20 .memInStaged, many 0x100C 0x20 .memInStale, many 0x1010 0x20 .memInDense, many 0x2000 0x20 .memOutState,
   many 0x2004 0x20 .memOutSeq, many 0x2008 0x20 .memOutLevel, many 0x200C 0x20 .memOutReclaim]

/-- The register of a block (R424). -/
def blockReg (blk off : Nat) : Option Reg :=
  match blk with
  | 0 => RegRow.find off idRows
  | 1 =>
    if off < 0x1000 then RegRow.find off [many 0x000 4 .hstOwner, one 0x008 .hstLink]
    else if off < 0xE000 then (RegRow.find (off % 0x1000) pageRows).map fun r => .page (Fin.ofNat 13 (off / 0x1000 - 1)) r
    else none
  | 2 => RegRow.find off cmdRows
  | 3 => RegRow.find off fltRows
  | 4 => RegRow.find off tmeRows
  | 5 => RegRow.find off rppRows
  | 6 => RegRow.find off pwrRows
  | 7 => RegRow.find off calRows
  | 8 => RegRow.find off schRows
  | 9 => RegRow.find off secRows
  | 10 => RegRow.find off memRows
  | _ => if 16 ≤ blk && blk < 28 then (RegRow.find off clRows).map fun r => .cluster (Fin.ofNat 12 (blk - 16)) r else none

/-- The register function `f` reaches at the byte offset `addr` of its BAR0 (R424, R430); none at a reserved offset. -/
def regAt (f : Func) (addr : BitVec 24) : Option Reg :=
  let a := addr.toNat / 4 * 4
  if f = 0 then blockReg (a / 0x10000) (a % 0x10000)
  else if 0x1000 ≤ a && a < 0x2000 then (RegRow.find (a - 0x1000) pageRows).map fun r => .page f r
  else none

/-! ## Words -/

/-- A field of a register, at its lowest bit. -/
def fld (v lo : Nat) : Nat := v * 2 ^ lo

def word (n : Nat) : Word := BitVec.ofNat 32 n

/-- A signed value in a field of `n` bits. -/
def sfield (n : Nat) (x : Int) : Nat := (BitVec.ofInt n x).toNat

def loWord (n : Nat) : Word := word (n % 2 ^ 32)

def hiWord (n : Nat) : Word := word (n / 2 ^ 32)

def State.pageReg (s : State) (f : Func) (r : PageReg) : Word :=
  let h := s.host.fn[f]
  match r with
  | .ringCtl => word (((List.finRange 4).map fun (i : Fin 4) => bitAt (h.sq[i]).en i).sum + bitAt h.rq.en 4)
  | .status => word (bitAt (f = 0 && s.host.ownRefused) 31 + bitAt h.rq.full 17
      + ((List.finRange 4).map fun (i : Fin 4) => bitAt (h.sq[i]).err (8 + i)).sum)
  | .dbErr => h.dbErr
  | .regErr => h.regErr
  | .sqBaseLo i => (h.sq[i]).base.setWidth 32
  | .sqBaseHi i => (h.sq[i]).base.extractLsb' 32 32
  | .rqBaseLo => h.rq.base.setWidth 32
  | .rqBaseHi => h.rq.base.extractLsb' 32 32
  | .rqSize => word h.rq.log2
  | .sqSize i => word (h.sq[i]).log2
  | .sqHead i => word (h.sq[i]).head
  | .rqTail => word h.rq.tail
  | .rqHead => word h.rq.head
  | .mirrorLo => h.mirrorAddr.setWidth 32 ||| word (bitAt h.mirrorOn 0)
  | .mirrorHi => h.mirrorAddr.extractLsb' 32 32
  | .devState => s.devState
  | .evtClr => 0
  | .site i w => if w = 0 then u32At (s.siteRecord f i) 0 else u32At (h.siteLatch[i]) (4 * w.val)

def State.armedMask (s : State) (c : Cluster) : Nat :=
  ((List.finRange 8).map fun (k : Fin 8) =>
    bitAt (((s.cl[c]).tdc[k]).armedBy (s.config c).tdc[k] (s.seqs[s.site c]).spans (s.net)).isSome k).sum

def SeqCtl.word (r : SeqCtl) : Word :=
  Machine.word (fld r.chainTmo.toNat 16 + bitAt r.evt1Fall 2 + bitAt r.evt0Fall 1 + bitAt r.clrArm 0)

def TrigCfg.word (r : TrigCfg) : Word :=
  Machine.word (fld r.width1.toNat 17 + fld r.width0.toNat 8 + bitAt r.en1 1 + bitAt r.en0 0)

/-- SEQ_STATUS (R74). START_WAIT: the pending start is late, and its descriptor is not in the front buffer. -/
def State.seqStatus (s : State) (k : Cluster) : Word :=
  let q := s.seqs[k]
  word (fld q.stack.length 16 + fld (SiteState.code (s.siteState k)) 13 + bitAt q.succHalt 12 + bitAt q.succValid 11
    + bitAt (q.start.any fun st => st.late && !q.front.any fun d => d.seq = st.seq) 10 + bitAt q.condMiss 8 + bitAt q.stackErr 7 + bitAt q.chainTmo 6 + bitAt q.aborted 5
    + bitAt q.notRun 4 + bitAt q.startSlip 3 + bitAt q.lateFlag 2)

/-- ACQ_STATE (R139): the fill is complete once the history holds PRE vectors (R132). -/
def State.acqState (s : State) (c : Cluster) : Nat :=
  let x := (s.cl[c]).cap.acq
  if !x.active then 0 else if x.trig.isSome then 3 else if x.history.length < (s.config c).acq.pre then 1 else 2

/-- The registers of a cluster block (R46, R74, R92, R113, R139, R158). The sequencer's registers read the site's values (R73). SEQ_DCMP_SEG names
the segment of the last vector emitted until the burst ends, and none outside a play, in ARMED and in a stall among others: the rule does not say when
there is none (DESIGN CHOICE, log 24). -/
def State.clReg (s : State) (c : Cluster) (r : ClReg) : Word :=
  let e := s.cl[c]
  let k := s.site c
  let q := s.seqs[k]
  let g := s.config c
  let l := e.lvl.upTo s.net
  let site := s.sites[k]
  let tmask := fun (p : TdcChan → Bool) => ((List.finRange 8).map fun (i : Fin 8) => bitAt (p e.tdc[i]) i).sum
  match r with
  | .seqCtl => e.io.ctl.word
  | .seqStatus => s.seqStatus k
  | .seqPos => q.succ ++ q.curEntry
  | .seqSlip => q.slipNs
  | .seqEvtLatch => word (bitAt (site.req.getLsbD 1) 11 + bitAt (site.req.getLsbD 0) 10 + fld e.io.gevt.toNat 2 + bitAt e.io.evt1 1
      + bitAt e.io.evt0 0)
  | .seqTrigCfg => e.io.trig.word
  | .seqLoopCnt i => q.loops[i]
  | .seqPlayCnt => q.playCnt
  | .seqLate i => q.late[i]
  | .seqFmtWarn => e.dec.fmtWarn
  | .seqFmtCause => word (fld e.dec.pinSeen.toNat 8 + bitAt e.dec.scanOut 1 + bitAt e.dec.rsvdCode 0)
  | .seqBlkReject => e.dec.blkReject
  | .seqBlkCause => e.dec.blkCause.setWidth 32
  | .seqBlkLastSeg => e.dec.lastSeg
  | .seqBlkLastPos => e.dec.lastPos
  | .seqBlkLastChk => e.dec.lastChk.setWidth 32
  | .seqDcmpVcntLo => e.dec.vcnt.setWidth 32
  | .seqDcmpVcntHi => e.latch.dcmpHi
  | .seqDcmpSeg => if (q.enterStall s.net).play.isSome then e.dec.seg else 0xFFFFFFFF
  | .seqLead t => word (fld q.hops.toNat 16 + (q.lead[t]).toNat)
  | .timStatus => word (fld e.tim.curTset.toNat 16 + fld g.mux.toNat 12 + bitAt (g.isClock 7) 9 + bitAt (g.isClock 6) 8
      + bitAt e.tim.cut 0)
  | .timPeriod => e.tim.period
  | .timVstartLo => e.tim.vstart.setWidth 32
  | .timVstartHi => e.latch.vstartHi
  | .timSwitchCnt => e.tim.switchCnt
  | .timCutCnt => e.tim.cutCnt
  | .timLastRefuse => word (fld e.tim.lastPin.toNat 16 + fld e.tim.lastTo.toNat 10 + fld e.tim.lastTset.toNat 4 + e.tim.lastCheck.toNat)
  | .timClkFwLo j => (g.clk[j]).fw.setWidth 32
  | .timClkFwHi j => (g.clk[j]).ph ++ (g.clk[j]).fw.extractLsb' 32 16
  | .timClkStatus => word (bitAt ((e.tim.clk[1]).hold s.net) 17 + bitAt ((e.tim.clk[0]).hold s.net) 16
      + fld (e.tim.clk[1]).changes.toNat 8 + (e.tim.clk[0]).changes.toNat)
  | .timDeskewOut i => word (fld (sfield 12 (roundRat e.coeffs.den[i])) 16 + sfield 12 (roundRat e.coeffs.drv[i]))
  | .timDeskewIn i => word (sfield 12 (roundRat e.coeffs.cmp[i]))
  | .lvlStatus => word (fld l.lvlSc.toNat 24 + fld (l.mask fun r => r.phase ≠ .none).toNat 16 + fld (l.mask Rail.rangeB).toNat 8
      + (l.mask Rail.shown).toNat)
  | .lvlSet => word (bitAt l.clip 20 + fld l.curLset.toNat 16 + fld g.railEn.toNat 8 + (l.mask fun r => r.out ≠ r.target).toNat)
  | .lvlRail i => word (fld (l.rails[i]).target 16 + (l.rails[i]).out)
  | .lvlClipCnt => l.clipCnt
  | .lvlStrobeCnt => l.strobeCnt
  | .lvlRangeCnt => l.rangeCnt.setWidth 32
  | .capStatus => word (((List.finRange 8).map fun (i : Fin 8) => bitAt ((e.cap.pinFail[i]) ≠ 0) (24 + i)).sum
      + fld g.capture.mode.code 21 + fld (s.acqState c) 19 + bitAt e.cap.acqDone 18 + bitAt e.cap.forced 17 + bitAt e.cap.trunc 16
      + bitAt e.cap.boundary 5 + bitAt e.cap.loss 4 + bitAt e.cap.tail 3 + bitAt g.capture.align 2 + bitAt e.cap.dropping.isSome 1
      + bitAt e.cap.fail 0)
  | .capPinFail i => e.cap.pinFail[i]
  | .capFailVec => e.cap.failVec
  | .capFirstFailLo => loWord ((e.cap.firstFail.map (·.1)).getD 0)
  | .capFirstFailHi => e.latch.failHi
  | .capCmpCntLo => e.cap.cmpCnt.setWidth 32
  | .capCmpCntHi => e.latch.cmpHi
  | .capTailFail => e.cap.tailFail
  | .capDropVec => e.cap.dropVec
  | .capFifo => word (fld (min e.cap.highWater 256) 16 + min ((e.cap.fill + 1023) / 1024) 256)
  | .capBlkCnt => e.cap.blkCnt
  | .capTrigIgn => e.cap.trigIgn
  | .capAcqId => e.cap.acq.armId
  | .capAcqTrigLo => loWord (e.cap.acqTrig.getD 0)
  | .capAcqTrigHi => e.latch.acqHi
  | .tdcStatus => word (fld (s.armedMask c) 24 + fld (tmask TdcChan.ovf) 16 + fld (tmask TdcChan.boundary) 8 + tmask TdcChan.running)
  | .tdcFifo i => word (fld (e.tdc[i]).highWater 16 + (e.tdc[i]).level e.stamp i.val s.net)
  | .tdcStampCnt i => (e.tdc[i]).stampCnt
  | .tdcLost i => (e.tdc[i]).lost
  | .tdcDead i => (e.tdc[i]).dead
  | .tdcCal i =>
    let t := e.tdc[i]
    word (fld t.abandoned.toNat 24 + bitAt t.dnl 18 + bitAt t.width 17 + bitAt t.sum 16 + t.tables.toNat)

/-- The partner words a low-word read of a cluster block latches (R46, R92, R139, R426). -/
def Capture.firstFailHi (x : Capture) : Word :=
  match x.firstFail with
  | none => 0
  | some (a, m) => word (2 ^ 31 + fld m.toNat 16 + bitsOf a 32 16)

def Capture.acqTrigHi (x : Capture) : Word :=
  match x.acqTrig with
  | none => 0
  | some a => word (2 ^ 31 + bitsOf a 32 16)

/-- A pair of a low word and a count of the vector store's pages (R186). -/
def State.vsUse (s : State) (c : Cluster) : Word :=
  let sum := fun (p : Residence → Bool) => (((s.mem.segs[c]).filter fun g => p g.res).map Seg.pages).sum
  word (fld (sum fun r => r = .autoPiton || r = .pinned) 16 + sum fun r => r = .staged)

/-- The named word of a byte string. -/
def wordOf (b : List Byte) (w : Nat) : Word := u32At b (4 * w)

def TopoEntry.info (e : TopoEntry) : Word :=
  word (2 ^ 31 + bitAt e.flPath 30 + fld e.level 28 + fld e.rport 26 + fld e.port.val 24 + fld e.hops 21 + e.fw.toNat % 2 ^ 16)

/-- RPP_STATUS (R303). -/
def State.rppStatus (s : State) (n : Port) : Word :=
  let p := s.rope.ports[n]
  word (fld p.state.code 28 + fld p.level 26 + bitAt (s.flOk n) 25 + bitAt p.marginal 24 + bitAt p.looped 23 + bitAt p.remoteLoop 22
    + fld p.metric.toNat 8 + bitAt p.lateSeen 2 + bitAt p.trainFail 1 + bitAt p.linkDown 0)

def PortTest.word (t : PortTest) : Word :=
  Machine.word (fld t.lockLoss.toNat 24 + bitAt t.refused 3 + bitAt t.done 2 + bitAt t.lockAt.isSome 1 + bitAt t.running 0)

/-- TME_STATUS (R321). -/
def TimeUnit.status (t : TimeUnit) (l2 : Bool) : Word :=
  word (fld t.stratum 20 + fld (if t.source = .rope then t.port.val else 0) 16 + fld t.source.code 12 + bitAt l2 11 + bitAt t.heldOver 10
    + bitAt (t.state = .refused) 9 + bitAt t.holdSeen 8 + t.state.code)

/-- A short stamp (R305): whole nanoseconds of network time modulo 2^32. -/
def shortOf (t : Int) : Word := BitVec.ofInt 32 (t / nsUnits)

/-- CAL_STATUS (R342). -/
def State.calStatus (s : State) : Word :=
  let x := s.cal
  word (fld ((List.finRange 5).map fun (i : Fin 5) => bitAt (x.image[i]).isSome i).sum 27 + fld (if x.seq = 0 then 0 else x.slot.val) 22
    + bitAt s.storing 5 + bitAt x.tin 4
    + bitAt x.none_ 3 + bitAt x.older 2 + bitAt x.reject 1 + bitAt (x.cl.toList.any (·.stale)) 0)

/-- CAL_SET_TEMP (R342): the mean, to the nearest 1/16 degree, ties up (log 13). -/
def State.calSetTemp (s : State) (n : Fin 5) : Word :=
  match s.cal.image[n] with
  | none => 0
  | some v => word (2 ^ 31 + sfield 16 (roundRat (((v.toList.map (·.temp)).sum : Int) / 12)))

def State.calClStatus (s : State) (c : Cluster) : Word :=
  let x := s.cal.cl[c]
  word (fld (sfield 16 s.pwr.temps[c]) 16 + fld x.applied.toNat 8 + bitAt (s.outOfRange c) 4 + bitAt (x.follow ≠ 0) 3
    + bitAt (x.what ≠ 0) 2 + bitAt (s.cal.staged[c]).isSome 1 + bitAt x.stale 0)

/-- CAL_CL_AGE (R327, R342): a channel's last run is the later one of its routes. -/
def State.calClAge (s : State) (c : Cluster) : Word :=
  let x := s.cal.cl[c]
  let age := fun (r : Nat) => secondsSince s.now ((getN x.tables r none).map (·.2)) 0xFFF
  let tdc := ((List.range 8).map fun i => if i % 2 = 1 then min (age i) (age (8 + i / 2)) else age i).foldl max 0
  word (fld tdc 20 + fld (secondsSince s.now x.skewAt 0xFFF) 8 + secondsSince s.now x.dacAt 0xFF)

/-- FLT_SRC (R359): a source that is not listed has default 0, and SC_WATCHDOG reads CLASS 1. -/
def Faults.srcWord (f : Faults) (n : Nat) : Word :=
  let cnt := (f.counts.find? fun p => p.1 = n).map (·.2)
  let base := fld ((cnt.map (·.toNat)).getD 0) 12
  word (match sourceOf n with
    | none => base
    | some (c, r) => base + fld (f.reaction n).code 8 + fld r.code 5 + 4 + c.code)

def State.fltStatus (s : State) : Word :=
  let f := s.flt
  word (((f.first.map fun r => 2 ^ 31 + fld r.cls.code 29 + bitAt r.injected 28 + bitAt r.realMerged 27).getD 0) + bitAt f.device 26
    + bitAt s.pwr.aliveRun 25 + bitAt (!f.plogPend.isEmpty) 24 + fld f.halted.toNat 12 + f.parked.toNat)

/-- The bytes of the first-error record as FLT_FIRST shows them. -/
def Faults.firstBytes (f : Faults) : List Byte :=
  match f.first, f.last with
  | some r, _ => r.bytes true
  | none, some r => r.bytes false
  | none, none => []

/-- SCH_FLOW_INFO (R212). -/
def State.flowInfo (s : State) : Word :=
  let n := s.sched.flowSel.toNat
  let f := s.sched.flow n
  word (bitAt f.inService 31 + bitAt f.lastCore.isSome 30 + fld f.prio.val 28 + fld ((f.lastCore.map (·.val)).getD 0) 24
    + (s.sched.queue.filter fun i => i.flow = n).length)

def Sched.errWord (x : Sched) : Word :=
  word (fld x.lastFlow.toNat 16 + bitAt x.badOpnd 4 + bitAt x.noTable 3 + bitAt x.refused 2 + bitAt x.watchdog 1 + bitAt x.overflow 0)

/-- SEC_STATUS (R399): before a bundle has booted, the fields from boot read 0. -/
def Security.status (x : Security) : Word :=
  word (fld x.rollback 24 + fld (epochOf x.header) 16 + bitAt x.noImage 7 + bitAt x.treeGen.isSome 6 + bitAt x.certBad 5 + bitAt x.staged 4
    + bitAt x.try_.isSome 3 + bitAt x.fallback 2 + fld x.active.val 1 + x.bootSlot.val)

def NbrStatus.word (x : NbrStatus) : Word :=
  Machine.word (fld x.state 28 + fld x.rollback.toNat 16 + bitAt x.lost 12 + bitAt x.serial 11 + bitAt x.nonce 10 + bitAt x.sig 9
    + bitAt x.cert 8 + x.port.val)

/-- PWR_CL (R377). -/
def State.pwrCl (s : State) (c : Cluster) : Word :=
  let p := s.pwr.cl[c]
  word (fld (s.power c) 29 + fld (if s.isReady then s.choose c else p.chosen) 26 + bitAt p.exiting 25 + bitAt p.entering 24 + bitAt (s.limSite c) 5 + bitAt (s.limTdc c) 4
    + bitAt (s.limClock c) 3 + bitAt (s.limFifo c) 2 + bitAt (s.limCal c) 1)

def I3c.ctl (x : I3c) : Word := word (bitAt x.dir 30 + fld x.len.toNat 24 + fld x.reg.toNat 16 + x.pin.toNat)

def I3c.status (x : I3c) : Word :=
  word (bitAt x.overrun 5 + bitAt x.bad 4 + bitAt x.absent 3 + bitAt x.nack 2 + bitAt x.done 1 + bitAt x.busy 0)

/-- HST_LINK (R431). -/
def State.linkWord (s : State) : Word :=
  let h := s.host
  word (fld h.numVfs.val 16 + bitAt (s.pwr.straps.getLsbD 2) 9 + bitAt h.flit 8 + fld h.width.toNat 4 + h.speed.toNat)

/-- The word a register of the device reads, as it stands. -/
def State.regWord (s : State) (r : Reg) : Word :=
  match r with
  | .idDevice => 0x9600B00C
  | .idSerialLo => Config.serial.setWidth 32
  | .idSerialHi => Config.serial.extractLsb' 32 32
  | .idFwVersion => s.fwVersion
  | .idCaps => word (0xC00 + s.ropeLevel)
  | .idScratch => s.ids.scratch
  | .idDiagCtl => word (bitAt s.ids.diag.range 5 + bitAt s.ids.diag.ue 4 + bitAt s.ids.diag.refused 3 + bitAt s.ids.diag.active 2)
  | .idDiagSel => word (fld s.ids.diag.cluster.toNat 8 + s.ids.diag.space.toNat)
  | .idDiagAddrLo => s.ids.diag.addr.setWidth 32
  | .idDiagAddrHi => word (s.ids.diag.addr.toNat / 2 ^ 32)
  | .idDiagDataLo => 0
  | .idDiagDataHi => if s.ids.diag.active then s.ids.diag.hi else 0
  | .idI3cCtl => s.ids.i3c.ctl
  | .idI3cStatus => s.ids.i3c.status
  | .idI3cData w => s.ids.i3c.data[w]
  | .idI3cPresent w => s.ids.assigned.extractLsb' (32 * w.val) 32
  | .hstOwner i => word ((List.range 8).map fun j => if i = 0 || j < 4 then fld (getN s.host.owner (8 * i.val + j) 0).val (4 * j) else 0).sum
  | .hstLink => s.linkWord
  | .page f r => s.pageReg f r
  | .cmdStatus => word (bitAt s.cmd.halted 31 + bitAt s.cmd.running 30 + bitAt s.cmd.postCrux 29 + bitAt s.cmd.deferAll 28 + fld s.cmd.run.toNat 26 + s.cmd.opcode.toNat)
  | .cmdAbandon => s.cmd.abandons
  | .cmdMcheck => match s.cmd.mcheck with
    | none => 0
    | some m => m.word
  | .cmdGenA c => ((s.gens[c]).prev.map (·.number)).getD 0 ++ (s.gens[c]).cur.number
  | .cmdGenB c => (s.gens[c]).shadow.number ++ ((s.gens[c]).pend.map (·.number)).getD 0
  | .fltStatus => s.fltStatus
  | .fltFirst w => if w = 0 then wordOf s.flt.firstBytes 0 else s.flt.firstLatch[w]
  | .fltHistSel => s.flt.histSel.setWidth 32
  | .fltHist w => ((s.flt.histShow.map fun h => wordOf h.bytes w.val)).getD 0
  | .fltHistCnt => s.flt.count
  | .fltSrc n => s.flt.srcWord n.val
  | .fltPlogStatus => word (fld s.flt.plogDrop.toNat 16 + min s.flt.loaded.length 64)
  | .fltPlogSel => s.flt.plogSel.setWidth 32
  | .fltPlog w => ((s.flt.plogShow.map fun h => wordOf h.bytes w.val)).getD 0
  | .tmeStatus => s.time.status (s.time.source = .rope && (s.rope.ports[s.time.port]).level = 2)
  | .tmeNow0 => (stampOf s.net).setWidth 32
  | .tmeNow1 => s.time.now1
  | .tmeNow2 => s.time.now2
  | .tmeShort => s.time.short
  | .tmeOffsetLo => BitVec.ofInt 32 s.time.theta
  | .tmeOffsetHi => s.time.offHi
  | .tmeThreshold => word s.time.threshold
  | .tmeStepCnt => s.time.stepCnt
  | .tmeRespTmo => s.time.respTmo
  | .tmeAsymInt n => s.time.asymInt[n]
  | .tmeAsymCable n => s.time.asymCable[n]
  | .rppStatus n => s.rppStatus n
  | .rppTaps n =>
    let p := s.rope.ports[n]
    word (fld p.trainTemp.toNat 16 + fld p.post 8 + fld p.main 4 + p.pre)
  | .rppDelay n => (s.rope.ports[n]).delay.setWidth 32
  | .rppCrcErr n => (s.rope.ports[n]).crcErr
  | .rppBadFrame n => (s.rope.ports[n]).badFrame
  | .rppLate n => (s.rope.ports[n]).late
  | .rppLoss n => (s.rope.ports[n]).loss
  | .rppTest n => (s.rope.ports[n]).test.word
  | .rppTestBitsLo n => ((s.rope.ports[n]).test.checked s.now).setWidth 32
  | .rppTestBitsHi n => (s.rope.ports[n]).bitsHi
  | .rppTestErrs n => (s.rope.ports[n]).test.errsAt n s.now
  | .rppTestInj _ => 0
  | .rppTopoChange => s.rope.topoChange
  | .rppTopoSel => word (bitAt s.rope.topoFull 7 + s.rope.topoSel.toNat)
  | .rppTopoSerialLo => ((s.rope.shown.map TopoEntry.serial).getD 0).setWidth 32
  | .rppTopoSerialHi => ((s.rope.shown.map TopoEntry.serial).getD 0).extractLsb' 32 32
  | .rppTopoInfo => (s.rope.shown.map TopoEntry.info).getD 0
  | .rppGevt => 0
  | .rppSiteLevel => s.rope.siteLevel.setWidth 32
  | .pwrStatus => s.pwrStatus
  | .pwrCtl => word (bitAt s.pwr.hbmSrEn 1 + bitAt s.pwr.warmArm 0)
  | .pwrReset => 0
  | .pwrResetCause => word (fld s.pwr.warmCnt.toNat 16 + s.pwr.cause.toNat)
  | .pwrTemp => word (fld (sfield 16 s.pwr.temps[s.hottest]) 16 + fld s.hottest.val 12 + s.pwr.warnCnt.toNat)
  | .pwrCl c => s.pwrCl c
  | .pwrClTol c => (s.pwr.cl[c]).tol
  | .calStatus => s.calStatus
  | .calRejCause => word (fld s.cal.rejCl.toNat 28 + s.cal.rejCause.toNat)
  | .calSeq => s.cal.seq
  | .calStoreCnt => word (fld (min s.recentStores 8) 28 + s.cal.total.toNat)
  | .calVrefMeas => s.cal.vrefMeas.setWidth 32
  | .calTinPhase => s.cal.tinPhase
  | .calSetTemp n => s.calSetTemp n
  | .calClStatus c => s.calClStatus c
  | .calClAge c => s.calClAge c
  | .schStatus => word (fld ((List.finRange 16).map fun (i : Fin 16) => bitAt (s.sched.cores[i]).run.isSome i).sum 16 + s.sched.reserve.toNat)
  | .schErr => s.sched.errWord
  | .schQdepth p => word (s.sched.queue.filter fun i => i.prio = p).length
  | .schDone p => s.sched.doneCnt[p]
  | .schFree => word s.sched.free
  | .schLost => s.sched.lost
  | .schCoreBusy n => (s.sched.cores[n]).ratio.setWidth 32
  | .schHist b => s.sched.hist[b]
  | .schFlowSel => s.sched.flowSel.setWidth 32
  | .schFlowInfo => s.flowInfo
  | .schFlowVarLo v => BitVec.ofInt 32 ((s.sched.flow s.sched.flowSel.toNat).vars[v])
  | .schFlowVarHi v => s.sched.varHi[v]
  | .secStatus => s.sec.status
  | .secMr i => (getN s.sec.mr (i.val / 8) 0).extractLsb' (32 * (i.val % 8)) 32
  | .secMr7Data w => s.sec.mr7Data[w]
  | .secMr7Ext => 0
  | .secSigNextLo => loWord s.sec.next
  | .secSigNextHi => s.sec.nextHi.setWidth 32
  | .secNbrNonce w => s.sec.nbrNonce[w]
  | .secNbrCtl => word s.sec.nbrPort.val
  | .secNbrStatus => s.sec.nbr.word
  | .secNbrFw => s.sec.nbr.fw
  | .secNbrMrd w => s.sec.nbr.mrd.extractLsb' (32 * w.val) 32
  | .memStatus => word (bitAt s.hbmFull 4 + bitAt s.mem.eccUeBit 3 + bitAt s.mem.reclaim 2 + bitAt s.mem.selfRef 1 + bitAt s.mem.ready 0)
  | .memEccCe => s.mem.eccCe
  | .memEccUe => s.mem.eccUe
  | .memEccAddr => s.mem.eccAddr
  | .memAdmit => word (fld s.mem.admEntry.toNat 16 + fld s.mem.admCl.toNat 12 + s.mem.admCause.toNat)
  | .memBlkNomask => s.mem.noMask
  | .memHbmFree => word (s.mem.freeBytes / 2 ^ 20)
  | .memEccWhere => word (bitAt s.mem.whereValid 31 + bitAt s.mem.whereVs 4 + s.mem.whereCl.toNat)
  | .memEccSeg => s.mem.eccSeg
  | .memVsUse c => s.vsUse c
  | .memUnderrunLo c => (s.mem.perCl[c]).underVaddr.setWidth 32
  | .memUnderrunHi c => word (bitAt (s.mem.perCl[c]).underrun 31) ||| (s.mem.perCl[c]).latchHi
  | .memBelayCnt c => (s.mem.perCl[c]).belayCnt
  | .memInState i =>
    let t := s.mem.ins[i]
    word (bitAt t.isOpen 31 + bitAt t.play 30 + bitAt t.tmo 29 + bitAt t.oversize 28 + t.head)
  | .memInSeq i => (s.mem.ins[i]).expect
  | .memInStaged i => word (s.mem.ins[i]).kib
  | .memInStale i => (s.mem.ins[i]).stale
  | .memInDense i => (s.mem.ins[i]).dense
  | .memOutState i => word (bitAt (s.mem.outs[i]).isOpen 31 + bitAt (s.mem.outs[i]).reclaim 30 + (s.mem.outs[i]).head)
  | .memOutSeq i => if i.val % 2 = 0 then (s.cl[streamCluster i.val]).cap.nextSeq else (s.cl[streamCluster i.val]).stamp.nextSeq
  | .memOutLevel i => word (s.mem.outs[i]).kib
  | .memOutReclaim i => (s.mem.outs[i]).reclaimBytes
  | .cluster c r => s.clReg c r

end Sys2Proof.Machine
end

