-- ==== Sys2Proof/Machine/HostRegs.lean ====
section
/-! DEFINITION. Register accesses (R8, R425 to R438): reads with their side effects, writes, the diagnostic window, I3C transfers, and
selections. -/
namespace Sys2Proof.Machine

/-! ## Reads (R8, R426, R434) -/

/-- What a read clears or latches in a cluster block. -/
def State.readCl (s : State) (c : Cluster) (r : ClReg) : State :=
  let k := s.site c
  match r with
  | .seqLate i => s.updSeq k fun q => { q with late := upd q.late i fun _ => 0 }
  | .seqFmtWarn => s.updCl c fun e => { e with dec := { e.dec with fmtWarn := 0 } }
  | .seqBlkReject => s.updCl c fun e => { e with dec := { e.dec with blkReject := 0 } }
  | .seqDcmpVcntLo => s.updCl c fun e => { e with latch := { e.latch with dcmpHi := e.dec.vcnt.extractLsb' 32 32 } }
  | .timVstartLo => s.updCl c fun e => { e with latch := { e.latch with vstartHi := e.tim.vstart.extractLsb' 32 32 } }
  | .timCutCnt => s.updCl c fun e => { e with tim := { e.tim with cutCnt := 0 } }
  | .lvlClipCnt => s.updCl c fun e => { e with lvl := { e.lvl with clipCnt := 0 } }
  | .capFirstFailLo => s.updCl c fun e => { e with latch := { e.latch with failHi := e.cap.firstFailHi } }
  | .capCmpCntLo => s.updCl c fun e => { e with latch := { e.latch with cmpHi := e.cap.cmpCnt.extractLsb' 32 32 } }
  | .capTailFail => s.updCl c fun e => { e with cap := { e.cap with tailFail := 0 } }
  | .capDropVec => s.updCl c fun e => { e with cap := { e.cap with dropVec := 0 } }
  | .capFifo => s.updCl c fun e => { e with cap := { e.cap with highWater := 0 }.noteFill }
  | .capTrigIgn => s.updCl c fun e => { e with cap := { e.cap with trigIgn := 0 } }
  | .capAcqTrigLo => s.updCl c fun e => { e with latch := { e.latch with acqHi := e.cap.acqTrigHi } }
  | .tdcFifo i => s.updCl c fun e => { e with tdc := upd e.tdc i fun t => { t with highWater := t.level e.stamp i.val s.net } }
  | .tdcLost i => s.updCl c fun e => { e with tdc := upd e.tdc i fun t => { t with lost := 0 } }
  | .tdcDead i => s.updCl c fun e => { e with tdc := upd e.tdc i fun t => { t with dead := 0 } }
  | .tdcCal i => s.updCl c fun e => { e with tdc := upd e.tdc i fun t => { t with abandoned := 0 } }
  | _ => s

/-- A window read of ID_DIAG_DATA_LO (R438): what it returns, and the state after it. A byte of HBM or of a vector store is a free value (log 6), and a
read of HBM ends self-refresh (R368); a corrected error is counted and reported (R159). The chapter names no outcome for CLUSTER 12 to 15: the selection
is taken, and the spaces of such a cluster are empty, so that a read returns 0 and sets RANGE (DESIGN CHOICE, log 36). -/
def State.diagRead (s : State) (ecc : ReadEcc) : Word × State :=
  let d := s.ids.diag
  let a := d.addr.toNat
  let c : Cluster := Fin.ofNat 12 d.cluster.toNat
  let gen := if d.space = 2 then (s.gens[c]).shadow.config.bytes else (s.config c).bytes
  let size := if d.space = 0 then hbmBytes else if 12 ≤ d.cluster.toNat then 0 else if d.space = 1 then 4 * 2 ^ 20 else gen.length
  let put := fun (s : State) (f : Diag → Diag) => ({ s with ids := { s.ids with diag := f s.ids.diag } } : State)
  let memory := d.space.toNat < 2
  if !d.active then (0, s)
  else if size ≤ a then (0, put s fun d => { d with range := true, hi := 0 })
  else
  let s := if d.space = 0 then s.askHbm else s
  if memory && ecc = .uncorrectable then
    (0xFFFFFFFF, put s fun d => { d with ue := true, hi := 0xFFFFFFFF, addr := d.addr + 8 })
  else
    let (s, v) := if memory then s.fresh else (s, u64At gen a)
    let s := if memory && ecc = .corrected then
        ({ s with mem := { s.mem with eccCe := satInc s.mem.eccCe } } : State).report 32 0 (BitVec.ofNat 32 (a / 8))
      else s
    (v.setWidth 32, put s fun d => { d with hi := v.extractLsb' 32 32, addr := d.addr + 8 })

/-- What a read of a register clears or latches (R8, R426). -/
def State.afterRead (s : State) (r : Reg) : State :=
  let port := fun (n : Port) (f : RopePort → RopePort) => s.updPort n f
  match r with
  | .page f .dbErr => s.updFn f fun h => { h with dbErr := 0 }
  | .page f .regErr => s.updFn f fun h => { h with regErr := 0 }
  | .page f (.site i w) => if w = 0 then s.updFn f fun h => { h with siteLatch := upd h.siteLatch i fun _ => s.siteRecord f i } else s
  | .cmdAbandon => { s with cmd := { s.cmd with abandons := 0 } }
  | .fltFirst w => if w = 0 then
      { s with flt := { s.flt with firstLatch := Vector.ofFn fun (i : Fin 12) => wordOf s.flt.firstBytes i.val } } else s
  | .fltSrc n => { s with flt := { s.flt with counts := s.flt.counts.filter fun p => p.1 ≠ n.val } }
  | .fltPlogStatus => { s with flt := { s.flt with plogDrop := 0 } }
  | .tmeNow0 =>
    let t := stampOf s.net
    { s with time := { s.time with now1 := t.extractLsb' 32 32, now2 := t.extractLsb' 64 32, short := shortOf s.net } }
  | .tmeOffsetLo => { s with time := { s.time with offHi := (BitVec.ofInt 64 s.time.theta).extractLsb' 32 32 } }
  | .tmeRespTmo => { s with time := { s.time with respTmo := 0 } }
  | .rppCrcErr n => port n fun p => { p with crcErr := 0 }
  | .rppBadFrame n => port n fun p => { p with badFrame := 0 }
  | .rppLate n => port n fun p => { p with late := 0 }
  | .rppLoss n => port n fun p => { p with loss := 0 }
  | .rppTestBitsLo n => port n fun p => { p with bitsHi := (p.test.checked s.now).extractLsb' 32 32 }
  | .pwrTemp => { s with pwr := { s.pwr with warnCnt := 0 } }
  | .schLost => { s with sched := { s.sched with lost := 0 } }
  | .schHist b => { s with sched := { s.sched with hist := upd s.sched.hist b fun _ => 0 } }
  | .schFlowVarLo v =>
    let x := (s.sched.flow s.sched.flowSel.toNat).vars[v]
    { s with sched := { s.sched with varHi := upd s.sched.varHi v fun _ => (BitVec.ofInt 64 x).extractLsb' 32 32 } }
  | .secSigNextLo => { s with sec := { s.sec with nextHi := BitVec.ofNat 8 (s.sec.next / 2 ^ 32) } }
  | .memEccCe => { s with mem := { s.mem with eccCe := 0 } }
  | .memEccUe => { s with mem := { s.mem with eccUe := 0 } }
  | .memBlkNomask => { s with mem := { s.mem with noMask := 0 } }
  | .memUnderrunLo c => { s with mem := { s.mem with perCl := upd s.mem.perCl c fun x =>
      { x with latchHi := word (fld x.underStream.val 16 + bitsOf x.underVaddr.toNat 32 16) } } }
  | .memBelayCnt c => { s with mem := { s.mem with perCl := upd s.mem.perCl c fun x => { x with belayCnt := 0 } } }
  | .memInStale i => { s with mem := { s.mem with ins := upd s.mem.ins i fun t => { t with stale := 0 } } }
  | .memInDense i => { s with mem := { s.mem with ins := upd s.mem.ins i fun t => { t with dense := 0 } } }
  | .memOutReclaim i => { s with mem := { s.mem with outs := upd s.mem.outs i fun t => { t with reclaimBytes := 0 } } }
  | .cluster c x => s.readCl c x
  | .idDiagDataLo => (s.diagRead .clean).2
  | _ => s

/-- What an access of a function's BAR meets (R219, R424, R430): nothing beyond the BAR or where the function has none, a doorbell page, a register,
or a reserved offset. -/
inductive Place where
  | outside | doorbells | reserved | reg (r : Reg)
  deriving DecidableEq, Repr

def placeAt (f : Func) (bar2 : Bool) (addr : BitVec 24) : Place :=
  if (bar2 && f ≠ 0) || barSize f bar2 ≤ addr.toNat then .outside
  else if (bar2 || f ≠ 0) && addr.toNat < 0x1000 then .doorbells
  else if bar2 then .reserved
  else match regAt f addr with
    | some r => .reg r
    | none => .reserved

/-- What a read of 2^`width` bytes gives of the word it falls into: the addressed bytes (R425). -/
def narrow (addr : BitVec 24) (width : Fin 3) (w : Word) : Word := BitVec.ofNat 32 (w.toNat / 2 ^ (8 * (addr.toNat % 4)) % 2 ^ (8 * 2 ^ width.val))

/-- A read by function `f` at an offset of its BAR0 or BAR2 (R219, R424, R425, R430): a reserved offset and a doorbell page read 0 (R220); without
access all ones come back (R233), and the same beyond a BAR (log 36). A narrow read has every side effect of a read of its word. The value stands on
the bus (log 9). -/
def State.hostRead (s : State) (f : Func) (bar2 : Bool) (addr : BitVec 24) (width : Fin 3 := 2) : State :=
  let bus := fun (s : State) (v : Word) => ({ s with host := { s.host with busRead := some (narrow addr width v) } } : State)
  if !s.barOpen f then bus s 0xFFFFFFFF
  else match placeAt f bar2 addr with
    | .outside => bus s 0xFFFFFFFF
    | .doorbells | .reserved => bus s 0
    | .reg .idDiagDataLo => let s := s.playAll; bus (s.diagRead .clean).2 (s.diagRead .clean).1
    | .reg r => let s := s.playAll; bus (s.afterRead r) (s.regWord r)

/-- RC_REGISTER_READ (R8, R425). -/
def execRcRegisterRead (f : Func) (addr : BitVec 24) (s : State) (bar2 : Bool := false) (width : Fin 3 := 2) : Host.Outcome State Fault Refusal :=
  .next (s.hostRead f bar2 addr width)

/-- LATCHED_PAIR_READ (R425, R426, R434): the pairs stand in BAR0. -/
def execLatchedPairRead (f : Func) (addr : BitVec 24) (s : State) (width : Fin 3 := 2) : Host.Outcome State Fault Refusal :=
  .next (s.hostRead f false addr width)

/-- DIAG_WINDOW_READ: the PF reads ID_DIAG_DATA_LO (R438). -/
def execDiagWindowRead (ecc : ReadEcc) (s : State) : Host.Outcome State Fault Refusal :=
  let (v, t) := if s.barOpen 0 then s.diagRead ecc else (0xFFFFFFFF, s)
  .next { t with host := { t.host with busRead := some v } }

/-! ## Writes (R425, R433, R435, R436) -/

/-- A bit a write of 1 clears. -/
def w1c (old : Bool) (v : Word) (i : Nat) : Bool := old && !v.getLsbD i

/-- Writes to a function's own page (R432, R433, R436): a locked ring or a size out of range counts. -/
def State.writePage (s : State) (f : Func) (r : PageReg) (v : Word) : State :=
  let h := s.host.fn[f]
  let sq := fun (i : Fin 4) (g : SubRing → SubRing) =>
    if (h.sq[i]).en then s.countReg f else s.updFn f fun h => { h with sq := upd h.sq i g }
  let rq := fun (g : ReplyRing → ReplyRing) => if h.rq.en then s.countReg f else s.updFn f fun h => { h with rq := g h.rq }
  let lo := fun (b : BitVec 64) => b.extractLsb' 32 32 ++ (v &&& 0xFFFFF000)
  let hi := fun (b : BitVec 64) => v ++ b.setWidth 32
  let n := v.toNat % 32
  match r with
  | .status => if f = 0 then { s with host := { s.host with ownRefused := w1c s.host.ownRefused v 31 } } else s
  | .sqBaseLo i => sq i fun q => { q with base := lo q.base }
  | .sqBaseHi i => sq i fun q => { q with base := hi q.base }
  | .rqBaseLo => rq fun q => { q with base := lo q.base }
  | .rqBaseHi => rq fun q => { q with base := hi q.base }
  | .rqSize => if 12 ≤ n && n ≤ 20 then rq fun q => { q with log2 := n } else s.countReg f
  | .sqSize i => if 12 ≤ n && n ≤ 24 then sq i fun q => { q with log2 := n } else s.countReg f
  | _ => s

/-- Writes to a cluster block (R436). -/
def State.writeCl (s : State) (c : Cluster) (r : ClReg) (v : Word) : State :=
  let byte := fun (i : Nat) => BitVec.ofNat 8 (bitsOf v.toNat i 8)
  match r with
  | .seqCtl => s.updCl c fun e =>
      { e with io := { e.io with ctl := ⟨v.extractLsb' 16 16, v.getLsbD 2, v.getLsbD 1, v.getLsbD 0⟩ } }
  | .seqTrigCfg => s.updCl c fun e =>
      { e with io := { e.io with trig := ⟨v.extractLsb' 17 9, v.extractLsb' 8 9, v.getLsbD 1, v.getLsbD 0⟩ } }
  | .seqStatus => s.updSeq (s.site c) fun q =>
      { q with lateFlag := w1c q.lateFlag v 2, startSlip := w1c q.startSlip v 3, notRun := w1c q.notRun v 4, aborted := w1c q.aborted v 5,
               chainTmo := w1c q.chainTmo v 6, stackErr := w1c q.stackErr v 7, condMiss := w1c q.condMiss v 8 }
  | .seqEvtLatch => s.updCl c fun e =>
      { e with io := { e.io with evt0 := w1c e.io.evt0 v 0, evt1 := w1c e.io.evt1 v 1, gevt := e.io.gevt &&& ~~~(byte 2) } }
  | .seqFmtCause => s.updCl c fun e =>
      { e with dec := { e.dec with rsvdCode := w1c e.dec.rsvdCode v 0, scanOut := w1c e.dec.scanOut v 1,
                                   pinSeen := e.dec.pinSeen &&& ~~~(byte 8) } }
  | .seqBlkCause => s.updCl c fun e => { e with dec := { e.dec with blkCause := e.dec.blkCause &&& ~~~(v.setWidth 14) } }
  | .timStatus => s.updCl c fun e => { e with tim := { e.tim with cut := w1c e.tim.cut v 0 } }
  | .lvlStatus => s.updCl c fun e => { e with lvl := { e.lvl with lvlSc := e.lvl.lvlSc &&& ~~~(byte 24) } }
  | .lvlSet => s.updCl c fun e => { e with lvl := { e.lvl with clip := w1c e.lvl.clip v 20 } }
  | .capStatus => s.updCl c fun e =>
      { e with cap := { e.cap with acqDone := w1c e.cap.acqDone v 18, forced := w1c e.cap.forced v 17, trunc := w1c e.cap.trunc v 16,
                                   boundary := w1c e.cap.boundary v 5, loss := w1c e.cap.loss v 4, tail := w1c e.cap.tail v 3 } }
  | .tdcStatus => s.updCl c fun e =>
      { e with tdc := Vector.ofFn fun (i : Fin 8) =>
          { e.tdc[i] with ovf := w1c (e.tdc[i]).ovf v (16 + i), boundary := w1c (e.tdc[i]).boundary v (8 + i) } }
  | .tdcCal i => s.updCl c fun e =>
      { e with tdc := upd e.tdc i fun t => { t with dnl := w1c t.dnl v 18, width := w1c t.width v 17, sum := w1c t.sum v 16 } }
  | _ => s

/-- A late start of every site tries again (R67, R363). -/
def State.retryLate (s : State) : State := s.siteIdxs.foldl State.tryLate s

/-- Writes by the PF to the other registers (R436, R438). A register with a row of its own is written by that row. Outside diagnostic mode only ENTER
and KEY of ID_DIAG_CTL take a write, and without the key it has no effect (R436, R437). -/
def State.writeReg (s : State) (r : Reg) (v : Word) : State :=
  match r with
  | .idScratch => { s with ids := { s.ids with scratch := v } }
  | .idDiagCtl => if v.extractLsb' 16 16 ≠ 0x4449 || !s.ids.diag.active then s
      else { s with ids := { s.ids with diag := { s.ids.diag with range := w1c s.ids.diag.range v 5, ue := w1c s.ids.diag.ue v 4,
                                                                         refused := w1c s.ids.diag.refused v 3 } } }
  | .idDiagSel => if !s.ids.diag.active then s.countReg 0
      else { s with ids := { s.ids with diag := { s.ids.diag with cluster := v.extractLsb' 8 4, space := v.extractLsb' 0 2 } } }
  | .idDiagAddrLo => if !s.ids.diag.active then s.countReg 0
      else { s with ids := { s.ids with diag := { s.ids.diag with addr := s.ids.diag.addr.extractLsb' 32 3 ++ (v &&& 0xFFFFFFF8) } } }
  | .idDiagAddrHi => if !s.ids.diag.active then s.countReg 0
      else { s with ids := { s.ids with diag := { s.ids.diag with addr := v.extractLsb' 0 3 ++ s.ids.diag.addr.setWidth 32 } } }
  | .idI3cCtl => if s.ids.i3c.busy then s
      else { s with ids := { s.ids with i3c := { s.ids.i3c with dir := v.getLsbD 30, len := v.extractLsb' 24 5, reg := v.extractLsb' 16 8,
                                                                pin := v.extractLsb' 0 7 } } }
  | .idI3cData w => if s.ids.i3c.busy then s
      else { s with ids := { s.ids with i3c := { s.ids.i3c with data := upd s.ids.i3c.data w fun _ => v } } }
  | .idI3cStatus =>
    let x := s.ids.i3c
    { s with ids := { s.ids with i3c := { x with overrun := w1c x.overrun v 5, bad := w1c x.bad v 4, absent := w1c x.absent v 3,
                                                 nack := w1c x.nack v 2, done := w1c x.done v 1 } } }
  | .memStatus => { s with mem := { s.mem with eccUeBit := w1c s.mem.eccUeBit v 3, reclaim := w1c s.mem.reclaim v 2 } }
  | .memUnderrunHi c => { s with mem := { s.mem with perCl := upd s.mem.perCl c fun x => { x with underrun := w1c x.underrun v 31 } } }
  | .memInState i => { s with mem := { s.mem with ins := upd s.mem.ins i fun t =>
      { t with tmo := w1c t.tmo v 29, oversize := w1c t.oversize v 28 } } }
  | .memOutState i => { s with mem := { s.mem with outs := upd s.mem.outs i fun t => { t with reclaim := w1c t.reclaim v 30 } } }
  | .schFlowSel => { s with sched := { s.sched with flowSel := v.setWidth 12 } }
  | .schErr =>
    let x := s.sched
    { s with sched := { x with badOpnd := w1c x.badOpnd v 4, noTable := w1c x.noTable v 3, refused := w1c x.refused v 2,
                               watchdog := w1c x.watchdog v 1, overflow := w1c x.overflow v 0 } }
  | .rppStatus n => s.updPort n fun p =>
      { p with lateSeen := w1c p.lateSeen v 2, trainFail := w1c p.trainFail v 1, linkDown := w1c p.linkDown v 0 }
  | .tmeStatus => { s with time := { s.time with holdSeen := w1c s.time.holdSeen v 8 } }
  | .calStatus => { s with cal := { s.cal with older := w1c s.cal.older v 2, reject := w1c s.cal.reject v 1 } }
  | .calRejCause => { s with cal := { s.cal with rejCause := s.cal.rejCause &&& ~~~(v.setWidth 10) } }
  | .pwrCtl => (s.setPower { s.pwr with
      hbmSrEn := v.getLsbD 1, warmArm := v.getLsbD 0, hbmIdle := if s.pwr.hbmSrEn then s.pwr.hbmIdle else s.now }).retryLate
  | .secStatus => { s with sec := { s.sec with fallback := w1c s.sec.fallback v 2 } }
  | .secMr7Data w => { s with sec := { s.sec with mr7Data := upd s.sec.mr7Data w fun _ => v } }
  | .secNbrNonce w => { s with sec := { s.sec with nbrNonce := upd s.sec.nbrNonce w fun _ => v } }
  | .secNbrCtl => { s with sec := { s.sec with nbrPort := Fin.ofNat 4 v.toNat } }
  | .cluster c x => s.writeCl c x v
  | _ => s

/-- A doorbell stands at the offset of a doorbell page (R220). -/
def isDoorbell (off : Nat) : Bool := off < 0x14 || (0x40 ≤ off && off < 0x100)

/-- The PF's access falls into a VF's function page, at a register or a reserved offset (R430). -/
def inVfPage (f : Func) (bar2 : Bool) (addr : BitVec 24) : Bool := f = 0 && !bar2 && 0x12000 ≤ addr.toNat && addr.toNat < 0x1E000

/-- REGISTER_WRITE (R219, R220, R425, R430, R433, R436, R438). What the vectors due by now have set is set before a write of 1 clears it. -/
def execRegisterWrite (f : Func) (addr : BitVec 24) (value : Word) (whole : Bool) (s : State) (bar2 : Bool := false) : Host.Outcome State Fault Refusal :=
  if !s.barOpen f then .next s
  else .next (match placeAt f bar2 addr with
    | .outside => s
    | .doorbells => if isDoorbell addr.toNat && addr.toNat % 4 = 0 && whole then s else s.countDb f
    | .reserved => if whole && addr.toNat % 4 = 0 && !inVfPage f bar2 addr then s else s.countReg 0
    | .reg r =>
      if !whole || addr.toNat % 4 ≠ 0 then s.countReg 0
      else match r with
        | .page g x => if g = f then s.writePage f x value else s.countReg 0
        | r => s.playAll.writeReg r value)

/-! ## Diagnostic mode (R437) -/

/-- DIAG_ENTER. -/
def execDiagEnter (key : BitVec 16) (s : State) : Host.Outcome State Fault Refusal :=
  if key ≠ 0x4449 || !s.barOpen 0 then .next s
  else if s.allQuiet then .next { s with ids := { s.ids with diag := { s.ids.diag with active := true } } }
  else .next { s with ids := { s.ids with diag := { s.ids.diag with refused := true } } }

/-- DIAG_EXIT. -/
def execDiagExit (key : BitVec 16) (s : State) : Host.Outcome State Fault Refusal :=
  if key ≠ 0x4449 || !s.barOpen 0 then .next s
  else .next { s with ids := { s.ids with diag := { s.ids.diag with active := false } } }

/-! ## I3C transfers (R429) -/

/-- Byte `i` of the transfer data. -/
def I3c.bytes (x : I3c) : List Byte := wordsBytes x.data.toList

/-- I3C_TRANSFER_GO: a write of ID_I3C_CTL with GO. -/
def execI3cTransferGo (ctl : Word) (s : State) : Host.Outcome State Fault Refusal :=
  let put := fun (x : I3c) => Host.Outcome.next ({ s with ids := { s.ids with i3c := x } } : State)
  if !s.barOpen 0 then .next s
  else if s.ids.i3c.busy then put { s.ids.i3c with overrun := true }
  else
    let n := bitsOf ctl.toNat 24 5
    let pin := bitsOf ctl.toNat 0 7
    let x := { s.ids.i3c with dir := ctl.getLsbD 30, len := ctl.extractLsb' 24 5, reg := ctl.extractLsb' 16 8, pin := ctl.extractLsb' 0 7 }
    if 95 < pin || n = 0 || 16 < n then put { x with bad := true }
    else if !s.present.getLsbD pin then put { x with absent := true }
    else put { x with busy := true, sent := if x.dir then x.sent else x.sent ++ [(pin, x.reg, x.bytes.take n)] }

/-- I3C_TRANSFER_DONE. -/
def execI3cTransferDone (nack : Bool) (data : List Byte) (s : State) : Host.Outcome State Fault Refusal :=
  let x := s.ids.i3c
  if !x.busy then .next s
  else
    let n := x.len.toNat
    let got := padTo n data ++ x.bytes.drop n
    let words := if x.dir && !nack then Vector.ofFn fun (i : Fin 4) => wordOf got i.val else x.data
    .next { s with ids := { s.ids with i3c := { x with busy := false, done := true, nack := x.nack || nack, data := words } } }

/-! ## Selections (R303, R359), MR7 (R387) -/

/-- TOPO_SELECT: a write to RPP_TOPO_SEL (R303). -/
def execTopoSelect (value : Word) (s : State) : Host.Outcome State Fault Refusal :=
  if !s.barOpen 0 then .next s
  else
    let n := value.toNat % 64
    .next { s with rope := { s.rope with topoFull := w1c s.rope.topoFull value 7, topoSel := BitVec.ofNat 6 n, shown := s.rope.topo[n]? } }

/-- FLT_HIST_SELECT (R359): entry 0 is the newest. -/
def execFltHistSelect (value : Word) (s : State) : Host.Outcome State Fault Refusal :=
  if !s.barOpen 0 then .next s
  else
    let n := value.toNat % 32
    .next { s with flt := { s.flt with histSel := BitVec.ofNat 5 n, histShow := s.flt.history[n]? } }

/-- FLT_PLOG_SELECT (R359): record 0 is the newest of those read at boot. -/
def execFltPlogSelect (value : Word) (s : State) : Host.Outcome State Fault Refusal :=
  if !s.barOpen 0 then .next s
  else
    let n := value.toNat % 64
    .next { s with flt := { s.flt with plogSel := BitVec.ofNat 6 n, plogShow := s.flt.loaded[n]? } }

/-- MR7_EXTEND: a write of SEC_MR7_EXT.GO (R387). -/
def execMr7Extend (value : Word) (s : State) : Host.Outcome State Fault Refusal :=
  if !s.barOpen 0 || !value.getLsbD 0 then .next s
  else .next { s with sec := s.sec.extend 7 (BitVec.ofNat 256 (leNat (wordsBytes s.sec.mr7Data.toList))) }

end Sys2Proof.Machine
end

