-- ==== Sys2Proof/Machine/Resets.lean ====
section
/-! DEFINITION. Resets, boot and clocks (R17, R233, R234, R307, R341, R355, R357, R361, R362, R370 to R374, R384 to R390). -/
namespace Sys2Proof.Machine

/-- The resets of R370. -/
inductive ResetKind where
  | porst | perst | warm
  deriving DecidableEq, Repr

/-! ## What a reset leaves (R355, R370) -/

/-- The security unit: flash and OTP content stay, and what boot takes from the records is as they show it (R379, R380, R383, R389); nothing writes
flash before boot reads it. -/
def Security.cleared (x : Security) : Security :=
  { slots := x.slots, bootLog := x.bootLog, journal := x.journal, treeLog := x.treeLog, rollback := x.rollback, bootSlot := x.bootSlot : Security }.reread

/-- The fault collector: PORST_N clears all but the log in flash (R355, R356); its cycle in hand is over by then. -/
def Faults.cleared (x : Faults) (k : ResetKind) : Faults :=
  if k = .porst then { active := x.active, sector := x.sector, other := x.other, pseq := x.pseq } else x

/-- The power manager: conditions outside the device stay; the base-camp registers stay but under PORST_N (R377);
ALIVE holds its level (R371). -/
def Power.cleared (x : Power) (k : ResetKind) : Power :=
  let kept : Power :=
    { porst := x.porst, perst := x.perst, refclkOk := x.refclkOk, bcIntosc := x.bcIntosc, tripped := x.tripped, supplyOut := x.supplyOut,
      straps := x.straps, alive := x.alive, cause := match k with | .porst => 1 | .perst => 2 | .warm => 4 }
  match k with
  | .porst => kept
  | .perst => { kept with ocxo := x.ocxo, tbWarm := x.tbWarm, thermWarn := x.thermWarn, hbmSrEn := x.hbmSrEn, warmArm := x.warmArm,
                          warmCnt := x.warmCnt }
  | .warm => { kept with ocxo := x.ocxo, tbWarm := x.tbWarm, thermWarn := x.thermWarn, hbmSrEn := x.hbmSrEn, warmArm := x.warmArm,
                         warmCnt := satInc x.warmCnt, link := x.link, hbm := if x.hbm = 3 then 3 else 1 }

/-- The host port: a WARM reset keeps configuration space, ownership, ring bases and sizes, and clears the enables (R370). -/
def HostPort.cleared (x : HostPort) (k : ResetKind) : HostPort :=
  match k with
  | .warm => { x with samples := {}, fn := x.fn.map fun h =>
      { h with sq := h.sq.map fun q => { q with en := false, part := 0 }, rq := { h.rq with en := false, open_ := false }, mirrorOn := false,
               siteLatch := Vector.replicate 12 (List.replicate 32 0) } }
  | _ => { writes := x.writes, reads := x.reads, busRead := x.busRead }

/-- The time unit keeps its state through WARM, an exchange still open among it, which its timeout counts (R307, R310); with a ROPE source whose port is
reset it goes into HOLDOVER (R307, R370). -/
def TimeUnit.cleared (x : TimeUnit) (k : ResetKind) : TimeUnit :=
  if k = .warm then
    if x.source = .rope && x.state = .locked then { x with state := .holdover, holdSeen := true, corr := 0 } else x
  else {}

/-- The identification block: the I3C target port is in the base-camp domain (R408). -/
def IdBlock.cleared (x : IdBlock) (k : ResetKind) : IdBlock := { dynAddr := if k = .porst then none else x.dynAddr }

/-- The state a reset leaves: every pin parked, nothing booted (R370, R371); the scheduler's first window of R211 begins. -/
def State.cleared (s : State) (k : ResetKind) : State :=
  let flt := s.issueFaults.flt.cleared k
  { pending := s.pending, now := s.now, netOff := s.netOff, free := s.free,
    cl := Vector.ofFn fun (c : Fin 12) => { lvl := ({} : Levels).park (flt.parked.getLsbD c.val) s.net },
    mem := { ready := k = .warm && s.mem.ready }, sched := { window := s.now },
    rope := { sent := s.rope.sent },
    time := s.time.cleared k, cal := { flash := s.cal.flash }, pwr := s.pwr.cleared k, flt := flt, host := s.host.cleared k,
    sec := s.sec.cleared, ids := s.ids.cleared k }

/-- Power is lost (R383, R389): how much is there of a record written at that instant is free (log 12). -/
def State.powerLoss (s : State) : State :=
  if s.sec.wrote.any fun w => w.1 = s.now then
    let (s, v) := s.fresh
    { s with sec := s.sec.cutShort s.now (v.toNat % 4097) }
  else s

/-- PORST_ASSERT (R370, R371). -/
def execPorstAssert (s : State) : Host.Outcome State Fault Refusal :=
  if s.pwr.porst then .next s
  else
    let s := s.powerLoss.cleared .porst
    .next { s with pwr := { s.pwr with porst := true } }

/-- PERST_ASSERT (R370, R371). -/
def execPerstAssert (s : State) : Host.Outcome State Fault Refusal :=
  if s.pwr.perst then .next s
  else if s.pwr.porst then .next { s with pwr := { s.pwr with perst := true } }
  else
    let s := s.cleared .perst
    .next { s with pwr := { s.pwr with perst := true } }

/-- WARM_RESET: the PF writes PWR_RESET (R370). -/
def execWarmReset (value : Word) (s : State) : Host.Outcome State Fault Refusal :=
  if !s.barOpen 0 || value.toNat / 2 ^ 16 ≠ 0x5741 || !value.getLsbD 0 then .next s
  else
    let held := s.time.source = .rope && s.time.state = .locked
    let s := s.cleared .warm
    .next (if held then s.report 40 0 0 else s)

/-- PORST_DEASSERT: the straps are sampled (R409). -/
def execPorstDeassert (straps : BitVec 4) (s : State) : Host.Outcome State Fault Refusal :=
  if !s.pwr.porst then .next s
  else .next { s with pwr := { s.pwr with porst := false, straps := straps } }

/-! ## Boot (R373) -/

/-- The bundle in a slot boots: it is measured (R387). -/
def Security.measured (x : Security) (slot : Fin 2) : Security :=
  let h := (x.slots[slot]).header
  let x := { x with bootSlot := slot, header := h }
  let d0 := Config.shake256 (leBytes 4 Config.romVersion.toNat ++ leBytes 32 Config.fwKeyHash.toNat ++ leBytes 32 Config.caKeyHash.toNat
    ++ leBytes 1 x.rollback ++ leBytes 1 slot.val ++ leBytes 1 (bitAt x.fallback 0))
  ((((x.extend 0 d0).extend 1 (Config.shake256 h)).extend 2 (digestOf h 0)).extend 3 (digestOf h 1)).extend 4 (digestOf h 2)

/-- The firmware step: the chosen slot, else the other one with FALLBACK, else no image (R384, R385). -/
def Security.load (x : Security) (now : Nat) (slot : Fin 2) : Option Security :=
  if (x.slots[slot]).valid x.rollback then some (x.measured slot)
  else if (x.slots[slot + 1]).valid x.rollback then
    some (({ x with fallback := true }.bootRecord now (slot + 1) none).measured (slot + 1))
  else none

/-- The valid image with the largest SEQ, with its slot (R341). -/
def Cal.newest (x : Cal) : Option (Fin 32 × CalCommit × Vector (Option (Vector CalSet 12)) 5) :=
  (List.finRange 32).foldl (fun m i => match x.flash[i] with
    | .image r _ v =>
      if (x.flash[i]).valid i && (m.map fun (_, p, _) => decide (p.seq < r.seq)).getD true then some (i, r, v) else m
    | .erased | .partialStore => m) none

/-- The calibration unit loads its image, and MR5 is extended (R341, R387). -/
def State.loadCal (s : State) : State :=
  match s.cal.newest with
  | none => { s with cal := { s.cal with none_ := true }, sec := s.sec.extend 5 0 }
  | some (i, r, v) =>
    let after := s.cal.flash[i + 1]
    { s with cal := { s.cal with image := v, slot := i, seq := r.seq, older := after ≠ .erased && !after.valid (i + 1) },
             sec := s.sec.extend 5 r.digest }

/-- PSEQ of a record as a number. -/
def PlogRec.key (r : PlogRec) : Nat := r.pseq.toNat

/-- The persistent log is read at the first boot after PORST_N (R357, R359). -/
def Faults.readLog (x : Faults) : Faults :=
  let all := (x.active ++ x.other)
  let sorted := all.foldl (fun l r => l.filter (fun y => r.key ≤ y.key) ++ [r] ++ l.filter (fun y => y.key < r.key)) []
  { x with loaded := sorted.take 64, read := true, pseq := ((sorted.head?).map (·.pseq)).getD 0 }

/-- The steps of boot from a slot, but for its completion (R373); the micro-store, the cores and the rope ports are loaded from the
bundle (R267, R384). -/
def State.boot (s : State) (slot : Fin 2) (fromTry hbmOk : Bool) (chips : BitVec 96) : State :=
  match s.sec.load s.now slot with
  | none => { s with sec := { s.sec with noImage := true, bootSlot := 0 }, pwr := { s.pwr with phase := .stopped } }
  | some sec =>
    let warm := s.pwr.cause = 4
    let s := { s with sec := { sec with next := sec.end_, nextHi := BitVec.ofNat 8 (sec.end_ / 2 ^ 32) }.readCert,
                      cmd := { s.cmd with store := sec.slots[sec.bootSlot] }, sched := { s.sched with code := sec.slots[sec.bootSlot] },
                      rope := { s.rope with code := sec.slots[sec.bootSlot] }, present := chips, ids := { s.ids with assigned := chips },
                      pwr := { s.pwr with phase := .booting s.now (fromTry && sec.bootSlot = slot) } }
    let hbm := if hbmOk then 1 else 3
    let cold : State := { s with netOff := -(s.now : Int), mem := { s.mem with ready := hbmOk }, pwr := { s.pwr with hbm := hbm } }
    let s := if warm then s else cold
    let s := s.loadCal
    if warm || hbmOk then s else s.report 4 0 0

/-- The pins whose companion chip qualifies (R406): one chip alone claims the index, on the index's bus, and shows contract revision 0x01. -/
def qualified (chips : BitVec 96) (others : List Chip) : BitVec 96 :=
  (List.finRange 96).foldl (fun m (p : Pin) =>
    let good : List Chip := if chips.getLsbD p.val then [⟨Fin.ofNat 2 (p.val / 48), BitVec.ofNat 12 p.val, 1⟩] else []
    match good ++ others.filter (fun x => x.id.toNat = p.val) with
    | [x] => if x.bus.val = p.val / 48 && x.contract = 1 then setBit m p.val else m
    | _ => m) 0

/-- BOOT_START: both reset balls are high, or a WARM reset goes on to its boot (R372, R373). -/
def execBootStart (hbmOk : Bool) (chips : BitVec 96) (s : State) (others : List Chip := []) : Host.Outcome State Fault Refusal :=
  if s.pwr.porst || s.pwr.phase ≠ .held then .next s
  else
    let s := { s with pwr := { s.pwr with perst := false }, flt := if s.flt.read then s.flt else s.flt.readLog }
    if !s.pwr.refclkOk then .next s
    else if s.pwr.cause = 4 then .next (s.boot s.sec.bootSlot false hbmOk (qualified chips others))
    else .next (s.boot (s.sec.try_.getD s.sec.active) s.sec.try_.isSome hbmOk (qualified chips others))

/-- Each cluster's targets come into force directly (R336). -/
def State.forceTargets (s : State) : State :=
  (List.finRange 12).foldl (fun s c =>
    let t := s.calTarget c
    let s := s.updCl c fun e => e.putCoeffs t
    { s with cal := { s.cal with cl := upd s.cal.cl c fun x => { x with target := t, applied := satInc x.applied } } }) s

/-- The master and control PLLs are locked, without which boot does not go on (R361, R373). -/
def State.locked (s : State) : Bool := s.pwr.refclkOk && !s.pwr.pllLost

/-- BOOT_COMPLETE (R233, R358, R373, R385, R386, R390): clusters are in BIVOUAC until boot completes (R370), and enter their chosen state
10 µs after (R373). -/
def execBootComplete (s : State) : Host.Outcome State Fault Refusal :=
  match s.pwr.phase with
  | .booting _ fromTry =>
    if !s.locked then .next s else
    let x := if fromTry then s.sec.bootRecord s.now s.sec.bootSlot none else s.sec
    let x := { x with rollback := max x.rollback (epochOf x.header) }
    let s := ({ s with sec := x.plant } : State).forceTargets
    let s := { s with pwr := { s.pwr with phase := .ready, bootDone := true, aliveRun := !s.devFault, quiet := s.now, hbmIdle := s.now,
                                          cl := s.pwr.cl.map fun (p : PwrCl) => { p with state := 1, goal := 1, since := s.now } } }
    .next s.repick
  | _ => .next s

/-- TRY_BOOT_TIMEOUT: a boot from TRY has not completed after 1 s (R385). The PLLs lock afresh; without REFCLK the restarted boot waits (R373). -/
def execTryBootTimeout (hbmOk : Bool) (chips : BitVec 96) (s : State) (others : List Chip := []) : Host.Outcome State Fault Refusal :=
  match s.pwr.phase with
  | .booting since true =>
    let s := s.advance (since + 1000 * msUnits)
    let slot := s.sec.bootSlot + 1
    let c := s.pwr.cause
    let s := s.cleared (if c = 1 then .perst else if c = 2 then .perst else .warm)
    let s := { s with sec := { s.sec.cancelTry s.now with fallback := true }, pwr := { s.pwr with cause := c } }
    .next (if s.pwr.refclkOk then s.boot slot false hbmOk (qualified chips others) else s)
  | _ => .next s

/-- FUNCTION_LEVEL_RESET (R234). -/
def execFunctionLevelReset (f : Func) (s : State) : Host.Outcome State Fault Refusal :=
  if !s.isReady || s.host.numVfs.val < f.val then .next s else .next (s.resetFunction f)

/-! ## Clocks (R17, R361, R362) -/

/-- REFCLK_LOSS (R361): the base-camp clock switches over, and the master and control PLLs lose lock where they have one. -/
def execRefclkLoss (s : State) (running : Option Routine := none) : Host.Outcome State Fault Refusal :=
  if !s.pwr.refclkOk then .next s
  else
    let t := { s with pwr := { s.pwr with refclkOk := false, bcIntosc := true, pllLost := s.pwr.pllLost || s.pwr.phase ≠ .held } }
    .next (if s.clockRuns .control then t.collectOver running [⟨2, 0, 0⟩, ⟨2, 0, 1⟩] else t)

/-- REFCLK_RETURN (R17, R361): the PLLs relock at the next reset. -/
def execRefclkReturn (s : State) : Host.Outcome State Fault Refusal :=
  .next { s with pwr := { s.pwr with refclkOk := true, bcIntosc := false } }

/-- OCXO_READY_CHANGE: a level stable for 1 ms is accepted (R362). -/
def execOcxoReadyChange (level : Bool) (s : State) : Host.Outcome State Fault Refusal :=
  if s.pwr.porst then .next s
  else .next (s.setPower { s.pwr with ocxo := level, tbWarm := !level }).retryLate

end Sys2Proof.Machine
end

