-- ==== Sys2Proof/Machine/Stamps.lean ====
section
/-! DEFINITION. Events of the time measurement (R140 to R156, R327): edges, FIFO losses, stamp blocks, gap cairns, code-density runs. -/
namespace Sys2Proof.Machine

/-- The cluster and channel of a device pin (R1). -/
def pinCluster (p : Pin) : Cluster := Fin.ofNat 12 (p.val / 8)

def pinLane (p : Pin) : Lane := Fin.ofNat 8 (p.val % 8)

/-- The route of a channel's input (R85, R140): direct, or through the multiplexed pair. -/
def ClusterConfig.route (g : ClusterConfig) (k : Lane) : Nat := if g.muxed k.val && k.val % 2 = 1 then 8 + k.val / 2 else k.val

def State.updChan (s : State) (c : Cluster) (k : Lane) (f : TdcChan → TdcChan) : State := s.updCl c fun e => { e with tdc := upd e.tdc k f }

/-- Whether a channel of the device is enabled. -/
def State.chanOn (s : State) (pin : Nat) : Bool :=
  (getN (s.config (Fin.ofNat 12 (pin / 8))).tdc (pin % 8) {}).en

/-- Every pair entry that names the channel takes its stamp (R153). -/
def State.pairStamp (s : State) (pin : Nat) (t : Int) : State :=
  { s with pairs := s.pairs.map fun p =>
      if p.en && (p.pinA = pin || p.pinB = pin) && s.chanOn p.pinA && s.chanOn p.pinB then p.stamp (p.pinA = pin) t else p }

/-- A stamp enters the channel's FIFO, or is discarded (R146, R147, R149); the third answer: the channel has just overflowed. -/
def StampStream.log (s : StampStream) (x : TdcChan) (k : Lane) (g : TdcConfig) (falling bnd : Bool) (by_ : Nat) (t : Int) (bid : Word) :
    StampStream × TdcChan × Bool :=
  let at_ := t * stampUnits
  let x := x.drainTo at_
  if x.losing || tdcFifo ≤ x.level s k.val at_ then
    (s, { x with losing := true, ovf := true, lost := satInc x.lost, lossRun := x.lossRun + 1 }, !x.losing)
  else
    let s := if x.lossRun = 0 then s else s.record (lossRecord k.val x.lossRun) false at_ bid
    let s := s.record (stampRecord k.val g.cml falling bnd by_ t (s.ref at_ bid).time) false at_ bid
    let s := { s with stamps := upd s.stamps k (· + 1) }
    let x := { x with lossRun := 0, fill := x.fill + 1 }
    (s, { x with highWater := max x.highWater (x.level s k.val at_) }, false)

/-- A stamp on an armed channel (R141, R142, R147, R150, R153). -/
def State.stampEdge (s : State) (c : Cluster) (k : Lane) (falling bnd : Bool) (by_ : Nat) (t : Int) : State :=
  let g := (s.config c).tdc[k]
  let ss := (s.seqs[s.site c]).spans
  let stalled := s.inStall (s.site c)
  let s := s.updChan c k fun x =>
    { x.count g ss stalled t with lastEdge := some t, stampCnt := satInc x.stampCnt, boundary := x.boundary || bnd }
  let s := s.pairStamp (8 * c.val + k.val) t
  if !g.log then s
  else
    let (st, x, over_) := (s.cl[c]).stamp.log (s.cl[c]).tdc[k] k g falling bnd by_ t (s.bidOf c)
    let s := s.updCl c fun e => { e with stamp := st, tdc := upd e.tdc k fun _ => x }
    let s := (s.drain c).repick
    if over_ then s.report 35 (bitMask 12 c.val) (BitVec.ofNat 32 (8 * c.val + k.val)) else s

/-- TDC_EDGE (R140 to R142, R144, R147). An absent pin takes no stamp (R406); a channel whose input is on the oscillator sees no edge, and one that is
armed by the edge's instant has its input back on the pin (R155). An unarmed edge within 4 FU of a boundary makes no stamp record, and sets
TDC_STATUS.BOUNDARY: the window that excluded it is one of R142's (DEDUCED, log 46). -/
def execTdcEdge (pin : Pin) (tick : Int) (code : Fin 65) (falling : Bool) (s : State) : Host.Outcome State Fault Refusal :=
  let c := pinCluster pin
  let k := pinLane pin
  let cfg := s.config c
  let g := cfg.tdc[k]
  let r := cfg.route k
  let co := (s.cl[c]).coeffs
  let t := stampTime tick code.val (getN co.bins r []) (getN co.tdc r 0)
  if !g.en || !g.edge.getLsbD (if falling then 1 else 0) || (s.absentMask c).getLsbD (cfg.port k.val) then .next s
  else
    let at_ := t * stampUnits
    let s := (s.advanceNet at_).playTo (s.site c) at_
    let x := (s.cl[c]).tdc[k]
    let ss := (s.seqs[s.site c]).spans
    let ahead := s.peek (s.site c) (at_ + 4 * fuUnits)
    let bnd := ((ahead.cl[c]).tdc[k]).onBoundary g (ahead.seqs[s.site c]).spans at_
    match x.armedBy g ss at_ with
    | none => .next (if x.running then s else s.updChan c k fun x => { x with boundary := x.boundary || bnd })
    | some b =>
      let s := s.updChan c k TdcChan.abandon
      if x.lastEdge.any fun u => t < u + deadStamps then .next (s.updChan c k fun x => { x with dead := satInc x.dead })
      else .next (s.stampEdge c k falling bnd b t)

/-- TDC_LOSS_RESUME (R149): the FIFO is at most half full; the loss record precedes the channel's next stamp. -/
def execTdcLossResume (pin : Pin) (s : State) : Host.Outcome State Fault Refusal :=
  let c := pinCluster pin
  let k := pinLane pin
  if tdcFifo / 2 < ((s.cl[c]).tdc[k]).level (s.cl[c]).stamp k.val s.net then .next s else .next (s.updChan c k fun x => { x with losing := false })

/-- STAMP_BLOCK_CLOSE (R148): CLOSE_US, or 100 µs, after the block's first record. -/
def execStampBlockClose (c : Cluster) (s : State) : Host.Outcome State Fault Refusal :=
  let us := (s.config c).capture.closeUs.toNat
  match (s.cl[c]).stamp.open_ with
  | none => .next s
  | some b =>
    let s := s.advanceNet (b.since + ((if us = 0 then 100 else us) * usUnits : Nat))
    .next ((s.updCl c fun e => { e with stamp := e.stamp.close false }).drain c).repick

/-- GAP_CAIRN (R148): every 10 µs of network time while no burst runs. -/
def execGapCairn (c : Cluster) (s : State) : Host.Outcome State Fault Refusal :=
  if (s.siteState (s.site c)).busy then .next s
  else
    let due := ceilTo (max s.net (s.cl[c]).stamp.gapNext) cairnUnits
    .next ((s.advanceNet due).gapCairn c due)

/-! ## Code density (R155, R156, R331, R337) -/

/-- The channel a code-density route belongs to (R326): routes 8 to 11 are the multiplexed ones of the odd channels. -/
def routeLane (r : Fin 12) : Lane := if r.val < 8 then Fin.ofNat 8 r.val else Fin.ofNat 8 (2 * (r.val - 8) + 1)

/-- A run's hits meet an end condition of R155. -/
def densityDone (h : List Nat) : Bool :=
  2 ^ 23 ≤ h.sum || (2 ^ 20 ≤ h.sum && (List.range 64).all fun i => 4096 ≤ h.getD i 0)

/-- A rejected run (R337): the cause bits, and the advisory fault. -/
def State.rejectCal (s : State) (c : Cluster) (cause : BitVec 10) : State :=
  let s := { s with cal := s.cal.noteReject c cause }
  s.report 42 (bitMask 12 c.val) (s.cal.rejCause.setWidth 32)

/-- CODE_DENSITY_DONE (R155, R156): the table is judged by itself; an armed channel has abandoned the run, and an abandoned run gives no table. A
background run is of one route. A commanded run, which begins once the DAC and deskew kinds have ended, goes on over every route to its
CAL_RUN_COMPLETE (R328). -/
def execCodeDensityDone (c : Cluster) (route : Fin 12) (hits : List Nat) (s : State) : Host.Outcome State Fault Refusal :=
  let k := routeLane route
  let x := (s.cl[c]).tdc[k]
  if !x.running || !(x.cmd || x.onMux = decide (8 ≤ route.val)) || !densityDone hits then .next s
  else if (x.armedBy (s.config c).tdc[k] (s.seqs[s.site c]).spans s.net).isSome then .next (s.updChan c k TdcChan.abandon)
  else
    let w := densityTable hits
    let s := s.updChan c k fun x =>
      { x with running := x.cmd, sum := x.sum || !sumOk w, width := x.width || !widthOk w, dnl := x.dnl || !dnlOk w }
    if sumOk w && widthOk w && dnlOk w then
      let note := fun (y : CalCluster) =>
        let y := { y with tables := y.tables.set route.val (some (w, s.now)) route.isLt }
        if x.cmd then { y with cmdTables := y.cmdTables.set route.val (some (w, s.pwr.temps[c])) route.isLt, fresh := setBit y.fresh route.val } else y
      .next (({ s with cal := { s.cal with cl := upd s.cal.cl c note } } : State).retarget c x.cmd)
    else .next (s.rejectCal c (bitMask 10 6))

/-- TDC_TWINDOW_BOUNDARY (R142, R155, R327): network time reaches START or END of the channel's window. -/
def execTdcTwindowBoundary (pin : Pin) (s : State) : Host.Outcome State Fault Refusal :=
  let c := pinCluster pin
  let k := pinLane pin
  let g := (s.config c).tdc[k]
  let a := timeOf g.start
  let b := timeOf g.stop
  if !g.en || g.arm ≠ .twindow || b ≤ a || b ≤ s.net then .next s
  else if s.net < a then
    let s := (s.advanceNet a).updChan c k TdcChan.abandon
    .next { s with cal := { s.cal with cl := upd s.cal.cl c fun y => { y with background := y.background &&& 0xD } } }
  else .next (s.advanceNet b)

end Sys2Proof.Machine
end

