-- ==== Sys2Proof/Machine/CalRows.lean ====
section
/-! DEFINITION. The calibration unit's events (R323 to R337, R375, R376): thermal readings, background and commanded runs, targets, CAL_TIN. -/
namespace Sys2Proof.Machine

/-! ## Temperatures (R325, R375, R376) -/

/-- THERM_WARN after a reading (R375): set at 108.0 °C on any cluster, clear once every cluster has been read at 104.0 °C or less. -/
def State.judgeHeat (s : State) : State :=
  let hot := fun (lim : Int) => s.pwr.temps.toList.any fun t => decide (lim ≤ t)
  if !s.pwr.thermWarn && hot (108 * 16) then
    let s := s.setPower { s.pwr with thermWarn := true, warnCnt := satInc s.pwr.warnCnt }
    s.collect [(s.thermEvent 43 s.hottest, false)]
  else if s.pwr.thermWarn && s.pwr.seen = 0xFFF && !hot (104 * 16 + 1) then
    (s.setPower { s.pwr with thermWarn := false }).retryLate.repick
  else s

/-- THERMAL_READ (R325, R375). -/
def execThermalRead (c : Cluster) (temp : Int) (s : State) : Host.Outcome State Fault Refusal :=
  if s.pwr.porst then .next s
  else .next ({ s with pwr := { s.pwr with temps := upd s.pwr.temps c fun _ => temp, seen := setBit s.pwr.seen c.val } } : State).judgeHeat

/-- THERM_TRIP (R376): the comparator's condition begins. -/
def execThermTrip (c : Cluster) (s : State) (running : Option Routine := none) : Host.Outcome State Fault Refusal :=
  if s.pwr.porst || s.pwr.tripped.getLsbD c.val then .next s
  else
    let s := { s with pwr := { s.pwr with tripped := setBit s.pwr.tripped c.val } }
    .next (s.collectOver running [s.thermEvent 1 c])

/-- THERM_TRIP_CLEAR (R376): the comparator reads below 112 °C. -/
def execThermTripClear (c : Cluster) (s : State) : Host.Outcome State Fault Refusal :=
  .next { s with pwr := { s.pwr with tripped := s.pwr.tripped &&& ~~~(bitMask 12 c.val) } }

/-! ## Background runs (R327) -/

/-- The interval of a kind's background runs in SUBNS units (R327). -/
def kindGap : CalKind → Nat
  | .dac => 1000 * msUnits | .deskew => 10 * 1000 * msUnits | _ => 60 * 1000 * msUnits

/-- The condition of a background run (R327): none on a cluster in NAP or BIVOUAC. -/
def State.mayRun (s : State) (c : Cluster) (k : CalKind) : Bool :=
  s.isReady && s.power c < 3 && !(s.cal.cl[c]).background.getLsbD (kindNum k)
  && match k with
    | .dac => true
    | .deskew => s.quietSite (s.site c) && (List.finRange 8).all (s.unarmed c) && !s.pwr.tbWarm
    | .tdc => (List.finRange 8).any fun i => s.unarmed c i && !((s.cl[c]).tdc[i]).running
    | .trig => false

/-- The CAL_STEP item of a run, on the cluster's calibration flow (R188, R192, R327). -/
def State.calItem (s : State) (c : Cluster) : Item :=
  { type := .calStep, prio := 0, flow := 4080 + c.val, site := none, source := 3, postTime := postTime s.net, queuedAt := s.now }

/-- The routes of a TDC channel (R85, R326): the direct one, and the multiplexed one of an odd channel. -/
def routesOf (i : Lane) : List (Fin 2) := if i.val % 2 = 1 then [0, 1] else [0]

/-- When a background run of the kind is next due (R327): at once while none has begun. A TDC run's is the first due of the channels that are
unarmed, over their routes. -/
def State.runDue (s : State) (c : Cluster) (k : CalKind) : Nat :=
  let after := fun (t : Option Nat) => (t.map (· + kindGap k)).getD 0
  if k ≠ .tdc then after (getN (s.cal.cl[c]).ranAt (kindNum k) none)
  else
    let free := (List.finRange 8).filter fun i => s.unarmed c i && !((s.cl[c]).tdc[i]).running
    let ts := free.flatMap fun i => (routesOf i).map fun r => after (((s.cl[c]).tdc[i]).ranAt[r])
    ts.foldl min (ts.headD 0)

/-- The route of channel `i` whose background code-density run is due (R155, R327); of two, the direct one (log 35). -/
def TdcChan.dueRoute (x : TdcChan) (i : Lane) (now : Nat) : Option (Fin 2) :=
  (routesOf i).find? fun r => x.ranAt[r].all fun t => t + kindGap .tdc ≤ now

/-- More than 1,024 descriptors are free for a post of the calibration unit (R189), beside those of the posts under way. -/
def State.mayPost (s : State) : Bool := decide (1024 + s.sched.due.length < s.sched.free)

/-- A background code-density run begins on channel `i`, an item of its own (R327), if it is due and may. -/
def State.startTdc (s : State) (c : Cluster) (i : Lane) : State :=
  let x := (s.cl[c]).tdc[i]
  match if s.unarmed c i && !x.running && s.mayPost then x.dueRoute i s.now else none with
  | none => s
  | some r => (s.schedulePost (s.calItem c)).updCl c fun e =>
      { e with tdc := upd e.tdc i fun x => { x with running := true, cmd := false, onMux := decide (r = 1), ranAt := x.ranAt.set r (some s.now) } }

/-- A background run starts (R155, R327, R337): a TDC run on every unarmed channel that is due. -/
def State.startRun (s : State) (c : Cluster) (k : CalKind) : State :=
  if k = .tdc then (List.finRange 8).foldl (fun s i => s.startTdc c i) s
  else
    let note := fun (x : CalCluster) =>
      { x with ranAt := updN x.ranAt (kindNum k) fun _ => some s.now, background := setBit x.background (kindNum k),
               tinBack := if k = .deskew then s.cal.tin else x.tinBack }
    ({ s with cal := { s.cal with cl := upd s.cal.cl c note } } : State).schedulePost (s.calItem c)

/-- CAL_BACKGROUND_RUN (R189, R327): a due run starts at the first moment its condition holds, and once more than 1,024 descriptors are
free. -/
def execCalBackgroundRun (c : Cluster) (k : CalKind) (s : State) : Host.Outcome State Fault Refusal :=
  let s := if s.mayRun c k then s.advance (s.runDue c k) else s
  if s.mayRun c k && s.mayPost then .next (s.startRun c k) else .next s

/-! ## The end of a run (R326, R329, R332 to R334, R337) -/

/-- The drift readings of an accepted background run (R327, R332): a DAC run skips a rail that is ramping, and a deskew run measures the TRIG taps
too. -/
def State.takeBackground (s : State) (c : Cluster) (k : CalKind) (d : Coeffs) : CalCluster :=
  let x := s.cal.cl[c]
  let n := x.count + 1
  let rails := ((s.cl[c]).lvl.upTo s.net).rails
  let skip := fun (i : Fin 16) => ((rails[i.val / 2]?).map fun r => decide (r.out ≠ r.target)).getD false
  match k with
  | .dac => { x with count := n, irefNow := some (d.iref, n),
                     offNow := Vector.ofFn fun (i : Fin 16) => if skip i then x.offNow[i] else some (d.offset[i], n) }
  | .deskew => { x with count := n, skewNow := some (d, n) }
  | _ => x

/-- When the kind's latest run was accepted (CAL_CL_AGE). -/
def CalCluster.noteRun (x : CalCluster) (k : CalKind) (now : Nat) : CalCluster :=
  match k with
  | .dac => { x with dacAt := some now }
  | .deskew => { x with skewAt := some now }
  | _ => x

/-- The values of a commanded run: a TDC run's are the tables accepted in commanded runs, once this one has had some accepted and every route
has one (R329, R337: each channel and route is judged by itself). -/
def CalCluster.valuesOf (x : CalCluster) (k : CalKind) (r : CalResult) : Option Coeffs :=
  if k ≠ .tdc then some (Readings.coeffs r.values)
  else if x.fresh ≠ 0 && x.cmdTables.toList.all Option.isSome then
    some { bins := x.cmdTables.map fun t => (t.map (·.1)).getD [] }
  else none

/-- An accepted commanded run (R329, R333, R334). -/
def State.acceptRun (s : State) (c : Cluster) (k : CalKind) (v d : Coeffs) : State :=
  let run : CalDone := ⟨s.pwr.temps[c], v, d, (s.cal.cl[c]).count + 1⟩
  let x := { (s.cal.cl[c]).noteRun k s.now with
    count := (s.cal.cl[c]).count + 1, kinds := updN (s.cal.cl[c]).kinds (kindNum k) fun _ => some run, follow := setBit (s.cal.cl[c]).follow (kindNum k) }
  ({ s with cal := { s.cal with cl := upd s.cal.cl c fun _ => x } } : State).retarget c true

/-- The end of a commanded run of one kind: judged, then staged or rejected (R337); the next kind's begins. -/
def State.endCommanded (s : State) (c : Cluster) (k : CalKind) (r : CalResult) : State :=
  let checks := s.calChecks c k true r
  let s := { s with cal := { s.cal with cl := upd s.cal.cl c fun x => { x with what := x.what &&& ~~~(bitMask 4 (kindNum k)) } } }
  let s : State := match k with
    | .dac => s.updCl c fun e => { e with lvl := e.lvl.untie e.coeffs s.net }
    | .tdc => s.updCl c fun e => { e with tdc := e.tdc.map fun x => { x with running := x.running && !x.cmd, cmd := false } }
    | _ => s
  let s := s.beginKind c
  match (s.cal.cl[c]).valuesOf k r with
  | none => s
  | some v =>
    let cause := checks ||| (if k = .tdc then 0 else v.limits k)
    if cause ≠ 0 then s.rejectCal c cause else s.acceptRun c k v (Readings.coeffs r.drift)

/-- The end of a background run: the drift readings are judged by the target they give, with the TRIG taps a deskew run measures too (R327, R332,
R337). -/
def State.endBackground (s : State) (c : Cluster) (k : CalKind) (r : CalResult) : State :=
  let s := { s with cal := { s.cal with cl := upd s.cal.cl c fun x => { x with background := x.background &&& ~~~(bitMask 4 (kindNum k)) } } }
  let x := (s.takeBackground c k (Readings.coeffs r.drift)).noteRun k s.now
  let t : State := { s with cal := { s.cal with cl := upd s.cal.cl c fun _ => x } }
  let cause := s.calChecks c k false r ||| (t.calTarget c).limits k ||| (if k = .deskew then (t.calTarget c).limits .trig else 0)
  if cause ≠ 0 then s.rejectCal c cause else t.retarget c false

/-- CAL_RUN_COMPLETE (R327 to R337). A commanded trigger-skew run ends with the millisecond its pulses take (R328, log 2). -/
def execCalRunComplete (c : Cluster) (k : CalKind) (commanded : Bool) (r : CalResult) (s : State) : Host.Outcome State Fault Refusal :=
  let x := s.cal.cl[c]
  if !(if commanded then s.calOn c && x.next k else k ≠ .tdc && x.background.getLsbD (kindNum k)) then .next s
  else
    let s := if commanded && k = .trig then s.advanceNet (x.kindFrom + (1000 * usUnits : Nat)) else s
    let s := if k = .dac then { s with cal := { s.cal with vrefMeas := satNat 21 r.vref } } else s
    .next (if commanded then s.endCommanded c k r else s.endBackground c k r).repick

/-- CAL_TARGET_RECOMPUTE: every 1 ms (R332), but on a cluster in NAP or BIVOUAC (R327). -/
def execCalTargetRecompute (c : Cluster) (s : State) : Host.Outcome State Fault Refusal :=
  .next (if s.isReady && s.power c < 3 then s.retarget c false else s)

/-- CAL_STALE (R336): the staged set has been due for 1 s of active time. -/
def execCalStale (c : Cluster) (s : State) : Host.Outcome State Fault Refusal :=
  if (s.cal.staged[c]).isNone || (s.siteState (s.site c)).rests || (s.cal.cl[c]).stale then .next s
  else
    let s := s.advance (s.cal.dueFrom[c] + (1000 * msUnits - s.cal.due[c]))
    .next { s with cal := { s.cal with cl := upd s.cal.cl c fun x => { x with stale := true } } }

/-! ## CAL_TIN (R323) -/

/-- The signed offset of an edge from the whole microsecond, in FU (CAL_TIN_PHASE). -/
def tinOffset (t : Int) (delay : Int) : Int :=
  let x := t + delay * fuUnits
  ((x + (usUnits / 2 : Nat)) % (usUnits : Int) - (usUnits / 2 : Nat)) / fuUnits

/-- CAL_TIN_EDGE (R323): ten rising edges in a row, 1 µs ± 1 ns apart, set TIN_PRESENT. -/
def execCalTinEdge (gap : Nat) (s : State) : Host.Outcome State Fault Refusal :=
  if !s.isReady then .next s
  else
    let s := if s.cal.tinSeen = 0 then s else s.advance (s.cal.tinAt + gap)
    let good := s.cal.tinSeen ≠ 0 && usUnits - nsUnits ≤ gap && gap ≤ usUnits + nsUnits
    let n := if good then s.cal.tinSeen + 1 else 1
    .next { s with cal := { s.cal with
      tinSeen := n, tinAt := s.now, tin := (s.cal.tin && decide (gap < 2 * usUnits)) || decide (10 ≤ n), tinEver := s.cal.tinEver || decide (10 ≤ n),
      tinPhase := BitVec.ofInt 32 (tinOffset s.net s.cal.tinDelay) } }

/-- CAL_TIN_LOSS: no rising edge for 2 µs (R323). -/
def execCalTinLoss (s : State) : Host.Outcome State Fault Refusal :=
  if s.cal.tinSeen = 0 then .next s
  else
    let s := s.advance (s.cal.tinAt + 2 * usUnits)
    .next { s with cal := { s.cal with tin := false, tinSeen := 0 } }

end Sys2Proof.Machine
end

