-- ==== Sys2Proof/Machine/FaultRows.lean ====
section
/-! DEFINITION. Fault events (R277, R343, R344, R347, R356, R358): reports, machine checks, supplies, PLLs, the persistent log, ALIVE. -/
namespace Sys2Proof.Machine

/-! ## Reports (R273, R343, R347) -/

/-- FAULT_REPORT: the real events of one collector cycle (R23, R273, R347). -/
def execFaultReport (events : List FaultEvent) (running : Option Routine) (s : State) : Host.Outcome State Fault Refusal :=
  let es := events.filter fun e => (sourceOf e.source).isSome
  if s.pwr.porst || es.isEmpty then .next s
  else
    .next (s.collectOver running es)

/-! ## Supplies, PLLs, HBM, PCIe, parity (R343, R344) -/

/-- SUPPLY_OUT_OF_RANGE: the condition begins (R343, R344). -/
def execSupplyOutOfRange (rail : Byte) (mv : BitVec 16) (s : State) (running : Option Routine := none) : Host.Outcome State Fault Refusal :=
  let known := s.pwr.supplyOut.any fun p => p.1 = rail
  let s := { s with pwr := { s.pwr with supplyOut := (rail, mv) :: s.pwr.supplyOut.filter fun p => p.1 ≠ rail } }
  .next (if known || s.pwr.porst then s else s.collectOver running [⟨3, 0, BitVec.ofNat 32 (rail.toNat + mv.toNat * 2 ^ 16)⟩])

/-- SUPPLY_IN_RANGE: the condition ends (R344). -/
def execSupplyInRange (rail : Byte) (s : State) : Host.Outcome State Fault Refusal :=
  .next { s with pwr := { s.pwr with supplyOut := s.pwr.supplyOut.filter fun p => p.1 ≠ rail } }

/-- The number of a PLL in DETAIL (R343). -/
def pllCode : Pll → Nat
  | .hbm => 2 | .rope => 3 | .pcie => 4

/-- A PLL's domain runs, so that it has a lock to lose (R360). -/
def State.pllOn (s : State) : Pll → Bool
  | .hbm => s.clockRuns .hbm
  | .rope => s.clockRuns .rope
  | .pcie => s.clockRuns .hostPort

/-- PLL_UNLOCK (R343). -/
def execPllUnlock (p : Pll) (s : State) (running : Option Routine := none) : Host.Outcome State Fault Refusal :=
  if s.pwr.phase = .held || !s.pllOn p then .next s
  else .next (s.collectOver running [⟨2, 0, BitVec.ofNat 32 (pllCode p)⟩])

/-- HBM_FAIL: the HBM interface is lost in service (R343, R377). -/
def execHbmFail (s : State) (running : Option Routine := none) : Host.Outcome State Fault Refusal :=
  if !s.isReady || !s.mem.ready then .next s
  else .next (({ s with mem := { s.mem with ready := false }, pwr := { s.pwr with hbm := 3 } } : State).collectOver running [⟨4, 0, 0⟩])

/-- PCIE_ERR (R213, R343): an error that AER logs; its status bits stay set in the function until host software clears them. -/
def execPcieErr (f : Func) (status : BitVec 16) (s : State) : Host.Outcome State Fault Refusal :=
  if s.pwr.porst || s.pwr.perst then .next s
  else .next ((s.updFn f fun h => { h with aer := h.aer ||| status }).report 44 0 (BitVec.ofNat 32 (f.val + status.toNat * 2 ^ 16)))

/-- CFG_PARITY (R343). -/
def execCfgParity (c : Cluster) (kind : Fin 4) (s : State) (running : Option Routine := none) : Host.Outcome State Fault Refusal :=
  if !s.isReady then .next s else .next (s.collectOver running [⟨9, bitMask 12 c.val, BitVec.ofNat 32 kind.val⟩])

/-! ## The persistent log (R356) -/

/-- Records a log sector holds. -/
def sectorRecs : Nat := 1024

/-- The collector's cycle in hand is over: 1 ns passes where one is (R23). -/
def State.pastCycle (s : State) : State := if (s.endCycle s.now).flt.taking.isSome then s.idle else s.endCycle s.now

/-- PLOG_WRITE: the oldest pending record is appended; a full sector becomes the other one, which is erased first (R356). A record is written
once the cycle of its event is over (log 29). -/
def execPlogWrite (s : State) : Host.Outcome State Fault Refusal :=
  let s := s.pastCycle
  match s.flt.plogPend with
  | [] => .next s
  | r :: rest =>
    let f := s.flt
    let r := { r with pseq := f.pseq + 1 }
    let full := sectorRecs ≤ f.active.length
    .next { s with flt := { f with plogPend := rest, pseq := f.pseq + 1, active := if full then [r] else r :: f.active,
                                   sector := if full then 1 - f.sector else f.sector,
                                   other := if full then f.active else f.other } }

/-! ## ALIVE (R358) -/

/-- ALIVE_TOGGLE: a half-period boundary of 0.5 ms; the level holds while a DEVICE-class fault is present. -/
def execAliveToggle (s : State) : Host.Outcome State Fault Refusal :=
  if !s.isReady then .next s
  else
    let s := s.advance ((s.now / (500 * usUnits) + 1) * (500 * usUnits))
    let run := !s.devFault
    .next { s with pwr := { s.pwr with alive := if run then !s.pwr.alive else s.pwr.alive, aliveRun := run } }

end Sys2Proof.Machine
end

