-- ==== Sys2Proof/Machine/LevelRows.lean ====
section
/-! DEFINITION. Events of the level rails (R102, R108, R111): slew moves, range switches, shorts. -/
namespace Sys2Proof.Machine

def State.updRail (s : State) (c : Cluster) (r : Lane) (f : Rail → Rail) : State :=
  s.updCl c fun e => { e with lvl := { e.lvl with rails := upd e.lvl.rails r f } }

/-- Network time goes on to `t`, and the rails of the cluster with it (R102). -/
def State.railsTo (s : State) (c : Cluster) (t : Int) : State :=
  let s := s.advanceNet t
  s.updCl c fun e => { e with lvl := e.lvl.upTo s.net }

/-- SLEW_MOVE (R102, R106, R108): the rail's next move, on its DAC clock edge. -/
def execSlewMove (c : Cluster) (r : Lane) (s : State) : Host.Outcome State Fault Refusal :=
  let x := (s.cl[c]).lvl.rails[r]
  match x.phase, x.nextMove with
  | .switching _, _ => .next s
  | _, none => .next s
  | _, some t => .next (s.railsTo c t)

/-- RANGE_SWITCH_DONE (R108): 40 ns after the switch began, the upward ramp begins in the new range. -/
def execRangeSwitchDone (c : Cluster) (r : Lane) (s : State) : Host.Outcome State Fault Refusal :=
  match ((s.cl[c]).lvl.rails[r]).phase with
  | .switching t => .next (s.railsTo c t)
  | _ => .next s

/-- LVL_SC_DETECT (R111): the limit has held for 200 ns. The condition is reported once; after a W1C clear the bit alone sets again. -/
def execLvlScDetect (c : Cluster) (r : Lane) (s : State) (running : Option Routine := none) : Host.Outcome State Fault Refusal :=
  let x := (s.cl[c]).lvl.rails[r]
  if !x.live then .next s
  else
    let s := s.updCl c fun e => { e with lvl := { e.lvl with lvlSc := setBit e.lvl.lvlSc r.val } }
    let s := s.updRail c r fun x => { x with limiting := true }
    .next (if x.limiting then s else s.collectOver running [⟨8, bitMask 12 c.val, BitVec.ofNat 32 r.val⟩])

/-- CURRENT_LIMIT_RELEASE (R111, R344): the condition ends. -/
def execCurrentLimitRelease (c : Cluster) (r : Lane) (s : State) : Host.Outcome State Fault Refusal :=
  .next (s.updRail c r fun x => { x with limiting := false })

end Sys2Proof.Machine
end

