-- ==== Sys2Proof/Machine/PowerRows.lean ====
section
/-! DEFINITION. Power events (R18, R364 to R369), the companion chips (R406) and the I3C target port (R408). -/
namespace Sys2Proof.Machine

def State.updPwr (s : State) (c : Cluster) (f : PwrCl → PwrCl) : State := { s with pwr := { s.pwr with cl := upd s.pwr.cl c f } }

/-! ## Cluster power states (R364 to R367) -/

/-- What BIVOUAC does to a cluster at `t` (R107, R364): drivers disabled, TRIG low, rails parked. -/
def ClusterEng.bivouac (e : ClusterEng) (t : Int) : ClusterEng :=
  { e with tim := { e.tim with pins := Vector.replicate 8 .disabled }, io := { e.io with trig0Until := none, trig1Until := none },
           lvl := e.lvl.park false t }

/-- The background runs of a cluster that enters NAP or BIVOUAC are abandoned (R327, R365). -/
def State.dropRuns (s : State) (c : Cluster) : State :=
  let s := { s with cal := { s.cal with cl := upd s.cal.cl c fun x => { x with background := 0 } } }
  s.updCl c fun e => { e with tdc := e.tdc.map TdcChan.abandon }

/-- POWER_STATE_ENTRY (R18, R107, R366): the chosen state has stayed the same for 10 µs. The cluster is in it from here on, its rails parked at once
in BIVOUAC; the entry itself completes within 5 µs (log 33). -/
def execPowerStateEntry (c : Cluster) (s : State) : Host.Outcome State Fault Refusal :=
  let s := s.repick
  let p := s.pwr.cl[c]
  if !s.isReady || p.entering || p.exiting || s.limSite c || p.chosen ≤ p.state then .next s
  else
    let s := s.advance (p.since + 10 * usUnits)
    let s := s.updPwr c fun p => { p with entering := true, state := p.chosen, goal := p.chosen, doneAt := s.now + 5 * usUnits }
    let s := if 3 ≤ p.chosen then (s.dropRuns c).noteHbm else s
    .next (if p.chosen = 4 then s.updCl c fun e => e.bivouac s.net else s)

/-- The entry a cluster has in progress completes (R366). -/
def State.entered (s : State) (c : Cluster) : State :=
  let p := s.pwr.cl[c]
  if p.entering then (s.advance p.doneAt).updPwr c fun p => { p with entering := false } else s

/-- POWER_ENTRY_DONE (R366): 5 µs after it began (log 2). -/
def execPowerEntryDone (c : Cluster) (s : State) : Host.Outcome State Fault Refusal := .next (s.entered c)

/-- The arm point of the site's pending start, when it is a given instant (R66, R367). -/
def State.armInstant (s : State) (k : Cluster) : Option Int :=
  ((s.seqs[k]).start.bind (·.sched)).map fun t => ceilTo (t - 600 * nsUnits) datapathUnits

/-- An exit begins, from the present state to `goal` (R364, R366). -/
def State.beginExit (s : State) (c : Cluster) (goal : Nat) : State :=
  s.updPwr c fun p => { p with exiting := true, goal := goal, doneAt := s.now + exitLatency p.state * nsUnits }

/-- POWER_STATE_EXIT (R366, R367): at once for the tolerance or a limit; for a pending start, in time for its arm point; after the entry in progress,
if there is one. -/
def execPowerStateExit (c : Cluster) (s : State) : Host.Outcome State Fault Refusal :=
  let s := s.repick
  let p := s.pwr.cl[c]
  let k := s.site c
  if !s.isReady || p.exiting || p.state ≤ 1 then .next s
  else if s.allowed c < p.state then .next ((s.entered c).beginExit c p.chosen)
  else if s.startPending k then
    let s := s.entered c
    let t := ((s.armInstant k).map fun a => a - ((exitLatency p.state * nsUnits : Nat) : Int)).getD s.net
    .next ((s.advanceNet t).beginExit c 1)
  else .next s

/-- A cluster back from NAP or BIVOUAC recomputes its coefficients, and puts them into force after BIVOUAC (R327, R364). -/
def State.wake (s : State) (c : Cluster) (was : Nat) : State :=
  if was < 3 then s
  else
    let s := s.retarget c false
    let s := { s with cal := { s.cal with stagedOld := s.cal.stagedOld.set c (s.cal.staged[c]) } }
    if was ≠ 4 then s
    else
      let t := (s.cal.cl[c]).target
      let s := s.updCl c fun e => e.putCoeffs t
      { s with cal := { s.cal with staged := upd s.cal.staged c fun _ => none, due := upd s.cal.due c fun _ => 0,
                                   cl := upd s.cal.cl c fun x => { x with applied := satInc x.applied, stale := false } } }

/-- The link leaves L1.2 once a cluster is no longer in NAP or BIVOUAC (R369); it stays in L1, the shallower state R369 lets it be in (log 33). -/
def State.leaveL12 (s : State) : State := if s.pwr.link = .l12 && !s.allDeep then { s with pwr := { s.pwr with link := .l1 } } else s

/-- POWER_EXIT_DONE (R67, R327, R367): a waiting start arms, and a commanded run begins. -/
def execPowerExitDone (c : Cluster) (s : State) : Host.Outcome State Fault Refusal :=
  let p := s.pwr.cl[c]
  if !p.exiting then .next s
  else
    let s := (s.advance p.doneAt).wake c p.state
    let s := s.updPwr c fun p => { p with exiting := false, state := p.goal }
    let what := (s.cal.cl[c]).what
    let s := if what.getLsbD 0 && s.calOn c then s.tie c else s
    let s := if what ≠ 0 && s.calOn c then s.beginKind c else s
    .next (s.leaveL12.tryLate (s.site c)).repick

/-! ## The PCIe link (R369) -/

/-- LINK_L1_ENTRY (R369): after 10 µs without requests, doorbells or unfetched work; L1.2 only with every cluster in NAP or BIVOUAC. -/
def execLinkL1Entry (l12 : Bool) (s : State) : Host.Outcome State Fault Refusal :=
  if s.pwr.link ≠ .l0 || !s.mayL1 l12 then .next s else .next (s.enterL1 (if l12 then .l12 else .l1))

/-- The Latency Tolerance Reporting value in ns (R369). -/
def State.ltrNs (s : State) : Nat := if s.siteIdxs.any (fun k => !(s.siteState k).rests) || s.areasHold then 2000 else 1000000

/-! ## Companion chips (R406) -/

/-- A pin loses its chip (R406): it is absent, and the cluster reports COMPANION_LOST. -/
def State.losePin (s : State) (p : Pin) (running : Option Routine) : State :=
  let c := pinCluster p
  let off := ~~~(bitMask 96 p.val)
  let s := { s with present := s.present &&& off, rejoin := s.rejoin &&& off, lostPins := setBit s.lostPins p.val,
                    ids := { s.ids with assigned := s.ids.assigned &&& off, misses := upd s.ids.misses p fun _ => 0 } }
  (s.updCl c fun e => { e with tim := { e.tim with pins := upd e.tim.pins (pinLane p) fun _ => .disabled } }).collectOver running
    [⟨10, bitMask 12 c.val, BitVec.ofNat 32 p.val⟩]

/-- The instant of the next read of a pin's chip (R406): 1 ms ± 10 µs after the one before, where in between is open; the phase of the first is open
too, and the command's own instant gives it (log 33). -/
def State.nextPoll (s : State) (p : Pin) : Nat :=
  match s.ids.polled[p] with
  | none => s.now
  | some t => t + 990 * usUnits + Config.pollDelay p.val t % (20 * usUnits + 1)

/-- A host transfer occupies a pin's bus, or goes first on it (R429). -/
def State.busTaken (s : State) (p : Pin) : Bool := s.ids.i3c.busy && s.ids.i3c.pin.toNat / 48 = p.val / 48

/-- COMPANION_POLL (R406, R429): a due read, once its bus is free; three in a row unanswered make the pin absent. -/
def execCompanionPoll (p : Pin) (answered : Bool) (s : State) (running : Option Routine := none) : Host.Outcome State Fault Refusal :=
  if !s.isReady || !s.ids.assigned.getLsbD p.val || s.busTaken p then .next s
  else
    let s := s.advance (s.nextPoll p)
    let n := if answered then 0 else s.ids.misses[p] + 1
    let s := { s with ids := { s.ids with polled := upd s.ids.polled p fun _ => some s.now } }
    if 3 ≤ n then .next (s.losePin p running) else .next { s with ids := { s.ids with misses := upd s.ids.misses p fun _ => n } }

/-- HOT_JOIN (R406): a chip that qualifies, on its own bus, with its pin's index in its provisional ID, the index claimed by no other chip, and contract
revision 0x01, is assigned; its pin stops being absent at its cluster's next arm point. -/
def execHotJoin (bus : Fin 2) (p : Pin) (qualifies : Bool) (s : State) (id : BitVec 12 := BitVec.ofNat 12 p.val) (contract : Byte := 1) :
    Host.Outcome State Fault Refusal :=
  if !s.isReady || !qualifies || p.val / 48 ≠ bus.val || s.ids.assigned.getLsbD p.val || id.toNat ≠ p.val || contract ≠ 1 then .next s
  else .next { s with rejoin := setBit s.rejoin p.val, lostPins := s.lostPins &&& ~~~(bitMask 96 p.val),
                      ids := { s.ids with assigned := setBit s.ids.assigned p.val, misses := upd s.ids.misses p (fun _ => 0),
                                          polled := upd s.ids.polled p fun _ => none } }

/-! ## The I3C target port (R408) -/

/-- TARGET_DYNAMIC_ADDRESS_ASSIGN (R408): SETDASA or ENTDAA. -/
def execTargetDynamicAddressAssign (address : BitVec 7) (s : State) : Host.Outcome State Fault Refusal :=
  if s.pwr.porst then .next s else .next { s with ids := { s.ids with dynAddr := some address } }

/-- The static address of the target port (R408). -/
def State.staticAddr (s : State) : BitVec 7 := 0x48 + BitVec.ofNat 7 (s.pwr.straps.toNat % 4)

/-- Byte `off` of the board-management read map (R408): what depends on boot reads 0 until boot completes, PWR_STATUS.HBM and the serial number (R428)
among it. -/
def State.boardRead (s : State) (off : Nat) : Byte :=
  let up := fun (w : Word) => if s.pwr.bootDone then w else 0
  let pwr := if s.pwr.bootDone then s.pwrStatus else s.pwrStatus &&& 0xFFFFFE7F
  byteAt (leBytes 4 0x36394C47 ++ leBytes 4 pwr.toNat ++ leBytes 4 (up (s.regWord .pwrTemp &&& 0xFFFFFF00)).toNat
    ++ leBytes 4 s.fltStatus.toNat ++ leBytes 4 (if s.pwr.bootDone then s.sec.status else word (bitAt s.sec.noImage 7)).toNat
    ++ leBytes 4 (up (u32At s.sec.header 4)).toNat
    ++ leBytes 8 (if s.pwr.bootDone then Config.serial.toNat else 0)) off

end Sys2Proof.Machine
end

