-- ==== Sys2Proof/Machine/HostArb.lean ====
section
/-! DEFINITION. The arbiter of the host port (R19 to R22): closed blocks on their way out, inbound fetches (R174), mirror rewrites (R228 to R232). -/
namespace Sys2Proof.Machine

/-! ## Inbound fetches (R173, R174) -/

/-- A device-initiated request of a function can be sent (R214). -/
def State.dma (s : State) (f : Func) : Bool := s.isReady && (s.host.fn[f]).busMaster

/-- An inbound stream is fetching: it has blocks to fetch and room for one (R174). -/
def State.fetching (s : State) (i : Fin 24) : Bool :=
  let t := s.mem.ins[i]
  t.isOpen && !t.descs.isEmpty && (if t.play then decide (t.staged < t.areaMib * 256) else !s.loadPaused i)

/-- The GEN of a slot's last completion. -/
def lastGen (gens : List (Nat × BitVec 16)) (slot : Nat) : Option (BitVec 16) := (gens.find? fun g => g.1 = slot).map (·.2)

/-- An inbound stream asks for its next block: it may fetch, its function may read host memory, and its descriptor is a fresh one (R173, R174,
R214). -/
def State.asks (s : State) (i : Fin 24) : Bool :=
  let t := s.mem.ins[i]
  s.dma (s.host.owner[streamCluster i]) && s.fetching i && !(t.descs.head?).any fun d => lastGen t.gens t.head = some d.gen

/-- The play time a PLAY stream's staged data covers, in FU: its vectors not played and released, at its cluster's period in force (R174). -/
def State.covered (s : State) (i : Fin 24) : Nat :=
  let c := streamCluster i
  let insts := ((findSeg s.mem.segs[c] (s.mem.ins[i]).bound).map Seg.insts).getD []
  ((insts.map fun x => ((x.blocks.drop x.released).map Blk.vectors).sum).sum) * (s.cl[c]).tim.period.toNat

/-- The rank of a stream's request, least first (R174): streams of armed or running bursts before all others, PLAY before LOAD, then the least play
time covered. -/
def State.fetchRank (s : State) (i : Fin 24) : Nat × Nat × Nat :=
  let t := s.mem.ins[i]
  let k := s.site (streamCluster i)
  if !t.play then (1, 1, 0) else (if !(s.siteState k).rests && (s.inForce k).contains t.bound then 0 else 1, 0, s.covered i)

/-- The streams whose requests tie for the next fetch (R174). -/
def State.fetchTie (s : State) : List (Fin 24) :=
  let l := (List.finRange 24).filter s.asks
  let le := fun (a b : Nat × Nat × Nat) => decide (a.1 < b.1) || (a.1 = b.1 && (decide (a.2.1 < b.2.1) || (a.2.1 = b.2.1 && decide (a.2.2 ≤ b.2.2))))
  l.filter fun i => l.all fun j => le (s.fetchRank i) (s.fetchRank j)

/-! ## Outbound blocks (R176, R209) -/

/-- A capture block whose FAIL records wait for the reduction of its burst (R209). -/
def State.heldBlock (s : State) (c : Cluster) (b : ClosedBlock) : Bool :=
  b.blk.mode = 1 && !(failRecords b.blk.words.length b.blk.words).1.isEmpty && s.sched.procs.any fun x => match x.2 with
    | .reduce p => p.cluster = c && p.awaits b.blk.burstId
    | _ => false

/-- An outbound stream has a block and a buffer for it (R173, R176, R209, R214). -/
def State.offers (s : State) (i : Fin 24) : Bool :=
  let t := s.mem.outs[i]
  let c := streamCluster i
  match t.area, t.descs with
  | b :: _, d :: _ => t.isOpen && s.mem.ready && s.dma (s.host.owner[c]) && !s.heldBlock c b && lastGen t.gens t.head ≠ some d.gen
  | _, _ => false

/-- The outbound streams to be served, in turn (R20, R176). -/
def State.offering (s : State) : List (Fin 24) := (List.finRange 24).filter s.offers

/-! ## The status mirror (R228 to R232) -/

/-- The 64-byte lines of a page that differ from an earlier page, with their offsets. -/
def changedLines (old new : List Byte) : List (Nat × List Byte) :=
  (List.range 64).filterMap fun i =>
    let l := (new.drop (64 * i)).take 64
    if (old.drop (64 * i)).take 64 = l then none else some (64 * i, l)

/-- Whether two pages differ beside SEQ and STAMP, which alone start no rewrite. -/
def pageChanged (old new : List Byte) : Bool :=
  old.isEmpty || (old.drop 0x14 ≠ new.drop 0x14) || (old.take 8).drop 4 ≠ (new.take 8).drop 4

/-- One rewrite of a function's mirror page (R228): SEQ odd, the changed lines, SEQ even. -/
def State.rewrite (s : State) (f : Func) : State :=
  let h := s.host.fn[f]
  let odd := h.mirrorSeq + 1
  let new := s.mirrorPage f odd
  let at_ := fun (o : Nat) => h.mirrorAddr + BitVec.ofNat 64 o
  let s := s.writeHost h.mirrorAddr (leBytes 4 odd.toNat)
  let s := (changedLines h.page new).foldl (fun s l => s.writeHost (at_ l.1) l.2) s
  let s := s.writeHost h.mirrorAddr (leBytes 4 (odd + 1).toNat)
  s.updFn f fun h => { h with mirrorSeq := odd + 1, page := leBytes 4 (odd + 1).toNat ++ new.drop 4 }

/-- A function's mirror waits for a rewrite (R228, R229, R230). -/
def State.mirrorDue (s : State) (f : Func) : Bool :=
  let h := s.host.fn[f]
  s.isReady && h.mirrorOn && h.busMaster && s.pwr.link ≠ .down && pageChanged h.page (s.mirrorPage f h.mirrorSeq)

/-! ## The arbiter (R19 to R22) -/

/-- The index of a request (R22): stream number, then function number. Of the two streams of one number the outbound one comes first, which the spec
leaves open (DESIGN CHOICE, log 8). -/
def PortReq.index : PortReq → Nat
  | .out i => 2 * i.val
  | .inb i => 2 * i.val + 1
  | .mirror f => 48 + f.val

/-- The inbound fetch at hand is of a PLAY stream of an armed or running burst (R22, R174). -/
def State.fetchPattern (s : State) (i : Fin 24) : Bool := (s.fetchRank i).1 = 0

/-- The requests of class PATTERN at the host port, by index (R22). -/
def State.portPattern (s : State) : List PortReq :=
  let ins := s.fetchTie.filter s.fetchPattern
  (List.finRange 24).flatMap fun i => (if s.offering.contains i then [.out i] else []) ++ (if ins.contains i then [.inb i] else [])

/-- The requests that meet at the host port (R19, R22): those of the highest class there is, by index. Replies and descriptor completions go out with
the command that makes them (log 8). -/
def State.portTie (s : State) : List PortReq :=
  match s.portPattern with
  | [] => match (List.finRange 13).filter s.mirrorDue with
    | [] => s.fetchTie.map .inb
    | l => l.map .mirror
  | l => l

/-- A request still stands at the host port. -/
def State.stillAsks (s : State) : PortReq → Bool
  | .out i => s.offers i
  | .inb i => s.asks i
  | .mirror f => s.mirrorDue f

/-- The rotating pointer: 0 once a cycle has come without contention, none of the requests that lost to the latest grant standing any more (R20). -/
def State.portPtr (s : State) : Nat := if s.mem.port.lost.any s.stillAsks then s.mem.port.ptr else 0

/-- The request the host port serves next (R19, R20): the lowest of its class at or above the pointer, else the lowest. -/
def State.portTurn (s : State) : Option PortReq :=
  let l := s.portTie
  (l.find? fun r => decide (s.portPtr ≤ r.index)).or l.head?

/-- A grant (R20): past the winner of a tie, else 0. The host port sends a request, for which the link stays in L0 (R369). -/
def State.portGrant (s : State) (r : PortReq) : State :=
  let l := s.portTie
  { s with mem := { s.mem with port := if 2 ≤ l.length then ⟨r.index + 1, l.filter (· ≠ r)⟩ else {} },
           pwr := { s.pwr with quiet := s.now } }

/-- MIRROR_REWRITE (R228, R229) of the function whose turn it is: a change waits and the mirror is enabled; a link below L0 returns to L0 first. -/
def execMirrorRewrite (f : Func) (s : State) : Host.Outcome State Fault Refusal :=
  if s.portTurn ≠ some (.mirror f) then .next s
  else .next (({ s.portGrant (.mirror f) with pwr := { s.pwr with link := .l0 } } : State).rewrite f)

end Sys2Proof.Machine
end

