-- ==== Sys2Proof/Machine/Streams.lean ====
section
/-! DEFINITION. Events of the memory system (R42, R159, R160, R162, R172 to R178, R368): blocks in and out, HBM errors, scrub, self-refresh. -/
namespace Sys2Proof.Machine

/-! ## HBM requests and self-refresh (R368) -/

/-- The scrub of R159 falls due. -/
def State.scrubDue (s : State) : Nat := s.mem.scrubAt + 24 * 3600 * 1000 * msUnits

/-- HBM_SR_ENTRY (R368): the conditions have held for 100 µs, and no scrub falls due within them. -/
def execHbmSrEntry (s : State) : Host.Outcome State Fault Refusal :=
  let t := s.advance (s.pwr.hbmIdle + 100 * usUnits)
  if !s.mem.ready || s.mem.selfRef || !s.pwr.hbmSrEn || !s.allDeep || s.areasHold || (List.finRange 24).any s.fetching
      || s.scrubDue ≤ t.now then .next s
  else .next { t with mem := { t.mem with selfRef := true, srExit := none }, pwr := { t.pwr with hbm := 2 } }

/-- HBM_SR_EXIT_DONE (R368): 20 µs after the request; the blocks that have waited move on. -/
def execHbmSrExitDone (s : State) : Host.Outcome State Fault Refusal :=
  match s.mem.srExit with
  | none => .next s
  | some t =>
    let s := (s.advance (t + 20 * usUnits)).noteHbm
    let s : State := { s with mem := { s.mem with selfRef := false, srExit := none }, pwr := { s.pwr with hbm := 1 } }
    .next ((List.finRange 12).foldl State.drain s).repick

/-- HBM_SCRUB (R159, R368): 24 h after the one before. The words keep their content; self-refresh is left for it. -/
def execHbmScrub (s : State) : Host.Outcome State Fault Refusal :=
  if !s.mem.ready then .next s
  else
    let s := (s.advance s.scrubDue).useHbm
    .next { s with mem := { s.mem with scrubAt := s.now } }

/-! ## Descriptors (R172, R173) -/

/-- The completion of a descriptor: DONE_BLOCKS and STATUS, and FLAGS with OWN = 0 as the last write. -/
def State.completeDesc (s : State) (base : BitVec 64) (slot done status : Nat) : State :=
  let a := base + BitVec.ofNat 64 (16 * slot)
  ((s.writeHost (a + 0xC) (leBytes 2 done)).writeHost (a + 0xF) (leBytes 1 status)).writeHost (a + 0xE) (leBytes 1 0)

def noteGen (gens : List (Nat × BitVec 16)) (slot : Nat) (g : BitVec 16) : List (Nat × BitVec 16) :=
  (slot, g) :: gens.filter fun x => x.1 ≠ slot

/-! ## Inbound blocks (R42, R43, R174, R175) -/

/-- The registers of R46 that report a rejected block, on one cluster. -/
def Decoder.noteBlock (d : Decoder) (h : BlkHdr) (check : Nat) : Decoder :=
  { d with blkReject := satInc d.blkReject, blkCause := setBit d.blkCause (check - 1), lastSeg := h.seg, lastPos := BitVec.ofNat 32 h.index,
           lastChk := BitVec.ofNat 4 check }

/-- The clusters a rejected block is recorded against (R42). -/
def State.blamed (s : State) (owner : Cluster) (h : BlkHdr) (check : Nat) : List Cluster :=
  if check ≤ 4 then [owner] else (maskClusters h.mask).filter fun c => s.site c = s.site owner

/-- A rejected block (R42, R43): it is discarded whole and recorded. -/
def State.rejectBlock (s : State) (owner : Cluster) (h : BlkHdr) (check : Nat) : State :=
  match s.blamed owner h check with
  | [] => { s with mem := { s.mem with noMask := satInc s.mem.noMask } }
  | cl => cl.foldl (fun s c => s.updCl c fun e => { e with dec := e.dec.noteBlock h check }) s

def State.updIn (s : State) (i : Fin 24) (f : InStream → InStream) : State := { s with mem := { s.mem with ins := upd s.mem.ins i f } }

def State.updOut (s : State) (i : Fin 24) (f : OutStream → OutStream) : State := { s with mem := { s.mem with outs := upd s.mem.outs i f } }

/-- The PLAY stream's area has filled without a complete instance (R180): one that has been played out and released whole holds none of it. -/
def State.oversized (s : State) (i : Fin 24) : Bool :=
  let t := s.mem.ins[i]
  t.play && decide (t.areaMib * 256 ≤ t.staged)
    && !((findSeg s.mem.segs[streamCluster i] t.bound).any fun g => g.insts.any fun x => x.done && decide (x.released < x.blocks.length))

/-- An accepted block (R37, R41, R162, R175): it joins the segment on every named cluster. -/
def State.acceptBlock (s : State) (i : Fin 24) (h : BlkHdr) (b : Body) : State :=
  let s := (maskClusters h.mask).foldl (fun s c =>
    { s with mem := { s.mem with segs := upd s.mem.segs c fun l => updSeg l h.seg fun g => g.accept h.isFirst b } }) s
  let s := s.updIn i fun t =>
    { t with expect := t.expect + 1, cur := if b.last then none else some h.seg, staged := if t.play then t.staged + 1 else 0,
             dense := if t.play && 8 * opsLength b.ops < b.opBytes then satInc t.dense else t.dense }
  s.updIn i fun t => { t with oversize := t.oversize || s.oversized i }

/-- The buffer in hand is completed once all its blocks are fetched and checked (R174). -/
def State.completeIn (s : State) (i : Fin 24) : State :=
  let t := s.mem.ins[i]
  match t.descs with
  | [] => s
  | d :: ds =>
    if t.fetched < d.blocks then s
    else
      let s := s.completeDesc t.base t.head t.good (if t.bad then 1 else 0)
      s.updIn i fun t => { t with descs := ds, gens := noteGen t.gens t.head d.gen, head := (t.head + 1) % t.size, fetched := 0, good := 0,
                                  bad := false }

/-- BLOCK_ENTRY (R42, R43, R174, R175): the block of the stream whose fetch is next. An instance a stall has left behind is consumed first (R162). -/
def execBlockEntry (i : Fin 24) (b : List Byte) (s : State) : Host.Outcome State Fault Refusal :=
  let t := s.mem.ins[i]
  let owner := streamCluster i
  let s := s.settleStall (s.site owner) s.net
  if !s.mem.ready || s.portTurn ≠ some (.inb i) then .next s
  else if s.mem.selfRef then .next s.askHbm
  else
    let s := s.portGrant (.inb i)
    let h := BlkHdr.of b
    let v := checkBlock b t owner (s.members (s.site owner)) fun c id => findSeg s.mem.segs[c] id
    let s := match v with
      | .stale => s.updIn i fun t => { t with stale := satInc t.stale }
      | .reject n => s.rejectBlock owner h n
      | .accept body => s.acceptBlock i h body
    let bad := match v with
      | .reject _ => true
      | _ => false
    let s := s.updIn i fun t =>
      { t with fetched := t.fetched + 1, good := if t.bad || bad then t.good else t.good + 1, bad := t.bad || bad }
    .next (s.completeIn i).noteHbm

/-- BLOCK_HBM_RELEASE (R162): the decompressor of cluster `c` has emitted the last vector of the next block of its STREAM play. -/
def execBlockHbmRelease (c : Cluster) (s : State) : Host.Outcome State Fault Refusal :=
  let k := s.site c
  match (s.seqs[k]).play with
  | none => .next s
  | some p =>
    let id := ((s.entry k p.entry).map (·.segment)).getD 0xFFFFFFFF
    let x := s.instOf c id
    let upto := ((x.blocks.take (x.released + 1)).map (·.vectors)).sum
    if (s.playStream c id).isNone || x.blocks.length ≤ x.released || !((findSeg s.mem.segs[c] id).any (·.stream)) then .next s
    else if ((s.seqs[k]).abortAt.getD p.len) < upto then .next s
    else
      let t := p.startOf (upto - 1)
      let s := (((s.advanceNet t).playTo k t).unstage c id 1).noteHbm
      let put := fun (g : Seg) => { g with insts := match g.insts with
        | y :: rest => { y with released := y.released + 1 } :: rest
        | [] => [] }
      .next { s with mem := { s.mem with segs := upd s.mem.segs c fun l => updSeg l id put } }

/-! ## Outbound blocks (R176, R178) -/

/-- A buffer reclaimed early (R178): the blocks written and `inHand` more are lost, and the next descriptor is taken. -/
def State.reclaimed (s : State) (i : Fin 24) (inHand : Nat) : State :=
  let n := (((s.mem.outs[i]).buf.map (·.written)).getD 0 + inHand) * 4096
  let s := s.updOut i fun t =>
    { t with area := t.area.drop inHand, descs := t.descs.drop 1, head := (t.head + 1) % t.size, buf := none, reclaim := true,
             reclaimBytes := satAdd t.reclaimBytes n }
  let s := { s with mem := { s.mem with reclaim := true } }
  s.report 36 (bitMask 12 (streamCluster i).val) (BitVec.ofNat 32 i.val)

/-- The buffer in hand is completed (R172, R173, R176): PARTIAL when it is not full. -/
def State.completeOut (s : State) (i : Fin 24) : State :=
  let t := s.mem.outs[i]
  match t.descs, t.buf with
  | d :: ds, some b =>
    let s := s.completeDesc t.base t.head b.written (if b.written < d.blocks then 2 else 0)
    s.updOut i fun t => { t with descs := ds, gens := noteGen t.gens t.head d.gen, head := (t.head + 1) % t.size, buf := none }
  | _, _ => s

/-- What follows a block or a buffer: room in the area is filled again, and a closing stream that has drained closes (R171, R176). -/
def State.afterOut (s : State) (i : Fin 24) : State := ((s.drain (streamCluster i)).closeDrained i).repick.noteHbm

/-- OUTBOUND_BLOCK_WRITE (R176, R178) of the stream whose turn it is. `own`, `gen`: the descriptor as read before the write; `ownAfter`, `genAfter`:
before the completion. An empty area takes the blocks that closed while the stream was not open. -/
def execOutboundBlockWrite (i : Fin 24) (own : Bool) (gen : BitVec 16) (ownAfter : Bool) (genAfter : BitVec 16) (s : State) :
    Host.Outcome State Fault Refusal :=
  let t := s.mem.outs[i]
  let c := streamCluster i
  match t.area, t.descs with
  | b :: rest, d :: _ =>
    if s.portTurn ≠ some (.out i) then .next s
    else if s.mem.selfRef then .next s.askHbm
    else
      let s := s.portGrant (.out i)
      let f := t.buf.getD ⟨d.gen, 0, s.now⟩
      if !own || gen ≠ f.gen then .next ((s.reclaimed i 1).afterOut i)
      else
        let s := s.writeData (d.addr + BitVec.ofNat 64 (4096 * f.written)) (b.bytes (if i.val % 2 = 0 then captureMagic else stampMagic) c)
        let s := s.updOut i fun t => { t with area := rest, buf := some { f with written := f.written + 1 } }
        if f.written + 1 < d.blocks && !b.blk.last then .next (s.afterOut i)
        else if !ownAfter || genAfter ≠ f.gen then .next ((s.reclaimed i 0).afterOut i)
        else .next ((s.completeOut i).afterOut i)
  | [], _ => .next (s.drain c)
  | _, [] => .next s

/-- OUTBOUND_PARTIAL_TIMEOUT (R176): 100 µs after the buffer's first block, or later while the function may not write (R214). -/
def execOutboundPartialTimeout (i : Fin 24) (ownAfter : Bool) (genAfter : BitVec 16) (s : State) : Host.Outcome State Fault Refusal :=
  match (s.mem.outs[i]).buf with
  | none => .next s
  | some f =>
    if !s.dma (s.host.owner[streamCluster i]) then .next s
    else
    let s := s.advance (f.since + 100 * usUnits)
    .next ((if !ownAfter || genAfter ≠ f.gen then s.reclaimed i 0 else s.completeOut i).afterOut i)

/-! ## Errors (R159, R160) -/

/-- ECC_CE (R159): the read is corrected, counted and reported. -/
def execEccCe (word : Word) (s : State) : Host.Outcome State Fault Refusal :=
  if !s.mem.ready then .next s
  else
    let s := { s with mem := { s.mem with eccCe := satInc s.mem.eccCe } }
    .next (s.report 32 0 word)

/-- MEM_ECC_UE, MEM_ECC_ADDR, MEM_ECC_WHERE and MEM_ECC_SEG (R160, R186). -/
def Memory.noteUe (m : Memory) (word : Word) (vs : Bool) (c : Cluster) (seg : Word) : Memory :=
  { m with eccUe := satInc m.eccUe, eccUeBit := true, eccAddr := word, whereValid := true, whereVs := vs, whereCl := BitVec.ofNat 4 c.val,
           eccSeg := seg }

/-- The segment a cluster plays. -/
def State.playedSeg (s : State) (c : Cluster) : Option Word :=
  (s.seqs[s.site c]).play.bind fun p => (s.entry (s.site c) p.entry).map (·.segment)

/-- The burst ends at its next granule boundary for an uncorrectable error in the segment it plays, and STATE is STALLED until then (R60, R160). -/
def State.abortDamaged (s : State) (k : Cluster) : State := ((s.playTo k s.net).abortNow k).setState k .stalled

/-- ECC_UE (R160). -/
def execEccUe (word : Word) (t : UeTarget) (s : State) : Host.Outcome State Fault Refusal :=
  if !s.mem.ready then .next s
  else match t with
    | .segment c vs => match s.playedSeg c with
      | some id =>
        let k := s.site c
        let s := s.abortDamaged k
        let m := s.mem.noteUe word vs c id
        let m := { m with segs := upd m.segs c fun l => updSeg l id fun g => { g with damaged := true } }
        .next (({ s with mem := m } : State).report 18 (s.maskOf k) word)
      | none => .next { s with mem := s.mem.noteUe word vs (if vs then c else 0) 0xFFFFFFFF }
    | .outbound i =>
      if (s.mem.outs[i]).area.isEmpty then .next { s with mem := s.mem.noteUe word false 0 0xFFFFFFFF }
      else
        let mark := fun (l : List ClosedBlock) => match l with
          | b :: rest => { b with bad := true } :: rest
          | [] => []
        let c := streamCluster i
        let s := { s with mem := s.mem.noteUe word false 0 0xFFFFFFFF }
        .next ((s.updOut i fun o => { o with area := mark o.area }).report 33 (bitMask 12 c.val) (BitVec.ofNat 32 i.val))
    | .other => .next { s with mem := s.mem.noteUe word false 0 0xFFFFFFFF }

end Sys2Proof.Machine
end

