-- ==== Sys2Proof/Machine/Scheduler.lean ====
section
/-! DEFINITION. Events of the site controller (R196 to R211): dispatch, the end of an item, the watchdog, samples. -/
namespace Sys2Proof.Machine

/-! ## Dispatch (R203 to R205) -/

/-- The FAIL records of a burst in a cluster's capture area and on their way to it, and whether a DROP is among them (R209, R210). -/
def State.burstRecords (s : State) (c : Cluster) (bid : Word) : List (Nat × Byte) × Bool :=
  let held := (s.mem.outs[(Fin.ofNat 24 (2 * c.val) : Fin 24)]).area ++ (s.cl[c]).cap.fifo
  let own := (held.filter fun b => b.blk.mode = 1 && b.blk.burstId = bid).map fun b => failRecords b.blk.words.length b.blk.words
  (own.flatMap (·.1), own.any (·.2))

/-- The time R209 allows a reduction, in ns. -/
def State.reduceTime (s : State) (p : Reduce) (bid : Word) : Nat :=
  200 + 4 * (s.burstRecords p.cluster bid).1.length + (32 + 2 * (2 ^ p.rowBits + 2 ^ p.colBits)) / 4

/-- The bound on an item's execution time in ns that `free_at` of R203 uses (R201, R209). -/
def State.itemBound (s : State) (i : Item) : Nat :=
  match i.type, s.sched.reduction i.flow with
  | .failReduce, some p => if i.source = 1 then 72 else s.reduceTime p i.burstId
  | _, _ => boundOf (s.tableFor i)

/-- A core that runs nothing starts the first item of its slots (R203). -/
def State.startCore (s : State) (c : Fin 16) : State :=
  let k := s.sched.cores[c]
  match k.run, k.slots with
  | none, i :: rest =>
    let gens := s.gens.map fun g => g.shadow.number
    let sc := { s.sched with cores := upd s.sched.cores c fun k => { k with slots := rest } }
    { s with sched := sc.startItem c i s.now (s.tableNum i) (s.tableFor i) gens (s.itemBound i) ((i.site.map fun k => s.sites[k].scFlags).getD 0) }
  | _, _ => s

/-- The instant of the next scheduler cycle that can grant an item (R203): the cycle in hand, or the one after it where that has run, or the cycle of
the first post to come when no item waits. -/
def State.nextCycle (s : State) : Nat :=
  let t := if s.sched.cycleAt = some (s.now / nsUnits) then (s.now / nsUnits + 1) * nsUnits else s.now
  match s.sched.queue, s.sched.due with
  | [], i :: _ => max t i.queuedAt
  | _, _ => t

/-- ITEM_DISPATCH (R203, R345): one scheduler cycle over the items that have entered their queues, and the cores that start. -/
def execItemDispatch (s : State) : Host.Outcome State Fault Refusal :=
  if !s.isReady || s.flt.device then .next s
  else
    let s := (s.advance s.nextCycle).settleCycle
    .next ((List.finRange 16).foldl State.startCore { s with sched := s.sched.cycle s.now })

/-! ## Evaluation (R198, R199, R207 to R210) -/

/-- How an item ended (R199). -/
inductive ItemEnd where
  | ok (w : Work)
  | noTable
  | badOperand
  deriving DecidableEq, Repr

/-- What an item's rules read (R198). -/
def State.ruleEnv (s : State) (i : Item) : RuleEnv :=
  let res := match i.type, i.site with
    | .burstDone, _ => u64At i.payload 0
    | _, some k => s.sites[k].result
    | _, none => 0
  let snap := match i.type, i.site with
    | .burstDone, _ => i.snapshot
    | _, some k => s.sched.snaps[k]
    | _, none => []
  let entry := match i.type with
    | .burstDone => fieldAt i.payload 8 2
    | .ruleEval => fieldAt i.payload 2 2
    | _ => 0
  { result := res, pinFail := if i.site.isSome then snap else [], entry := entry,
    opnds := if i.type = .hostItem then (List.range 4).map fun j => s64At i.payload (8 + 8 * j) else [],
    iflags := bitAt i.notRun 0 + bitAt i.taint 1 + bitAt i.aborted 2,
    pairs := s.pairs.toList.map fun p => p.stats.mean,
    chans := (List.finRange 12).flatMap fun c => (s.cl[c]).tdc.toList.map fun t => t.stats.mean,
    bursts := (s.sched.flow i.flow).bursts }

/-- The working copy an item starts with (R199). -/
def Running.work (r : Running) : Work := { sc := r.sc, vars := r.vars }

/-- A trial value written with SET_LEVEL or SET_EDGE, and the restart (R207). -/
def Search.write (p : Search) (w : Work) : Option Work :=
  (action { act := if p.edge then .setEdge else .setLevel, aparam := p.target, value := p.trial } w).map fun w => { w with restart := some p.desc }

/-- The install payload of SEARCH_STEP (R207). -/
def parseSearch (b : List Byte) : Option Search :=
  let n := fun (o : Nat) => fieldAt b o 1
  let lo := s64At b 8
  let hi := s64At b 16
  if n 0 < 2 && n 1 < 2 && n 4 < 2 && n 5 < 8 && n 0x20 < 16 && decide (lo ≤ hi) && decide (1 ≤ s64At b 24) then
    some { edge := n 0 == 1, linear := n 1 == 1, target := u16At b 2, pass := n 4 == 1, var := Fin.ofNat 8 (n 5), desc := u16At b 6, lo := lo,
           hi := hi, high := hi, step := s64At b 24, doneFlag := Fin.ofNat 16 (n 0x20), best := none, trial := lo }
  else none

/-- MPARAM as the OPARAM of TDC_MEAN (R198, R208). -/
def mparamOk (meas : Nat) (m : BitVec 16) : Bool :=
  match meas with
  | 0 => m = 0
  | 1 => decide (m.toNat < 48)
  | _ => m.getLsbD 15 && bitsOf m.toNat 7 8 = 0 && decide (m.toNat % 128 < 96)

/-- The install payload of TRIM_STEP (R208). -/
def parseTrim (b : List Byte) : Option Trim :=
  let n := fun (o : Nat) => fieldAt b o 1
  if n 0 < 3 && 1 ≤ n 1 && n 1 + n 2 ≤ 16 && n 3 < 2 && mparamOk (n 0) (u16At b 4) && n 6 < 4 && n 7 < 4 && n 16 < 8 then
    some { meas := Fin.ofNat 3 (n 0), width := n 1, first := n 2, polarity := n 3 == 1, mparam := u16At b 4, startSel := Fin.ofNat 4 (n 6),
           endSel := Fin.ofNat 4 (n 7), target := s64At b 8, var := Fin.ofNat 8 (n 16), code := 0, bit := 0 }
  else none

/-- The install payload of FAIL_REDUCE (R209): `site` lists the clusters it may name, those of the flow's site in FAIL_LOG mode; `last` is the
latest burst of the site that is over. -/
def parseReduce (b : List Byte) (site : List Cluster) (last : Word) : Option Reduce :=
  let n := fun (o : Nat) => fieldAt b o 1
  let c := site.find? fun c => c.val = n 0
  c.bind fun c =>
    if 1 ≤ n 2 && n 2 ≤ 12 && 1 ≤ n 4 && n 4 ≤ 12 && n 5 < 2 && (n 5 = 0 || 3 ≤ n 4) && fieldAt b 8 8 % 4096 = 0 then
      some { cluster := c, rowShift := n 1, rowBits := n 2, colShift := n 3, colBits := n 4, pinCol := n 5 == 1, spareRows := n 6,
             spareCols := n 7, address := u64At b 8, last := last }
    else none

def State.setProc (s : State) (n : Nat) (p : Option Proc) : State := { s with sched := s.sched.setProc n p }

/-- A step of the search of a flow (R207). -/
def State.searchStep (s : State) (r : Running) (p : Search) : State × ItemEnd :=
  let i := r.item
  let w := r.work
  let pass := i.result.getLsbD 63 = p.pass
  if i.notRun || i.aborted then (s, ((p.write w).map ItemEnd.ok).getD .badOperand)
  else match p.next pass with
    | .trial q => match q.write w with
      | some w => (s.setProc i.flow (some (.search q)), .ok w)
      | none => (s, .badOperand)
    | .finish v =>
      (s.setProc i.flow none, .ok { w with vars := upd w.vars p.var fun _ => v, sc := scSetFlag w.sc p.doneFlag.val true })

/-- SEARCH_STEP (R207): a host item installs, any other steps. -/
def State.runSearch (s : State) (r : Running) : State × ItemEnd :=
  let i := r.item
  if i.source = 1 then
    match i.site, parseSearch i.payload with
    | some k, some p =>
      let p := p.begin_
      match (s.siteState k).rests, p.write r.work with
      | true, some w => (s.setProc i.flow (some (.search p)), .ok w)
      | _, _ => (s, .badOperand)
    | _, _ => (s, .badOperand)
  else match s.sched.proc i.flow with
    | some (.search p) => s.searchStep r p
    | _ => (s, .ok r.work)

/-- The measurement of a trim step, and the statistics it names cleared (R208, R151). -/
def State.measure (s : State) (p : Trim) (i : Item) : Int × State :=
  match p.meas.val with
  | 0 => (bitsOf i.result.toNat 48 13, s)
  | n => ((s.statsAt (n = 1) (p.mparam.toNat % 128)).mean, s.clearStats (n = 1) (p.mparam.toNat % 128))

/-- TRIM_STEP (R208). -/
def State.runTrim (s : State) (r : Running) : State × ItemEnd :=
  let i := r.item
  let w := r.work
  if i.source = 1 then
    match i.site, parseTrim i.payload with
    | some _, some p =>
      let p := p.begin_
      let s := if p.meas = 0 then s else (s.measure p i).2
      (s.setProc i.flow (some (.trim p)), .ok { w with sc := p.flags w.sc })
    | _, _ => (s, .badOperand)
  else match s.sched.proc i.flow with
    | some (.trim p) =>
      if i.notRun then (s, .ok { w with sel := some p.startSel })
      else
        let (m, s) := s.measure p i
        let (q, last) := p.next m
        let w := { w with sc := q.flags w.sc }
        if last then (s.setProc i.flow none, .ok { w with vars := upd w.vars p.var fun _ => (q.code : Int), sel := some p.endSel })
        else (s.setProc i.flow (some (.trim q)), .ok { w with sel := some p.startSel })
    | _ => (s, .ok w)

/-- The clusters of a site that a burst arming now would run in FAIL_LOG mode (R209). -/
def State.failLogging (s : State) (k : Cluster) : List Cluster := (s.members k).filter fun c => (s.armConfig c).capture.mode = .failLog

/-- The latest burst of a site that is over (R209). -/
def State.overBurst (s : State) (k : Cluster) : Word := (s.sites[k]).burstId - if (s.siteState k).rests then 0 else 1

/-- The result buffer (R210): written between an odd and an even GUARD. -/
def State.writeReduced (s : State) (p : Reduce) (out : List Byte) : State :=
  ((s.writeHost p.address (leBytes 4 (p.guard + 1).toNat)).writeData (p.address + 4) (out.drop 4)).writeHost p.address (out.take 4)

/-- FAIL_REDUCE (R209, R210): a host item installs, any other reduces the burst it names. -/
def State.runReduce (s : State) (r : Running) : State × ItemEnd :=
  let i := r.item
  let w := r.work
  if i.source = 1 then
    match i.site.bind fun k => parseReduce i.payload (s.failLogging k) (s.overBurst k) with
    | some p => ({ s with sched := s.sched.setReduction i.flow p }, .ok w)
    | none => (s, .badOperand)
  else match s.sched.reduction i.flow with
    | some p =>
      let (records, drop) := s.burstRecords p.cluster i.burstId
      let s := s.writeReduced p (p.result i.burstId records (i.result.getLsbD 61 || drop))
      ({ s with sched := s.sched.setReduction i.flow { p with last := i.burstId, guard := p.guard + 2 } }, .ok w)
    | none => (s, .ok w)

/-- What an item does (R188, R199), its rules reading `env`: procedures change; flags, variables and actions wait in the working copy. -/
def State.evaluate (s : State) (r : Running) (env : RuleEnv) : State × ItemEnd :=
  let i := r.item
  let w := r.work
  match i.type with
  | .burstDone | .ruleEval | .hostItem =>
    match r.num, r.table with
    | none, none => (s, .ok w)
    | _, some rs => (s, ((evalRules env rs w).map ItemEnd.ok).getD .badOperand)
    | some _, none => (s, .noTable)
  | .binAssign => (s, .ok { w with sc := if bitOf (fieldAt i.payload 1 1) 0 then scClearBin w.sc else scSetBin w.sc (fieldAt i.payload 0 1) })
  | .searchStep => s.runSearch r
  | .trimStep => s.runTrim r
  | .failReduce => s.runReduce r
  | .calStep | .tdcStat | .placement => (s, .ok w)

/-- The SC_FLAGS write at the end of a decision-flow item (R196): SEL_TAG without a selection is stated nowhere, and is a free value. -/
def State.writeFlags (s : State) (k : Cluster) (i : Item) (sc : BitVec 32) (sel : Option (Fin 4)) : State :=
  let keep := sc &&& 0x04FFFFFF
  match sel with
  | some n => s.updSite k fun r =>
    { r with scFlags := keep ||| BitVec.ofNat 32 (i.burstId.toNat % 16 * 2 ^ 28 + 2 ^ 27 + n.val * 2 ^ 24) }
  | none =>
    let (s, v) := s.fresh
    s.updSite k fun r => { r with scFlags := keep ||| BitVec.ofNat 32 (v.toNat % 16 * 2 ^ 28) }

/-- The internal command of an item's actions (R200), in line for the command engine. -/
def State.sendActions (s : State) (r : Running) (w : Work) : State :=
  if w.levels.isEmpty && w.edges.isEmpty && w.restart.isNone && !w.stop then s
  else
    let x : InternalCommand := { flow := r.item.flow, site := r.item.site, expectGen := r.gens, levels := w.levels, edges := w.edges,
                                 restart := w.restart, stop := w.stop, search := r.item.type = .searchStep }
    { s with sched := { s.sched with internal := s.sched.internal ++ [x] } }

/-- An item's end (R196, R199): its flags and variables are written, or the error is noted. -/
def State.applyEnd (s : State) (r : Running) (e : ItemEnd) : State :=
  let i := r.item
  let stored := (i.site.map fun k => s.sites[k].scFlags).getD 0
  let flags := fun (s : State) (sc : BitVec 32) (sel : Option (Fin 4)) => match i.site with
    | some k => if i.flow < 12 then s.writeFlags k i sc sel else s
    | none => s
  match e with
  | .ok w =>
    let s := { s with sched := s.sched.updFlow i.flow fun f => { f with vars := w.vars } }
    (flags s w.sc w.sel).sendActions r w
  | .noTable => flags { s with sched := { s.sched with noTable := true, lastFlow := BitVec.ofNat 12 i.flow } } stored none
  | .badOperand => flags { s with sched := { s.sched with badOpnd := true, lastFlow := BitVec.ofNat 12 i.flow } } stored none

/-- Time a core has run an item in the window in hand, in SUBNS units (R211). -/
def Sched.ranFor (x : Sched) (r : Running) (now : Nat) : Nat := now - max r.started x.window

/-- The core is free again (R202, R203). -/
def State.freeCore (s : State) (c : Fin 16) (r : Running) : State :=
  { s with sched := { s.sched.updFlow r.item.flow (fun f => { f with inService := false }) with
      cores := upd s.sched.cores c fun k => { k with run := none, busy := k.busy + s.sched.ranFor r s.now } } }

/-- The time an item takes in ns at most: the rules evaluated and the TDC_MEAN operands read (R201), or the records reduced (R209); never more than
the watchdog's 100 µs (R202). -/
def State.itemTime (s : State) (r : Running) : Nat :=
  let i := r.item
  min 100000 (match i.type, s.sched.reduction i.flow with
    | .failReduce, some p => if i.source = 1 then 72 else s.reduceTime p i.burstId
    | _, _ => 72 + ((r.table.map fun rs => ruleCost (s.ruleEnv i) rs r.work).getD 0))

/-- A reduction whose result its function may not write into host memory now (R214): the item stays in service. -/
def State.writeBarred (s : State) (i : Item) : Bool :=
  i.type = .failReduce && i.source ≠ 1 && (s.sched.reduction i.flow).isSome && !s.dma (s.flowOwner i.flow)

/-- ITEM_COMPLETE (R196, R199, R201, R203): the item ends when the time it takes at most is over (log 2). -/
def execItemComplete (c : Fin 16) (s : State) : Host.Outcome State Fault Refusal :=
  match (s.sched.cores[c]).run with
  | none => .next s
  | some r =>
    if s.writeBarred r.item then .next s
    else
    let env := s.ruleEnv r.item
    let s := s.advance (r.started + s.itemTime r * nsUnits)
    let (t, e) := s.evaluate r env
    let t := (t.applyEnd r e).freeCore c r
    let t := { t with sched := { t.sched.updFlow r.item.flow (fun f => { f with lastCore := some c }) with
                                 doneCnt := upd t.sched.doneCnt r.item.prio (· + 1) } }
    .next (if t.flt.device then t else t.startCore c)

/-- WATCHDOG (R202): 100 µs after the item's first instruction. A reduction abandoned so no longer holds its burst's blocks (log 28). -/
def execWatchdog (c : Fin 16) (s : State) : Host.Outcome State Fault Refusal :=
  match (s.sched.cores[c]).run with
  | none => .next s
  | some r =>
    let s := (s.advance (r.started + 100 * usUnits)).freeCore c r
    let s := { s with sched := { s.sched.skipReduce r.item with watchdog := true, lastFlow := BitVec.ofNat 12 r.item.flow } }
    let s := s.report 22 ((r.item.site.map s.maskOf).getD 0) (BitVec.ofNat 32 (r.item.flow + c.val * 2 ^ 16))
    .next (if s.flt.device then s else s.startCore c)

/-! ## Samples (R211, R230) -/

/-- Items queued at a priority, and of a flow (R211). -/
def Sched.depth (x : Sched) (p : Nat) : Nat := (x.queue.filter fun i => i.prio.val = p).length

def Sched.waiting (x : Sched) (n : Nat) : Nat := (x.queue.filter fun i => i.flow = n).length

/-- The end of a 1 ms window (R211): busy ratios, completed items and waits are sampled. -/
def State.endWindow (s : State) : State :=
  let x := s.sched
  let total := fun (k : SchedCore) => k.busy + (k.run.map fun r => x.ranFor r s.now).getD 0
  let cores := x.cores.map fun k => { k with ratio := satNat 16 (total k * 65536 / msUnits), busy := 0 }
  { s with sched := { x with cores := cores, window := s.now },
           host := { s.host with samples := { s.host.samples with done := x.doneCnt, busy := cores.map (·.ratio), hist := x.runHist } } }

/-- SCHED_SAMPLE (R211, R230): depths and waiting counts on a whole µs, or the end of the 1 ms window. -/
def execSchedSample (window : Bool) (s : State) : Host.Outcome State Fault Refusal :=
  if !s.isReady then .next s
  else if window then .next (s.advance (s.sched.window + msUnits)).endWindow
  else
    let s := s.advance ((s.now + usUnits - 1) / usUnits * usUnits)
    let x := s.sched
    let depth := Vector.ofFn fun (p : Fin 4) => BitVec.ofNat 32 (x.depth p.val)
    let flow := Vector.ofFn fun (k : Fin 12) => satNat 16 (x.waiting k.val)
    .next { s with host := { s.host with samples := { s.host.samples with depth := depth, flowWait := flow } } }

end Sys2Proof.Machine
end

