-- ==== Sys2Proof/Machine/Dispatch.lean ====
section
/-! DEFINITION. The dispatch of the commands: one arm per constructor. -/
namespace Sys2Proof.Machine

def exec (i : Instr) (s : State) : Host.Outcome State Fault Refusal :=
  match i with
  | .nop p => Sys2Proof.Machine.execNop p s
  | .identify p => Sys2Proof.Machine.execIdentify p s
  | .resetFunction p => Sys2Proof.Machine.execResetFunction p s
  | .statusMirrorSet p => Sys2Proof.Machine.execStatusMirrorSet p s
  | .timingSetWrite p => Sys2Proof.Machine.execTimingSetWrite p s
  | .levelSetWrite p => Sys2Proof.Machine.execLevelSetWrite p s
  | .pinFormatWrite p => Sys2Proof.Machine.execPinFormatWrite p s
  | .clockPinSet p => Sys2Proof.Machine.execClockPinSet p s
  | .genCommit p => Sys2Proof.Machine.execGenCommit p s
  | .genRevert p => Sys2Proof.Machine.execGenRevert p s
  | .genDiscard p => Sys2Proof.Machine.execGenDiscard p s
  | .seqLoad p => Sys2Proof.Machine.execSeqLoad p s
  | .segDeclare p => Sys2Proof.Machine.execSegDeclare p s
  | .burstCommit p => Sys2Proof.Machine.execBurstCommit p s
  | .burstStart p => Sys2Proof.Machine.execBurstStart p s
  | .burstStop p => Sys2Proof.Machine.execBurstStop p s
  | .jumpRequest p => Sys2Proof.Machine.execJumpRequest p s
  | .resume p => Sys2Proof.Machine.execResume p s
  | .abort p running => Sys2Proof.Machine.execAbort p running s
  | .siteGang p => Sys2Proof.Machine.execSiteGang p s
  | .streamOpen p => Sys2Proof.Machine.execStreamOpen p s
  | .streamClose p => Sys2Proof.Machine.execStreamClose p s
  | .segPin p => Sys2Proof.Machine.execSegPin p s
  | .segUnpin p => Sys2Proof.Machine.execSegUnpin p s
  | .captureConfig p => Sys2Proof.Machine.execCaptureConfig p s
  | .acqArm p => Sys2Proof.Machine.execAcqArm p s
  | .acqForce p => Sys2Proof.Machine.execAcqForce p s
  | .tdcConfig p => Sys2Proof.Machine.execTdcConfig p s
  | .tdcStats p => Sys2Proof.Machine.execTdcStats p s
  | .ruleLoad p => Sys2Proof.Machine.execRuleLoad p s
  | .itemPost p => Sys2Proof.Machine.execItemPost p s
  | .flowConfig p => Sys2Proof.Machine.execFlowConfig p s
  | .timeSource p => Sys2Proof.Machine.execTimeSource p s
  | .timeAccept p => Sys2Proof.Machine.execTimeAccept p s
  | .timeThreshold p => Sys2Proof.Machine.execTimeThreshold p s
  | .ropeConfig p => Sys2Proof.Machine.execRopeConfig p s
  | .ropeTest p => Sys2Proof.Machine.execRopeTest p s
  | .calRun p => Sys2Proof.Machine.execCalRun p s
  | .calStore p verified => Sys2Proof.Machine.execCalStore p verified s
  | .calRefDeclare p => Sys2Proof.Machine.execCalRefDeclare p s
  | .faultConfig p => Sys2Proof.Machine.execFaultConfig p s
  | .faultInject p => Sys2Proof.Machine.execFaultInject p s
  | .faultAck p => Sys2Proof.Machine.execFaultAck p s
  | .powerTolerance p => Sys2Proof.Machine.execPowerTolerance p s
  | .attest p => Sys2Proof.Machine.execAttest p s
  | .fwStage p => Sys2Proof.Machine.execFwStage p s
  | .fwActivate p => Sys2Proof.Machine.execFwActivate p s
  | .badOpcode p opcode => Sys2Proof.Machine.execBadOpcode p opcode s
  | .ringErr f ring length => Sys2Proof.Machine.execRingErr f ring length s
  | .scInternalCommand running => Sys2Proof.Machine.execScInternalCommand running s
  | .rechain site running => Sys2Proof.Machine.execRechain site s running
  | .machineCheck postCrux stack half uaddr lost => Sys2Proof.Machine.execMachineCheck postCrux stack half uaddr lost s
  | .doorbellSqTail f ring value single running => Sys2Proof.Machine.execDoorbellSqTail f ring value single running s
  | .doorbellRqHead f value single => Sys2Proof.Machine.execDoorbellRqHead f value single s
  | .doorbellInTail f stream value single descs => Sys2Proof.Machine.execDoorbellInTail f stream value single descs s
  | .doorbellOutTail f stream value single descs => Sys2Proof.Machine.execDoorbellOutTail f stream value single descs s
  | .hstOwnerWrite index value => Sys2Proof.Machine.execHstOwnerWrite index value s
  | .ringEnable f which => Sys2Proof.Machine.execRingEnable f which s
  | .sqDisable f ring => Sys2Proof.Machine.execSqDisable f ring s
  | .rqDisable f => Sys2Proof.Machine.execRqDisable f s
  | .rqDisableDone f => Sys2Proof.Machine.execRqDisableDone f s
  | .hstEvtClr f value => Sys2Proof.Machine.execHstEvtClr f value s
  | .rcRegisterRead f addr bar2 width => Sys2Proof.Machine.execRcRegisterRead f addr s bar2 width
  | .latchedPairRead f addr width => Sys2Proof.Machine.execLatchedPairRead f addr s width
  | .registerWrite f addr value whole bar2 => Sys2Proof.Machine.execRegisterWrite f addr value whole s bar2
  | .diagEnter key => Sys2Proof.Machine.execDiagEnter key s
  | .diagExit key => Sys2Proof.Machine.execDiagExit key s
  | .diagWindowRead ecc => Sys2Proof.Machine.execDiagWindowRead ecc s
  | .i3cTransferGo ctl => Sys2Proof.Machine.execI3cTransferGo ctl s
  | .i3cTransferDone nack data => Sys2Proof.Machine.execI3cTransferDone nack data s
  | .warmReset value => Sys2Proof.Machine.execWarmReset value s
  | .globalEventWrite value => Sys2Proof.Machine.execGlobalEventWrite value s
  | .testInject port value => Sys2Proof.Machine.execTestInject port value s
  | .topoSelect value => Sys2Proof.Machine.execTopoSelect value s
  | .fltHistSelect value => Sys2Proof.Machine.execFltHistSelect value s
  | .fltPlogSelect value => Sys2Proof.Machine.execFltPlogSelect value s
  | .mr7Extend value => Sys2Proof.Machine.execMr7Extend value s
  | .nbrAttestGo value => Sys2Proof.Machine.execNbrAttestGo value s
  | .nbrAttestTimeout => Sys2Proof.Machine.execNbrAttestTimeout s
  | .porstAssert => Sys2Proof.Machine.execPorstAssert s
  | .perstAssert => Sys2Proof.Machine.execPerstAssert s
  | .bootStart hbmOk chips others => Sys2Proof.Machine.execBootStart hbmOk chips s others
  | .bootComplete => Sys2Proof.Machine.execBootComplete s
  | .tryBootTimeout hbmOk chips others => Sys2Proof.Machine.execTryBootTimeout hbmOk chips s others
  | .functionLevelReset f => Sys2Proof.Machine.execFunctionLevelReset f s
  | .refclkLoss running => Sys2Proof.Machine.execRefclkLoss s running
  | .refclkReturn => Sys2Proof.Machine.execRefclkReturn s
  | .ocxoReadyChange level => Sys2Proof.Machine.execOcxoReadyChange level s
  | .evtEdge cluster line falling width => Sys2Proof.Machine.execEvtEdge cluster line falling width s
  | .armPoint site => Sys2Proof.Machine.execArmPoint site s
  | .voteCount site => Sys2Proof.Machine.execVoteCount site s
  | .firstVector site => Sys2Proof.Machine.execFirstVector site s
  | .segmentStart site => Sys2Proof.Machine.execSegmentStart site s
  | .trigPulseEnd cluster output => Sys2Proof.Machine.execTrigPulseEnd cluster output s
  | .decisionPoint site => Sys2Proof.Machine.execDecisionPoint site s
  | .siteCondResolve site => Sys2Proof.Machine.execSiteCondResolve site s
  | .abortBoundary site => Sys2Proof.Machine.execAbortBoundary site s
  | .burstEnd site => Sys2Proof.Machine.execBurstEnd site s
  | .selectionRead site => Sys2Proof.Machine.execSelectionRead site s
  | .chainedStart site => Sys2Proof.Machine.execChainedStart site s
  | .chainTimeout site => Sys2Proof.Machine.execChainTimeout site s
  | .stallExit site => Sys2Proof.Machine.execStallExit site s
  | .streamTimeout site => Sys2Proof.Machine.execStreamTimeout site s
  | .compareComplete cluster vaddr pins waves => Sys2Proof.Machine.execCompareComplete cluster vaddr pins waves s
  | .dropEnd cluster => Sys2Proof.Machine.execDropEnd cluster s
  | .periodicCairn cluster => Sys2Proof.Machine.execPeriodicCairn cluster s
  | .captureBlockClose cluster => Sys2Proof.Machine.execCaptureBlockClose cluster s
  | .acqTrigger cluster event => Sys2Proof.Machine.execAcqTrigger cluster event s
  | .acqAutoExpire cluster => Sys2Proof.Machine.execAcqAutoExpire cluster s
  | .acqComplete cluster => Sys2Proof.Machine.execAcqComplete cluster s
  | .tdcEdge pin tick code falling => Sys2Proof.Machine.execTdcEdge pin tick code falling s
  | .tdcLossResume pin => Sys2Proof.Machine.execTdcLossResume pin s
  | .stampBlockClose cluster => Sys2Proof.Machine.execStampBlockClose cluster s
  | .gapCairn cluster => Sys2Proof.Machine.execGapCairn cluster s
  | .codeDensityDone cluster route hits => Sys2Proof.Machine.execCodeDensityDone cluster route hits s
  | .slewMove cluster rail => Sys2Proof.Machine.execSlewMove cluster rail s
  | .rangeSwitchDone cluster rail => Sys2Proof.Machine.execRangeSwitchDone cluster rail s
  | .lvlScDetect cluster rail running => Sys2Proof.Machine.execLvlScDetect cluster rail s running
  | .blockEntry stream bytes => Sys2Proof.Machine.execBlockEntry stream bytes s
  | .outboundBlockWrite stream own gen ownAfter genAfter => Sys2Proof.Machine.execOutboundBlockWrite stream own gen ownAfter genAfter s
  | .outboundPartialTimeout stream ownAfter genAfter => Sys2Proof.Machine.execOutboundPartialTimeout stream ownAfter genAfter s
  | .eccCe word => Sys2Proof.Machine.execEccCe word s
  | .eccUe word target => Sys2Proof.Machine.execEccUe word target s
  | .hbmScrub => Sys2Proof.Machine.execHbmScrub s
  | .hbmSrEntry => Sys2Proof.Machine.execHbmSrEntry s
  | .itemDispatch => Sys2Proof.Machine.execItemDispatch s
  | .itemComplete core => Sys2Proof.Machine.execItemComplete core s
  | .watchdog core => Sys2Proof.Machine.execWatchdog core s
  | .schedSample window => Sys2Proof.Machine.execSchedSample window s
  | .mirrorRewrite f => Sys2Proof.Machine.execMirrorRewrite f s
  | .timeReq port frame turn => Sys2Proof.Machine.execTimeReq port frame turn s
  | .timeResp port frame elapsed => Sys2Proof.Machine.execTimeResp port frame elapsed s
  | .timeReqTimer => Sys2Proof.Machine.execTimeReqTimer s
  | .timeRespTimeout => Sys2Proof.Machine.execTimeRespTimeout s
  | .ptmDialog t1 t4 master delay => Sys2Proof.Machine.execPtmDialog t1 t4 master delay s
  | .timeSlewStep => Sys2Proof.Machine.execTimeSlewStep s
  | .timeHoldover => Sys2Proof.Machine.execTimeHoldover s
  | .siteCond port frame => Sys2Proof.Machine.execSiteCond port frame s
  | .siteVote port frame => Sys2Proof.Machine.execSiteVote port frame s
  | .siteAbort port frame => Sys2Proof.Machine.execSiteAbort port frame s
  | .trig port frame => Sys2Proof.Machine.execTrig port frame s
  | .gevt port frame => Sys2Proof.Machine.execGevt port frame s
  | .frameDelivery port ctype frame atTick => Sys2Proof.Machine.execFrameDelivery port ctype frame atTick s
  | .ident port frame => Sys2Proof.Machine.execIdent port frame s
  | .identTimer port => Sys2Proof.Machine.execIdentTimer port s
  | .trainReq port frame => Sys2Proof.Machine.execTrainReq port frame s
  | .trainSts port frame => Sys2Proof.Machine.execTrainSts port frame s
  | .trainEnd port temp asym => Sys2Proof.Machine.execTrainEnd port temp asym s
  | .trainFailRetry port => Sys2Proof.Machine.execTrainFailRetry port s
  | .alignProbe port frame turn => Sys2Proof.Machine.execAlignProbe port frame turn s
  | .alignEcho port frame roundTrip => Sys2Proof.Machine.execAlignEcho port frame roundTrip s
  | .linkDetect port => Sys2Proof.Machine.execLinkDetect port s
  | .lossOfLock port => Sys2Proof.Machine.execLossOfLock port s
  | .idleEntry port => Sys2Proof.Machine.execIdleEntry port s
  | .idleNotice port frame => Sys2Proof.Machine.execIdleNotice port frame s
  | .idleExit port => Sys2Proof.Machine.execIdleExit port s
  | .topoAgeOut entry => Sys2Proof.Machine.execTopoAgeOut entry s
  | .loopReq port frame => Sys2Proof.Machine.execLoopReq port frame s
  | .loopAck port frame => Sys2Proof.Machine.execLoopAck port frame s
  | .testEnd port => Sys2Proof.Machine.execTestEnd port s
  | .attNonceLo port frame => Sys2Proof.Machine.execAttNonceLo port frame s
  | .attNonceHi port frame => Sys2Proof.Machine.execAttNonceHi port frame s
  | .attData port frame => Sys2Proof.Machine.execAttData port frame s
  | .attEnd port frame => Sys2Proof.Machine.execAttEnd port frame s
  | .attResend port frame => Sys2Proof.Machine.execAttResend port frame s
  | .thermalRead cluster temp => Sys2Proof.Machine.execThermalRead cluster temp s
  | .thermTrip cluster running => Sys2Proof.Machine.execThermTrip cluster s running
  | .calBackgroundRun cluster kind => Sys2Proof.Machine.execCalBackgroundRun cluster kind s
  | .calRunComplete cluster kind commanded result => Sys2Proof.Machine.execCalRunComplete cluster kind commanded result s
  | .calTargetRecompute cluster => Sys2Proof.Machine.execCalTargetRecompute cluster s
  | .calStale cluster => Sys2Proof.Machine.execCalStale cluster s
  | .calTinEdge gap => Sys2Proof.Machine.execCalTinEdge gap s
  | .calTinLoss => Sys2Proof.Machine.execCalTinLoss s
  | .faultReport events running => Sys2Proof.Machine.execFaultReport events running s
  | .plogWrite => Sys2Proof.Machine.execPlogWrite s
  | .powerStateEntry cluster => Sys2Proof.Machine.execPowerStateEntry cluster s
  | .powerStateExit cluster => Sys2Proof.Machine.execPowerStateExit cluster s
  | .powerExitDone cluster => Sys2Proof.Machine.execPowerExitDone cluster s
  | .linkL1Entry l12 => Sys2Proof.Machine.execLinkL1Entry l12 s
  | .treeGenerated => Sys2Proof.Machine.execTreeGenerated s
  | .companionPoll pin answered running => Sys2Proof.Machine.execCompanionPoll pin answered s running
  | .hotJoin bus pin qualifies id contract => Sys2Proof.Machine.execHotJoin bus pin qualifies s id contract
  | .aliveToggle => Sys2Proof.Machine.execAliveToggle s
  | .ptmDialogStart => Sys2Proof.Machine.execPtmDialogStart s
  | .trainReqTimer port pre main post metric => Sys2Proof.Machine.execTrainReqTimer port pre main post metric s
  | .checkerLock port received => Sys2Proof.Machine.execCheckerLock port s received
  | .checkerLockLoss port bits errs => Sys2Proof.Machine.execCheckerLockLoss port bits errs s
  | .testFirstInjection port => Sys2Proof.Machine.execTestFirstInjection port s
  | .blockHbmRelease cluster => Sys2Proof.Machine.execBlockHbmRelease cluster s
  | .supplyOutOfRange rail mv running => Sys2Proof.Machine.execSupplyOutOfRange rail mv s running
  | .supplyInRange rail => Sys2Proof.Machine.execSupplyInRange rail s
  | .thermTripClear cluster => Sys2Proof.Machine.execThermTripClear cluster s
  | .currentLimitRelease cluster rail => Sys2Proof.Machine.execCurrentLimitRelease cluster rail s
  | .pllUnlock pll running => Sys2Proof.Machine.execPllUnlock pll s running
  | .hbmFail running => Sys2Proof.Machine.execHbmFail s running
  | .pcieErr f status => Sys2Proof.Machine.execPcieErr f status s
  | .cfgParity cluster kind running => Sys2Proof.Machine.execCfgParity cluster kind s running
  | .porstDeassert straps => Sys2Proof.Machine.execPorstDeassert straps s
  | .configSpaceWrite w => Sys2Proof.Machine.execConfigSpaceWrite w s
  | .pcieLinkChange state speed width flit => Sys2Proof.Machine.execPcieLinkChange state speed width flit s
  | .targetDynamicAddressAssign address => Sys2Proof.Machine.execTargetDynamicAddressAssign address s
  | .tdcTwindowBoundary pin => Sys2Proof.Machine.execTdcTwindowBoundary pin s
  | .powerEntryDone cluster => Sys2Proof.Machine.execPowerEntryDone cluster s
  | .hbmSrExitDone => Sys2Proof.Machine.execHbmSrExitDone s

end Sys2Proof.Machine
end

