-- ==== Sys2Proof/Safety.lean ====
section
/-! DEFINITION. What a safe run of the block is, in the terms statements use: a step that answers a next state. -/
namespace Sys2Proof

/-- The step from `s` answers a next state: no fault and no refusal. -/
def Machine.State.safe (s : Machine.State) : Prop := ∃ t, Machine.step s = .next t

/-- Every configuration slot of a cluster carries a number from 1 to 0xFFFF (R278). -/
def Machine.GenSlots.numbered (g : Machine.GenSlots) : Prop :=
  g.cur.number ≠ 0 ∧ g.shadow.number ≠ 0 ∧ (∀ p, g.pend = some p → p.number ≠ 0) ∧ (∀ p, g.prev = some p → p.number ≠ 0)

/-- The pending generation kept for an instant of a commit's own datapath cycle (R243) carries such a number, too. -/
def Machine.Recent.numbered (r : Machine.Recent) : Prop := ∀ p, r.pend = some p → p.1.number ≠ 0

end Sys2Proof
end

