-- ==== Sys2Proof/Certificates/Slice0/Claims.lean ====
section
/-! DEFINITION. The words the statements are said in: a command that completes, a packet the check stages let through, the reply to
it. -/
namespace Sys2Proof.Claims
open Sys2Proof.Machine

/-- The command completes: `exec` answers a next state, and `P` holds of it. -/
def Completes (i : Instr) (s : State) (P : State → Prop) : Prop := ∃ t, exec i s = .next t ∧ P t

/-- Packet `p` is next to run, and the stages of R241 with the holds of R345 and R437 let it through: header, TARGET, role, generation. The
clusters it names are `cl`; `owns` is what stage 3 finds on the payload. -/
abbrev PassesOwner (s : State) (o : OpSpec) (p : Packet) (cl : List Cluster) (owns : Option Nat) : Prop :=
  s.fetchable o.opcode p = true ∧ s.cmd.mcheck = none ∧ s.frameFault o p = none ∧ s.target o.form p.target = some cl
    ∧ s.roleFault o p cl owns = none ∧ (genCheck p = true → ∀ c ∈ maskClusters p.target, (s.gens[c]).shadow.number = p.expectGen)
    ∧ s.stageBusy o cl = false

abbrev Passes (s : State) (o : OpSpec) (p : Packet) (cl : List Cluster) : Prop := PassesOwner s o p cl none

/-- Nothing that time alone brings is under way: no post on its way to the scheduler (R188), and no cycle of the collector in hand (R23). -/
abbrev Calm (s : State) : Prop := s.sched.due = [] ∧ s.flt.taking = none

/-- The state an ABORT packet's routine starts in (R273): the routine it interrupts is abandoned, or has come to its END. -/
def beforeAbort (s : State) (p : Packet) (running : Option Routine) : State :=
  if running.isNone || !s.couldRun 0x0215 p then s
  else { s.preempt running .abort with cmd := { (s.preempt running .abort).cmd with running := true } }

/-- The site's own record that a request has come, which the decision at its instant reads (R243): the model's, of the crux point's time. -/
def OnlyRecent (s t : State) (k : Cluster) : Prop := ∀ j : Cluster, j ≠ k → t.recent[j] = s.recent[j]

/-- A reply with DKIND 0 (R238): TAG and RING are the packet's. -/
def answer (p : Packet) (op code : Nat) (gen : BitVec 16) (data : List Byte) : Reply :=
  { tag := p.tag, opcode := BitVec.ofNat 16 op, code := BitVec.ofNat 8 code, ring := p.ring, gen := gen, dkind := 0, detail := 0,
    data := data16 data }

/-- A refusal (R238, R239). -/
def refusal (p : Packet) (op code : Nat) (gen : BitVec 16) (dkind detail : Nat) : Reply :=
  { tag := p.tag, opcode := BitVec.ofNat 16 op, code := BitVec.ofNat 8 code, ring := p.ring, gen := gen,
    dkind := BitVec.ofNat 8 dkind, detail := BitVec.ofNat 32 detail, data := data16 [] }

/-- `s` with packet `p` fetched and reply `r` posted, and nothing else done. What fetching and posting do, `NopAndIdentifyReply` says. -/
def served (s : State) (op : Nat) (p : Packet) (r : Reply) : State := (s.fetch op p).reply p.func r

/-- The shadow number of the lowest of some clusters (R238). -/
def shadowOf (s : State) (cl : List Cluster) : BitVec 16 := (cl.head?.map fun c => (s.gens[c]).shadow.number).getD 0

/-- The site index a SITE target names. -/
def siteIn (s : State) (cl : List Cluster) : Cluster := s.site (cl.headD 0)

/-- `t` is `s` with packet `p` served, DONE, and the record `f` gives written into the shadow of each cluster of `cl`, and of no other; nothing
else differs. -/
def ShadowWritten (s t : State) (op : Nat) (p : Packet) (cl : List Cluster) (f : ClusterConfig → ClusterConfig) : Prop :=
  t = { served s op p (answer p op 0x00 (shadowOf s cl) []) with gens := t.gens } ∧
  ∀ c : Cluster, t.gens[c] = if c ∈ cl then { s.gens[c] with shadow := ⟨(s.gens[c]).shadow.number, f (s.gens[c]).shadow.config⟩ }
    else s.gens[c]

/-- `t` is `s` but for what the host port holds for function `f`. -/
abbrev OnlyFn (s t : State) (f : Func) : Prop :=
  t = { s with host := { s.host with fn := t.host.fn } } ∧ ∀ g : Func, g ≠ f → t.host.fn[g] = s.host.fn[g]

/-- What an accepted doorbell of a ring leaves beside the function's own ring: the link's quiet ends, and a cycle without a grant has returned the
pointer of a ring priority without a requester to 0 (R20, R369). -/
def Rung (s t : State) : State :=
  { s with pwr := { s.pwr with quiet := s.now }, cmd := { s.cmd with ptr := t.cmd.ptr } }

/-- A write the function's counter `count` counts and that has no other effect (R220, R432). -/
abbrev Counted (s t : State) (f : Func) (count : HostFunc → HostFunc) : Prop := OnlyFn s t f ∧ t.host.fn[f] = count s.host.fn[f]

/-- A frame a port takes (R283, R285): the port's state takes its type, its CRC holds, it has crossed no more than four links, and its type is
defined at the link's level. -/
abbrev Arrives (s : State) (n : Port) (ctype : Byte) (fr : Frame) : Prop :=
  (s.rope.ports[n]).state.takes ctype = true ∧ fr.crc = crc32c (frameBytes ctype fr) ∧ fr.hops.toNat ≤ 3
    ∧ ((frameLevel ctype).any fun l => decide (l ≤ if (s.rope.ports[n]).level = 0 then 2 else (s.rope.ports[n]).level)) = true

/-- `t` is `s` but for port `n` and the frames sent. -/
abbrev OnlyPort (s t : State) (n : Port) : Prop :=
  t = { s with rope := { s.rope with ports := t.rope.ports, sent := t.rope.sent } } ∧ ∀ m : Port, m ≠ n → t.rope.ports[m] = s.rope.ports[m]

/-- The source, mask and detail of the newest entry of the fault history (R349). -/
def newest (t : State) : Option (Nat × BitVec 12 × Word) := t.flt.history.head?.map fun h => (h.source, h.mask, h.detail)

end Sys2Proof.Claims
end

