-- ==== Sys2Proof/Certificates/Slice0/Obligations.lean ====
section
/-! DEFINITION. The statements: what each command of the GL9600 does, family by family. -/
section
open Sys2Proof Sys2Proof.Machine Sys2Proof.Claims

/-! ## The engine and its packets -/

/-- A step takes the command at the front of the queue and runs it with the queue's rest; an idle step passes 1 ns (log 2). -/
def Obligations.StepRunsFrontOfQueue : Prop :=
  (∀ (c : Instr) (rest : List Instr) (s : State), step { s with pending := c :: rest } = exec c { s with pending := rest }) ∧
  (∀ s : State, s.pending = [] → step s = .next s.idle)

/-- R20, R213, R223, R225, R226, R238, R242, R244, R246, R274: NOP and IDENTIFY reply and change nothing else. A packet taken from its ring moves that
ring's head past the units of its LENGTH not fetched before, which are read in requests no larger than Max Read Request Size, and the pointer of
the ring's priority past the winner of a tie; a packet taken from the restart slot touches no ring. The reply goes to the reply ring's tail, which
moves on by one entry.
Readings of the model that it rests on: log 38 (the micro words a fetch draws). -/
def Obligations.NopAndIdentifyReply : Prop :=
  (∀ (s : State) (p : Packet), Passes s { opcode := 0x0001, form := .none, units := 1, underHalt := true } p [] →
    Completes (.nop p) s fun t => t = served s 0x0001 p (answer p 0x0001 0x00 0 [])) ∧
  (∀ (s : State) (p : Packet), Passes s { opcode := 0x0002, form := .none, units := 1, underHalt := true } p [] →
    Completes (.identify p) s fun t => t = served s 0x0002 p (answer p 0x0002 0x00 0
      (leBytes 8 Config.serial.toNat ++ leBytes 4 (u32At s.sec.header 4).toNat ++ [0xB0] ++ leBytes 1 s.ropeLevel
        ++ leBytes 2 ((List.finRange 12).map fun (c : Fin 12) => if s.host.owner[c] = p.func then 2 ^ c.val else 0).sum))) ∧
  (∀ (s : State) (p : Packet) (op : Nat) (r : Reply), s.restartOf op p = none → s.cmd.mcheck = none →
    let t := served s op p r
    let h := s.host.fn[p.func]
    let h' := t.host.fn[p.func]
    let q := h.sq[p.ring]
    let n := p.length.toNat - q.part
    h'.replies = h.replies ++ [r] ∧ h'.rq = { h.rq with tail := (h.rq.tail + 1) % 2 ^ (h.rq.log2 - 5) }
      ∧ (h'.sq[p.ring]) = { q with head := (q.head + n) % 2 ^ (q.log2 - 4), part := 0 }
      ∧ (∀ x : Fin 4, x ≠ p.ring → h'.sq[x] = h.sq[x])
      ∧ (∀ f : Func, f ≠ p.func → t.host.fn[f] = s.host.fn[f])
      ∧ t.host.writes = s.host.writes ++ [⟨h.rq.base + BitVec.ofNat 64 (32 * h.rq.tail), r.bytes⟩]
      ∧ t.host.reads = s.host.reads ++ q.requests (128 * 2 ^ s.host.mrrs.val) n q.head n
      ∧ t.host = { s.host with fn := t.host.fn, writes := t.host.writes, reads := t.host.reads }
      ∧ t.cmd = { s.cmd with opcode := BitVec.ofNat 16 op, run := 0, running := false, deferAll := false, ptr := t.cmd.ptr,
                              micro := s.cmd.words (BitVec.ofNat 16 op) none }
      ∧ (∀ x : Fin 4, t.cmd.ptr[x] = if x = p.ring then (if 2 ≤ (s.requesters x).length then p.func.val + 1 else 0) else s.cmd.ptr[x])
      ∧ t = { s with host := t.host, cmd := t.cmd, pwr := { s.pwr with quiet := s.now } }) ∧
  (∀ (s : State) (p : Packet) (op : Nat) (r : Reply) (x : Routine) (n : Nat), s.restartOf op p = some (x, n) → s.cmd.mcheck = none →
    let t := served s op p r
    let h := s.host.fn[p.func]
    (t.host.fn[p.func]) = { h with replies := h.replies ++ [r], rq := { h.rq with tail := (h.rq.tail + 1) % 2 ^ (h.rq.log2 - 5) } }
      ∧ (∀ f : Func, f ≠ p.func → t.host.fn[f] = s.host.fn[f])
      ∧ t.host = { s.host with fn := t.host.fn,
                               writes := s.host.writes ++ [⟨h.rq.base + BitVec.ofNat 64 (32 * h.rq.tail), r.bytes⟩] }
      ∧ t = { s with host := t.host, pwr := { s.pwr with quiet := s.now },
                     cmd := { s.cmd with opcode := BitVec.ofNat 16 op, run := BitVec.ofNat 2 (min n 3), running := false, deferAll := false,
                                         slot := s.cmd.slot.tail, micro := s.cmd.words (BitVec.ofNat 16 op) none } })

/-- R224, R239 to R241: the stages refuse a packet with their own code, and a refused packet changes nothing but its reply (stages 1 to 4); a bad LENGTH at the
head of an enabled ring stops that ring, and nothing else changes.
Readings of the model that it rests on: log 18. -/
def Obligations.StagesRefuseInOrder : Prop :=
  (∀ (s : State) (p : Packet) (op : BitVec 16), op.toNat ∉ opcodes → s.fetchable op.toNat p = true → s.cmd.mcheck = none →
    Completes (.badOpcode p op) s fun t => t = served s op.toNat p (answer p op.toNat 0x10 0 [])) ∧
  (∀ (s : State) (o : OpSpec) (p : Packet) (owns : Option Nat) (body : List Cluster → State → Ending) (off : Nat),
    s.fetchable o.opcode p = true → s.frameFault o p = some off →
    s.runPacket o p owns body = served s o.opcode p (refusal p o.opcode 0x11 (s.genField o.gen ((s.target o.form p.target).getD [])) 1 off)) ∧
  (∀ (s : State) (o : OpSpec) (p : Packet) (owns : Option Nat) (body : List Cluster → State → Ending) (cl : List Cluster) (off : Nat),
    s.fetchable o.opcode p = true → s.frameFault o p = none → s.target o.form p.target = some cl → s.roleFault o p cl owns = some off →
    s.runPacket o p owns body = served s o.opcode p (refusal p o.opcode 0x13 (s.genField o.gen cl) 1 off)) ∧
  (∀ (s : State) (o : OpSpec) (p : Packet) (owns : Option Nat) (body : List Cluster → State → Ending) (cl : List Cluster) (c : Cluster),
    s.fetchable o.opcode p = true → s.frameFault o p = none → s.target o.form p.target = some cl → s.roleFault o p cl owns = none →
    genCheck p = true → ((maskClusters p.target).find? fun c => (s.gens[c]).shadow.number ≠ p.expectGen) = some c →
    s.runPacket o p owns body = served s o.opcode p (refusal p o.opcode 0x14 (s.genField o.gen cl) 5 c.val)) ∧
  (∀ (s : State) (f : Func) (r : Fin 4) (n : BitVec 16),
    s.ringOpen f r = true → s.granted f r = true → ((s.host.fn[f]).sq[r]).part = 0 →
    0 < ((s.host.fn[f]).sq[r]).held → n = 0 ∨ 2 ^ (((s.host.fn[f]).sq[r]).log2 - 4) < n.toNat →
    Completes (.ringErr f r n) s fun t =>
      ((t.host.fn[f]).sq[r]) = { (s.host.fn[f]).sq[r] with err := true }
      ∧ (∀ x : Fin 4, x ≠ r → ((t.host.fn[f]).sq[x]) = ((s.host.fn[f]).sq[x]))
      ∧ (∀ g : Func, g ≠ f → t.host.fn[g] = s.host.fn[g]) ∧ t.host.fn[f] = { s.host.fn[f] with sq := (t.host.fn[f]).sq }
      ∧ t = { s with host := { s.host with fn := t.host.fn, reads := t.host.reads }, pwr := { s.pwr with quiet := s.now },
                     cmd := { s.cmd with ptr := t.cmd.ptr } }
      ∧ (∀ x : Fin 4, t.cmd.ptr[x] = if x = r then (if 2 ≤ (s.requesters x).length then f.val + 1 else 0) else s.cmd.ptr[x])
      ∧ t.host.reads = s.host.reads ++ [⟨((s.host.fn[f]).sq[r]).base + BitVec.ofNat 64
          (16 * (((s.host.fn[f]).sq[r]).head % 2 ^ (((s.host.fn[f]).sq[r]).log2 - 4))), 16⟩])

/-! ## Configuration -/

/-- R76, R77, R83, R88, R96, R97, R249: the shadow-writing commands write their record into the shadow of every named cluster. -/
def Obligations.ShadowRecordsWritten : Prop :=
  (∀ (s : State) (p : Packet) (cl : List Cluster) (ts : TimingSet), Passes s { opcode := 0x0100, form := .clusters, units := 31, gen := .shadow } p cl →
    fieldAt p.payload 0 1 < 64 → zeroAt p.payload 1 15 = true → parseTiming (fieldAt p.payload 0 1) (p.payload.drop 16) = .ok ts →
    Completes (.timingSetWrite p) s fun t => ShadowWritten s t 0x0100 p cl fun g =>
      { g with timing := updN g.timing (fieldAt p.payload 0 1) fun _ => ts }) ∧
  (∀ (s : State) (p : Packet) (cl : List Cluster) (l : LevelSet), Passes s { opcode := 0x0101, form := .clusters, units := 6, gen := .shadow } p cl →
    fieldAt p.payload 0 1 < 16 → zeroAt p.payload 1 15 = true → parseLevels p.payload 16 = .ok l →
    Completes (.levelSetWrite p) s fun t => ShadowWritten s t 0x0101 p cl fun g =>
      { g with levels := updN g.levels (fieldAt p.payload 0 1) fun _ => l }) ∧
  (∀ (s : State) (p : Packet) (cl : List Cluster), Passes s { opcode := 0x0102, form := .clusters, units := 2, gen := .shadow } p cl →
    fieldAt p.payload 0 1 < 16 → zeroAt p.payload 1 15 = true →
    Completes (.pinFormatWrite p) s fun t => ShadowWritten s t 0x0102 p cl fun g => { g with mux := BitVec.ofNat 4 (fieldAt p.payload 0 1) }) ∧
  (∀ (s : State) (p : Packet) (cl : List Cluster) (j : Fin 2) (c : ClockPin),
    Passes s { opcode := 0x0103, form := .clusters, units := 2, gen := .shadow } p cl → parseClock p.payload = .ok (j, c) → c.fwOk = true →
    Completes (.clockPinSet p) s fun t => ShadowWritten s t 0x0103 p cl fun g => { g with clk := upd g.clk j fun _ => c })

/-- R97: byte 0 of the rail-control record is RAIL_EN, and bytes 1 to 15 must be 0. -/
def Obligations.RailControlRecord : Prop :=
  (∀ (s : State) (p : Packet) (cl : List Cluster), Passes s { opcode := 0x0101, form := .clusters, units := 3, gen := .shadow } p cl →
    fieldAt p.payload 0 1 = 0xFF → zeroAt p.payload 1 15 = true → zeroAt p.payload 17 15 = true →
    Completes (.levelSetWrite p) s fun t => ShadowWritten s t 0x0101 p cl fun g =>
      { g with railEn := BitVec.ofNat 8 (fieldAt p.payload 16 1) }) ∧
  (∀ (s : State) (p : Packet) (cl : List Cluster), Passes s { opcode := 0x0101, form := .clusters, units := 3, gen := .shadow } p cl →
    fieldAt p.payload 0 1 = 0xFF → zeroAt p.payload 1 15 = true → zeroAt p.payload 17 15 = false →
    Completes (.levelSetWrite p) s fun t => t = served s 0x0101 p (refusal p 0x0101 0x11 (shadowOf s cl) 1 33))

/-- R120, R131, R145, R152, R249, R252: capture, acquisition and TDC records and sequence programs, into the shadow; pair entries, into
the pair table at the crux point. -/
def Obligations.CaptureAndProgramRecordsWritten : Prop :=
  (∀ (s : State) (p : Packet) (cl : List Cluster) (c : CapConfig), Passes s { opcode := 0x0400, form := .clusters, units := 2, gen := .shadow } p cl →
    parseCapture p.payload = .ok c →
    Completes (.captureConfig p) s fun t => ShadowWritten s t 0x0400 p cl fun g => { g with capture := c }) ∧
  (∀ (s : State) (p : Packet) (cl : List Cluster) (a : AcqConfig), Passes s { opcode := 0x0401, form := .clusters, units := 4, gen := .shadow } p cl →
    parseAcq p.payload false = .ok a → zeroAt p.payload 40 8 = true →
    Completes (.acqArm p) s fun t => ShadowWritten s t 0x0401 p cl fun g => { g with acq := a }) ∧
  (∀ (s : State) (p : Packet) (cl : List Cluster) (a : AcqConfig), Passes s { opcode := 0x0402, form := .clusters, units := 4, gen := .shadow } p cl →
    parseAcq p.payload true = .ok a → zeroAt p.payload 40 8 = true →
    Completes (.acqForce p) s fun t => ShadowWritten s t 0x0402 p cl fun g => { g with acq := a }) ∧
  (∀ (s : State) (p : Packet) (cl : List Cluster) (x : Vector TdcConfig 8), Passes s { opcode := 0x0500, form := .clusters, units := 22, gen := .shadow } p cl →
    zeroAt p.payload 0 16 = true → parseTdc p.payload 16 = .ok x →
    Completes (.tdcConfig p) s fun t => ShadowWritten s t 0x0500 p cl fun g => { g with tdc := x }) ∧
  (∀ (s : State) (p : Packet) (e : Pair), PassesOwner s { opcode := 0x0500, form := .none, units := 3, gen := .shadow } p [] (s.pairOwner p.func p.payload) →
    fieldAt p.payload 0 1 = 1 → fieldAt p.payload 2 1 = 1 → fieldAt p.payload 1 1 < 48 → zeroAt p.payload 3 13 = true →
    parsePair p.payload 16 = .ok e →
    Completes (.tdcConfig p) s fun t => t = { served s 0x0500 p (answer p 0x0500 0x00 0 []) with pairs := t.pairs } ∧
      ∀ n : Fin 48, t.pairs[n] = if n.val = fieldAt p.payload 1 1 then e else s.pairs[n])

/-- R251, R252, R279: a SEQ_LOAD packet, opening (FIRST = 0) or of the open load, with the pin-mask table or without, LAST or not. It writes its
entries and, where it carries it, the whole mask table, into the shadow program of every named cluster; an opening packet sets TOTAL, zeroes the table
and leaves every other entry unwritten. The program is incomplete until a LAST packet finds every entry written and the fall-through and level-range
checks of R52 hold. -/
def Obligations.SeqLoadReplacesProgram : Prop :=
  ∀ (s : State) (p : Packet) (cl : List Cluster) (first n total : Nat) (masks last : Bool),
    let off := if masks then 208 else 16
    let here := fun i : Nat => parseEntry ((p.payload.drop (off + 16 * (i - first))).take 16) total
    let old := fun c : Cluster => (s.gens[c]).shadow.config.program
    let entry := fun (c : Cluster) (i : Nat) => if first ≤ i ∧ i < first + n then here i else if first = 0 then none else (old c).entry i
    let range := fun (c : Cluster) (i : Nat) => (entry c i).map fun e => ((s.gens[c]).shadow.config.levels[e.lset]).map fun r => r.rangeB
    Passes s { opcode := 0x0200, form := .sites, units := 2 + (if masks then 12 else 0) + n, gen := .shadow } p cl → n ≤ 65521 →
    fieldAt p.payload 0 4 = total → 1 ≤ total → total ≤ 65536 → fieldAt p.payload 4 4 = first → fieldAt p.payload 8 4 = n → first + n ≤ total →
    fieldAt p.payload 12 1 = (if masks then 1 else 0) + (if last then 2 else 0) → zeroAt p.payload 13 3 = true →
    (first ≠ 0 → ∀ c ∈ cl, (old c).loadOpen = true ∧ (old c).total = total) →
    (∀ i, first ≤ i → i < first + n → (here i).isSome = true) →
    (last = true → ∀ c ∈ cl, ((entry c (total - 1)).any Entry.fallsThrough) = false ∧
      ∀ i, i < total → (entry c i).isSome = true ∧ range c i = range c 0) →
    Completes (.seqLoad p) s fun t =>
      t = { served s 0x0200 p (answer p 0x0200 0x00 (shadowOf s cl) []) with gens := t.gens } ∧
      ∀ c : Cluster, let q := (t.gens[c]).shadow.config.program
        t.gens[c] = (if c ∈ cl then
            { s.gens[c] with shadow := ⟨(s.gens[c]).shadow.number, { (s.gens[c]).shadow.config with program := q }⟩ } else s.gens[c]) ∧
        (c ∈ cl → q.total = total ∧ q.loadOpen = (!last) ∧ (∀ i, q.entry i = entry c i) ∧
          ∀ m : Fin 16, q.masks[m] =
            if masks then BitVec.ofNat 96 (fieldAt p.payload (16 + 12 * m.val) 12) else if first = 0 then 0 else (old c).masks[m])

/-- R253, R254, R278, R279: GEN_COMMIT makes the shadow pending and numbers the next shadow; GEN_REVERT makes the previous generation
pending; GEN_DISCARD rebuilds the shadow from the newest committed generation. Numbers count up and skip 0. A descriptor that stands in the front
buffer of the site is checked again under the generation that becomes pending: it stays with its pages placed afresh, or it is dropped, and DATA
says so in DESC_DROPPED.
Readings of the model that it rests on: log 18 (the entry MEM_ADMIT names) and 19. -/
def Obligations.GenerationsCommitRevertDiscard : Prop :=
  let next := fun (n : BitVec 16) => if n = 0xFFFF then (1 : BitVec 16) else n + 1
  let released := fun (s t : State) (k : Cluster) (m : Memory) (kept : List Word) =>
    ∀ c : Cluster, t.mem.segs[c] = if c ∈ s.members k then
        (m.segs[c]).map fun x => if x.res = .staged ∧ x.id ∉ kept then { x with res := .hbm } else x
      else m.segs[c]
  let stays := fun (s t : State) (k : Cluster) (d : Descriptor) (cfg : Cluster → ClusterConfig) (m : Memory) =>
    t.mem = { m with segs := t.mem.segs, srExit := t.mem.srExit } ∧
    t.mem.srExit = (if s.mem.selfRef = true ∧ s.mem.srExit = none then some s.now else s.mem.srExit) ∧
    released s t k m (s.inForce k ++ (cfg k).program.plays d.candidates)
  let drops := fun (s t : State) (k : Cluster) (e : Option Ending) =>
    (∀ j : Cluster, t.seqs[j] = if j = k then { s.seqs[k] with front := none } else s.seqs[j]) ∧ released s t k s.mem (s.inForce k) ∧
    t.mem = { s.mem with segs := t.mem.segs, admEntry := t.mem.admEntry, admCl := t.mem.admCl, admCause := t.mem.admCause } ∧
    (t.mem.admEntry, t.mem.admCl, t.mem.admCause) = ((e.filter fun x => decide (x.dkind = 4)).map fun x =>
      (BitVec.ofNat 16 (x.detail / 65536), BitVec.ofNat 4 (x.detail / 4096), BitVec.ofNat 2 x.detail)).getD (s.mem.admEntry, s.mem.admCl, s.mem.admCause)
  let fails := fun (s : State) (k : Cluster) (d : Descriptor) (cfg : Cluster → ClusterConfig) (e : Option Ending) =>
    (e = none ∧ ∃ i ∈ d.candidates, (cfg k).program.total ≤ i) ∨
      ∃ x, e = some x ∧ (∀ i ∈ d.candidates, i < (cfg k).program.total) ∧ s.deepCheck k cfg d = .error x
  (∀ (s : State) (p : Packet) (cl : List Cluster), Passes s { opcode := 0x0110, form := .sites, units := 1, gen := .pend } p cl →
    s.commitFault cl = none → (∀ k ∈ s.sitesFor cl, (s.seqs[k]).front = none) →
    Completes (.genCommit p) s fun t =>
      t = { served s 0x0110 p (answer p 0x0110 0x00 (shadowOf s cl) []) with gens := t.gens, sites := t.sites, recent := t.recent } ∧
      (∀ c : Cluster, t.gens[c] = if c ∈ cl then
          { s.gens[c] with pend := some (s.gens[c]).shadow, pendRevert := false,
                           shadow := ⟨next (s.gens[c]).shadow.number, (s.gens[c]).shadow.config⟩ }
        else s.gens[c]) ∧ (∀ c : Cluster, c ∉ cl → t.recent[c] = s.recent[c]) ∧
      ∀ k : Cluster, t.sites[k] = if k ∈ s.sitesFor cl then { s.sites[k] with pendGen := (s.gens[k]).shadow.number } else s.sites[k]) ∧
  (∀ (s : State) (p : Packet) (cl : List Cluster) (old : Cluster → Generation),
    Passes s { opcode := 0x0111, form := .sites, units := 1, gen := .pend } p cl →
    (∀ c ∈ cl, (s.gens[c]).prev = some (old c)) → (∀ k ∈ s.sitesFor cl, (s.seqs[k]).front = none) →
    Completes (.genRevert p) s fun t =>
      t = { served s 0x0111 p (answer p 0x0111 0x00 ((cl.head?.map fun c => (old c).number).getD 0) []) with gens := t.gens, sites := t.sites, recent := t.recent } ∧
      (∀ c : Cluster, t.gens[c] = if c ∈ cl then
          { s.gens[c] with pend := some (old c), pendRevert := true, prev := none,
                           shadow := ⟨next (s.gens[c]).shadow.number, (old c).config⟩ }
        else s.gens[c]) ∧ (∀ c : Cluster, c ∉ cl → t.recent[c] = s.recent[c]) ∧
      ∀ k : Cluster, t.sites[k] = if k ∈ s.sitesFor cl then { s.sites[k] with pendGen := (old k).number } else s.sites[k]) ∧
  (∀ (s : State) (p : Packet) (cl : List Cluster), Passes s { opcode := 0x0112, form := .clusters, units := 1, gen := .shadow } p cl →
    Completes (.genDiscard p) s fun t =>
      t = { served s 0x0112 p (answer p 0x0112 0x00 ((cl.head?.map fun c => next (s.gens[c]).shadow.number).getD 0) []) with gens := t.gens } ∧
      ∀ c : Cluster, t.gens[c] = if c ∈ cl then
          { s.gens[c] with shadow := ⟨next (s.gens[c]).shadow.number, ((s.gens[c]).pend.getD (s.gens[c]).cur).config⟩ }
        else s.gens[c]) ∧
  (∀ (s : State) (p : Packet) (cl : List Cluster) (k : Cluster) (d : Descriptor) (m : Memory),
    let cfg := fun c : Cluster => if c ∈ cl then (s.gens[c]).shadow.config else ((s.gens[c]).pend.getD (s.gens[c]).cur).config
    Passes s { opcode := 0x0110, form := .sites, units := 1, gen := .pend } p cl → s.commitFault cl = none → s.sitesFor cl = [k] →
    (s.seqs[k]).front = some d → (∀ i ∈ d.candidates, i < (cfg k).program.total) → s.deepCheck k cfg d = .ok m →
    Completes (.genCommit p) s fun t => stays s t k d cfg m ∧
      t = { served s 0x0110 p (answer p 0x0110 0x00 (shadowOf s cl) []) with
              gens := t.gens, sites := t.sites, recent := t.recent, mem := t.mem, pwr := { s.pwr with quiet := s.now, hbmIdle := s.now } }) ∧
  (∀ (s : State) (p : Packet) (cl : List Cluster) (k : Cluster) (d : Descriptor) (e : Option Ending),
    let cfg := fun c : Cluster => if c ∈ cl then (s.gens[c]).shadow.config else ((s.gens[c]).pend.getD (s.gens[c]).cur).config
    Passes s { opcode := 0x0110, form := .sites, units := 1, gen := .pend } p cl → s.commitFault cl = none → s.sitesFor cl = [k] →
    (s.seqs[k]).front = some d → fails s k d cfg e →
    Completes (.genCommit p) s fun t => drops s t k e ∧
      t = { served s 0x0110 p (answer p 0x0110 0x00 (shadowOf s cl) (leBytes 2 (2 ^ k.val))) with
              gens := t.gens, sites := t.sites, recent := t.recent, mem := t.mem, seqs := t.seqs }) ∧
  (∀ (s : State) (p : Packet) (cl : List Cluster) (old : Cluster → Generation) (k : Cluster) (d : Descriptor) (m : Memory),
    let cfg := fun c : Cluster => if c ∈ cl then (old c).config else ((s.gens[c]).pend.getD (s.gens[c]).cur).config
    Passes s { opcode := 0x0111, form := .sites, units := 1, gen := .pend } p cl → (∀ c ∈ cl, (s.gens[c]).prev = some (old c)) →
    s.sitesFor cl = [k] → (s.seqs[k]).front = some d → (∀ i ∈ d.candidates, i < (cfg k).program.total) → s.deepCheck k cfg d = .ok m →
    Completes (.genRevert p) s fun t => stays s t k d cfg m ∧
      t = { served s 0x0111 p (answer p 0x0111 0x00 ((cl.head?.map fun c => (old c).number).getD 0) []) with
              gens := t.gens, sites := t.sites, recent := t.recent, mem := t.mem, pwr := { s.pwr with quiet := s.now, hbmIdle := s.now } }) ∧
  (∀ (s : State) (p : Packet) (cl : List Cluster) (old : Cluster → Generation) (k : Cluster) (d : Descriptor) (e : Option Ending),
    let cfg := fun c : Cluster => if c ∈ cl then (old c).config else ((s.gens[c]).pend.getD (s.gens[c]).cur).config
    Passes s { opcode := 0x0111, form := .sites, units := 1, gen := .pend } p cl → (∀ c ∈ cl, (s.gens[c]).prev = some (old c)) →
    s.sitesFor cl = [k] → (s.seqs[k]).front = some d → fails s k d cfg e →
    Completes (.genRevert p) s fun t => drops s t k e ∧
      t = { served s 0x0111 p (answer p 0x0111 0x00 ((cl.head?.map fun c => (old c).number).getD 0) (leBytes 2 (2 ^ k.val))) with
              gens := t.gens, sites := t.sites, recent := t.recent, mem := t.mem, seqs := t.seqs })

/-- R83, R92, R240: a TIMING_SET_WRITE whose record fails a check is refused with BAD_PARAM and DKIND 3, and changes TIM_LAST_REFUSE of the named
clusters alone. -/
def Obligations.RefusedTimingSetChangesNothing : Prop :=
  ∀ (s : State) (p : Packet) (cl : List Cluster) (f : TimingFail),
    Passes s { opcode := 0x0100, form := .clusters, units := 31, gen := .shadow } p cl → fieldAt p.payload 0 1 < 64 → zeroAt p.payload 1 15 = true →
    parseTiming (fieldAt p.payload 0 1) (p.payload.drop 16) = .error f →
    Completes (.timingSetWrite p) s fun t =>
      t = { served s 0x0100 p (refusal p 0x0100 0x11 (shadowOf s cl) 3 ((cl.headD 0).val * 2 ^ 24 + f.word.toNat)) with cl := t.cl } ∧
      ∀ c : Cluster,
        let tim' := { (s.cl[c]).tim with lastCheck := BitVec.ofNat 4 f.check, lastTset := BitVec.ofNat 6 f.tset,
                                         lastTo := BitVec.ofNat 6 f.dst, lastPin := BitVec.ofNat 3 f.pin }
        t.cl[c] = if c ∈ cl then { s.cl[c] with tim := tim' } else s.cl[c]

/-! ## Bursts and sites -/

/-- R65, R167, R168, R240, R255, R368: BURST_COMMIT publishes the descriptor in the front buffer of its site; the segments of its horizon take the
residence admission gives them, and head pages that no horizon of the site holds any longer are released; HBM in self-refresh begins to leave it. A
burst in force is unchanged. -/
def Obligations.BurstCommitPublishesDescriptor : Prop :=
  let placed := fun (s t : State) (k : Cluster) (m : Memory) (kept : List Word) =>
    t.mem = { m with segs := t.mem.segs, srExit := t.mem.srExit } ∧
    t.mem.srExit = (if s.mem.selfRef = true ∧ s.mem.srExit = none then some s.now else s.mem.srExit) ∧
    ∀ c : Cluster, t.mem.segs[c] = if c ∈ s.members k then
        (m.segs[c]).map fun x => if x.res = .staged ∧ x.id ∉ kept then { x with res := .hbm } else x
      else m.segs[c]
  let o : OpSpec := { opcode := 0x0210, form := .site, units := 5, gen := .pend, notInDiag := true }
  (∀ (s : State) (p : Packet) (cl : List Cluster) (d : Descriptor) (m : Memory), Passes s o p cl →
    let k := siteIn s cl
    let cfg := fun c : Cluster => ((s.gens[c]).pend.getD (s.gens[c]).cur).config
    bitOf (fieldAt p.payload 3 1) 1 = false →
    parseDescriptor p.payload (cfg k).program.total (s.members k) (s.siteLevel k) = .ok (d, false) →
    s.deepCheck k cfg d = .ok m → (s.seqs[k]).start = none →
    Completes (.burstCommit p) s fun t =>
      t = { served s 0x0210 p (answer p 0x0210 0x00 ((s.gens[k]).pend.getD (s.gens[k]).cur).number []) with
              seqs := t.seqs, mem := t.mem, recent := t.recent, pwr := { s.pwr with quiet := s.now, hbmIdle := s.now } } ∧ OnlyRecent s t k ∧
      (∀ j : Cluster, t.seqs[j] = if j = k then { s.seqs[j] with front := some d } else s.seqs[j]) ∧
      placed s t k m (s.inForce k ++ (cfg k).program.plays d.candidates)) ∧
  (∀ (s : State) (p : Packet) (cl : List Cluster) (d : Descriptor) (m : Memory), Passes s o p cl →
    let k := siteIn s cl
    let cfg := fun c : Cluster => (s.gens[c]).shadow.config
    bitOf (fieldAt p.payload 3 1) 1 = true →
    parseDescriptor p.payload (cfg k).program.total (s.members k) (s.siteLevel k) = .ok (d, true) →
    s.commitFault (s.members k) = none → s.deepCheck k cfg d = .ok m → (s.seqs[k]).start = none →
    Completes (.burstCommit p) s fun t =>
      t = { served s 0x0210 p (answer p 0x0210 0x00 (s.gens[k]).shadow.number []) with
              seqs := t.seqs, mem := t.mem, gens := t.gens, sites := t.sites, recent := t.recent,
              pwr := { s.pwr with quiet := s.now, hbmIdle := s.now } } ∧
      (∀ j : Cluster, t.seqs[j] = if j = k then { s.seqs[j] with front := some d } else s.seqs[j]) ∧
      placed s t k m (s.inForce k ++ (cfg k).program.plays d.candidates) ∧
      (∀ c : Cluster, t.gens[c] = if c ∈ s.members k then (s.gens[c]).commit else s.gens[c]) ∧
      (∀ j : Cluster, t.sites[j] = if j = k then { s.sites[j] with pendGen := (s.gens[k]).shadow.number } else s.sites[j]))

/-- R65 to R67, R256: BURST_START. An AT_TIME start that can still arm becomes pending with S as given; a CHAINED start waits for the HALT of
the burst in progress; an ASAP start that finds its descriptor arms at the crux point, S being 600 ns later. A start already pending, or
armed (the model's reading, log 22), makes it BUSY, a multi-device start too late to arm LATE.
Readings of the model that it rests on: log 23. -/
def Obligations.BurstStartMakesStartPending : Prop :=
  let o : OpSpec := { opcode := 0x0211, form := .site, units := 3, gen := .pend, notInDiag := true, haltSites := true }
  (∀ (s : State) (p : Packet) (cl : List Cluster) (seq : BitVec 16) (time : BitVec 96), Passes s o p cl →
    let k := siteIn s cl
    parseStart p.payload (s.multi k) = .ok (seq, .atTime, time) → s.startHeld k = false → (∀ c ∈ s.members k, s.limCal c = false) →
    s.net < timeOf time - 600 * nsUnits →
    Completes (.burstStart p) s fun t =>
      t = { served s 0x0211 p (answer p 0x0211 0x01 (s.sites[k]).pendGen (leBytes 12 time.toNat)) with
              seqs := t.seqs, sites := t.sites, rope := t.rope, pwr := { s.pwr with quiet := s.now, cl := t.pwr.cl } } ∧
      (∀ j : Cluster, t.seqs[j] = if j = k then { s.seqs[j] with start := some ⟨.atTime, seq, some (timeOf time), false⟩ } else s.seqs[j]) ∧
      (∀ j : Cluster, t.sites[j] = if j = k then { s.sites[j] with taint := false } else s.sites[j]) ∧
      (s.gangs[k] = none → t.rope = s.rope)) ∧
  (∀ (s : State) (p : Packet) (cl : List Cluster) (seq : BitVec 16) (time : BitVec 96), Passes s o p cl →
    let k := siteIn s cl
    parseStart p.payload (s.multi k) = .ok (seq, .chained, time) → s.startHeld k = false → (∀ c ∈ s.members k, s.limCal c = false) →
    (s.sites[k]).state.rests = false →
    Completes (.burstStart p) s fun t =>
      t = { served s 0x0211 p (answer p 0x0211 0x01 (s.sites[k]).pendGen []) with
              seqs := t.seqs, sites := t.sites, pwr := { s.pwr with quiet := s.now, cl := t.pwr.cl } } ∧
      (∀ j : Cluster, t.seqs[j] = if j = k then { s.seqs[j] with start := some ⟨.chained, seq, none, false⟩ } else s.seqs[j]) ∧
      (∀ j : Cluster, t.sites[j] = if j = k then { s.sites[j] with taint := false } else s.sites[j])) ∧
  (∀ (s : State) (p : Packet) (cl : List Cluster) (seq : BitVec 16) (time : BitVec 96) (d : Descriptor), Passes s o p cl →
    let k := siteIn s cl
    parseStart p.payload (s.multi k) = .ok (seq, .asap, time) → s.startHeld k = false → (∀ c ∈ s.members k, s.limCal c = false) →
    (s.seqs[k]).front = some d → d.seq = seq → (s.sites[k]).state.rests = true → s.powered k = true → s.blockedAt s.net = false →
    (s.sites[k]).pends (reqStop ||| reqAbort) = false →
    Completes (.burstStart p) s fun t =>
      (t.sites[k]).state = .armed ∧ (t.sites[k]).taint = false ∧ (t.seqs[k]).start = none ∧ (t.seqs[k]).desc = some d ∧
      ((t.seqs[k]).armed.map fun a => (a.sched, a.armedAt, a.due)) = some (s.net + 600 * nsUnits, s.net, s.net + 600 * nsUnits) ∧
      ∃ g, (t.host.fn[p.func]).replies = (s.host.fn[p.func]).replies
        ++ [answer p 0x0211 0x01 g (leBytes 12 (stampOf (s.net + 600 * nsUnits)).toNat)]) ∧
  (∀ (s : State) (p : Packet) (cl : List Cluster) (seq : BitVec 16) (mode : StartMode) (time : BitVec 96), Passes s o p cl →
    let k := siteIn s cl
    parseStart p.payload (s.multi k) = .ok (seq, mode, time) →
    (s.startHeld k = true →
      Completes (.burstStart p) s fun t => t = served s 0x0211 p (answer p 0x0211 0x12 (s.sites[k]).pendGen [])) ∧
    (s.startHeld k = false → (∀ c ∈ s.members k, s.limCal c = false) → s.multi k = true → timeOf time - 600 * nsUnits ≤ s.net →
      Completes (.burstStart p) s fun t => t = served s 0x0211 p (answer p 0x0211 0x15 (s.sites[k]).pendGen [])))

/-- R60, R257: BURST_STOP and ABORT by the state of the site: latched in RUNNING, STALLED and BELAY, cancelling a start that is pending or
armed, and nothing otherwise. ABORT fixes the granule boundary the burst ends at.
Readings of the model that it rests on: log 23. -/
def Obligations.StopAndAbortBySiteState : Prop :=
  let o := fun n : Nat => ({ opcode := n, form := .site, units := 1, gen := .pend } : OpSpec)
  let requested := fun (s t : State) (n : Nat) (p : Packet) (k : Cluster) (b : BitVec 8) =>
    t = { served s n p (answer p n 0x01 (s.sites[k]).pendGen []) with sites := t.sites, reqWait := t.reqWait, seqs := t.seqs, recent := t.recent } ∧
    OnlyRecent s t k ∧ (∀ j : Cluster, t.sites[j] = if j = k ∧
      (s.sites[j]).reqAck &&& b = 0 then { s.sites[j] with req := (s.sites[j]).req ||| b } else s.sites[j]) ∧
    (∀ j : Cluster, t.reqWait[j] = if j = k ∧ (s.sites[j]).reqAck &&& b ≠ 0 then s.reqWait[j] ||| b else s.reqWait[j]) ∧
    (∀ j : Cluster, j ≠ k → t.seqs[j] = s.seqs[j])
  let cancelled := fun (s t : State) (n : Nat) (p : Packet) (k : Cluster) =>
    t = { served s n p (answer p n 0x00 (s.sites[k]).pendGen []) with
            sites := t.sites, seqs := t.seqs, cal := { s.cal with due := t.cal.due, dueFrom := t.cal.dueFrom }, rope := t.rope,
            mem := { s.mem with segs := t.mem.segs }, pwr := { s.pwr with quiet := s.now, cl := t.pwr.cl } } ∧
    (∀ j : Cluster, t.seqs[j] = if j = k then { s.seqs[j] with start := none, armed := none } else s.seqs[j]) ∧
    (∀ j : Cluster, t.sites[j] = if j = k ∧ (s.sites[j]).state = .armed then { s.sites[j] with state := .idle } else s.sites[j])
  (∀ (s : State) (p : Packet) (cl : List Cluster), Passes s (o 0x0212) p cl →
    let k := siteIn s cl
    ((s.sites[k]).state.busy = true → Completes (.burstStop p) s fun t => requested s t 0x0212 p k reqStop ∧
      t.seqs[k] = { s.seqs[k] with late := (t.seqs[k]).late, lateFlag := (t.seqs[k]).lateFlag }) ∧
    ((s.sites[k]).state.busy = false → (s.seqs[k]).start.isSome = true ∨ (s.sites[k]).state = .armed →
      Completes (.burstStop p) s fun t => cancelled s t 0x0212 p k) ∧
    ((s.sites[k]).state.rests = true → (s.seqs[k]).start = none →
      Completes (.burstStop p) s fun t => t = served s 0x0212 p (answer p 0x0212 0x00 (s.sites[k]).pendGen []))) ∧
  (∀ (s₀ : State) (p : Packet) (running : Option Routine) (cl : List Cluster),
    let s := beforeAbort s₀ p running
    Passes s (o 0x0215) p cl →
    let k := siteIn s cl
    ((s.sites[k]).state.busy = true → Completes (.abort p running) s₀ fun t => requested s t 0x0215 p k reqAbort ∧
      ∀ q : Play, (s.seqs[k]).play = some q → (s.seqs[k]).stall = none → t.seqs[k] = { s.seqs[k] with
        abortAt := some (min ((s.seqs[k]).abortAt.getD q.len) (min q.len (boundaryAfter q.start q.step s.net))) }) ∧
    ((s.sites[k]).state.busy = false → (s.seqs[k]).start.isSome = true ∨ (s.sites[k]).state = .armed →
      Completes (.abort p running) s₀ fun t => cancelled s t 0x0215 p k) ∧
    ((s.sites[k]).state.rests = true → (s.seqs[k]).start = none →
      Completes (.abort p running) s₀ fun t => t = served s 0x0215 p (answer p 0x0215 0x00 (s.sites[k]).pendGen [])))

/-- R257: JUMP_REQUEST is latched in every state of the site; RESUME is latched in STALLED and refused in every other state. -/
def Obligations.JumpAndResumeBySiteState : Prop :=
  let o := fun n : Nat => ({ opcode := n, form := .site, units := 1, gen := .pend } : OpSpec)
  let latched := fun (s t : State) (n : Nat) (p : Packet) (k : Cluster) (b : BitVec 8) =>
    t = { served s n p (answer p n 0x01 (s.sites[k]).pendGen []) with sites := t.sites, reqWait := t.reqWait, seqs := t.seqs, recent := t.recent } ∧
    OnlyRecent s t k ∧ (∀ j : Cluster, t.sites[j] = if j = k ∧
      (s.sites[j]).reqAck &&& b = 0 then { s.sites[j] with req := (s.sites[j]).req ||| b } else s.sites[j]) ∧
    (∀ j : Cluster, t.reqWait[j] = if j = k ∧ (s.sites[j]).reqAck &&& b ≠ 0 then s.reqWait[j] ||| b else s.reqWait[j])
  (∀ (s : State) (p : Packet) (cl : List Cluster), Passes s (o 0x0213) p cl →
    let k := siteIn s cl
    Completes (.jumpRequest p) s fun t => latched s t 0x0213 p k reqJump ∧
      ∀ j : Cluster, t.seqs[j] = { s.seqs[j] with late := (t.seqs[j]).late, lateFlag := (t.seqs[j]).lateFlag }) ∧
  (∀ (s : State) (p : Packet) (cl : List Cluster), Passes s (o 0x0214) p cl →
    let k := siteIn s cl
    ((s.sites[k]).state = .stalled → Completes (.resume p) s fun t => latched s t 0x0214 p k reqResume ∧ t.seqs = s.seqs) ∧
    ((s.sites[k]).state ≠ .stalled →
      Completes (.resume p) s fun t => t = served s 0x0214 p (answer p 0x0214 0x11 (s.sites[k]).pendGen [])))

/-- R12, R72, R258: SITE_GANG forms one site of the clusters named, breaks what it leaves of other sites into single-cluster sites, and sets
every field of the records of those sites; the W1C bits of SEQ_STATUS clear.
Readings of the model that it rests on: log 23. -/
def Obligations.SiteGangFormsSites : Prop :=
  ∀ (s : State) (p : Packet) (cl : List Cluster) (g : Option Gang), (∀ c : Cluster, s.siteOf[s.siteOf[c]] = s.siteOf[c]) →
    Passes s { opcode := 0x0220, form := .clusters, units := 2 + fieldAt p.payload 0 1, notInDiag := true } p cl →
    fieldAt p.payload 0 1 ≤ 15 → (∀ k ∈ s.sitesFor cl, s.quietSite k = true) → (∀ c ∈ cl, s.limCal c = false) →
    s.parseGang p.payload = .ok g →
    Completes (.siteGang p) s fun t =>
      let k := cl.headD 0
      let touched := (s.sitesFor cl).flatMap s.members
      t = { served s 0x0220 p (answer p 0x0220 0x00 0 []) with
              siteOf := t.siteOf, gangs := t.gangs, sites := t.sites, reqWait := t.reqWait, seqs := t.seqs,
              mem := { s.mem with segs := t.mem.segs }, sched := { s.sched with snaps := t.sched.snaps } } ∧
      (∀ c : Cluster, t.siteOf[c] = if c ∈ cl then k else if c ∈ touched then c else s.siteOf[c]) ∧
      (∀ c : Cluster, t.gangs[c] = if c = k then g else if c ∈ touched then none else s.gangs[c]) ∧
      (∀ j : Cluster, j = k ∨ j ∈ touched ∧ j ∉ cl →
        t.sites[j] = { state := .idle, taint := false, curGen := (s.gens[j]).cur.number,
                       pendGen := ((s.gens[j]).pend.getD (s.gens[j]).cur).number, req := 0, reqAck := 0, result := 0, scFlags := 0, burstId := 0 }
        ∧ t.reqWait[j] = 0 ∧ (t.seqs[j]).front = none) ∧
      (∀ j : Cluster, j ≠ k → (j ∉ touched ∨ j ∈ cl) → t.sites[j] = s.sites[j]) ∧
      (∀ c ∈ touched, t.seqs[c] = { t.seqs[c] with condMiss := false, stackErr := false, chainTmo := false, aborted := false, notRun := false,
                                                   startSlip := false, lateFlag := false, slipNs := 0 })

/-! ## Segments and streams -/

/-- R163, R164, R169, R259: SEG_DECLARE declares an empty segment, discarding what had its ID; SEG_PIN makes a complete STORED segment pinned, and
SEG_UNPIN makes it HBM only, on every cluster named. -/
def Obligations.SegmentsDeclaredAndPinned : Prop :=
  (∀ (s : State) (p : Packet) (cl : List Cluster), Passes s { opcode := 0x0201, form := .clusters, units := 2 } p cl →
    let id := u32At p.payload 0
    let g := fieldAt p.payload 4 4
    let fl := fieldAt p.payload 8 1
    id ≠ 0xFFFFFFFF → 8 ≤ g → g ≤ 67108864 → fl = 0 ∨ fl = 1 ∨ fl = 2 → zeroAt p.payload 9 7 = true →
    (∀ c ∈ cl, s.reaches c id = false ∧ s.boundOn c id = false) →
    Completes (.segDeclare p) s fun t =>
      t = { served s 0x0201 p (answer p 0x0201 0x00 0 []) with mem := { s.mem with segs := t.mem.segs } } ∧
      ∀ c : Cluster, t.mem.segs[c] = if c ∈ cl then
        (s.mem.segs[c]).filter (fun x => x.id ≠ id) ++ [{ id := id, len := 64 * g, idleSafe := fl = 1, stream := fl = 2 }] else s.mem.segs[c]) ∧
  (∀ (s : State) (p : Packet) (cl : List Cluster), Passes s { opcode := 0x0302, form := .clusters, units := 2 } p cl →
    let id := u32At p.payload 0
    zeroAt p.payload 4 12 = true →
    (∀ c ∈ cl, ∃ x ∈ findSeg s.mem.segs[c] id, x.stream = false ∧ x.complete = true ∧ x.wholePages - x.pages ≤ s.freePages c) →
    Completes (.segPin p) s fun t =>
      t = { served s 0x0302 p (answer p 0x0302 0x00 0 []) with mem := { s.mem with segs := t.mem.segs, srExit := t.mem.srExit },
                                                                        pwr := { s.pwr with quiet := s.now, hbmIdle := s.now } } ∧
      ∀ c : Cluster, t.mem.segs[c] = if c ∈ cl then updSeg s.mem.segs[c] id fun x => { x with res := .pinned } else s.mem.segs[c]) ∧
  (∀ (s : State) (p : Packet) (cl : List Cluster), Passes s { opcode := 0x0303, form := .clusters, units := 2 } p cl →
    let id := u32At p.payload 0
    zeroAt p.payload 4 12 = true → (∀ c ∈ cl, (findSeg s.mem.segs[c] id).isSome = true ∧ s.reaches c id = false) →
    Completes (.segUnpin p) s fun t =>
      t = { served s 0x0303 p (answer p 0x0303 0x00 0 []) with mem := { s.mem with segs := t.mem.segs } } ∧
      ∀ c : Cluster, t.mem.segs[c] = if c ∈ cl then updSeg s.mem.segs[c] id fun x => { x with res := .hbm } else s.mem.segs[c])

/-- R171, R260: STREAM_OPEN opens the stream named with an empty ring and area; STREAM_CLOSE closes an inbound stream at its crux point, and an
outbound one, told to close, once its area has drained. -/
def Obligations.StreamsOpenAndClose : Prop :=
  (∀ (s : State) (p : Packet) (c : Cluster) (i : Fin 24), Passes s { opcode := 0x0300, form := .cluster, units := 3 } p [c] →
    let b := p.payload
    firstBad (s.openFields b c) = none → fieldAt b 0 1 = i.val → s.mem.freeBytes ≥ fieldAt b 0x10 2 * 2 ^ 20 →
    (fieldAt b 1 1 = 0 → (s.mem.ins[i]).isOpen = false →
      Completes (.streamOpen p) s fun t =>
        t = { served s 0x0300 p (answer p 0x0300 0x00 0 []) with mem := { s.mem with ins := t.mem.ins } } ∧
        (∀ j : Fin 24, j ≠ i → t.mem.ins[j] = s.mem.ins[j]) ∧
        (let x := t.mem.ins[i]
         x.isOpen = true ∧ x.play = decide (fieldAt b 2 1 = 1) ∧ x.base = u64At b 4 ∧ x.size = fieldAt b 0x0C 4 ∧ x.areaMib = fieldAt b 0x10 2
         ∧ x.expect = u32At b 0x14 ∧ x.tmoMs = (if fieldAt b 3 1 % 2 = 1 then 1000 else fieldAt b 0x12 2)
         ∧ (fieldAt b 2 1 = 1 → x.bound = u32At b 0x18) ∧ x.head = 0 ∧ x.tail = 0 ∧ x.descs = [] ∧ x.staged = 0)) ∧
    (fieldAt b 1 1 = 1 → (s.mem.outs[i]).isOpen = false →
      Completes (.streamOpen p) s fun t =>
        t = { served s 0x0300 p (answer p 0x0300 0x00 0 []) with mem := { s.mem with outs := t.mem.outs }, cl := t.cl } ∧
        (∀ j : Fin 24, j ≠ i → t.mem.outs[j] = s.mem.outs[j]) ∧
        (let x := t.mem.outs[i]
         x.isOpen = true ∧ x.closing = false ∧ x.base = u64At b 4 ∧ x.size = fieldAt b 0x0C 4 ∧ x.areaMib = fieldAt b 0x10 2 ∧ x.head = 0
         ∧ x.tail = 0 ∧ x.descs = [] ∧ x.area = []) ∧
        (∀ d : Cluster, d ≠ c → t.cl[d] = s.cl[d]) ∧
        (if i.val % 2 = 0 then t.cl[c] = { s.cl[c] with cap := { (s.cl[c]).cap with nextSeq := u32At b 0x14 } }
         else t.cl[c] = { s.cl[c] with stamp := { (s.cl[c]).stamp with nextSeq := u32At b 0x14 } }))) ∧
  (∀ (s : State) (p : Packet) (c : Cluster) (i : Fin 24), Passes s { opcode := 0x0301, form := .cluster, units := 2 } p [c] →
    let b := p.payload
    fieldAt b 0 1 = i.val → i.val / 2 = c.val → zeroAt b 2 14 = true →
    (fieldAt b 1 1 = 0 → (s.mem.ins[i]).isOpen = true →
      ((s.mem.ins[i]).play = true → ∀ d ∈ s.members (s.site c), s.reaches d (s.mem.ins[i]).bound = false) →
      Completes (.streamClose p) s fun t => (t.mem.ins[i]).isOpen = false ∧ (t.mem.ins[i]).descs = [] ∧ (t.mem.ins[i]).staged = 0 ∧
        (∀ j : Fin 24, j ≠ i → t.mem.ins[j] = s.mem.ins[j]) ∧
        t = { served s 0x0301 p (answer p 0x0301 0x00 0 []) with
                mem := { s.mem with ins := t.mem.ins, segs := t.mem.segs }, pwr := { s.pwr with quiet := s.now, hbmIdle := s.now } } ∧
        ((s.mem.ins[i]).play = false → t.mem.segs = s.mem.segs)) ∧
    (fieldAt b 1 1 = 1 → (s.mem.outs[i]).isOpen = true → s.quietSite (s.site c) = true →
      Completes (.streamClose p) s fun t =>
        ((t.host.fn[p.func]).replies = (s.host.fn[p.func]).replies ++ [answer p 0x0301 0x01 0 []]) ∧
        (∀ j : Fin 24, j ≠ i → t.mem.outs[j] = s.mem.outs[j]) ∧
        (if (s.mem.outs[i]).area = [] ∧ (s.mem.outs[i]).buf = none then (t.mem.outs[i]).isOpen = false
         else t.mem.outs[i] = { s.mem.outs[i] with closing := true })))

/-- R151, R154, R245, R261: TDC_STATS writes the statistics blocks, with histograms when HIST asks, into the result buffer before its reply, and
clears what it read when CLEAR asks; a buffer too short is refused with the count required. -/
def Obligations.TdcStatsSnapshot : Prop :=
  ∀ (s : State) (p : Packet), let b := p.payload
    let n := fieldAt b 2 1
    let idx := (List.range n).map fun i => fieldAt b (16 + i) 1
    let pairs := decide (fieldAt b 0 1 = 1)
    let one := if fieldAt b 1 1 / 2 % 2 = 1 then 4160 else 64
    let clear := fieldAt b 1 1 % 2 = 1
    PassesOwner s { opcode := 0x0501, form := .none, units := 2 + (n + 15) / 16 } p [] (s.statsOwner p.func b) → 1 ≤ n → n ≤ 96 →
    fieldAt b 0 1 < 2 → fieldAt b 1 1 < 4 → zeroAt b 3 1 = true → fieldAt b 8 8 % 64 = 0 → (∀ x ∈ idx, x < if pairs then 48 else 96) →
    zeroAt b (16 + n) ((16 - n % 16) % 16) = true →
    (n * one ≤ fieldAt b 4 4 →
      Completes (.tdcStats p) s fun t =>
        let out := idx.flatMap fun x => (s.statsAt pairs x).block ++ if one = 4160 then (s.statsAt pairs x).histogram else []
        t.host.writes = s.host.writes ++ payloads (128 * 2 ^ s.host.mps.val) out.length (u64At b 8) out
          ++ [⟨(s.host.fn[p.func]).rq.base + BitVec.ofNat 64 (32 * (s.host.fn[p.func]).rq.tail), (answer p 0x0501 0x00 0 []).bytes⟩] ∧
        t = { served s 0x0501 p (answer p 0x0501 0x00 0 []) with host := t.host, cl := t.cl, pairs := t.pairs } ∧
        (∀ (c : Cluster) (k : Fin 8), ((t.cl[c]).tdc[k]) =
          if clear ∧ pairs = false ∧ 8 * c.val + k.val ∈ idx then ((s.cl[c]).tdc[k]).clearStats else (s.cl[c]).tdc[k]) ∧
        (∀ e : Fin 48, t.pairs[e] = if clear ∧ pairs = true ∧ e.val ∈ idx then { s.pairs[e] with stats := {} } else s.pairs[e])) ∧
    (fieldAt b 4 4 < n * one →
      Completes (.tdcStats p) s fun t => t = served s 0x0501 p (refusal p 0x0501 0x11 0 6 (n * one)))

/-! ## Site controller packets -/

/-- R188, R191, R198, R262: RULE_LOAD replaces one table of the sender; ITEM_POST appends the item with the next SEQNO and the priority of its flow,
and returns that SEQNO; no post on its way falls into the same cycle. -/
def Obligations.RulesLoadedAndItemsPosted : Prop :=
  (∀ (s : State) (p : Packet) (num : Nat) (rules : List Rule),
    Passes s { opcode := 0x0600, form := .none, units := 2 + 2 * fieldAt p.payload 2 2 } p [] → 1 ≤ fieldAt p.payload 2 2 →
    fieldAt p.payload 2 2 ≤ 256 → parseRules p.payload = .ok (num, rules) →
    let others := s.sched.tables.filter fun t => !(t.owner = p.func && t.num = num)
    ((others.map fun t => 1 + t.rules.length).sum + 1 + rules.length ≤ 65536 →
      Completes (.ruleLoad p) s fun t => t = { served s 0x0600 p (answer p 0x0600 0x00 0 []) with
        sched := { s.sched with tables := ⟨p.func, num, rules⟩ :: others } }) ∧
    (65536 < (others.map fun t => 1 + t.rules.length).sum + 1 + rules.length →
      Completes (.ruleLoad p) s fun t => t = served s 0x0600 p (answer p 0x0600 0x12 0 []))) ∧
  (∀ (s : State) (p : Packet) (ty : ItemType),
    let b := p.payload
    let n := fieldAt b 2 2
    Passes s { opcode := 0x0601, form := .none, units := 5 } p [] → ItemType.ofCode (fieldAt b 0 1) = some ty → ty.posted = true →
    zeroAt b 1 1 = true → n < 4080 → s.flowOwner n = p.func → zeroAt b 4 20 = true → itemReservedOk ty ((b.drop 24).take 40) = true →
    (∀ i ∈ s.sched.due, s.now / nsUnits < i.queuedAt / nsUnits) →
    (s.sched.pendingOf n < (s.sched.flow n).maxPending → 1024 < s.sched.free →
      Completes (.itemPost p) s fun t => t = { served s 0x0601 p (answer p 0x0601 0x00 0 (leBytes 4 s.sched.seqno.toNat)) with
        sched := { s.sched with seqno := s.sched.seqno + 1, queue := s.sched.queue ++
          [{ type := ty, prio := (s.sched.flow n).prio, flow := n, site := s.flowSite n, source := 1, seqno := s.sched.seqno,
             burstId := ((s.flowSite n).map fun k => (s.sites[k]).burstId).getD 0, postTime := postTime s.net,
             payload := (b.drop 24).take 40, queuedAt := s.now }] } }) ∧
    ((s.sched.flow n).maxPending ≤ s.sched.pendingOf n ∨ s.sched.free ≤ 1024 →
      Completes (.itemPost p) s fun t => t = served s 0x0601 p (answer p 0x0601 0x12 0 [])))

/-- R192, R193: FLOW_CONFIG writes one flow's record with its variables at 0, the owner of a decision flow apart; FLOW 0xFFFF writes the
reserve mask instead.
Readings of the model that it rests on: log 28 (rechaining that a refusal has stopped ends with FLOW_CONFIG). -/
def Obligations.FlowConfigWritesRecord : Prop :=
  (∀ (s : State) (p : Packet),
    let b := p.payload
    let n := fieldAt b 0 2
    PassesOwner s { opcode := 0x0602, form := .none, units := 2 } p [] (s.flowRole p.func b) → n < 4080 → fieldAt b 2 1 < 4 →
    fieldAt b 3 1 < 2 → zeroAt b 6 2 = false → (n < 12 ∨ fieldAt b 8 1 < 13) → zeroAt b 9 1 = true → zeroAt b 12 4 = true →
    Completes (.flowConfig p) s fun t =>
      t = { served s 0x0602 p (answer p 0x0602 0x00 0 []) with sched := { s.sched with flows := t.sched.flows, rechainOff := t.sched.rechainOff } } ∧
      t.sched.rechainOff = (if n < 12 then s.sched.rechainOff &&& ~~~(bitMask 12 n) else s.sched.rechainOff) ∧
      (∀ m : Nat, m ≠ n → t.sched.flow m = s.sched.flow m) ∧
      t.sched.flow n = { s.sched.flow n with
        prio := Fin.ofNat 4 (fieldAt b 2 1), rechain := decide (fieldAt b 3 1 = 1), bdTable := u16At b 4, maxPending := fieldAt b 6 2,
        owner := if n < 12 then (s.sched.flow n).owner else Fin.ofNat 13 (fieldAt b 8 1), rechainDesc := u16At b 10,
        vars := Vector.replicate 8 0, bursts := 0 }) ∧
  (∀ (s : State) (p : Packet),
    let b := p.payload
    PassesOwner s { opcode := 0x0602, form := .none, units := 2 } p [] (s.flowRole p.func b) → fieldAt b 0 2 = 0xFFFF → fieldAt b 2 1 < 4 →
    fieldAt b 3 1 < 2 → zeroAt b 9 1 = true → zeroAt b 12 4 = true →
    Completes (.flowConfig p) s fun t => t = { served s 0x0602 p (answer p 0x0602 0x00 0 []) with
      sched := { s.sched with reserve := u16At b 10 } })

/-- R194, R203: whatever a core of the reserve mask newly takes in a scheduler cycle has priority 0; such a core takes a priority-0 item like any
other, and an item of another priority goes past it. After reset the mask holds cores 0 and 1. -/
def Obligations.ReservedCoreTakesPriorityZero : Prop :=
  let holds := fun (s : State) (c : Fin 16) (i : Item) => i ∈ (s.sched.cores[c]).slots ∨ ((s.sched.cores[c]).run.map fun r => r.item) = some i
  let waits := fun (s : State) (i : Item) => s.pwr.phase = .ready ∧ s.flt.device = false ∧ s.sched.queue = [i] ∧ s.sched.cycleAt ≠ some (s.now / nsUnits) ∧
    s.sched.cores = Vector.replicate 16 {} ∧ (s.sched.flow i.flow).inService = false ∧ (s.sched.flow i.flow).lastCore = none ∧ Calm s
  let taker := fun (t : State) => (List.finRange 16).find? fun c => (t.sched.cores[c]).run.isSome
  (∀ (s t : State) (c : Fin 16) (i : Item), exec .itemDispatch s = .next t → s.sched.reserve.getLsbD c.val = true → holds t c i →
    holds s c i ∨ i.prio = 0) ∧
  (∀ (s : State) (i : Item), let p := s.sched.pointer s.now
    waits s i → s.sched.reserve.getLsbD p.val = true → i.prio = 0 →
    Completes .itemDispatch s fun t => taker t = some p ∧ holds t p i ∧ t.sched.queue = [] ∧ t.sched.ptr = p + 1 ∧ t.now = s.now) ∧
  (∀ (s : State) (i : Item) (n : Fin 16), let p := s.sched.pointer s.now
    waits s i → i.prio ≠ 0 → (∀ m : Fin 16, m < n → s.sched.reserve.getLsbD (m + p).val = true) → s.sched.reserve.getLsbD (n + p).val = false →
    Completes .itemDispatch s fun t => taker t = some (n + p) ∧ holds t (n + p) i ∧ t.sched.queue = [] ∧ t.sched.ptr = n + p + 1 ∧ t.now = s.now) ∧
  (∀ (s : State) (i : Item), waits s i → i.prio ≠ 0 → s.sched.reserve = -1 →
    Completes .itemDispatch s fun t => taker t = none ∧ t.sched.queue = [i] ∧ t.sched.ptr = 0) ∧
  (∀ (x : Sched) (now : Nat) (c : Fin 16) (i : Item), x.reserve.getLsbD c.val = true → x.firstEligible now c = some i → i.prio = 0) ∧
  (∀ c : Fin 16, State.reset.sched.reserve.getLsbD c.val = decide (c.val < 2))

/-! ## Management packets -/

/-- R263, R264, R308, R309, R315, R316: TIME_SOURCE selects a source afresh; TIME_ACCEPT steps network time by the refused offset while every
site rests; TIME_THRESHOLD sets the threshold.
Readings of the model that it rests on: log 31 (STRATUM at a new source) and 32. -/
def Obligations.TimeCommands : Prop :=
  (∀ (s : State) (p : Packet) (src : TimeSource), Passes s { opcode := 0x0700, form := .none, units := 3, pfOnly := true } p [] →
    let b := p.payload
    TimeSource.ofCode (fieldAt b 0 1) = some src → (if src = .rope then fieldAt b 1 1 < 4 else fieldAt b 1 1 = 0) → fieldAt b 2 1 < 16 →
    zeroAt b 3 13 = true → (src = .ptm → s.host.ptm = true) →
    (src = .rope → (s.rope.ports[(Fin.ofNat 4 (fieldAt b 1 1) : Port)]).state.trained = true) →
    Completes (.timeSource p) s fun t =>
      t = { served s 0x0700 p (answer p 0x0700 0x00 0 []) with time := t.time, rope := { s.rope with ports := t.rope.ports } } ∧
      (s.time.source ≠ .rope → t.rope = s.rope) ∧
      t.time = { s.time with
        source := src, port := Fin.ofNat 4 (fieldAt b 1 1), state := if src = .freeRun then .freeRun else .acquiring,
        stratum := if src = .rope then s.time.stratum else 0, sums := [], within := 0, req := none, corr := 0, lastEst := s.now,
        asymCable := t.time.asymCable } ∧
      ∀ i : Port, t.time.asymCable[i] = if fieldAt b 2 1 / 2 ^ i.val % 2 = 1 then u32At b (16 + 4 * i.val) else s.time.asymCable[i]) ∧
  (∀ (s : State) (p : Packet), Passes s { opcode := 0x0701, form := .none, units := 1, pfOnly := true } p [] →
    (s.time.state = .refused → s.allQuiet = true →
      Completes (.timeAccept p) s fun t =>
        t = { served s 0x0701 p (answer p 0x0701 0x00 0 []) with
          netOff := s.netOff - s.time.theta,
          time := t.time, cl := t.cl, seqs := t.seqs, free := t.free, mem := { s.mem with outs := t.mem.outs }, cal := { s.cal with cl := t.cal.cl } } ∧
        t.time = { s.time with state := .locked, stepCnt := satInc s.time.stepCnt, within := 0, sums := [], corr := 0, lastEst := s.now } ∧
        (∀ j : Cluster, t.seqs[j] = (s.seqs[j]).shift (-s.time.theta)) ∧
        (∀ c : Cluster, t.cal.cl[c] = s.cal.cl[c] ∨ t.cal.cl[c] = { s.cal.cl[c] with background := (s.cal.cl[c]).background &&& 0xD }) ∧
        ∀ c : Cluster,
          let e := t.cl[c]
          e.stamp.gapNext = ceilTo (s.net - s.time.theta + 1) tickUnits + 1 ∧
          e = { s.cl[c] with tim := { (s.cl[c]).tim with pins := e.tim.pins, clk := e.tim.clk }, lvl := { (s.cl[c]).lvl with rails := e.lvl.rails },
                             io := { (s.cl[c]).io with trigFrom := e.io.trigFrom, trig0Until := e.io.trig0Until, trig1Until := e.io.trig1Until },
                             cap := e.cap, tdc := e.tdc, stamp := e.stamp }) ∧
    (s.time.state = .refused → s.allQuiet = false →
      Completes (.timeAccept p) s fun t => t = served s 0x0701 p (answer p 0x0701 0x12 0 [])) ∧
    (s.time.state ≠ .refused → Completes (.timeAccept p) s fun t => t = served s 0x0701 p (answer p 0x0701 0x11 0 []))) ∧
  (∀ (s : State) (p : Packet), Passes s { opcode := 0x0702, form := .none, units := 2, pfOnly := true } p [] →
    1 ≤ fieldAt p.payload 0 4 → fieldAt p.payload 0 4 ≤ 1000000000 → zeroAt p.payload 4 12 = true →
    Completes (.timeThreshold p) s fun t => t = { served s 0x0702 p (answer p 0x0702 0x00 0 []) with
      time := { s.time with threshold := fieldAt p.payload 0 4 } })

/-- R263, R264, R283, R300: ROPE_CONFIG takes a port to DISABLED, to DETECT or into training; ROPE_TEST starts a test, near-end in TEST at once and
far-end once the partner, asked once the port is UP, agrees; a test of a DISABLED port does not start (the model's reading, log 30). Both are BUSY
while the port carries a path of a site in use. -/
def Obligations.RopeConfigAndTest : Prop :=
  (∀ (s : State) (p : Packet) (n : Port), Passes s { opcode := 0x0800, form := .none, units := 2, pfOnly := true } p [] →
    let b := p.payload
    let c := fieldAt b 1 1
    fieldAt b 0 1 = n.val → c < 8 → fieldAt b 2 1 = 2 ∨ fieldAt b 2 1 = 3 → zeroAt b 3 13 = true →
    (s.portInUse n = true → Completes (.ropeConfig p) s fun t => t = served s 0x0800 p (answer p 0x0800 0x12 0 [])) ∧
    (s.portInUse n = false → (s.rope.ports[n]).state ≠ .up →
      Completes (.ropeConfig p) s fun t =>
        let x := s.rope.ports[n]
        let y := t.rope.ports[n]
        t = { served s 0x0800 p (answer p 0x0800 0x01 0 []) with rope := { s.rope with ports := t.rope.ports, topo := t.rope.topo } } ∧
        (x.state ≠ .idle → t.rope.topo = s.rope.topo) ∧
        (∀ m : Port, m ≠ n → t.rope.ports[m] = s.rope.ports[m]) ∧
        y.fixedLat = decide (c / 2 % 2 = 1) ∧ y.levelMax = fieldAt b 2 1 ∧
        y.state = (if c % 2 = 0 then .disabled else if x.state = .disabled then .detect
                   else if c / 4 = 1 ∧ x.state ≠ .detect then .train else x.state))) ∧
  (∀ (s : State) (p : Packet) (n : Port), Passes s { opcode := 0x0801, form := .none, units := 2, pfOnly := true } p [] →
    let b := p.payload
    fieldAt b 0 1 = n.val → fieldAt b 1 1 < 4 → fieldAt b 2 1 < 5 → fieldAt b 3 1 < 3 → zeroAt b 8 8 = true →
    (s.portInUse n = true → Completes (.ropeTest p) s fun t => t = served s 0x0801 p (answer p 0x0801 0x12 0 [])) ∧
    (s.portInUse n = false → (s.rope.ports[n]).test.running = false → (fieldAt b 1 1 ≠ 0 ∨ fieldAt b 2 1 ≠ 0) →
      (s.rope.ports[n]).state ≠ .disabled →
      Completes (.ropeTest p) s fun t =>
        let x := s.rope.ports[n]
        let y := t.rope.ports[n]
        t = { served s 0x0801 p (answer p 0x0801 0x01 0 []) with
                rope := { s.rope with ports := t.rope.ports, sent := t.rope.sent, topo := t.rope.topo } } ∧
        (x.state ≠ .idle → t.rope.topo = s.rope.topo) ∧ y.bitsHi = 0 ∧
        (∀ m : Port, m ≠ n → t.rope.ports[m] = s.rope.ports[m]) ∧
        (y.test.loop, y.test.prbs, y.test.inject, y.test.duration, y.test.running) = (fieldAt b 1 1, fieldAt b 2 1, fieldAt b 3 1, fieldAt b 4 4, true) ∧
        (if fieldAt b 1 1 = 3 then y.state = (if x.state = .idle then y.state else x.state) ∧ y.state ≠ .idle ∧ y.test.waiting = true ∧
            t.rope.sent = s.rope.sent ++ (if y.state = .up then [⟨n, 0x61, 0, 0, Config.serial, List.replicate 16 0⟩] else [])
         else y.state = .test ∧ t.rope.sent = s.rope.sent)) ∧
    (s.portInUse n = false → (s.rope.ports[n]).test.running = false → (s.rope.ports[n]).state = .disabled →
      Completes (.ropeTest p) s fun t => t = served s 0x0801 p (answer p 0x0801 0x01 0 [])))

/-- R265, R266, R323, R328, R329, R339: CAL_RUN marks the kinds of run each named cluster owes, or is BUSY; CAL_STORE writes the bank after the one in
force, where a complete record of the same store stays as it is, or leaves the bank partial and replies INTEGRITY; CAL_REF_DECLARE keeps what the host measured.
Readings of the model that it rests on: log 35. -/
def Obligations.CalibrationCommands : Prop :=
  (∀ (s : State) (p : Packet) (cl : List Cluster), Passes s { opcode := 0x0900, form := .clusters, units := 2, notInDiag := true } p cl →
    let what := fieldAt p.payload 0 1
    let refused := (∃ c ∈ cl, s.quietSite (s.site c) = false) ∨ (what / 2 % 2 = 1 ∨ what / 8 % 2 = 1) ∧ s.pwr.tbWarm = true
    0 < what → what < 16 → zeroAt p.payload 1 15 = true →
    (refused → Completes (.calRun p) s fun t => t = served s 0x0900 p (answer p 0x0900 0x12 0 [])) ∧
    (¬ refused → Completes (.calRun p) s fun t =>
      t = { served s 0x0900 p (answer p 0x0900 0x01 0 []) with
              cal := { s.cal with cl := t.cal.cl }, cl := t.cl, pwr := { s.pwr with quiet := s.now, cl := t.pwr.cl } } ∧
      (∀ c : Cluster, t.cal.cl[c] =
        if c ∈ cl then { s.cal.cl[c] with what := (s.cal.cl[c]).what ||| BitVec.ofNat 4 what,
                                          tinRun := if (s.cal.cl[c]).what = 0 then s.cal.tin else (s.cal.cl[c]).tinRun,
                                          kindFrom := if (s.cal.cl[c]).what = 0 then s.net else (s.cal.cl[c]).kindFrom,
                                          fresh := (t.cal.cl[c]).fresh }
        else s.cal.cl[c]) ∧
      (what % 2 = 0 → what / 4 % 2 = 0 → (∀ c ∈ cl, (s.cal.cl[c]).what = 0) → t.cl = s.cl ∧ ∀ c : Cluster, (t.cal.cl[c]).fresh = (s.cal.cl[c]).fresh))) ∧
  (∀ (s : State) (p : Packet), Passes s { opcode := 0x0901, form := .none, units := 2, pfOnly := true } p [] →
    fieldAt p.payload 0 1 < 5 → zeroAt p.payload 1 15 = true → s.calMissing (fieldAt p.payload 0 1) = none → s.recentStores < 8 →
    (Completes (.calStore p true) s fun t =>
      t = { served s 0x0901 p (answer p 0x0901 0x00 0 []) with cal := t.cal, free := s.free + 1 } ∧
      t.cal.slot = s.cal.slot + 1 ∧ t.cal.seq = s.cal.seq + 1 ∧ t.cal.total = satInc s.cal.total ∧ t.cal.stores = s.now :: s.cal.stores ∧
      (∀ i : Fin 32, i ≠ s.cal.slot + 1 → t.cal.flash[i] = s.cal.flash[i]) ∧
      t.cal.flash[s.cal.slot + 1] = (if (s.cal.flash[s.cal.slot + 1]).holds (s.cal.slot + 1) (s.cal.seq + 1) t.cal.image then s.cal.flash[s.cal.slot + 1]
        else .stored (s.cal.slot + 1) (s.cal.seq + 1) (Config.freeValue s.free).toNat t.cal.image) ∧
      (∀ i : Fin 5, i.val ≠ fieldAt p.payload 0 1 → t.cal.image[i] = s.cal.image[i]) ∧
      getN t.cal.image (fieldAt p.payload 0 1) none = some (Vector.ofFn fun c : Fin 12 => (s.cal.cl[c]).record)) ∧
    (Completes (.calStore p false) s fun t =>
      t = { served s 0x0901 p (answer p 0x0901 0x17 0 []) with cal := { s.cal with flash := upd s.cal.flash (s.cal.slot + 1) fun _ => .partialStore } })) ∧
  (∀ (s : State) (p : Packet), Passes s { opcode := 0x0902, form := .none, units := 2, pfOnly := true } p [] →
    1150000 ≤ fieldAt p.payload 0 4 → fieldAt p.payload 0 4 ≤ 1250000 → -1048576 ≤ (u32At p.payload 4).toInt → (u32At p.payload 4).toInt ≤ 1048576 →
    zeroAt p.payload 8 8 = true →
    Completes (.calRefDeclare p) s fun t => t = { served s 0x0902 p (answer p 0x0902 0x00 0 []) with
      cal := { s.cal with vrefUv := fieldAt p.payload 0 4, tinDelay := (u32At p.payload 4).toInt } })

/-- R346, R352, R354: FAULT_CONFIG sets a source's reaction where its class permits it; FAULT_INJECT reports its event with the injected flag;
FAULT_ACK for the held record's source releases the record and the reactions it holds.
Readings of the model that it rests on: log 29. -/
def Obligations.FaultCommands : Prop :=
  (∀ (s : State) (p : Packet) (r : Reaction) (cls : FaultClass) (dflt : Reaction),
    Passes s { opcode := 0x0A00, form := .none, units := 2, pfOnly := true } p [] →
    let n := fieldAt p.payload 0 2
    sourceOf n = some (cls, dflt) → Reaction.ofCode (fieldAt p.payload 2 1) = some r → cls.floor.code ≤ r.code → zeroAt p.payload 3 13 = true →
    Completes (.faultConfig p) s fun t =>
      t = { served s 0x0A00 p (answer p 0x0A00 0x00 0 []) with flt := { s.flt with react := t.flt.react } } ∧
      ∀ m : Nat, t.flt.reaction m = if m = n then r else s.flt.reaction m) ∧
  (∀ (s : State) (p : Packet), Passes s { opcode := 0x0A01, form := .none, units := 2, pfOnly := true } p [] →
    let b := p.payload
    let n := fieldAt b 0 2
    (sourceOf n).isSome = true → zeroAt b 2 2 = true → fieldAt b 4 2 < 4096 → zeroAt b 6 2 = true → zeroAt b 12 4 = true → s.flt.first = none → Calm s →
    Completes (.faultInject p) s fun t =>
      (t.host.fn[p.func]).replies = (s.host.fn[p.func]).replies ++ [answer p 0x0A01 0x00 0 []] ∧
      t.flt.count = s.flt.count + 1 ∧
      ∃ r, t.flt.first = some r ∧ r.injected = true ∧ r.source = n ∧ r.clusters = BitVec.ofNat 12 (fieldAt b 4 2) ∧ r.detail = u32At b 8
        ∧ r.stamp = s.net ∧ r.reaction = s.flt.reaction n) ∧
  (∀ (s : State) (p : Packet), Passes s { opcode := 0x0A02, form := .none, units := 2, pfOnly := true, underHalt := true } p [] →
    zeroAt p.payload 2 14 = true →
    (∀ r, s.flt.first = some r → r.source = fieldAt p.payload 0 2 → s.conditions = [] → Calm s →
      Completes (.faultAck p) s fun t =>
        t.flt = { s.flt with first := none, last := some r, halted := 0, device := false, taking := t.flt.taking } ∧ t.now = s.now + nsUnits ∧
        t = { served s 0x0A02 p (answer p 0x0A02 0x00 0 []) with
                flt := t.flt, now := t.now, sites := t.sites, reqWait := t.reqWait, host := t.host, pwr := { s.pwr with quiet := t.now } } ∧
        (t.host.fn[p.func]).replies = (s.host.fn[p.func]).replies ++ [answer p 0x0A02 0x00 0 []]) ∧
    ((∀ r, s.flt.first = some r → r.source ≠ fieldAt p.payload 0 2) →
      Completes (.faultAck p) s fun t => t = served s 0x0A02 p (refusal p 0x0A02 0x11 0 1 16)))

/-- R366: POWER_TOLERANCE sets the exit latency the named clusters tolerate. -/
def Obligations.PowerToleranceSet : Prop :=
  ∀ (s : State) (p : Packet) (cl : List Cluster), Passes s { opcode := 0x0B00, form := .clusters, units := 2 } p cl → zeroAt p.payload 4 12 = true →
    Completes (.powerTolerance p) s fun t =>
      t = { served s 0x0B00 p (answer p 0x0B00 0x00 0 []) with pwr := { s.pwr with quiet := s.now, cl := t.pwr.cl } } ∧
      ∀ c : Cluster, let x := t.pwr.cl[c]
        x = { s.pwr.cl[c] with tol := if c ∈ cl then u32At p.payload 0 else (s.pwr.cl[c]).tol, chosen := t.choose c, since := x.since, bare := x.bare,
                               fed := x.fed } ∧
        ((s.pwr.cl[c]).fed = false → x.since = if (s.pwr.cl[c]).chosen = t.choose c then (s.pwr.cl[c]).since else s.now)

/-- R245, R389, R392, R394, R397, R398: ATTEST writes its report, signed with the next index, before its reply; FW_STAGE FIRST erases the spare slot
and writes its chunk, later chunks follow; FW_ACTIVATE of the slot that booted cancels a TRY, of another valid one requests it.
Readings of the model that it rests on: log 34, and what flash holds: log 12. -/
def Obligations.SecurityCommands : Prop :=
  (∀ (s : State) (p : Packet), Passes s { opcode := 0x0C00, form := .none, units := 4, underHalt := true } p [] →
    firstBad (attestFields p.payload) = none → 9420 ≤ fieldAt p.payload 0x28 4 → (∀ r ∈ s.sec.reserved, r.1 ≠ p) →
    (s.sigAvailable = true → s.sec.next < s.sec.end_ ∨ s.sec.next + 64 < 2 ^ 40 → Completes (.attest p) s fun t =>
      t = { served s 0x0C00 p (answer p 0x0C00 0x00 0 []) with host := t.host, sec := t.sec } ∧
      t.host.writes = s.host.writes
        ++ payloads (128 * 2 ^ s.host.mps.val) (s.report9420 (s.reportBody p.func.val (p.payload.take 32)) s.sec.next).length (u64At p.payload 0x20)
            (s.report9420 (s.reportBody p.func.val (p.payload.take 32)) s.sec.next)
        ++ [⟨(s.host.fn[p.func]).rq.base + BitVec.ofNat 64 (32 * (s.host.fn[p.func]).rq.tail), (answer p 0x0C00 0x00 0 []).bytes⟩] ∧
      t.sec.next = s.sec.next + 1 ∧ t.sec.next ≤ t.sec.end_ ∧ t.sec.mr = s.sec.mr ∧ t.sec.slots = s.sec.slots) ∧
    (s.sigAvailable = false → Completes (.attest p) s fun t => t = served s 0x0C00 p (answer p 0x0C00 0x12 0 []))) ∧
  (∀ (s : State) (p : Packet) (n : Nat), let b := p.payload
    let spare : Fin 2 := s.sec.bootSlot + 1
    fieldAt b 4 4 = n → n % 16 = 0 → 16 ≤ n → n ≤ 65536 → Passes s { opcode := 0x0C01, form := .none, units := 2 + n / 16, pfOnly := true } p [] →
    zeroAt b 9 7 = true →
    (fieldAt b 8 1 = 1 → fieldAt b 0 4 = 0 →
      Completes (.fwStage p) s fun t => t = { served s 0x0C01 p (answer p 0x0C01 0x00 0 []) with sec := t.sec } ∧
        t.sec.slots[spare] = .bytes ((b.drop 16).take n) ∧ t.sec.slots[s.sec.bootSlot] = s.sec.slots[s.sec.bootSlot] ∧ t.sec.staged = false ∧
        t.sec.stageNext = some ((b.drop 16).take n).length ∧ t.sec.try_ ≠ some spare ∧ t.sec.mr = s.sec.mr) ∧
    (∀ old, fieldAt b 8 1 = 0 → s.sec.stageNext = some (fieldAt b 0 4) → fieldAt b 0 4 % 16 = 0 → fieldAt b 0 4 + n ≤ 6291456 →
      s.sec.slots[spare] = .bytes old →
      Completes (.fwStage p) s fun t => t = { served s 0x0C01 p (answer p 0x0C01 0x00 0 []) with sec := { s.sec with
        slots := upd s.sec.slots spare fun _ => .bytes (old.take (fieldAt b 0 4) ++ (b.drop 16).take n),
        stageNext := some (fieldAt b 0 4 + ((b.drop 16).take n).length) } })) ∧
  (∀ (s : State) (p : Packet) (n : Fin 2), Passes s { opcode := 0x0C02, form := .none, units := 2, pfOnly := true } p [] →
    fieldAt p.payload 0 1 = n.val → zeroAt p.payload 1 15 = true →
    (n = s.sec.bootSlot → Completes (.fwActivate p) s fun t =>
      t = { served s 0x0C02 p (answer p 0x0C02 0x01 0 []) with sec := t.sec } ∧ t.sec.try_ = none ∧ t.sec.active = s.sec.active
        ∧ t.sec.slots = s.sec.slots) ∧
    (n ≠ s.sec.bootSlot → Completes (.fwActivate p) s fun t =>
      if (s.sec.slots[n]).valid s.sec.rollback then
        t = { served s 0x0C02 p (answer p 0x0C02 0x01 0 []) with sec := t.sec } ∧ t.sec.try_ = some n ∧ t.sec.active = s.sec.active
          ∧ t.sec.bseq = s.sec.bseq + 1 ∧ t.sec.slots = s.sec.slots
      else t = served s 0x0C02 p (answer p 0x0C02 0x17 0 [])))

/-- R228, R247, R248: STATUS_MIRROR_SET sets where the sender's page goes, and starts its sequence afresh; RESET_FUNCTION cancels the starts and empties
the front buffers of the function's sites, latches ABORT for those that play, rebuilds their shadows, and resets its tables and items.
Readings of the model that it rests on: log 28 and 36. -/
def Obligations.MirrorSetAndFunctionReset : Prop :=
  (∀ (s : State) (p : Packet), Passes s { opcode := 0x0010, form := .none, units := 2, underHalt := true } p [] →
    let b := p.payload
    let en := decide (fieldAt b 8 1 = 1)
    fieldAt b 8 1 < 2 → (u64At b 0).toNat % 4096 = 0 → (en = true ∨ u64At b 0 = 0) → zeroAt b 9 7 = true →
    Completes (.statusMirrorSet p) s fun t =>
      t = { served s 0x0010 p (answer p 0x0010 0x00 0 []) with host := t.host } ∧
      t.host.fn[p.func] = { (served s 0x0010 p (answer p 0x0010 0x00 0 [])).host.fn[p.func] with
        mirrorOn := en, mirrorAddr := u64At b 0, mirrorSeq := 0, page := [] } ∧
      ∀ f : Func, f ≠ p.func → t.host.fn[f] = s.host.fn[f]) ∧
  (∀ (s : State) (p : Packet) (f : Func),
    PassesOwner s { opcode := 0x0003, form := .func, units := 1 } p [] (if p.func = 0 ∨ p.func = f then none else some 0x0A) →
    p.target.toNat = 4096 * f.val →
    Completes (.resetFunction p) s fun t =>
      (t.host.fn[p.func]).replies = (s.host.fn[p.func]).replies ++ [answer p 0x0003 0x01 0 []] ∧
      (∀ k ∈ s.siteIdxs, s.owns f k = true → (t.seqs[k]).start = none ∧ (t.seqs[k]).front = none ∧
        ((s.sites[k]).state.busy = true → (s.sites[k]).reqAck &&& reqAbort = 0 → (t.sites[k]).req = (s.sites[k]).req ||| reqAbort)) ∧
      (∀ k ∈ s.siteIdxs, s.owns f k = false → t.sites[k] = s.sites[k] ∧ t.seqs[k] = s.seqs[k]) ∧
      (∀ c : Cluster, t.gens[c] = if s.owns f c then (s.gens[c]).discard else s.gens[c]) ∧
      (∀ x ∈ t.sched.tables, x.owner ≠ f) ∧ (∀ i ∈ t.sched.queue, s.flowOwner i.flow ≠ f) ∧ t.sched.due = s.sched.due ∧
      (∀ i : Fin 24, s.owns f (streamCluster i) = true → (s.siteState (s.site (streamCluster i))).rests = true →
        (t.mem.ins[i]).isOpen = false ∧ (t.mem.outs[i]).isOpen = false))

/-! ## The host port -/

/-- R220, R173, R369: an accepted doorbell sets its index and ends the link's quiet; one that is out of range, of another width, or for a
ring or stream that is not open counts in HST_DB_ERR and does nothing else. R273, R274: one of ring 0 abandons a routine of rings 1 to 3
before its crux point, and the packet waits to restart.
Readings of the model that it rests on: log 8 (the pointer of a ring priority without a requester). -/
def Obligations.DoorbellsSetTheirIndex : Prop :=
  (∀ (s : State) (f : Func) (r : Fin 4) (v : Word), s.barOpen f = true → ((s.host.fn[f]).sq[r]).takes v.toNat = true →
    Completes (.doorbellSqTail f r v true none) s fun t =>
      OnlyFn (Rung s t) t f ∧ (∀ x : Fin 4, t.cmd.ptr[x] = if s.requesters x = [] then 0 else s.cmd.ptr[x]) ∧
      t.host.fn[f] = { s.host.fn[f] with sq := t.host.fn[f].sq } ∧
      ∀ x : Fin 4, (t.host.fn[f]).sq[x] = if x = r then { (s.host.fn[f]).sq[r] with tail := v.toNat % 2 ^ (((s.host.fn[f]).sq[r]).log2 - 4) }
        else (s.host.fn[f]).sq[x]) ∧
  (∀ (s : State) (f : Func) (v : Word), s.barOpen f = true → (s.host.fn[f]).rq.en = true →
    (let q := (s.host.fn[f]).rq
     ringStep q.entries q.head v.toNat ≤ ringStep q.entries q.head q.tail) →
    Completes (.doorbellRqHead f v true) s fun t =>
      OnlyFn (Rung s t) t f ∧ (∀ x : Fin 4, t.cmd.ptr[x] = if s.requesters x = [] then 0 else s.cmd.ptr[x]) ∧
      t.host.fn[f] = { s.host.fn[f] with rq := { (s.host.fn[f]).rq with head := v.toNat % 2 ^ ((s.host.fn[f]).rq.log2 - 5) } }) ∧
  (∀ (s : State) (f : Func) (i : Fin 24) (v : Word) (descs : List Byte), s.barOpen f = true → (s.mem.ins[i]).isOpen = true →
    s.host.owner[streamCluster i.val] = f →
    let n := ringStep (s.mem.ins[i]).size (s.mem.ins[i]).tail v.toNat
    ringStep (s.mem.ins[i]).size (s.mem.ins[i]).head (s.mem.ins[i]).tail + n < (s.mem.ins[i]).size →
    Completes (.doorbellInTail f i v true descs) s fun t =>
      t = { s with mem := { s.mem with ins := t.mem.ins }, pwr := { s.pwr with quiet := s.now } } ∧
      ∀ x : Fin 24, t.mem.ins[x] = if x = i then { s.mem.ins[i] with
          tail := v.toNat % (s.mem.ins[i]).size,
          descs := (s.mem.ins[i]).descs ++ (List.range n).map fun j =>
            ⟨u64At descs (16 * j), fieldAt descs (16 * j + 8) 2, u16At descs (16 * j + 10)⟩ }
        else s.mem.ins[x]) ∧
  (∀ (s : State) (f : Func) (i : Fin 24) (v : Word) (descs : List Byte), s.barOpen f = true → (s.mem.outs[i]).isOpen = true →
    s.host.owner[streamCluster i.val] = f →
    let n := ringStep (s.mem.outs[i]).size (s.mem.outs[i]).tail v.toNat
    ringStep (s.mem.outs[i]).size (s.mem.outs[i]).head (s.mem.outs[i]).tail + n < (s.mem.outs[i]).size →
    Completes (.doorbellOutTail f i v true descs) s fun t =>
      t = { s with mem := { s.mem with outs := t.mem.outs }, pwr := { s.pwr with quiet := s.now } } ∧
      ∀ x : Fin 24, t.mem.outs[x] = if x = i then { s.mem.outs[i] with
          tail := v.toNat % (s.mem.outs[i]).size,
          descs := (s.mem.outs[i]).descs ++ (List.range n).map fun j =>
            ⟨u64At descs (16 * j), fieldAt descs (16 * j + 8) 2, u16At descs (16 * j + 10)⟩ }
        else s.mem.outs[x]) ∧
  (∀ (s : State) (f : Func) (r : Fin 4) (v : Word) (single : Bool) (run : Option Routine), s.barOpen f = true →
    (single = false ∨ ((s.host.fn[f]).sq[r]).en = false) →
    Completes (.doorbellSqTail f r v single run) s fun t => Counted s t f fun h => { h with dbErr := satInc h.dbErr }) ∧
  (∀ (s : State) (f : Func) (i : Fin 24) (v : Word) (single : Bool) (descs : List Byte), s.barOpen f = true →
    (single = false ∨ (s.mem.ins[i]).isOpen = false ∨ s.host.owner[streamCluster i.val] ≠ f) →
    Completes (.doorbellInTail f i v single descs) s fun t => Counted s t f fun h => { h with dbErr := satInc h.dbErr }) ∧
  (∀ (s : State) (v : Word) (r : Routine), s.barOpen 0 = true → ((s.host.fn[(0 : Func)]).sq[(0 : Fin 4)]).takes v.toNat = true →
    r.packet.func = 0 → r.packet.ring ≠ 0 → s.restartOf r.opcode.toNat r.packet = none →
    s.couldRun r.opcode.toNat r.packet = true → s.ringOpen 0 0 = true →
    v.toNat % 2 ^ (((s.host.fn[(0 : Func)]).sq[(0 : Fin 4)]).log2 - 4) ≠ ((s.host.fn[(0 : Func)]).sq[(0 : Fin 4)]).head →
    ((s.host.fn[(0 : Func)]).sq[(0 : Fin 4)]).head < 2 ^ (((s.host.fn[(0 : Func)]).sq[(0 : Fin 4)]).log2 - 4) →
    Completes (.doorbellSqTail 0 0 v true (some r)) s fun t =>
      t.cmd.slot = (r, 1) :: s.cmd.slot ∧ t.cmd.abandons = satInc s.cmd.abandons ∧
      ((t.host.fn[(0 : Func)]).sq[r.packet.ring]).head
        = (((s.host.fn[(0 : Func)]).sq[r.packet.ring]).head + (r.packet.length.toNat - ((s.host.fn[(0 : Func)]).sq[r.packet.ring]).part)) % 2 ^ (((s.host.fn[(0 : Func)]).sq[r.packet.ring]).log2 - 4) ∧
      (t.host.fn[(0 : Func)]).replies = (s.host.fn[(0 : Func)]).replies ∧ t.gens = s.gens ∧ t.seqs = s.seqs ∧ t.sites = s.sites ∧ t.mem = s.mem)

/-- R217, R221, R224, R431, R433: HST_OWNER gives a quiet cluster a new owner, and a field it refuses counts; an enable starts a ring from its beginning; a disabled
submission ring keeps what it holds; a disabled reply ring can be written until its last started command has replied.
Readings of the model that it rests on: log 36. -/
def Obligations.OwnersAndRingEnables : Prop :=
  (∀ (s : State) (c : Cluster) (f : Func) (v : Word), s.barOpen 0 = true → c.val / 8 = 0 → f.val ≤ s.host.numVfs.val → s.ownerFree c = true →
    (∀ d : Cluster, d.val / 8 = 0 → bitsOf v.toNat (4 * d.val) 4 = if d = c then f.val else (s.host.owner[d]).val) →
    Completes (.hstOwnerWrite 0 v) s fun t => t.host.owner[c] = f ∧ (∀ d : Cluster, d ≠ c → t.host.owner[d] = s.host.owner[d])
      ∧ t.host = { s.host with owner := t.host.owner } ∧ t.gens = s.gens ∧ t.mem = { s.mem with segs := t.mem.segs } ∧ t.cmd = s.cmd) ∧
  (∀ (s : State) (f : Func) (r : Fin 4), s.barOpen f = true → ((s.host.fn[f]).sq[r]).en = false →
    Completes (.ringEnable f (.sq r)) s fun t => OnlyFn s t f ∧ t.host.fn[f] = { s.host.fn[f] with sq := (t.host.fn[f]).sq } ∧
      ∀ x : Fin 4, (t.host.fn[f]).sq[x] = if x = r then { (s.host.fn[f]).sq[r] with en := true, head := 0, tail := 0, err := false, part := 0 }
        else (s.host.fn[f]).sq[x]) ∧
  (∀ (s : State) (f : Func), s.barOpen f = true → (s.host.fn[f]).rq.en = false →
    Completes (.ringEnable f .rq) s fun t => OnlyFn s t f ∧
      t.host.fn[f] = { s.host.fn[f] with rq := { (s.host.fn[f]).rq with en := true, open_ := true, head := 0, tail := 0 } }) ∧
  (∀ (s : State) (f : Func) (r : Fin 4), s.barOpen f = true →
    Completes (.sqDisable f r) s fun t => OnlyFn s t f ∧ t.host.fn[f] = { s.host.fn[f] with sq := (t.host.fn[f]).sq } ∧
      ∀ x : Fin 4, (t.host.fn[f]).sq[x] = if x = r then { (s.host.fn[f]).sq[r] with en := false, part := 0 } else (s.host.fn[f]).sq[x]) ∧
  (∀ (s : State) (f : Func), s.barOpen f = true →
    Completes (.rqDisable f) s fun t => OnlyFn s t f ∧ t.host.fn[f] = { s.host.fn[f] with rq := { (s.host.fn[f]).rq with en := false } }) ∧
  (∀ (s : State) (f : Func), (s.host.fn[f]).rq.en = false → s.restarts f = 0 →
    Completes (.rqDisableDone f) s fun t => OnlyFn s t f ∧
      t.host.fn[f] = { s.host.fn[f] with rq := { (s.host.fn[f]).rq with open_ := false } }) ∧
  (∀ (s : State) (c : Cluster) (i : Fin 2) (v : Word), let f := bitsOf v.toNat (4 * (c.val % 8)) 4
    s.barOpen 0 = true → c.val / 8 = i.val → f ≠ (s.host.owner[c]).val → (s.host.numVfs.val < f ∨ s.ownerFree c = false) →
    (∀ d : Cluster, d.val / 8 = i.val → d ≠ c → bitsOf v.toNat (4 * (d.val % 8)) 4 = (s.host.owner[d]).val) →
    Completes (.hstOwnerWrite i v) s fun t => t.host = { s.host with ownRefused := true, fn := t.host.fn } ∧
      (∀ g : Func, t.host.fn[g] = if g = 0 then { s.host.fn[g] with regErr := satInc (s.host.fn[g]).regErr } else s.host.fn[g]) ∧ t.gens = s.gens ∧
      t.siteOf = s.siteOf)

/-- R434: HST_EVT_CLR by the site's owner clears, on every cluster of the site, the W1C bits the masked EVENTS bits copy, and no others;
another function's write counts in HST_REG_ERR.
Readings of the model that it rests on: log 36 (what plays before the access counts in it). -/
def Obligations.EventClearReachesItsSources : Prop :=
  (∀ (s : State) (f : Func) (v : Word) (k : Cluster), s.barOpen f = true → bitsOf v.toNat 0 4 = k.val → s.siteOf[k] = k → s.owns f k = true →
    Completes (.hstEvtClr f v) s fun t =>
      let u := s.playAll
      let m := fun (i : Nat) => v.getLsbD (16 + i)
      t = { u with seqs := t.seqs, cl := t.cl, mem := { u.mem with perCl := t.mem.perCl } } ∧
      (∀ c : Cluster, s.siteOf[c] ≠ k → t.seqs[c] = u.seqs[c] ∧ t.cl[c] = u.cl[c] ∧ t.mem.perCl[c] = u.mem.perCl[c]) ∧
      (∀ c : Cluster, s.siteOf[c] = k →
        t.seqs[c] = { u.seqs[c] with lateFlag := (u.seqs[c]).lateFlag && !m 0, startSlip := (u.seqs[c]).startSlip && !m 1,
                                     notRun := (u.seqs[c]).notRun && !m 2, aborted := (u.seqs[c]).aborted && !m 3,
                                     chainTmo := (u.seqs[c]).chainTmo && !m 4, stackErr := (u.seqs[c]).stackErr && !m 5,
                                     condMiss := (u.seqs[c]).condMiss && !m 6 } ∧
        t.mem.perCl[c] = { u.mem.perCl[c] with underrun := (u.mem.perCl[c]).underrun && !m 7 } ∧
        t.cl[c] = { u.cl[c] with cap := { (u.cl[c]).cap with loss := (u.cl[c]).cap.loss && !m 8 }, tdc := (t.cl[c]).tdc,
                                 lvl := { (u.cl[c]).lvl with lvlSc := if m 10 then 0 else (u.cl[c]).lvl.lvlSc } } ∧
        ∀ i : Lane, (t.cl[c]).tdc[i] = { (u.cl[c]).tdc[i] with ovf := ((u.cl[c]).tdc[i]).ovf && !m 9 })) ∧
  (∀ (s : State) (f : Func) (v : Word), s.barOpen f = true →
    12 ≤ bitsOf v.toNat 0 4 ∨ s.isSite (Fin.ofNat 12 (bitsOf v.toNat 0 4)) = false ∨ s.owns f (Fin.ofNat 12 (bitsOf v.toNat 0 4)) = false →
    Completes (.hstEvtClr f v) s fun t => Counted s t f fun h => { h with regErr := satInc h.regErr })

/-! ## Registers -/

/-- R8, R233, R425, R426, R438: a read-to-clear counter reads and clears; the low word of a pair latches its partner; a reserved offset and a doorbell
page read 0; a closed BAR reads all ones, and so do offsets beyond a BAR (the model's reading, log 36); the diagnostic window reads eight bytes and moves
on; a narrow read returns its bytes and has every effect of the whole one.
Readings of the model that it rests on: log 6, 9 and 36. -/
def Obligations.ReadsClearLatchAndWindow : Prop :=
  (∀ (s : State) (f : Func), s.barOpen f = true →
    Completes (.rcRegisterRead f (if f = 0 then 0x11008 else 0x1008)) s fun t => let u := s.playAll
      t = { u with host := { u.host with fn := t.host.fn, busRead := some (u.host.fn[f]).dbErr } } ∧
      t.host.fn[f] = { u.host.fn[f] with dbErr := 0 } ∧ ∀ g : Func, g ≠ f → t.host.fn[g] = u.host.fn[g]) ∧
  (∀ s : State, s.barOpen 0 = true →
    Completes (.rcRegisterRead 0 0x20004) s fun t => let u := s.playAll
      t = { u with cmd := { u.cmd with abandons := 0 }, host := { u.host with busRead := some u.cmd.abandons } }) ∧
  (∀ (s : State) (c : Cluster), s.barOpen 0 = true →
    Completes (.rcRegisterRead 0 (BitVec.ofNat 24 (0x100000 + 0x10000 * c.val + 0x3060))) s fun t => let u := s.playAll
      t = { u with cl := t.cl, host := { u.host with busRead := some (u.cl[c]).cap.dropVec } } ∧
      ∀ d : Cluster, t.cl[d] = if d = c then { u.cl[c] with cap := { (u.cl[c]).cap with dropVec := 0 } } else u.cl[d]) ∧
  (∀ s : State, s.barOpen 0 = true →
    Completes (.latchedPairRead 0 0x40004) s fun t => let u := s.playAll
      let n := stampOf u.net
      t = { u with time := { u.time with now1 := n.extractLsb' 32 32, now2 := n.extractLsb' 64 32, short := BitVec.ofInt 32 (u.net / nsUnits) },
                   host := { u.host with busRead := some (n.setWidth 32) } }) ∧
  (∀ (s : State) (c : Cluster), s.barOpen 0 = true →
    Completes (.latchedPairRead 0 (BitVec.ofNat 24 (0x100000 + 0x10000 * c.val + 0x3050))) s fun t => let u := s.playAll
      t = { u with cl := t.cl, host := { u.host with busRead := some ((u.cl[c]).cap.cmpCnt.setWidth 32) } } ∧
      ∀ d : Cluster, t.cl[d] = if d = c then { u.cl[c] with latch := { (u.cl[c]).latch with cmpHi := (u.cl[c]).cap.cmpCnt.extractLsb' 32 32 } }
        else u.cl[d]) ∧
  (∀ (s : State) (f : Func) (b : Bool) (a : BitVec 24),
    s.barOpen f = false ∨ (b = true ∧ f ≠ 0) ∨ (if f = 0 ∧ b = false then 2 ^ 24 else 2 ^ 16) ≤ a.toNat →
    Completes (.rcRegisterRead f a b) s fun t => t = { s with host := { s.host with busRead := some 0xFFFFFFFF } }) ∧
  (∀ (s : State) (f : Func) (b : Bool) (a : BitVec 24), s.barOpen f = true → (b = true → f = 0) →
    a.toNat < (if f = 0 ∧ b = false then 2 ^ 24 else 2 ^ 16) → b = true ∨ (f ≠ 0 ∧ a.toNat < 0x1000) ∨ regAt f a = none →
    Completes (.rcRegisterRead f a b) s fun t => t = { s with host := { s.host with busRead := some 0 } }) ∧
  (∀ (s : State) (c : Cluster), let d := s.ids.diag
    let b := (s.gens[c]).shadow.config.bytes
    s.barOpen 0 = true → d.active = true → d.space = 2 → d.cluster.toNat = c.val → d.addr.toNat < b.length →
    Completes (.diagWindowRead .clean) s fun t =>
      t = { s with ids := { s.ids with diag := { d with hi := (u64At b d.addr.toNat).extractLsb' 32 32, addr := d.addr + 8 } },
                   host := { s.host with busRead := some ((u64At b d.addr.toNat).setWidth 32) } }) ∧
  (∀ s : State, let d := s.ids.diag
    s.barOpen 0 = true → d.active = true → d.space = 0 → d.addr.toNat < hbmBytes →
    Completes (.diagWindowRead .uncorrectable) s fun t =>
      t = { s.askHbm with ids := { s.ids with diag := { d with ue := true, hi := 0xFFFFFFFF, addr := d.addr + 8 } },
                          host := { s.host with busRead := some 0xFFFFFFFF } }) ∧
  (∀ s : State, let d := s.ids.diag
    s.barOpen 0 = true → d.active = true → d.space = 0 → hbmBytes ≤ d.addr.toNat →
    Completes (.diagWindowRead .clean) s fun t =>
      t = { s with ids := { s.ids with diag := { d with range := true, hi := 0 } }, host := { s.host with busRead := some 0 } }) ∧
  (∀ (s t : State) (f : Func) (b : Bool) (a : BitVec 24) (off : Fin 4) (w : Fin 3) (v : Word), a.toNat % 4 = 0 → off.val + 2 ^ w.val ≤ 4 →
    exec (.rcRegisterRead f a b) s = .next t → t.host.busRead = some v →
    Completes (.rcRegisterRead f (a + BitVec.ofNat 24 off.val) b w) s fun u => u =
      { t with host := { t.host with busRead := some (BitVec.ofNat 32 (v.toNat / 2 ^ (8 * off.val) % 2 ^ (8 * 2 ^ w.val))) } }) ∧
  (∀ (s t : State) (f : Func) (a : BitVec 24) (off : Fin 4) (w : Fin 3) (v : Word), a.toNat % 4 = 0 → off.val + 2 ^ w.val ≤ 4 →
    exec (.latchedPairRead f a) s = .next t → t.host.busRead = some v →
    Completes (.latchedPairRead f (a + BitVec.ofNat 24 off.val) w) s fun u => u =
      { t with host := { t.host with busRead := some (BitVec.ofNat 32 (v.toNat / 2 ^ (8 * off.val) % 2 ^ (8 * 2 ^ w.val))) } })

/-- R303, R359, R387, R425, R432, R433, R436: writes of registers, of a locked ring, of part of a word; the selections show the entry they name; MR7
is extended by the eight data words.
Readings of the model that it rests on: log 36 (what plays before the access counts in it). -/
def Obligations.RegisterWritesAndSelections : Prop :=
  (∀ (s : State) (v : Word), s.barOpen 0 = true → Completes (.registerWrite 0 0x14 v true) s fun t =>
    t = { s.playAll with ids := { s.playAll.ids with scratch := v } }) ∧
  (∀ (s : State) (c : Cluster) (v : Word), s.barOpen 0 = true →
    Completes (.registerWrite 0 (BitVec.ofNat 24 (0x100000 + 0x10000 * c.val + 0x40)) v true) s fun t => let u := s.playAll
      t = { u with cl := t.cl } ∧ ∀ d : Cluster, t.cl[d] = if d = c then { u.cl[c] with io := { (u.cl[c]).io with
        ctl := ⟨v.extractLsb' 16 16, v.getLsbD 2, v.getLsbD 1, v.getLsbD 0⟩ } } else u.cl[d]) ∧
  (∀ (s : State) (c : Cluster) (v : Word), s.barOpen 0 = true →
    Completes (.registerWrite 0 (BitVec.ofNat 24 (0x100000 + 0x10000 * c.val + 0x44)) v true) s fun t => let u := s.playAll
      t = { u with seqs := t.seqs } ∧
      ∀ d : Cluster, t.seqs[d] = if d = s.siteOf[c] then { u.seqs[d] with
          lateFlag := (u.seqs[d]).lateFlag && !v.getLsbD 2, startSlip := (u.seqs[d]).startSlip && !v.getLsbD 3,
          notRun := (u.seqs[d]).notRun && !v.getLsbD 4, aborted := (u.seqs[d]).aborted && !v.getLsbD 5,
          chainTmo := (u.seqs[d]).chainTmo && !v.getLsbD 6, stackErr := (u.seqs[d]).stackErr && !v.getLsbD 7,
          condMiss := (u.seqs[d]).condMiss && !v.getLsbD 8 } else u.seqs[d]) ∧
  (∀ (s : State) (f : Func) (r : Fin 4) (v : Word), s.barOpen f = true → ((s.host.fn[f]).sq[r]).en = true →
    Completes (.registerWrite f (BitVec.ofNat 24 ((if f = 0 then 0x11010 else 0x1010) + 8 * r.val)) v true) s fun t =>
      Counted s t f fun h => { h with regErr := satInc h.regErr }) ∧
  (∀ (s : State) (f : Func) (r : Fin 4) (v : Word), s.barOpen f = true → ((s.host.fn[f]).sq[r]).en = false →
    Completes (.registerWrite f (BitVec.ofNat 24 ((if f = 0 then 0x11010 else 0x1010) + 8 * r.val)) v true) s fun t =>
      OnlyFn s t f ∧ t.host.fn[f] = { s.host.fn[f] with sq := (t.host.fn[f]).sq } ∧
      ∀ x : Fin 4, (t.host.fn[f]).sq[x] = if x = r then { (s.host.fn[f]).sq[r] with
        base := ((s.host.fn[f]).sq[r]).base.extractLsb' 32 32 ++ (v &&& 0xFFFFF000) } else (s.host.fn[f]).sq[x]) ∧
  (∀ (s : State) (a : BitVec 24) (v : Word), s.barOpen 0 = true →
    Completes (.registerWrite 0 a v false) s fun t => Counted s t 0 fun h => { h with regErr := satInc h.regErr }) ∧
  (∀ (s : State) (f : Func) (b : Bool) (a : BitVec 24) (v : Word) (whole : Bool), s.barOpen f = true → (b = decide (f = 0)) → a.toNat < 0x1000 →
    whole = false ∨ ¬ (a.toNat < 0x14 ∨ 0x40 ≤ a.toNat ∧ a.toNat < 0x100) →
    Completes (.registerWrite f a v whole b) s fun t => Counted s t f fun h => { h with dbErr := satInc h.dbErr }) ∧
  (∀ (s : State) (v : Word), s.barOpen 0 = true → Completes (.topoSelect v) s fun t =>
      t = { s with rope := { s.rope with topoFull := s.rope.topoFull && !v.getLsbD 7, topoSel := v.setWidth 6,
                                         shown := s.rope.topo[v.toNat % 64]? } }) ∧
  (∀ (s : State) (v : Word), s.barOpen 0 = true → Completes (.fltHistSelect v) s fun t =>
      t = { s with flt := { s.flt with histSel := v.setWidth 5, histShow := s.flt.history[v.toNat % 32]? } }) ∧
  (∀ (s : State) (v : Word), s.barOpen 0 = true → Completes (.fltPlogSelect v) s fun t =>
      t = { s with flt := { s.flt with plogSel := v.setWidth 6, plogShow := s.flt.loaded[v.toNat % 64]? } }) ∧
  (∀ (s : State) (v : Word), s.barOpen 0 = true → v.getLsbD 0 = true → Completes (.mr7Extend v) s fun t =>
      t = { s with sec := { s.sec with mr := t.sec.mr } } ∧ (∀ i : Fin 8, i ≠ 7 → t.sec.mr[i] = s.sec.mr[i]) ∧
      t.sec.mr[(7 : Fin 8)] = Config.shake256 (leBytes 32 (s.sec.mr[(7 : Fin 8)]).toNat
        ++ leBytes 32 (leNat (wordsBytes s.sec.mr7Data.toList) % 2 ^ 256)))

/-- R429, R437: diagnostic mode is entered only with every site at rest, and refused otherwise; an I3C transfer starts, is refused, or
ends with its data. ID_DIAG_CTL takes
a write with the key in diagnostic mode alone.
Readings of the model that it rests on: log 36 (a GO while BUSY records OVERRUN alone; BAD before ABSENT). -/
def Obligations.DiagnosticModeAndI3c : Prop :=
  (∀ s : State, s.barOpen 0 = true → s.allQuiet = true →
    Completes (.diagEnter 0x4449) s fun t => t = { s with ids := { s.ids with diag := { s.ids.diag with active := true } } }) ∧
  (∀ s : State, s.barOpen 0 = true → s.allQuiet = false →
    Completes (.diagEnter 0x4449) s fun t => t = { s with ids := { s.ids with diag := { s.ids.diag with refused := true } } }) ∧
  (∀ s : State, s.barOpen 0 = true →
    Completes (.diagExit 0x4449) s fun t => t = { s with ids := { s.ids with diag := { s.ids.diag with active := false } } }) ∧
  (∀ (s : State) (k : BitVec 16), k ≠ 0x4449 → Completes (.diagEnter k) s (· = s) ∧ Completes (.diagExit k) s (· = s)) ∧
  (∀ (s : State) (ctl : Word), let n := (ctl.extractLsb' 24 5).toNat
    let pin := (ctl.extractLsb' 0 7).toNat
    s.barOpen 0 = true → s.ids.i3c.busy = false → pin < 96 → 1 ≤ n → n ≤ 16 → s.present.getLsbD pin = true →
    Completes (.i3cTransferGo ctl) s fun t => t = { s with ids := { s.ids with i3c := { s.ids.i3c with
      dir := ctl.getLsbD 30, len := ctl.extractLsb' 24 5, reg := ctl.extractLsb' 16 8, pin := ctl.extractLsb' 0 7, busy := true,
      sent := if ctl.getLsbD 30 then s.ids.i3c.sent
        else s.ids.i3c.sent ++ [(pin, ctl.extractLsb' 16 8, (wordsBytes s.ids.i3c.data.toList).take n)] } } }) ∧
  (∀ (s : State) (ctl : Word), s.barOpen 0 = true → s.ids.i3c.busy = true →
    Completes (.i3cTransferGo ctl) s fun t => t = { s with ids := { s.ids with i3c := { s.ids.i3c with overrun := true } } }) ∧
  (∀ (s : State) (ctl : Word), s.barOpen 0 = true → s.ids.i3c.busy = false →
    (95 < (ctl.extractLsb' 0 7).toNat ∨ (ctl.extractLsb' 24 5).toNat = 0 ∨ 16 < (ctl.extractLsb' 24 5).toNat) →
    Completes (.i3cTransferGo ctl) s fun t => t.ids.i3c.bad = true ∧ t.ids.i3c.busy = false ∧ t.ids.i3c.sent = s.ids.i3c.sent) ∧
  (∀ (s : State) (data : List Byte), s.ids.i3c.busy = true → s.ids.i3c.dir = true → s.ids.i3c.len.toNat = data.length → data.length ≤ 16 →
    Completes (.i3cTransferDone false data) s fun t => t = { s with ids := { s.ids with i3c := { s.ids.i3c with
      busy := false, done := true, data := t.ids.i3c.data } } } ∧
      ∀ i : Fin 4, t.ids.i3c.data[i] = u32At (data ++ (wordsBytes s.ids.i3c.data.toList).drop data.length) (4 * i.val)) ∧
  (∀ (s : State) (data : List Byte), s.ids.i3c.busy = true →
    Completes (.i3cTransferDone true data) s fun t => t = { s with ids := { s.ids with i3c := { s.ids.i3c with
      busy := false, done := true, nack := true } } }) ∧
  (∀ (s : State) (v : Word), s.barOpen 0 = true →
    Completes (.registerWrite 0 0x20 v true) s fun t => let d := s.playAll.ids.diag
      if v.extractLsb' 16 16 = 0x4449 ∧ d.active = true then
        t = { s.playAll with ids := { s.playAll.ids with diag :=
          { d with range := d.range && !v.getLsbD 5, ue := d.ue && !v.getLsbD 4, refused := d.refused && !v.getLsbD 3 } } }
      else t = s.playAll)

/-! ## Resets, boot, clocks -/

/-- R355, R370, R371, R377, R379, R409: each reset parks every pin, empties what it covers, keeps flash, and leaves its cause; a WARM reset keeps
configuration space and ownership and counts, and sends a locked rope-sourced time unit into HOLDOVER (log 31); PORST_N alone clears the
fault collector.
Readings of the model that it rests on: log 29. -/
def Obligations.ResetsKeepAndClear : Prop :=
  let parked := fun (s t : State) =>
    t.sites = Vector.replicate 12 {} ∧ t.gens = Vector.replicate 12 {} ∧ t.seqs = Vector.replicate 12 {} ∧ t.siteOf = Vector.ofFn id ∧
    (∀ c : Cluster, (t.cl[c]).tim = {} ∧ (t.cl[c]).cap = {} ∧ (t.cl[c]).dec = {} ∧ ∀ r : Lane, ((t.cl[c]).lvl.rails[r]).live = false) ∧
    t.cal.flash = s.cal.flash ∧ t.sec.slots = s.sec.slots ∧ t.sec.bootLog = s.sec.bootLog ∧ t.sec.journal = s.sec.journal ∧
    t.sec.treeLog = s.sec.treeLog ∧ t.sec.rollback = s.sec.rollback ∧ t.cmd = {} ∧
    t.pwr.phase = .held ∧ t.pwr.bootDone = false ∧ t.now = s.now ∧ t.free = s.free
  (∀ s : State, s.pwr.porst = false → (∀ w, s.sec.wrote = some w → w.1 < s.now) →
    Completes .porstAssert s fun t => parked s t ∧ t.pwr.porst = true ∧ t.pwr.cause = 1 ∧ t.pwr.alive = s.pwr.alive ∧
      t.flt = { active := s.flt.active, sector := s.flt.sector, other := s.flt.other, pseq := s.flt.pseq }
      ∧ t.time = {} ∧ t.host = { writes := s.host.writes, reads := s.host.reads, busRead := s.host.busRead } ∧ t.ids = {}) ∧
  (∀ s : State, s.pwr.porst = false → s.pwr.perst = false → s.flt.taking = none →
    Completes .perstAssert s fun t => parked s t ∧ t.pwr.perst = true ∧ t.pwr.porst = false ∧ t.pwr.cause = 2 ∧ t.flt = s.flt
      ∧ t.time = {} ∧ t.host = { writes := s.host.writes, reads := s.host.reads, busRead := s.host.busRead } ∧ t.ids = { dynAddr := s.ids.dynAddr }) ∧
  (∀ (s : State) (v : Word), s.barOpen 0 = true → v.extractLsb' 16 16 = 0x5741 → v.getLsbD 0 = true →
    ¬(s.time.source = .rope ∧ s.time.state = .locked) → s.flt.taking = none →
    Completes (.warmReset v) s fun t => parked s t ∧ t.pwr.cause = 4 ∧ t.pwr.warmCnt = satInc s.pwr.warmCnt ∧ t.flt = s.flt
      ∧ t.time = s.time ∧ t.host.owner = s.host.owner ∧ t.host.numVfs = s.host.numVfs ∧
      ∀ f : Func, (t.host.fn[f]).busMaster = (s.host.fn[f]).busMaster ∧ (t.host.fn[f]).rq.en = false ∧
        ∀ r : Fin 4, (t.host.fn[f]).sq[r] = { (s.host.fn[f]).sq[r] with en := false, part := 0 }) ∧
  (∀ (s : State) (v : Word), s.barOpen 0 = true → v.extractLsb' 16 16 = 0x5741 → v.getLsbD 0 = true →
    s.time.source = .rope ∧ s.time.state = .locked → s.flt.taking = none →
    Completes (.warmReset v) s fun t => t.pwr.cause = 4 ∧ t.time.state = .holdover ∧ t.time.holdSeen = true ∧ t.flt.count = s.flt.count + 1
      ∧ (t.flt.history.map (·.source)).head? = some 40) ∧
  (∀ (s : State) (v : Word), s.barOpen 0 = true → (v.extractLsb' 16 16 ≠ 0x5741 ∨ v.getLsbD 0 = false) → Completes (.warmReset v) s (· = s)) ∧
  (∀ (s : State) (straps : BitVec 4), s.pwr.porst = true →
    Completes (.porstDeassert straps) s fun t => t = { s with pwr := { s.pwr with porst := false, straps := straps } })

/-- R17, R233, R234, R361, R362, R372, R373, R384, R385, R390: boot begins when both balls are high and the reference clock is there, from the slot
TRY or ACTIVE names; an image that is in neither slot stops it; completion makes the device ready; a TRY boot that takes 1 s falls back
to the other slot.
Readings of the model that it rests on: log 33, and what flash holds: log 12. -/
def Obligations.BootAndClocks : Prop :=
  (∀ (s : State) (ok : Bool) (chips : BitVec 96) (others : List Chip), s.pwr.porst = false → s.pwr.phase = .held → s.pwr.refclkOk = true →
    s.pwr.cause ≠ 4 →
    let slot := s.sec.try_.getD s.sec.active
    Completes (.bootStart ok chips others) s fun t =>
      if (s.sec.slots[slot]).valid s.sec.rollback then
        t.pwr.phase = .booting s.now s.sec.try_.isSome ∧ t.sec.bootSlot = slot ∧ t.sec.fallback = s.sec.fallback ∧
          (∀ q : Pin, t.present.getLsbD q.val = (if chips.getLsbD q.val then decide (∀ x ∈ others, x.id.toNat ≠ q.val)
            else match others.filter fun x => decide (x.id.toNat = q.val) with
              | [x] => decide (x.bus.val = q.val / 48) && decide (x.contract = 1)
              | _ => false))
          ∧ t.mem.ready = ok ∧ t.pwr.hbm = (if ok then 1 else 3) ∧ t.cmd.store = s.sec.slots[slot] ∧ t.sec.next = s.sec.end_
          ∧ t.sec.nextHi = BitVec.ofNat 8 (s.sec.end_ / 2 ^ 32) ∧ t.flt.read = true
      else if (s.sec.slots[slot + 1]).valid s.sec.rollback then
        t.pwr.phase = .booting s.now false ∧ t.sec.bootSlot = slot + 1 ∧ t.sec.fallback = true ∧ t.sec.active = slot + 1 ∧ t.sec.try_ = none
      else t.pwr.phase = .stopped ∧ t.sec.noImage = true) ∧
  (∀ (s : State) (ok : Bool) (chips : BitVec 96) (others : List Chip), s.pwr.porst = false → s.pwr.phase = .held → s.pwr.refclkOk = false →
    s.flt.read = true →
    Completes (.bootStart ok chips others) s fun t => t = { s with pwr := { s.pwr with perst := false } }) ∧
  (∀ (s : State) (since : Nat) (try_ : Bool), s.pwr.phase = .booting since try_ → s.pwr.refclkOk = false ∨ s.pwr.pllLost = true →
    Completes .bootComplete s (· = s)) ∧
  (∀ (s : State) (since : Nat) (try_ : Bool), s.pwr.phase = .booting since try_ → s.pwr.refclkOk = true → s.pwr.pllLost = false →
    Completes .bootComplete s fun t => t.pwr.phase = .ready ∧ t.pwr.bootDone = true ∧ t.pwr.aliveRun = !s.devFault ∧ s.sec.rollback ≤ t.sec.rollback
      ∧ (try_ = true → t.sec.active = s.sec.bootSlot ∧ t.sec.try_ = none) ∧ t.now = s.now ∧ t.sites = s.sites ∧ t.gens = s.gens
      ∧ t.host = s.host ∧ ∀ c : Cluster, (t.cal.cl[c]).applied = satInc (s.cal.cl[c]).applied ∧ (t.cl[c]).coeffs = (t.cal.cl[c]).target) ∧
  (∀ (s : State) (since : Nat) (ok : Bool) (chips : BitVec 96) (others : List Chip), s.pwr.phase = .booting since true →
    s.now ≤ since + 1000000000 * nsUnits →
    Completes (.tryBootTimeout ok chips others) s fun t => t.sec.fallback = true ∧ t.sec.try_ = none ∧ t.now = since + 1000000000 * nsUnits ∧
      t.pwr.cause = s.pwr.cause) ∧
  (∀ (s : State) (f : Func), s.pwr.phase = .ready → f.val ≤ s.host.numVfs.val →
    Completes (.functionLevelReset f) s fun t =>
      (∀ k ∈ s.siteIdxs, s.owns f k = true → (t.seqs[k]).start = none ∧ (t.seqs[k]).front = none ∧
        ((s.sites[k]).state.busy = true → (s.sites[k]).reqAck &&& reqAbort = 0 → (t.sites[k]).req = (s.sites[k]).req ||| reqAbort)) ∧
      (∀ k ∈ s.siteIdxs, s.owns f k = false → t.sites[k] = s.sites[k] ∧ t.seqs[k] = s.seqs[k]) ∧
      (∀ c : Cluster, t.gens[c] = if s.owns f c then (s.gens[c]).discard else s.gens[c]) ∧
      (∀ x ∈ t.sched.tables, x.owner ≠ f) ∧ (∀ i ∈ t.sched.queue, s.flowOwner i.flow ≠ f) ∧
      (∀ n : Nat, t.sched.flow n = if s.flowOwner n = f then { s.sched.flow n with
        prio := if n < 12 then 0 else 2, rechain := false, bdTable := 0xFFFF, maxPending := 256, rechainDesc := 0 } else s.sched.flow n) ∧
      (∀ i : Fin 24, s.owns f (streamCluster i) = true → (s.siteState (s.site (streamCluster i))).rests = true →
        (t.mem.ins[i]).isOpen = false ∧ (t.mem.outs[i]).isOpen = false) ∧
      (∀ c : Cluster, (t.mem.segs[c]).map (·.id) = (s.mem.segs[c]).map (·.id)) ∧ t.sched.due = s.sched.due ∧ t.host = s.host ∧
      t.siteOf = s.siteOf ∧ t.gangs = s.gangs ∧ t.cmd = s.cmd ∧ t.now = s.now) ∧
  (∀ s : State, s.pwr.phase = .ready → s.pwr.refclkOk = true → s.pwr.pllLost = false → Calm s →
    Completes .refclkLoss s fun t => t.pwr.refclkOk = false ∧ t.pwr.bcIntosc = true ∧ t.flt.count = s.flt.count + 2 ∧ s.now = t.now ∧
      (t.flt.history.map fun h => (h.source, h.detail)).take 2 = [(2, 1), (2, 0)]) ∧
  (∀ s : State, Completes .refclkReturn s fun t => t = { s with pwr := { s.pwr with refclkOk := true, bcIntosc := false } }) ∧
  (∀ (s : State) (b : Bool), s.pwr.porst = false → (∀ k ∈ s.siteIdxs, ((s.seqs[k]).start.any (·.late)) = false) →
    Completes (.ocxoReadyChange b) s fun t => t.pwr.ocxo = b ∧ t.pwr.tbWarm = !b ∧
      t = { s with pwr := { s.pwr with ocxo := b, tbWarm := !b, blockAt := t.pwr.blockAt, blockWas := t.pwr.blockWas } })

/-! ## The engine's own commands -/

/-- R195, R200, R267 to R269, R273, R277: the scheduler's internal commands act without a reply, a stale one is refused and reported; RECHAIN submits
the next chained start; a machine check halts the engine, reports itself and loses the packet in hand. A stored microword passes its parity checks
and reads back; one that fails is not executed; branches, calls and returns go where OPND and NEXT say, within a micro-stack of four.
Readings of the model that it rests on: log 16 (the bits of REQ), 28 (the expected generation of a command that only stops), 36 and 38 (what a machine
check leaves). -/
def Obligations.InternalCommandsAndMachineChecks : Prop :=
  (∀ (s : State) (x : InternalCommand) (rest : List InternalCommand) (k : Cluster), s.pwr.phase = .ready → s.cmd.halted = false →
    s.sched.internal = x :: rest → s.tieWinner 0 = some (s.flowOwner x.flow) → x = ⟨x.flow, some k, x.expectGen, [], [], none, true, false⟩ →
    (s.siteState k).busy = true → (s.sites[k]).reqAck &&& 2 = 0 → (s.gens[k]).shadow.number = x.expectGen[k] →
    Completes (.scInternalCommand none) s fun t => (t.sites[k]) = { s.sites[k] with req := (s.sites[k]).req ||| 2 } ∧
      (∀ j : Cluster, j ≠ k → t.sites[j] = s.sites[j]) ∧ t.sched = { s.sched with internal := rest } ∧ t.host = s.host ∧ t.gens = s.gens) ∧
  (∀ (s : State) (x : InternalCommand) (rest : List InternalCommand) (k c : Cluster) (p : BitVec 16) (v : Int),
    s.pwr.phase = .ready → s.cmd.halted = false → s.sched.internal = x :: rest → s.tieWinner 0 = some (s.flowOwner x.flow) →
    x = ⟨x.flow, some k, x.expectGen, [(p, v)], [], none, false, x.search⟩ →
    s.siteOf[c] = k → bitsOf p.toNat 8 4 = c.val → (s.gens[c]).shadow.number = x.expectGen[c] →
    Completes (.scInternalCommand none) s fun t => t = { s with gens := t.gens, sched := { s.sched with internal := rest }, cmd := { s.cmd with ptr := t.cmd.ptr } } ∧
      (∀ d : Cluster, d ≠ c → t.gens[d] = s.gens[d]) ∧ (t.gens[c]).shadow.number = (s.gens[c]).shadow.number ∧
      t.gens[c] = { s.gens[c] with shadow := (t.gens[c]).shadow } ∧
      (t.gens[c]).shadow.config = { (s.gens[c]).shadow.config with levels := (t.gens[c]).shadow.config.levels } ∧
      ∀ (l : Fin 16) (r : Lane), ((t.gens[c]).shadow.config.levels[l])[r]
        = if l.val = bitsOf p.toNat 4 4 ∧ r.val = bitsOf p.toNat 0 3 then { ((s.gens[c]).shadow.config.levels[l])[r] with code := BitVec.ofInt 16 v }
          else ((s.gens[c]).shadow.config.levels[l])[r]) ∧
  (∀ (s : State) (x : InternalCommand) (rest : List InternalCommand) (k c : Cluster) (p : BitVec 16) (v : Int),
    s.pwr.phase = .ready → s.cmd.halted = false → s.sched.internal = x :: rest → s.tieWinner 0 = some (s.flowOwner x.flow) →
    x = ⟨x.flow, some k, x.expectGen, [(p, v)], [], none, false, false⟩ →
    s.siteOf[c] = k → bitsOf p.toNat 8 4 = c.val → (s.gens[c]).shadow.number ≠ x.expectGen[c] → Calm s →
    Completes (.scInternalCommand none) s fun t => t.sched.refused = true ∧ t.sched.lastFlow = BitVec.ofNat 12 x.flow ∧ t.sched.internal = rest ∧
      (t.flt.history.map fun h => (h.source, h.detail)).head? = some (37, BitVec.ofNat 32 (x.flow + 0x14 * 65536)) ∧ t.gens = s.gens ∧ t.host = s.host) ∧
  (∀ (s : State) (k : Cluster), s.pwr.phase = .ready → s.cmd.halted = false → s.sched.rechain.getLsbD k.val = true →
    (s.sched.flow k.val).rechain = true → (s.sched.flow k.val).rechainDesc ≠ 0 → s.gangs[k] = none → s.startHeld k = false → s.flt.device = false →
    s.ids.diag.active = false → (∀ c ∈ s.members k, s.flt.halted.getLsbD c.val = false ∧ s.limCal c = false) → (s.siteState k).rests = false →
    s.sched.rechainOff.getLsbD k.val = false → s.tieWinner 0 = some (s.flowOwner k.val) →
    Completes (.rechain k none) s fun t => (t.seqs[k]).start = some ⟨.chained, (s.sched.flow k.val).rechainDesc, none, false⟩ ∧
      t.sched.rechain.getLsbD k.val = false ∧ (t.sites[k]) = { s.sites[k] with taint := false } ∧ t.gens = s.gens ∧ t.host = s.host) ∧
  (∀ (s : State) (k : Cluster), s.pwr.phase = .ready → s.cmd.halted = false → s.sched.rechain.getLsbD k.val = true →
    (s.sched.flow k.val).rechain = true → s.startHeld k = true → s.sched.rechainOff.getLsbD k.val = false →
    s.tieWinner 0 = some (s.flowOwner k.val) →
    Completes (.rechain k none) s fun t => t = { s with sched := t.sched, cmd := { s.cmd with ptr := t.cmd.ptr } } ∧ t.sched.refused = true ∧
      t.sched.lastFlow = BitVec.ofNat 12 k.val ∧
      t.sched.rechainOff.getLsbD k.val = true) ∧
  (∀ (s : State) (post stack half : Bool) (u : BitVec 14), s.pwr.phase = .ready → s.cmd.halted = false → Calm s →
    Completes (.machineCheck post stack half u none) s fun t =>
      t.cmd = { s.cmd with halted := true, running := false, postCrux := post, mcheck := some ⟨post, stack, half, u⟩, micro := t.cmd.micro,
                           struck := t.cmd.struck } ∧
      (t.flt.history.map fun h => (h.source, h.mask, h.cls)).head? = some (0, 0, .device) ∧ t.host = s.host ∧ t.gens = s.gens) ∧
  (∀ (s : State) (stack half : Bool) (u : BitVec 14) (r : Routine), s.pwr.phase = .ready → s.cmd.halted = false →
    s.couldRun r.opcode.toNat r.packet = true → s.restartOf r.opcode.toNat r.packet = none →
    Completes (.machineCheck false stack half u (some r)) s fun t => t.cmd.halted = true ∧ t.gens = s.gens ∧
      (∀ f : Func, (t.host.fn[f]).replies = (s.host.fn[f]).replies) ∧
      ((t.host.fn[r.packet.func]).sq[r.packet.ring]).head = (((s.host.fn[r.packet.func]).sq[r.packet.ring]).head
        + (r.packet.length.toNat - ((s.host.fn[r.packet.func]).sq[r.packet.ring]).part))
        % 2 ^ (((s.host.fn[r.packet.func]).sq[r.packet.ring]).log2 - 4)) ∧
  (∀ w : Word, StoredWord.fails (storedWord w) 0 = false ∧ StoredWord.fails (storedWord w) 1 = false ∧ (storedWord w).setWidth 32 = w) ∧
  (∀ (m : Micro) (x : StoredWord) (draw : Nat), (StoredWord.fails x 0 = true → m.step x draw = .check false false) ∧
    (StoredWord.fails x 0 = false → StoredWord.fails x 1 = true → m.step x draw = .check false true)) ∧
  (∀ (m : Micro) (w : Word) (draw : Nat), let alt := (w.extractLsb' 12 2 ++ w.extractLsb' 14 12 : BitVec 14)
    let next := w.extractLsb' 0 14
    let go := fun (b : Bool) => MicroNext.run { m with pc := if b then alt else next }
    let op := fun (n : Nat) => w.toNat / 2 ^ 26 = n
    (op 1 → m.step (storedWord w) draw = go m.z) ∧ (op 2 → m.step (storedWord w) draw = go (!m.z)) ∧ (op 3 → m.step (storedWord w) draw = go m.n) ∧
    (op 4 → m.step (storedWord w) draw = go m.c) ∧
    (op 5 → m.step (storedWord w) draw = if m.stack.length < 4 then .run { m with pc := alt, stack := next :: m.stack } else .check true false) ∧
    (op 6 → m.step (storedWord w) draw = match m.stack with
      | [] => .check true false
      | a :: rest => .run { m with pc := a, stack := rest }))

/-- R213, R219, R228, R229, R264, R369, R431: configuration space sets its bits once the device is ready; the link's state shows; the link goes to L1
after 10 µs of quiet, and below L0 only as R369 lets it; a changed mirror page is written, with the link back in L0, between an odd and an even SEQ.
Readings of the model that it rests on: log 8 (the pointer of a ring priority without a requester) and 36. -/
def Obligations.ConfigurationLinkAndMirror : Prop :=
  (∀ (s : State) (f : Func) (b : Bool), s.pwr.phase = .ready → f.val ≤ s.host.numVfs.val →
    Completes (.configSpaceWrite (.busMaster f b)) s fun t =>
      OnlyFn { s with cmd := { s.cmd with ptr := t.cmd.ptr } } t f ∧ t.host.fn[f] = { s.host.fn[f] with busMaster := b } ∧
      ∀ x : Fin 4, t.cmd.ptr[x] = if s.requesters x = [] then 0 else s.cmd.ptr[x]) ∧
  (∀ (s : State) (f : Func) (b : Bool), s.pwr.phase = .ready → f.val ≤ s.host.numVfs.val →
    Completes (.configSpaceWrite (.memorySpace f b)) s fun t =>
      OnlyFn s t f ∧ t.host.fn[f] = { s.host.fn[f] with memSpace := b }) ∧
  (∀ (s : State) (f : Func) (b : Bool), s.pwr.phase = .ready → s.host.numVfs.val < f.val →
    Completes (.configSpaceWrite (.busMaster f b)) s (· = s) ∧ Completes (.configSpaceWrite (.memorySpace f b)) s (· = s)) ∧
  (∀ (s : State) (f : Func) (a : BitVec 64), s.pwr.phase = .ready →
    Completes (.configSpaceWrite (.bar f false a)) s fun t => OnlyFn s t f ∧ t.host.fn[f] = { s.host.fn[f] with
      bar0 := BitVec.ofNat 64 (a.toNat - a.toNat % if f = 0 then 16777216 else 65536) }) ∧
  (∀ (s : State) (m : Fin 3) (n : Fin 6), s.pwr.phase = .ready →
    Completes (.configSpaceWrite (.maxPayload m)) s (· = { s with host := { s.host with mps := m } }) ∧
    Completes (.configSpaceWrite (.maxRead n)) s (· = { s with host := { s.host with mrrs := n } })) ∧
  (∀ (s : State) (n : Fin 13) (b : Bool), s.pwr.phase = .ready →
    Completes (.configSpaceWrite (.vfEnable n)) s (· = { s with host := { s.host with numVfs := n } }) ∧
    Completes (.configSpaceWrite (.ptmEnable b)) s (· = { s with host := { s.host with ptm := b } }) ∧
    Completes (.configSpaceWrite (.aspmL1 b)) s (· = { s with host := { s.host with aspm := b } })) ∧
  (∀ (s : State) (x : LinkState) (sp w : BitVec 4) (flit : Bool), s.pwr.porst = false → s.pwr.perst = false →
    s.mayL1 (x = .l12) = false → x ≠ .down → x ≠ .l0 → Completes (.pcieLinkChange x sp w flit) s (· = s)) ∧
  (∀ (s : State) (x : LinkState) (sp w : BitVec 4) (flit : Bool), s.pwr.porst = false → s.pwr.perst = false →
    s.mayL1 (x = .l12) = true → s.pwr.link ≠ .l0 → x ≠ .down → x ≠ .l0 →
    Completes (.pcieLinkChange x sp w flit) s fun t =>
      t = { s with pwr := { s.pwr with link := x },
                   host := { s.host with speed := sp, width := if s.pwr.straps.getLsbD 2 = true ∧ 4 < w then 4 else w, flit := flit } }) ∧
  (∀ (s : State) (x : LinkState) (sp w : BitVec 4) (flit : Bool), s.pwr.porst = false → s.pwr.perst = false → x = .down ∨ x = .l0 →
    Completes (.pcieLinkChange x sp w flit) s fun t => t = { s with
      pwr := { s.pwr with link := x, quiet := s.now },
      host := { s.host with speed := if x = .down then 0 else sp, flit := x ≠ .down && flit,
                            width := if x = .down then 0 else if s.pwr.straps.getLsbD 2 = true ∧ 4 < w then 4 else w } }) ∧
  (∀ (s : State) (l12 : Bool), s.pwr.phase = .ready → s.host.aspm = true → s.pwr.link = .l0 → s.unfetched = false → (l12 = true → s.allDeep = true) →
    s.now ≤ s.pwr.quiet + 10000 * nsUnits → Calm s →
    Completes (.linkL1Entry l12) s fun t => t.pwr = { s.pwr with link := if l12 then .l12 else .l1 } ∧ t.now = s.pwr.quiet + 10000 * nsUnits ∧
      t.host = s.host ∧ t.gens = s.gens ∧ t.seqs = s.seqs ∧ t.mem = s.mem) ∧
  (∀ (s : State) (f : Func), let h := s.host.fn[f]
    let u := { s with pwr := { s.pwr with link := .l0, quiet := s.now } }
    s.portTurn = some (.mirror f) →
    Completes (.mirrorRewrite f) s fun t =>
      (t.host.fn[f]).mirrorSeq = h.mirrorSeq + 2 ∧ t.pwr.link = .l0 ∧
      (t.host.fn[f]).page = leBytes 4 (h.mirrorSeq + 2).toNat ++ (u.mirrorPage f (h.mirrorSeq + 1)).drop 4 ∧
      t.host.writes.take s.host.writes.length = s.host.writes ∧
      t.host.writes[s.host.writes.length]? = some ⟨h.mirrorAddr, leBytes 4 (h.mirrorSeq + 1).toNat⟩ ∧
      t.host.writes.getLast? = some ⟨h.mirrorAddr, leBytes 4 (h.mirrorSeq + 2).toNat⟩ ∧
      (∀ w ∈ t.host.writes.drop s.host.writes.length, h.mirrorAddr ≤ w.addr ∨ 2 ^ 64 < h.mirrorAddr.toNat + 4096) ∧
      (∀ g : Func, g ≠ f → t.host.fn[g] = s.host.fn[g]) ∧ t.gens = s.gens ∧ t.sites = s.sites)

/-! ## Sequencers -/

/-- R10, R57, R63, R65, R66, R67, R68, R280, R286: event latches; arm points, with the swap of generations; late starts; votes; trigger outputs. A pulse
of less than 2.5 ns latches by a free value (log 3).
Readings of the model that it rests on: log 24. -/
def Obligations.EventsArmAndVote : Prop :=
  (∀ (s : State) (c : Cluster) (w : Nat), s.pwr.phase = .ready → 5 * nsUnits ≤ 2 * w →
    Completes (.evtEdge c 0 (s.cl[c]).io.ctlIn.evt0Fall w) s fun t =>
      t = { s with cl := t.cl, seqs := t.seqs } ∧ (∀ k : Cluster, k ≠ s.siteOf[c] → t.seqs[k] = s.seqs[k]) ∧
      ∀ d : Cluster, t.cl[d] = if d = c then { s.cl[c] with io := { (s.cl[c]).io with
        evt0 := true, evtFrom := (t.cl[c]).io.evtFrom, evtLast := (t.cl[c]).io.evtLast } } else s.cl[d]) ∧
  (∀ (s : State) (c : Cluster) (w : Nat), s.pwr.phase = .ready → 2 * w < 5 * nsUnits →
    Completes (.evtEdge c 1 (s.cl[c]).io.ctlIn.evt1Fall w) s fun t => t.free = s.free + 1 ∧
      (t.cl[c]).io = { (s.cl[c]).io with evt1 := (s.cl[c]).io.evt1 || (Config.freeValue s.free).getLsbD 0,
                                         evtFrom := (t.cl[c]).io.evtFrom, evtLast := (t.cl[c]).io.evtLast } ∧
      ∀ d : Cluster, d ≠ c → t.cl[d] = s.cl[d]) ∧
  (∀ (s : State) (k : Cluster) (d : Descriptor) (seq : BitVec 16) (sched : Int), let at_ := ceilTo (sched - 600 * nsUnits) (4 * tickUnits)
    (s.seqs[k]).start = some ⟨.atTime, seq, some sched, false⟩ → (s.seqs[k]).front = some d → d.seq = seq → s.gangs[k] = none →
    (s.siteState k).rests = true → s.powered k = true → s.blockedAt at_ = false → (s.sites[k]).req = 0 → s.reqWait[k] = 0 → s.net ≤ at_ → Calm s →
    s.earlier (s.recent[k]).frontAt at_ = true → (∀ c ∈ s.members k, s.earlier (s.recent[c]).commitAt at_ = true) →
    Completes (.armPoint k) s fun t => t.net = at_ ∧ (t.sites[k]).state = .armed ∧ (t.seqs[k]).start = none ∧
      ((t.seqs[k]).armed.map fun a => { a with ready := true }) = some { mode := .atTime, desc := d, sched := sched, armedAt := at_, due := sched,
                                                                         entry := some (d.candidates.headD 0) } ∧
      (∀ c : Cluster, s.siteOf[c] = k → (s.gens[c]).pend.isSome = true → t.gens[c] = { s.gens[c] with
        cur := (s.gens[c]).pend.getD (s.gens[c]).cur, pend := none, pendRevert := false,
        prev := if (s.gens[c]).pendRevert then none else some (s.gens[c]).cur }) ∧
      (∀ c : Cluster, s.siteOf[c] ≠ k ∨ (s.gens[c]).pend = none → t.gens[c] = s.gens[c]) ∧
      (∀ j : Cluster, j ≠ k → t.seqs[j] = s.seqs[j]) ∧ t.host = s.host) ∧
  (∀ (s : State) (k : Cluster) (seq : BitVec 16) (sched : Int), let at_ := ceilTo (sched - 600 * nsUnits) (4 * tickUnits)
    (s.seqs[k]).start = some ⟨.atTime, seq, some sched, false⟩ → s.gangs[k] = none → s.net ≤ at_ → Calm s →
    s.powered k = false ∨ (s.blockedAt at_ = true ∧ s.armBlocked = true) ∨ (s.siteState k).rests = false →
    Completes (.armPoint k) s fun t => t.net = at_ ∧ (t.seqs[k]).start = some ⟨.atTime, seq, some sched, true⟩ ∧ t.gens = s.gens ∧
      (t.sites[k]).state = (s.sites[k]).state ∧ (t.seqs[k]).armed = (s.seqs[k]).armed) ∧
  (∀ (s : State) (k : Cluster) (a : Armed), s.gangs[k].isSome = true → (s.seqs[k]).armed = some a → a.vote = some true →
    s.votesIn k a.sched = true → s.net ≤ a.sched - 400 * nsUnits → Calm s →
    Completes (.voteCount k) s fun t => t.net = a.sched - 400 * nsUnits ∧ t.seqs = upd s.seqs k (fun q => { q with armed := some { a with vote := none } })
      ∧ t.gens = s.gens ∧ t.host = s.host) ∧
  (∀ (s : State) (k : Cluster) (a : Armed), s.gangs[k].isSome = true → (s.seqs[k]).armed = some a → (s.siteState k) = .armed →
    (a.vote = some false ∨ (a.vote = some true ∧ s.votesIn k a.sched = false)) → Calm s →
    Completes (.voteCount k) s fun t => (t.sites[k]).state = .idle ∧ (t.seqs[k]).armed = none ∧ (t.seqs[k]).start = none ∧
      (t.seqs[k]).notRun = true ∧ (t.sites[k]).burstId = (s.sites[k]).burstId ∧ t.gens = s.gens) ∧
  (∀ (s : State) (c : Cluster) (u : Int), (s.cl[c]).io.trig0Until = some u → s.net ≤ u → Calm s →
    Completes (.trigPulseEnd c 0) s fun t => t.net = u ∧
      ∀ d : Cluster, t.cl[d] = if d = c then { s.cl[c] with io := { (s.cl[c]).io with trig0Until := none } } else s.cl[d])

/-- R48, R55, R63, R64, R69, R70, R180, R182, R195: the first vector of a burst, plain or chained, and the successor's first vector.
Readings of the model that it rests on: log 24. -/
def Obligations.PlaysStart : Prop :=
  let plays := fun (s t : State) (k : Cluster) (i : Nat) (e : Entry) (at_ : Int) (va : Nat) =>
    (t.sites[k]).state = .running ∧ ((t.seqs[k]).play.map fun p => (p.entry, p.start, p.vaddr, p.len, p.period))
        = some (i, at_, va, s.segLen k e.segment, ((s.config k).timing[e.tset]).period) ∧
    (t.seqs[k]).curEntry = BitVec.ofNat 16 i ∧ (t.seqs[k]).spans.getLast? = some ⟨at_, ((s.config k).timing[e.tset]).period, va, s.segLen k e.segment⟩ ∧
    t.net = at_ ∧ t.gens = s.gens ∧ t.host = s.host
  (∀ (s : State) (k : Cluster) (a : Armed) (i : Nat) (e : Entry), (s.seqs[k]).armed = some a → a.entry = some i → a.mode ≠ .chained → a.vote = none →
    a.ready = true → s.entry k i = some e → (∀ c ∈ s.members k, (s.cl[c]).lvl.busyUntil = none) → a.due % (tickUnits : Int) = 0 → s.net ≤ a.due → Calm s →
    Completes (.firstVector k) s fun t => plays s t k i e a.due 0 ∧ (t.sites[k]).burstId = (s.sites[k]).burstId + 1 ∧
      (t.seqs[k]).armed = none ∧ (t.seqs[k]).vec0 = a.due ∧ t.sched = s.sched) ∧
  (∀ (s : State) (k : Cluster) (a : Armed) (i : Nat) (e : Entry), (s.seqs[k]).armed = some a → a.entry = some i → a.mode ≠ .chained → a.vote = none →
    a.ready = false → s.entry k i = some e → (∀ c ∈ s.members k, (s.cl[c]).lvl.busyUntil = none) → a.due % (tickUnits : Int) = 0 → s.net ≤ a.due → Calm s →
    Completes (.firstVector k) s fun t => (t.sites[k]).state = .stalled ∧ (t.sites[k]).burstId = (s.sites[k]).burstId + 1 ∧
      ((t.seqs[k]).stall.map fun x => (x.start, x.vaddr, x.next, x.firstPlay)) = some (a.due, 0, i, true) ∧
      (t.flt.history.map (·.source)).head? = some 16 ∧ t.gens = s.gens) ∧
  (∀ (s : State) (k : Cluster) (a : Armed) (i : Nat) (e : Entry), (s.seqs[k]).armed = some a → a.entry = some i → a.mode = .chained →
    a.ready = true → s.entry k i = some e → (∀ c ∈ s.members k, (s.cl[c]).lvl.busyUntil = none) → a.due % (tickUnits : Int) = 0 → s.net ≤ a.due → Calm s →
    Completes (.chainedStart k) s fun t => plays s t k i e a.due 0 ∧ (t.sites[k]).burstId = (s.sites[k]).burstId + 1 ∧ (t.seqs[k]).armed = none ∧
      t.sched.rechain = (if (s.sched.flow k.val).rechain && !s.sched.rechainOff.getLsbD k.val then setBit s.sched.rechain k.val else s.sched.rechain)) ∧
  (∀ (s : State) (k : Cluster) (p : Play) (j : Nat) (e : Entry), (s.seqs[k]).play = some p → p.succ = some (.entry j) → p.belay = false →
    (s.siteState k) = .running → (s.seqs[k]).belay = none → (s.seqs[k]).stall = none → (s.seqs[k]).abortAt = none → (s.seqs[k]).ending = none →
    s.entry k j = some e → s.net ≤ p.stop → Calm s →
    Completes (.segmentStart k) s fun t => plays s t k j e p.stop (p.vaddr + p.len) ∧ (t.sites[k]).burstId = (s.sites[k]).burstId)

/-- R49, R50, R51, R53, R56, R58, R60, R61, R62, R181, R182, R190, R285: a decision point fixes the successor its operator gives, on every local condition
and either value of INVERT; counters, call stack and play count change with it; a tested latch is consumed; BURST_STOP makes the successor HALT; a ROPE_SITE
value is the AND or the OR of the members' values, and a missing one halts the burst; a successor that is not ready brings belay hold or a stall. The
conditions are read in the state the play has reached at its decision point.
Readings of the model that it rests on: log 16 (the bits of REQ), log 23 and 24. -/
def Obligations.DecisionsFixTheSuccessor : Prop :=
  let at_ := fun (s : State) (k : Cluster) (p : Play) => p.startOf (p.len - leadOf p.period (s.hops k))
  let due := fun (s : State) (k : Cluster) (p : Play) (e : Entry) => (s.seqs[k]).play = some p ∧ p.succ = none ∧ p.resolve = none ∧ p.belay = false ∧
    (s.seqs[k]).stall = none ∧ (s.seqs[k]).abortAt = none ∧ (s.seqs[k]).siteAbort = false ∧ s.entry k p.entry = some e ∧ s.net ≤ at_ s k p ∧ Calm s
  let quiet := fun (s : State) (k : Cluster) => (s.sites[k]).req = 0 ∧ s.reqWait[k] = 0
  let decided := fun (s t : State) (k : Cluster) (p : Play) (x : Succ) => t.net = at_ s k p ∧ ((t.seqs[k]).play.bind (·.succ)) = some x ∧
    (t.seqs[k]).succValid = true ∧ (t.seqs[k]).dseq = (s.seqs[k]).dseq + 1 ∧ (t.sites[k]).state = (s.sites[k]).state ∧ t.gens = s.gens ∧ t.host = s.host
  let reached := fun (s : State) (k : Cluster) (p : Play) => (s.advanceNet (at_ s k p)).playTo k (at_ s k p)
  let goes := fun (s : State) (k : Cluster) (p : Play) => (reached s k p).pendsBy k 2 (at_ s k p) = false
  let counted := fun (s t : State) (k : Cluster) (p : Play) (j : Nat) => (t.seqs[k]).playCnt =
    if (s.entry k j).any (fun e => e.op.counts) then (if j = p.entry then satInc (s.seqs[k]).playCnt else 1) else (s.seqs[k]).playCnt
  let again := fun (s : State) (k : Cluster) (p : Play) (e : Entry) (v : Bool) =>
    if v != e.invert then p.entry + 1 else if e.count ≠ 0 ∧ (s.seqs[k]).playCnt = e.count then e.target.toNat else p.entry
  let holds := fun (u : State) (k : Cluster) (e : Entry) (d : Int) =>
    let n := e.cparam.toNat % 32
    let done := (u.seqs[k]).window.filter fun x => decide (x.1 < d)
    let mask := (u.config k).program.masks[(Fin.ofNat 16 n : Fin 16)]
    (e.cond = .fail ∧ ∃ x ∈ done, x.2.2 = true) ∨
    (e.cond = .failMask ∧ ∃ x ∈ done, x.2.2 = true ∧ mask.getLsbD x.2.1 = true) ∨
    (e.cond = .match_ ∧ (∃ x ∈ done, mask.getLsbD x.2.1 = true) ∧ ∀ x ∈ done, mask.getLsbD x.2.1 = true → x.2.2 = false) ∨
    (e.cond = .failBurst ∧ ((u.seqs[k]).failBurst = true ∨ ∃ x ∈ done, x.2.2 = true)) ∨
    (e.cond = .evt ∧ ∃ c ∈ u.members k, c.val = n % 16 ∧ (if bitOf n 4 then (u.cl[c]).io.evt1 else (u.cl[c]).io.evt0) = true ∧
      (u.cl[c]).io.evtFrom[(if bitOf n 4 then 1 else 0 : Fin 2)] + u.netOff < d) ∨
    (e.cond = .gevt ∧ ∃ c ∈ u.members k, (u.cl[c]).io.gevt.getLsbD (n % 8) = true ∧ (u.cl[c]).io.gevtFrom[(Fin.ofNat 8 n : Fin 8)] + u.netOff < d) ∨
    (e.cond = .hostJump ∧ u.pendsBy k 1 d = true) ∨
    (e.cond = .scFlag ∧ (u.sites[k]).scFlags.getLsbD (n % 16) = true) ∨
    (e.cond = .cntEq ∧ (u.seqs[k]).loops[(Fin.ofNat 4 n : Fin 4)] = e.count)
  (∀ (s : State) (k : Cluster) (p : Play) (e : Entry), due s k p e → quiet s k → e.op = .next → s.readyAfter k p.entry (p.entry + 1) = true →
    Completes (.decisionPoint k) s fun t => decided s t k p (.entry (p.entry + 1)) ∧ (t.seqs[k]).stack = (s.seqs[k]).stack) ∧
  (∀ (s : State) (k : Cluster) (p : Play) (e : Entry), due s k p e → quiet s k → e.op = .jump → s.readyAfter k p.entry e.target.toNat = true →
    Completes (.decisionPoint k) s fun t => decided s t k p (.entry e.target.toNat)) ∧
  (∀ (s : State) (k : Cluster) (p : Play) (e : Entry), due s k p e → quiet s k → e.op = .halt →
    Completes (.decisionPoint k) s fun t => decided s t k p .halt ∧ (t.seqs[k]).succHalt = true) ∧
  (∀ (s : State) (k : Cluster) (p : Play) (e : Entry), due s k p e → quiet s k → e.op = .call → (s.seqs[k]).stack.length < 8 →
    s.readyAfter k p.entry e.target.toNat = true →
    Completes (.decisionPoint k) s fun t => decided s t k p (.entry e.target.toNat) ∧ (t.seqs[k]).stack = (p.entry + 1) :: (s.seqs[k]).stack) ∧
  (∀ (s : State) (k : Cluster) (p : Play) (e : Entry), due s k p e → quiet s k → e.op = .ret → (s.seqs[k]).stack = [] →
    Completes (.decisionPoint k) s fun t => ((t.seqs[k]).play.bind (·.succ)) = some .halt ∧ (t.seqs[k]).stackErr = true ∧
      (t.flt.history.map fun h => (h.source, h.detail)).head? = some (19, BitVec.ofNat 32 p.entry)) ∧
  (∀ (s : State) (k : Cluster) (p : Play) (e : Entry), due s k p e → quiet s k → e.op = .branch → e.cond = .failBurst → e.invert = false →
    (s.seqs[k]).failBurst = true → s.readyAfter k p.entry e.target.toNat = true →
    Completes (.decisionPoint k) s fun t => decided s t k p (.entry e.target.toNat) ∧ (t.seqs[k]).failBurst = true) ∧
  (∀ (s : State) (k : Cluster) (p : Play) (e : Entry), due s k p e → e.op = .next → s.pendsBy k 2 (at_ s k p) = true →
    Completes (.decisionPoint k) s fun t => decided s t k p .halt ∧ (t.sites[k]).reqAck &&& 2 = 2) ∧
  (∀ (s : State) (k : Cluster) (p : Play) (e : Entry) (own and_ : Bool) (vs : List Bool),
    (s.seqs[k]).play = some p → p.resolve = some (own, and_) → s.entry k p.entry = some e → e.op = .branch → (s.seqs[k]).abortAt = none →
    ((s.gangs[k].map (·.members)).getD []).map (s.seqs[k]).valueOf = vs.map some → s.readyAfter k p.entry e.target.toNat = true →
    s.readyAfter k p.entry (p.entry + 1) = true → s.net ≤ at_ s k p + (40 * s.hops k * nsUnits : Nat) → Calm s →
    Completes (.siteCondResolve k) s fun t => t.net = at_ s k p + (40 * s.hops k * nsUnits : Nat) ∧
      let v := if and_ then own && vs.all id else own || vs.any id
      ((t.seqs[k]).play.bind (·.succ)) = some (if v != e.invert then .entry e.target.toNat else .entry (p.entry + 1))) ∧
  (∀ (s : State) (k : Cluster) (p : Play) (e : Entry) (v : Bool), due s k p e → goes s k p → e.op = .branch → e.cond ≠ .ropeSite →
    (v = true ↔ holds (reached s k p) k e (at_ s k p)) →
    let j := if v != e.invert then e.target.toNat else p.entry + 1
    s.readyAfter k p.entry j = true →
    Completes (.decisionPoint k) s fun t => decided s t k p (.entry j) ∧ counted s t k p j ∧ (t.seqs[k]).loops = (s.seqs[k]).loops ∧
      (t.seqs[k]).stack = (s.seqs[k]).stack) ∧
  (∀ (s : State) (k : Cluster) (p : Play) (e : Entry) (v : Bool), due s k p e → goes s k p → (e.op = .matchLoop ∨ e.op = .wait) → e.cond ≠ .ropeSite →
    (v = true ↔ holds (reached s k p) k e (at_ s k p)) → s.readyAfter k p.entry (again s k p e v) = true →
    Completes (.decisionPoint k) s fun t => decided s t k p (.entry (again s k p e v)) ∧ counted s t k p (again s k p e v) ∧
      (t.seqs[k]).loops = (s.seqs[k]).loops ∧ (t.seqs[k]).stack = (s.seqs[k]).stack) ∧
  (∀ (s : State) (k : Cluster) (p : Play) (e : Entry), due s k p e → goes s k p → e.op = .loopBegin → s.readyAfter k p.entry (p.entry + 1) = true →
    Completes (.decisionPoint k) s fun t => decided s t k p (.entry (p.entry + 1)) ∧ counted s t k p (p.entry + 1) ∧
      ∀ r : Fin 4, (t.seqs[k]).loops[r] = if r.val = e.cparam.toNat % 4 then e.count else (s.seqs[k]).loops[r]) ∧
  (∀ (s : State) (k : Cluster) (p : Play) (e : Entry), due s k p e → goes s k p → e.op = .loopEnd →
    let n := (s.seqs[k]).loops[(Fin.ofNat 4 e.cparam.toNat : Fin 4)]
    let j := if n = 0 ∨ n = 1 then p.entry + 1 else e.target.toNat
    s.readyAfter k p.entry j = true →
    Completes (.decisionPoint k) s fun t => decided s t k p (.entry j) ∧ counted s t k p j ∧
      ∀ r : Fin 4, (t.seqs[k]).loops[r] = if r.val = e.cparam.toNat % 4 ∧ n ≠ 0 then n - 1 else (s.seqs[k]).loops[r]) ∧
  (∀ (s : State) (k : Cluster) (p : Play) (e : Entry) (j : Nat) (rest : List Nat), due s k p e → goes s k p → e.op = .ret →
    (s.seqs[k]).stack = j :: rest → s.readyAfter k p.entry j = true →
    Completes (.decisionPoint k) s fun t => decided s t k p (.entry j) ∧ counted s t k p j ∧ (t.seqs[k]).stack = rest) ∧
  (∀ (s : State) (k : Cluster) (p : Play) (e : Entry), due s k p e → goes s k p → e.op = .call → 8 ≤ (s.seqs[k]).stack.length →
    Completes (.decisionPoint k) s fun t => ((t.seqs[k]).play.bind (·.succ)) = some .halt ∧ (t.seqs[k]).stackErr = true ∧
      (t.seqs[k]).stack = (s.seqs[k]).stack ∧ newest t = some (19, s.maskOf k, BitVec.ofNat 32 p.entry)) ∧
  (∀ (s : State) (k : Cluster) (p : Play) (e : Entry), due s k p e → goes s k p → e.op = .signal → s.readyAfter k p.entry (p.entry + 1) = true →
    Completes (.decisionPoint k) s fun t => decided s t k p (.entry (p.entry + 1)) ∧ counted s t k p (p.entry + 1) ∧
      (t.sched.due.map fun i => (i.type, i.flow, i.site, i.burstId, i.taint)) =
        [(.ruleEval, k.val, some k, (s.sites[k]).burstId, (s.sites[k]).taint)] ∧
      (t.sched.due.map fun i => i.payload) =
        [leBytes 2 e.cparam.toNat ++ leBytes 2 p.entry ++ leBytes 6 (p.vaddr + (p.len - leadOf p.period (s.hops k)))]) ∧
  (∀ (s : State) (k c : Cluster) (p : Play) (e : Entry), due s k p e → goes s k p → e.op.conditional = true → e.cond ≠ .ropeSite → c ∈ s.members k →
    let u := reached s k p
    let n := e.cparam.toNat
    Completes (.decisionPoint k) s fun t =>
      (e.cond = .evt → c.val = n % 16 → (u.cl[c]).io.evtLast[(if bitOf n 4 then 1 else 0 : Fin 2)] + u.netOff < at_ s k p →
        (if bitOf n 4 then (t.cl[c]).io.evt1 else (t.cl[c]).io.evt0) = false ∧
        (if bitOf n 4 then (t.cl[c]).io.evt0 = (u.cl[c]).io.evt0 else (t.cl[c]).io.evt1 = (u.cl[c]).io.evt1)) ∧
      (e.cond = .gevt → (u.cl[c]).io.gevtLast[(Fin.ofNat 8 n : Fin 8)] + u.netOff < at_ s k p →
        (t.cl[c]).io.gevt = (u.cl[c]).io.gevt &&& ~~~(bitMask 8 (n % 8))) ∧
      (e.cond = .evt → c.val ≠ n % 16 → (t.cl[c]).io = (u.cl[c]).io) ∧
      (e.cond = .hostJump → u.pendsBy k 1 (at_ s k p) = true → (t.sites[k]).reqAck.getLsbD 0 = true)) ∧
  (∀ (s : State) (k : Cluster) (p : Play) (e : Entry) (v : Bool), due s k p e → goes s k p → e.cond ≠ .ropeSite →
    (v = true ↔ holds (reached s k p) k e (at_ s k p)) → s.multi k = false → s.idleSafe k p.entry = true →
    s.readyAfter k p.entry (again s k p e v) = false →
    Completes (.decisionPoint k) s fun t => (t.sites[k]).state = .belay ∧ ((t.seqs[k]).play.bind (·.succ)) = some (.entry (again s k p e v)) ∧
      ((t.seqs[k]).belay.map fun b => (b.since, b.next)) = some (at_ s k p, again s k p e v) ∧ (t.seqs[k]).stall = none ∧
      (t.sites[k]).taint = (s.sites[k]).taint ∧ t.flt.count = s.flt.count) ∧
  (∀ (s : State) (k c : Cluster) (p : Play) (e : Entry), due s k p e → goes s k p → e.op = .next → s.multi k = false → c ∈ s.members k →
    s.readyAfter k p.entry (p.entry + 1) = false →
    Completes (.decisionPoint k) s fun t => (t.sites[k]).state = .stalled ∧ (t.seqs[k]).belay = (s.seqs[k]).belay ∧
      ((t.seqs[k]).stall.map fun x => (x.since, x.start, x.period, x.vaddr, x.next)) =
        some (at_ s k p, p.stop, p.period, p.vaddr + p.len, p.entry + 1) ∧
      t.mem.perCl[c].underrun = true ∧ t.mem.perCl[c].underVaddr = BitVec.ofNat 48 (p.vaddr + p.len) ∧
      (t.flt.history.head?.map fun h => (h.source, h.mask)) = some (16, s.maskOf k) ∧ (s.flt.reaction 16 ≠ .log → (t.sites[k]).taint = true)) ∧
  (∀ (s : State) (k : Cluster) (p : Play) (e : Entry) (x : Bool × Bool) (m : BitVec 64),
    (s.seqs[k]).play = some p → p.resolve = some x → s.entry k p.entry = some e → m ∈ (s.gangs[k].map (·.members)).getD [] →
    (s.seqs[k]).valueOf m = none → (s.seqs[k]).stall = none → s.net ≤ at_ s k p + (40 * s.hops k * nsUnits : Nat) → Calm s →
    Completes (.siteCondResolve k) s fun t => ((t.seqs[k]).play.bind (·.succ)) = some .halt ∧ (t.seqs[k]).condMiss = true ∧
      (t.flt.history.map fun h => (h.source, h.detail)).head? = some (20, BitVec.ofNat 32 p.entry))

/-- R60, R70, R118, R188: an abort ends the burst at its granule boundary; 150 ns after the start of the last vector the site is HALTED with its
RESULT, and BURST_DONE reaches the scheduler 20 ns later, where it takes its SEQNO, its priority and the site's TAINT.
Readings of the model that it rests on: log 2 (an idle step passes 1 ns), 23 and 24. -/
def Obligations.BurstsEnd : Prop :=
  (∀ (s : State) (k : Cluster) (p : Play) (n : Nat), (s.seqs[k]).play = some p → (s.seqs[k]).abortAt = some n → (s.seqs[k]).ending = none →
    s.net ≤ p.startOf n → Calm s →
    Completes (.abortBoundary k) s fun t => t.net = p.startOf n ∧ (t.seqs[k]).play = none ∧ (t.seqs[k]).stall = none ∧ (t.seqs[k]).belay = none ∧
      (t.seqs[k]).aborted = true ∧ (t.seqs[k]).ending = some (p.startOf (n - 1), true) ∧ t.gens = s.gens ∧ t.host = s.host) ∧
  (∀ (s : State) (k : Cluster) (st : Stall) (n : Nat), (s.seqs[k]).play = none → (s.seqs[k]).stall = some st → (s.seqs[k]).abortAt = some n →
    (s.seqs[k]).ending = none → s.net ≤ st.start + (n : Int) * st.step → Calm s →
    Completes (.abortBoundary k) s fun t => (t.seqs[k]).stall = none ∧ (t.seqs[k]).aborted = true ∧
      (t.seqs[k]).ending = some (st.start + (n : Int) * st.step - st.step, true)) ∧
  (∀ (s : State) (k : Cluster) (last : Int) (ab : Bool), (s.seqs[k]).lastVector = some (last, ab) → (s.seqs[k]).start = none →
    s.net ≤ last + 150 * nsUnits → Calm s →
    Completes (.burstEnd k) s fun t => t.net = last + 150 * nsUnits ∧ (t.sites[k]).state = .halted ∧ (t.seqs[k]).play = none ∧ (t.seqs[k]).ending = none ∧
      (t.seqs[k]).haltAt = some (last + 150 * nsUnits) ∧
      (t.sites[k]).result.extractLsb' 0 48 = BitVec.ofInt 48 (((t.seqs[k]).vectors : Int) - 1) ∧
      (t.sites[k]).burstId = (s.sites[k]).burstId ∧ t.sched.queue = s.sched.queue ∧
      (t.sched.due.map fun i => (i.type, i.flow, i.aborted, i.queuedAt)) = [(.burstDone, k.val, ab, (last + 170 * nsUnits - s.netOff).toNat)] ∧
      (t.sched.due.map fun i => i.payload.take 8) = [leBytes 8 (t.sites[k]).result.toNat] ∧ t.gens = s.gens ∧ t.host = s.host) ∧
  (∀ (s : State) (i : Item) (k : Cluster), s.pending = [] → s.sched.due = [i] → i.queuedAt < (s.now + nsUnits) / nsUnits * nsUnits →
    i.type = .burstDone ∨ i.type = .ruleEval → i.flow = k.val → i.site = some k → s.sched.proc k.val = none → s.sched.reduction k.val = none →
    s.sched.pendingOf k.val < (s.sched.flow k.val).maxPending → 0 < s.sched.free →
    ∃ t, step s = .next t ∧ t.now = s.now + nsUnits ∧ t.sched.due = [] ∧ t.sched.seqno = s.sched.seqno + 1 ∧ t.sched.queue = s.sched.queue ++
      [{ i with taint := (s.sites[k]).taint, prio := (s.sched.flow k.val).prio, seqno := s.sched.seqno }] ∧ t.gens = s.gens ∧ t.seqs = s.seqs)

/-- R69, R182, R183, R185, R197: a chained start reads the selection or lapses; a stall ends by RESUME, once the successor is
ready, at a granule boundary after the datapath cycle RESUME was latched in, or by its stream's time limit.
Readings of the model that it rests on: log 16 (the bits of REQ) and 24. -/
def Obligations.SelectionsAndStalls : Prop :=
  (∀ (s : State) (k : Cluster) (a : Armed) (i : Nat), (s.seqs[k]).armed = some a → a.mode = .chained → a.entry = none →
    (s.seqs[k]).selTaken = false → (s.sites[k]).scFlags.getLsbD 27 = true →
    ((s.sites[k]).scFlags.extractLsb' 28 4).toNat = (s.sites[k]).burstId.toNat % 16 →
    a.desc.candidates[((s.sites[k]).scFlags.extractLsb' 24 2).toNat]? = some i →
    Completes (.selectionRead k) s fun t => t = { s with seqs := t.seqs } ∧ (∀ j : Cluster, j ≠ k → t.seqs[j] = s.seqs[j]) ∧
      t.seqs[k] = { s.seqs[k] with selTaken := true, armed := some { a with
        entry := some i, due := max (s.net + 100 * nsUnits) (a.armedAt + 600 * nsUnits), ready := s.ready k i,
        readAt := some s.net } }) ∧
  (∀ (s : State) (k : Cluster) (a : Armed), let tmo := (s.cl[k]).io.ctlIn.chainTmo.toNat
    (s.seqs[k]).armed = some a → a.mode = .chained → a.entry = none → (s.siteState k) = .armed → tmo ≠ 0 →
    s.net ≤ a.armedAt + (tmo * 1000 * nsUnits : Nat) → Calm s →
    Completes (.chainTimeout k) s fun t => t.net = a.armedAt + (tmo * 1000 * nsUnits : Nat) ∧ (t.sites[k]).state = .idle ∧ (t.seqs[k]).armed = none ∧
      (t.seqs[k]).chainTmo = true ∧ (t.sites[k]).burstId = (s.sites[k]).burstId ∧ t.sched = s.sched ∧ t.gens = s.gens ∧ t.host = s.host) ∧
  (∀ (s : State) (k : Cluster) (st : Stall) (e : Entry), (s.seqs[k]).stall = some st → (s.seqs[k]).abortAt = none → (s.sites[k]).pends 4 = true →
    s.awaited k st.next = true → s.entry k st.next = some e → s.net ≤ st.start → Calm s →
    let out := if s.pendsBy k 4 st.start then st.start else st.start + 64 * st.step
    Completes (.stallExit k) s fun t => t.net = out ∧ (t.sites[k]).state = .running ∧ (t.sites[k]).reqAck &&& 4 = 4 ∧ (t.seqs[k]).stall = none ∧
      ((t.seqs[k]).play.map fun p => (p.entry, p.start, p.vaddr)) = some (st.next, out, st.vaddr) ∧
      (t.sites[k]).burstId = (s.sites[k]).burstId ∧ t.gens = s.gens ∧ t.host = s.host) ∧
  (∀ (s : State) (k : Cluster) (st : Stall), (s.seqs[k]).stall = some st → (s.seqs[k]).abortAt = none → s.awaited k st.next = false →
    (s.mem.ins[st.stream]).tmoMs ≠ 0 → s.net ≤ st.since + ((s.mem.ins[st.stream]).tmoMs * 1000000 * nsUnits : Nat) →
    (s.siteState k) = .stalled → Calm s →
    Completes (.streamTimeout k) s fun t => t.net = st.since + ((s.mem.ins[st.stream]).tmoMs * 1000000 * nsUnits : Nat) ∧
      (t.mem.ins[st.stream]).tmo = true ∧ (t.seqs[k]).abortAt.isSome = true ∧
      (t.flt.history.map fun h => (h.source, h.detail)).head? = some (17, BitVec.ofNat 32 st.stream.val) ∧ t.gens = s.gens ∧ t.host = s.host)

/-! ## Compare, capture, measurement, levels -/

/-- R56, R114, R115, R117, R122, R127, R138: a completed compare counts and enters its decision window; a drop ends with its record and its report; the
first vector at a 10 µs instant carries the periodic cairn; CLOSE_US closes the block.
Readings of the model that it rests on: log 14 and 26. -/
def Obligations.ComparesDropsAndBlocks : Prop :=
  (∀ (s : State) (c : Cluster) (va : Nat) (v : Vec) (i : Lane) (waves : Vector PortWave 8), let k := s.site c
    let done := v.closing[i] + 16 * nsUnits
    (s.seqs[k]).play = none → (s.seqs[k]).stall = none → (s.cl[c]).cap.target va (bitMask 8 i.val) = some v → (s.cl[c]).cap.over v = false →
    v.compared i = true → s.net ≤ done → Calm s →
    Completes (.compareComplete c va (bitMask 8 i.val) waves) s fun t =>
      let o := if (s.absentMask c).getLsbD (v.port i.val) then 3 else v.choose i waves[i]
      let fails := decide (some o ≠ v.syms[i].expected)
      t.net = done ∧ (t.cl[c]).cap.cmpCnt = satInc (s.cl[c]).cap.cmpCnt ∧ (t.cl[c]).cap.fail = ((s.cl[c]).cap.fail || fails) ∧
      (∀ j : Lane, (t.cl[c]).cap.pinFail[j] = if j = i ∧ fails = true then satInc ((s.cl[c]).cap.pinFail[i]) else (s.cl[c]).cap.pinFail[j]) ∧
      (t.seqs[k]).window = (s.seqs[k]).window ++ [(done, 8 * c.val + i.val, fails)] ∧ (∀ d : Cluster, d ≠ c → t.cl[d] = s.cl[d]) ∧
      t.gens = s.gens ∧ t.sites[k] = { s.sites[k] with req := (t.sites[k]).req, reqAck := (t.sites[k]).reqAck }) ∧
  (∀ (s : State) (c : Cluster) (va : Nat), let x := (s.cl[c]).cap
    x.dropping = some va → x.halfEmpty (s.config c).capture.mode.code x.dropAt (s.bidOf c) = true → x.older = [] → x.vecs = [] → x.ended = false →
    (s.seqs[s.site c]).play = none → (s.seqs[s.site c]).stall = none → x.acq.beginDue = none → x.acq.waiting = none → Calm s →
    Completes (.dropEnd c) s fun t => (t.cl[c]).cap.dropping = none ∧ (t.cl[c]).cap.loss = (x.loss || decide (0 < x.dropped)) ∧ (t.cl[c]).cap.dropped = 0 ∧
      (t.cl[c]).cap.dropVec = satAdd x.dropVec x.dropped ∧ (t.cl[c]).cap.cause = (if x.dropped = 0 then x.cause else x.cause ||| 64) ∧
      (t.flt.history.map fun h => (h.source, h.mask, h.detail)).head? = some (34, bitMask 12 c.val, satNat 32 x.dropped) ∧ t.gens = s.gens) ∧
  (∀ (s : State) (c : Cluster) (p : Play), let k := s.site c
    let np := (s.cl[c]).cap.nextPeriodic
    (s.siteState k).busy = true → (s.seqs[k]).play = some p → (s.seqs[k]).abortAt = none → s.members k = [c] → p.played < p.len → 0 < p.period →
    p.startOf p.played = np → (s.cl[c]).cap.cause = 0 → s.net ≤ np → Calm s →
    Completes (.periodicCairn c) s fun t => t.net = np ∧ ((t.cl[c]).cap.vecs.getLast?.map fun v => (v.start, bitOf v.cairn.cause 1)) = some (np, true) ∧
      (t.cl[c]).cap.nextPeriodic = np + 10000 * nsUnits ∧ ((t.seqs[k]).play.map (·.played)) = some (p.played + 1) ∧ t.gens = s.gens) ∧
  (∀ (s : State) (c : Cluster) (b : OpenBlock), let us := (s.config c).capture.closeUs.toNat
    (s.cl[c]).cap.open_ = some b → us ≠ 0 → s.net ≤ b.since + (us * 1000 * nsUnits : Nat) → Calm s →
    Completes (.captureBlockClose c) s fun t => t.net = b.since + (us * 1000 * nsUnits : Nat) ∧ (t.cl[c]).cap.open_ = none ∧
      (t.cl[c]).cap.blkCnt = satInc (s.cl[c]).cap.blkCnt ∧ (t.cl[c]).cap.nextSeq = (s.cl[c]).cap.nextSeq + 1 ∧ t.gens = s.gens ∧ t.seqs = s.seqs)

/-- R130, R132 to R136: a condition of every source, at its vector or at its stamp's, sets the trigger vector once the fill is complete; one before it is
counted, and a TIME trigger does not recur; BOUNDARY stands where a stamp lies within 4 FU of its vector's ends; AUTO expires into a FORCED trigger; the acquisition
completes when its post-trigger vectors are written.
Readings of the model that it rests on: log 26. -/
def Obligations.AcquisitionsTriggerAndComplete : Prop :=
  let oldest := fun (s : State) (c : Cluster) (f : HistVec → Bool) =>
    ((s.cl[c]).cap.acq.history.filter fun h => decide ((s.cl[c]).cap.acq.scan ≤ h.vaddr) && f h).getLast?
  let meets := fun (g : AcqConfig) (h : HistVec) =>
    (g.source = .fail && h.failed &&& byteAt g.sparam 0 ≠ 0) || (g.source = .vaddr && h.vaddr = fieldAt g.sparam 0 6) ||
    (g.source = .segment && h.first && h.segment = u32At g.sparam 0) ||
    (g.source = .pattern && (h.obs ^^^ u16At g.sparam 0) &&& u16At g.sparam 2 = 0)
  let names := fun (g : AcqConfig) (x : AcqEvent) => (g.source = .fail ∧ x = .fail) ∨ (g.source = .vaddr ∧ x = .vaddr) ∨
    (g.source = .segment ∧ x = .segment) ∨ (g.source = .pattern ∧ x = .pattern)
  let reached := fun (s : State) (c : Cluster) (te : Int) => (s.advanceNet te).playTo (s.site c) te
  let index := fun (p : Play) (te : Int) => ((te - p.start) / (p.period * fuUnits : Nat)).toNat
  let onPlay := fun (s : State) (c : Cluster) (p : Play) (te : Int) (base : Nat) => let q := s.seqs[s.site c]
    (s.cl[c]).cap.watching = true ∧ q.play = some p ∧ q.stall = none ∧ q.armed = none ∧ q.abortAt = none ∧ q.spans = [⟨p.start, p.period, p.vaddr, p.len⟩] ∧
    p.start ≤ te ∧ te + 4 * fuUnits < p.stop ∧ (reached s c te).cl[c].cap.watching = true ∧
    (reached s c te).cl[c].cap.acq.fillBase.map (·.1) = some base ∧ Calm s
  let stamped := fun (s t : State) (c : Cluster) (p : Play) (te : Int) (base : Nat) =>
    let x := (reached s c te).cl[c].cap
    let y := (t.cl[c]).cap
    let j := index p te
    let bnd := decide (te - p.startOf j ≤ 4 * fuUnits ∨ p.startOf (j + 1) - te ≤ 4 * fuUnits)
    (p.vaddr + j < base + (s.config c).acq.pre → y.trigIgn = satInc x.trigIgn ∧ y.acqTrig = x.acqTrig ∧ y.acq.trig = x.acq.trig) ∧
    (base + (s.config c).acq.pre ≤ p.vaddr + j → y.trigIgn = x.trigIgn ∧
      if x.acq.history.any (fun h => h.vaddr = p.vaddr + j) then
        y.acqTrig = some (p.vaddr + j) ∧ y.acq.trig = some (p.vaddr + j) ∧ y.acq.forced = false ∧ y.boundary = (x.boundary || bnd)
      else y.acq.waiting = some (p.vaddr + j, bnd, te) ∧ y.acq.trig = x.acq.trig) ∧ t.gens = s.gens ∧ t.host = s.host
  (∀ (s : State) (c : Cluster) (h : HistVec) (base : Nat) (t0 : Int), (s.config c).acq.source = .vaddr → (s.cl[c]).cap.watching = true →
    ((s.cl[c]).cap.hits (s.config c).acq).getLast? = some h → (s.cl[c]).cap.acq.fillBase = some (base, t0) → base + (s.config c).acq.pre ≤ h.vaddr →
    Completes (.acqTrigger c .vaddr) s fun t => (t.cl[c]).cap.acqTrig = some h.vaddr ∧ (t.cl[c]).cap.acq.trig = some h.vaddr ∧
      (t.cl[c]).cap.trigIgn = (s.cl[c]).cap.trigIgn ∧ (t.cl[c]).cap.acq.forced = false ∧ t.seqs = s.seqs ∧ t.gens = s.gens ∧ t.now = s.now) ∧
  (∀ (s : State) (c : Cluster) (h : HistVec) (base : Nat) (t0 : Int), (s.config c).acq.source = .vaddr → (s.cl[c]).cap.watching = true →
    ((s.cl[c]).cap.hits (s.config c).acq).getLast? = some h → (s.cl[c]).cap.acq.fillBase = some (base, t0) → h.vaddr < base + (s.config c).acq.pre →
    Completes (.acqTrigger c .vaddr) s fun t => (t.cl[c]).cap.acqTrig = (s.cl[c]).cap.acqTrig ∧ (t.cl[c]).cap.acq.trig = none ∧
      (t.cl[c]).cap.trigIgn = satInc (s.cl[c]).cap.trigIgn) ∧
  (∀ (s : State) (c : Cluster) (h : HistVec) (base : Nat) (t0 at_ : Int), let g := (s.config c).acq
    (s.cl[c]).cap.acq.fillBase = some (base, t0) →
    playedBy (s.seqs[s.site c]).spans t0 (g.autoUs * (1000 * nsUnits) - (s.cl[c]).cap.acq.autoAcc) = some at_ →
    ((s.cl[c]).cap.acq.history.filter fun h => base + g.pre ≤ h.vaddr && at_ ≤ h.start).getLast? = some h → g.auto = true →
    (s.cl[c]).cap.pending = true → Calm s →
    Completes (.acqAutoExpire c) s fun t => (t.cl[c]).cap.acqTrig = some h.vaddr ∧ (t.cl[c]).cap.acq.trig = some h.vaddr ∧
      (t.cl[c]).cap.acq.forced = !(meets g h) ∧ t.gens = s.gens ∧ t.host = s.host) ∧
  (∀ (s : State) (c : Cluster) (tv : Nat), (s.cl[c]).cap.acq.trig = some tv → tv + (s.config c).acq.post ≤ (s.cl[c]).cap.acq.written →
    (s.cl[c]).cap.dropping = none → (s.cl[c]).cap.full 8 tv 4 (s.bidOf c) = false →
    Completes (.acqComplete c) s fun t => (t.cl[c]).cap.acqDone = true ∧ (t.cl[c]).cap.acq.active = false ∧ (t.cl[c]).cap.acq.trig = none ∧
      (t.cl[c]).cap.trunc = (s.cl[c]).cap.trunc ∧ (t.cl[c]).cap.acq.doneIds = (s.config c).acq.armId :: (s.cl[c]).cap.acq.doneIds ∧ t.gens = s.gens) ∧
  (∀ (s : State) (c : Cluster) (x : AcqEvent) (h : HistVec) (base : Nat) (t0 : Int), let g := (s.config c).acq
    names g x → oldest s c (meets g) = some h → (s.cl[c]).cap.watching = true → (s.cl[c]).cap.acq.fillBase = some (base, t0) →
    Completes (.acqTrigger c x) s fun t => t.seqs = s.seqs ∧ t.gens = s.gens ∧ t.now = s.now ∧
      if base + g.pre ≤ h.vaddr then (t.cl[c]).cap.acqTrig = some h.vaddr ∧ (t.cl[c]).cap.acq.trig = some h.vaddr ∧ (t.cl[c]).cap.acq.forced = false ∧
        (t.cl[c]).cap.boundary = (s.cl[c]).cap.boundary ∧ (t.cl[c]).cap.trigIgn = (s.cl[c]).cap.trigIgn
      else (t.cl[c]).cap.acqTrig = (s.cl[c]).cap.acqTrig ∧ (t.cl[c]).cap.acq.trig = (s.cl[c]).cap.acq.trig ∧
        (t.cl[c]).cap.acq.scan = h.vaddr + 1 ∧ (t.cl[c]).cap.trigIgn = satInc (s.cl[c]).cap.trigIgn) ∧
  (∀ (s : State) (c : Cluster) (h : HistVec) (base : Nat) (t0 : Int), let g := (s.config c).acq
    g.source = .force → (s.cl[c]).cap.watching = true → (s.cl[c]).cap.acq.fillBase = some (base, t0) →
    ((s.cl[c]).cap.acq.history.filter fun h => decide (base + g.pre ≤ h.vaddr)).getLast? = some h →
    Completes (.acqTrigger c .fill) s fun t => (t.cl[c]).cap.acqTrig = some h.vaddr ∧ (t.cl[c]).cap.acq.trig = some h.vaddr ∧
      (t.cl[c]).cap.acq.forced = true ∧ (t.cl[c]).cap.trigIgn = (s.cl[c]).cap.trigIgn ∧ t.seqs = s.seqs ∧ t.gens = s.gens ∧ t.now = s.now) ∧
  (∀ (s : State) (c : Cluster) (line : Fin 2) (falling : Bool) (at_ : Int) (p : Play) (base : Nat), let g := (s.config c).acq
    let te := ceilTo at_ (5 * nsUnits / 4)
    g.source = .evt → line.val = bitsOf (fieldAt g.sparam 0 1) 0 1 → falling = bitOf (fieldAt g.sparam 0 1) 1 → onPlay s c p te base →
    Completes (.acqTrigger c (.evt line falling at_)) s fun t => stamped s t c p te base) ∧
  (∀ (s : State) (c : Cluster) (p : Play) (base : Nat), let g := (s.config c).acq
    let te := timeOf (u96At g.sparam 0)
    g.source = .time → onPlay s c p te base →
    Completes (.acqTrigger c .time) s fun t => stamped s t c p te base ∧
      (p.vaddr + index p te < base + g.pre → (t.cl[c]).cap.watching = false)) ∧
  (∀ (s : State) (c : Cluster) (serial : BitVec 64) (cl : Byte) (entry : BitVec 16) (te : Int) (p : Play) (base : Nat), let g := (s.config c).acq
    g.source = .rope → u64At g.sparam 0 = serial → byteAt g.sparam 8 = cl → (bitOf (fieldAt g.sparam 9 1) 0 = true ∨ u16At g.sparam 10 = entry) →
    onPlay s c p te base →
    Completes (.acqTrigger c (.rope serial cl entry te)) s fun t => stamped s t c p te base) ∧
  (∀ (s : State) (c : Cluster) (x : AcqEvent), let g := (s.config c).acq
    (g.source = .evt ∧ ((x = .evt 0 true s.net ∨ x = .evt 0 false s.net) ∧ bitOf (fieldAt g.sparam 0 1) 0 = true ∨ x = .time) ∨
      g.source = .vaddr ∧ (x = .time ∨ x = .fail)) →
    Completes (.acqTrigger c x) s fun t => t = s)

/-- R141, R142, R144, R148, R149, R155, R156, R327, R337: a channel armed at all times, by a symbol window, a VWINDOW or a TWINDOW stamps an edge, with
BOUNDARY within 4 FU of the window's ends; one that is not armed does not; a channel in loss takes up again; stamp blocks close; gap cairns; a finished
code-density run gives a table or is rejected; a TWINDOW that opens abandons a run. The latency common to the converters is the model's open constant (log
7).
Readings of the model that it rests on: log 13, 14, 26, 35 and 46 (an edge no window admits). -/
def Obligations.EdgesStampsAndTables : Prop :=
  let stampRead := fun (s : State) (pin : Pin) (tick : Int) (code : Fin 65) =>
    let r := (s.config (pinCluster pin)).route (pinLane pin)
    stampTime tick code.val (getN (s.cl[pinCluster pin]).coeffs.bins r []) (getN (s.cl[pinCluster pin]).coeffs.tdc r 0)
  let reached := fun (s : State) (c : Cluster) (at_ : Int) => (s.advanceNet at_).playTo (s.site c) at_
  let hears := fun (s : State) (pin : Pin) (fall : Bool) => let c := pinCluster pin
    let g := (s.config c).tdc[pinLane pin]
    g.en = true ∧ g.edge.getLsbD (if fall then 1 else 0) = true ∧ (s.absentMask c).getLsbD ((s.config c).port (pinLane pin).val) = false ∧
    ((s.cl[c]).tdc[pinLane pin]).lastEdge = none ∧ (s.seqs[s.site c]).stall = none ∧ Calm s
  let rests := fun (s : State) (c : Cluster) => (s.seqs[s.site c]).play = none ∧ (s.seqs[s.site c]).armed = none
  let near := fun (at_ b : Int) => at_ - b ≤ 4 * fuUnits ∧ b - at_ ≤ 4 * fuUnits
  let stamps := fun (s t : State) (pin : Pin) (tt : Int) (bnd : Bool) => let c := pinCluster pin
    let x := ((reached s c (tt * (2 * fuUnits))).cl[c]).tdc[pinLane pin]
    let y := ((t.cl[c]).tdc[pinLane pin])
    y.lastEdge = some tt ∧ y.stampCnt = satInc x.stampCnt ∧ y.boundary = (x.boundary || bnd) ∧ y.running = false ∧
    y.abandoned = (if x.running then satInc x.abandoned else x.abandoned) ∧ t.gens = s.gens ∧ t.seqs = (reached s c (tt * (2 * fuUnits))).seqs
  (∀ (s : State) (pin : Pin) (tick : Int) (code : Fin 65) (fall : Bool), let c := pinCluster pin
    let i := pinLane pin
    let g := (s.config c).tdc[i]
    g.en = true → g.edge.getLsbD (if fall then 1 else 0) = true → (s.absentMask c).getLsbD ((s.config c).port i.val) = false →
    g.arm = .continuous → ((s.cl[c]).tdc[i]).tWin = [] → ((s.cl[c]).tdc[i]).lastEdge = none → (s.seqs[s.site c]).play = none →
    (s.seqs[s.site c]).stall = none → Calm s →
    Completes (.tdcEdge pin tick code fall) s fun t =>
      let r := (s.config c).route i
      ((t.cl[c]).tdc[i]).lastEdge = some (stampTime tick code.val (getN (s.cl[c]).coeffs.bins r []) (getN (s.cl[c]).coeffs.tdc r 0)) ∧
      ((t.cl[c]).tdc[i]).stampCnt = satInc ((s.cl[c]).tdc[i]).stampCnt ∧
      (∀ j : Lane, j ≠ i → (t.cl[c]).tdc[j] = (s.cl[c]).tdc[j]) ∧ t.gens = s.gens) ∧
  (∀ (s : State) (pin : Pin) (tick : Int) (code : Fin 65) (fall : Bool), let c := pinCluster pin
    let i := pinLane pin
    ((s.config c).tdc[i]).arm = .symbol → ((s.cl[c]).tdc[i]).tWin = [] → (s.seqs[s.site c]).play = none → (s.seqs[s.site c]).stall = none →
    (s.seqs[s.site c]).armed = none → Calm s →
    Completes (.tdcEdge pin tick code fall) s fun t => (t.cl[c]).tdc[i] = (s.cl[c]).tdc[i] ∧ (t.cl[c]).stamp = (s.cl[c]).stamp ∧ t.pairs = s.pairs) ∧
  (∀ (s : State) (pin : Pin), (let c := pinCluster pin
     (s.cl[c].tdc[pinLane pin]).level (s.cl[c]).stamp (pinLane pin).val s.net ≤ 8192) →
    Completes (.tdcLossResume pin) s fun t => t = { s with cl := t.cl } ∧ (∀ d : Cluster, d ≠ pinCluster pin → t.cl[d] = s.cl[d]) ∧
      (t.cl[pinCluster pin]) = { s.cl[pinCluster pin] with tdc := (t.cl[pinCluster pin]).tdc } ∧
      ∀ j : Lane, (t.cl[pinCluster pin]).tdc[j] = if j = pinLane pin then { (s.cl[pinCluster pin]).tdc[j] with losing := false }
        else (s.cl[pinCluster pin]).tdc[j]) ∧
  (∀ (s : State) (c : Cluster) (b : OpenBlock), let us := (s.config c).capture.closeUs.toNat
    let due := b.since + ((if us = 0 then 100 else us) * 1000 * nsUnits : Nat)
    (s.cl[c]).stamp.open_ = some b → s.net ≤ due → Calm s →
    Completes (.stampBlockClose c) s fun t => t.net = due ∧ (t.cl[c]).stamp.open_ = none ∧ (t.cl[c]).stamp.nextSeq = (s.cl[c]).stamp.nextSeq + 1 ∧
      (t.cl[c]).cap.open_ = (s.cl[c]).cap.open_ ∧ t.gens = s.gens) ∧
  (∀ (s : State) (c : Cluster), let q := s.seqs[s.site c]
    let due := ceilTo (max s.net (s.cl[c]).stamp.gapNext) (10000 * nsUnits)
    (s.siteState (s.site c)).busy = false → q.played ≠ 0 → q.played ≤ 2 ^ 48 → Calm s →
    Completes (.gapCairn c) s fun t => t.net = due ∧ (t.cl[c]).stamp.gapNext = due + 1 ∧
      ((t.cl[c]).stamp.latest.map fun x => (x.cause, x.segment, x.vaddr, x.time)) = some (128, 0xFFFFFFFF, q.played - 1, due) ∧ t.seqs = s.seqs) ∧
  (∀ (s : State) (c : Cluster) (r : Fin 12) (hits : List Nat), let i := routeLane r
    let w := densityTable hits
    ((s.cal.cl[c]).what.getLsbD 2 = true ∧ s.calOn c = true ∨ ((s.cl[c]).tdc[i]).running = true ∧ ((s.cl[c]).tdc[i]).onMux = decide (8 ≤ r.val)) →
      densityDone hits = true → ((s.config c).tdc[i]).arm = .symbol → ((s.cl[c]).tdc[i]).tWin = [] →
    sumOk w = true → widthOk w = true → dnlOk w = true →
    Completes (.codeDensityDone c r hits) s fun t => (t.cal.cl[c]).tables[r] = some (w, s.now) ∧
      ((t.cl[c]).tdc[i]).running = (((s.cl[c]).tdc[i]).running && (s.calOn c && (s.cal.cl[c]).what.getLsbD 2)) ∧
      t.flt = s.flt ∧ t.now = s.now ∧ t.gens = s.gens) ∧
  (∀ (s : State) (c : Cluster) (r : Fin 12) (hits : List Nat), let i := routeLane r
    let w := densityTable hits
    ((s.cal.cl[c]).what.getLsbD 2 = true ∧ s.calOn c = true ∨ ((s.cl[c]).tdc[i]).running = true ∧ ((s.cl[c]).tdc[i]).onMux = decide (8 ≤ r.val)) →
      densityDone hits = true → ((s.config c).tdc[i]).arm = .symbol → ((s.cl[c]).tdc[i]).tWin = [] →
    (sumOk w && widthOk w && dnlOk w) = false → Calm s →
    Completes (.codeDensityDone c r hits) s fun t => (t.cal.cl[c]).tables = (s.cal.cl[c]).tables ∧
      ((t.cl[c]).tdc[i]).running = (((s.cl[c]).tdc[i]).running && (s.calOn c && (s.cal.cl[c]).what.getLsbD 2)) ∧
      t.cal.reject = true ∧ (t.flt.history.map fun h => (h.source, h.mask)).head? = some (42, bitMask 12 c.val)) ∧
  (∀ (s : State) (pin : Pin), let c := pinCluster pin
    let i := pinLane pin
    let g := (s.config c).tdc[i]
    g.en = true → g.arm = .twindow → timeOf g.start < timeOf g.stop → s.net < timeOf g.start → Calm s →
    Completes (.tdcTwindowBoundary pin) s fun t => t.net = timeOf g.start ∧ ((t.cl[c]).tdc[i]).running = false ∧
      ((t.cl[c]).tdc[i]).abandoned = (if ((s.cl[c]).tdc[i]).running then satInc ((s.cl[c]).tdc[i]).abandoned else ((s.cl[c]).tdc[i]).abandoned) ∧
      (t.cal.cl[c]).background = (s.cal.cl[c]).background &&& 0xD ∧ t.gens = s.gens) ∧
  (∀ (s : State) (pin : Pin) (tick : Int) (code : Fin 65) (fall : Bool) (a b : Int), let c := pinCluster pin
    let tt := stampRead s pin tick code
    let at_ := tt * (2 * fuUnits)
    hears s pin fall → rests s c → ((s.config c).tdc[pinLane pin]).arm = .symbol → ((s.cl[c]).tdc[pinLane pin]).tWin = [(a, b)] → a ≤ at_ → at_ < b →
    Completes (.tdcEdge pin tick code fall) s fun t => stamps s t pin tt (decide (near at_ a ∨ near at_ b))) ∧
  (∀ (s : State) (pin : Pin) (tick : Int) (code : Fin 65) (fall : Bool) (p : Play), let c := pinCluster pin
    let g := (s.config c).tdc[pinLane pin]
    let q := s.seqs[s.site c]
    let tt := stampRead s pin tick code
    let at_ := tt * (2 * fuUnits)
    let j := ((at_ - p.start) / (p.period * fuUnits : Nat)).toNat
    let va := bitsOf g.start.toNat 0 48
    let vb := bitsOf g.stop.toNat 0 48
    hears s pin fall → g.arm = .vwindow → q.play = some p → q.abortAt = none → q.spans = [⟨p.start, p.period, p.vaddr, p.len⟩] →
    p.start ≤ at_ → at_ + 4 * fuUnits < p.stop →
    (((reached s c at_).playTo (s.site c) (at_ + 4 * fuUnits)).cl[c].tdc[pinLane pin]).tWin = [] → va ≤ p.vaddr + j → p.vaddr + j < vb →
    p.vaddr ≤ va → vb ≤ p.vaddr + p.len →
    Completes (.tdcEdge pin tick code fall) s fun t =>
      stamps s t pin tt (decide (near at_ (p.startOf (va - p.vaddr)) ∨ near at_ (p.startOf (vb - p.vaddr))))) ∧
  (∀ (s : State) (pin : Pin) (tick : Int) (code : Fin 65) (fall : Bool), let c := pinCluster pin
    let g := (s.config c).tdc[pinLane pin]
    let tt := stampRead s pin tick code
    let at_ := tt * (2 * fuUnits)
    let bnd := decide (near at_ (timeOf g.start) ∨ near at_ (timeOf g.stop))
    hears s pin fall → rests s c → g.arm = .twindow → ((s.cl[c]).tdc[pinLane pin]).tWin = [] →
    Completes (.tdcEdge pin tick code fall) s fun t =>
      if timeOf g.start ≤ at_ ∧ at_ < timeOf g.stop then stamps s t pin tt bnd
      else ((s.cl[c]).tdc[pinLane pin]).running = false → (t.cl[c]).tdc[pinLane pin] =
        { (s.cl[c]).tdc[pinLane pin] with boundary := ((s.cl[c]).tdc[pinLane pin]).boundary || bnd })

/-- R102, R108, R111, R112, R343, R344: a rail moves by at most STEP; a range switch ends in the other range; a short is latched, reported once and parks
the cluster with the end of the collector's cycle, here one idle nanosecond on; a released limit ends the condition.
Readings of the model that it rests on: log 2, 25 and 29. -/
def Obligations.RailsMoveSwitchAndShort : Prop :=
  (∀ (s : State) (c : Cluster) (r : Lane) (u : Int), let x := (s.cl[c]).lvl.rails[r]
    x.phase = .none → x.disabling = false → x.deferred = none → x.nextMove = some u → 0 < x.step → x.out ≠ x.target → s.net ≤ u → Calm s →
    Completes (.slewMove c r) s fun t => let y := (t.cl[c]).lvl.rails[r]
      t.net = u ∧ y.out = (if x.out ≤ x.target then min (x.out + x.step) x.target else max (x.out - x.step) x.target) ∧ y.target = x.target ∧
      y.nextMove = (if y.out = x.target then none else some (u + ((x.interval + 1) * 2 * nsUnits : Nat))) ∧ t.gens = s.gens ∧ t.seqs = s.seqs ∧
      ∀ d : Cluster, d ≠ c → t.cl[d] = s.cl[d]) ∧
  (∀ (s : State) (c : Cluster) (r : Lane) (u : Int), let x := (s.cl[c]).lvl.rails[r]
    x.phase = .switching u → x.deferred = none → s.net ≤ u → Calm s →
    Completes (.rangeSwitchDone c r) s fun t => let y := (t.cl[c]).lvl.rails[r]
      t.net = u ∧ y.rangeB = !x.rangeB ∧ y.target = x.upCode ∧ (y.phase = .up ∨ y.phase = .none) ∧ t.gens = s.gens ∧ t.seqs = s.seqs) ∧
  (∀ (s : State) (c : Cluster) (r : Lane) (run : Option Routine), ((s.cl[c]).lvl.rails[r]).live = true →
    ((s.cl[c]).lvl.rails[r]).limiting = false → s.pwr.phase = .ready → s.flt.first = none → s.flt.react = [] → Calm s →
    Completes (.lvlScDetect c r run) s fun t => let u := t.idle
      (t.cl[c]).lvl.lvlSc = setBit (s.cl[c]).lvl.lvlSc r.val ∧
      (t.flt.history.map fun h => (h.source, h.mask, h.detail)).head? = some (8, bitMask 12 c.val, BitVec.ofNat 32 r.val) ∧
      (∀ d : Cluster, d ≠ c → (t.cl[d]).lvl = (s.cl[d]).lvl) ∧ t.gens = s.gens ∧ t.now = s.now ∧
      u.flt.parked.getLsbD c.val = true ∧ u.flt.halted.getLsbD c.val = true ∧ (∀ i : Lane, ((u.cl[c]).lvl.rails[i]).live = false) ∧
      (∀ d : Cluster, d ≠ c → (u.cl[d]).lvl = (s.cl[d]).lvl) ∧ u.gens = s.gens) ∧
  (∀ (s : State) (c : Cluster) (r : Lane) (run : Option Routine), ((s.cl[c]).lvl.rails[r]).live = true →
    ((s.cl[c]).lvl.rails[r]).limiting = true →
    Completes (.lvlScDetect c r run) s fun t => t = { s with cl := t.cl } ∧ (t.cl[c]).lvl.lvlSc = setBit (s.cl[c]).lvl.lvlSc r.val) ∧
  (∀ (s : State) (c : Cluster) (r : Lane), Completes (.currentLimitRelease c r) s fun t => t = { s with cl := t.cl } ∧
    ∀ (d : Cluster) (i : Lane), (t.cl[d]).lvl.rails[i]
      = if d = c ∧ i = r then { (s.cl[c]).lvl.rails[r] with limiting := false } else (s.cl[d]).lvl.rails[i])

/-! ## Streams, memory, scheduler -/

/-- R41, R42, R46, R162, R172 to R178: an inbound block is accepted, stale or rejected whole; a host buffer is completed; an outbound block is written
into the buffer in hand, which the host may take back; a play releases its blocks. A buffer completed before it is full is PARTIAL (log 27). -/
def Obligations.BlocksComeAndGo : Prop :=
  let owner := fun (i : Fin 24) => (Fin.ofNat 12 (i.val / 2) : Cluster)
  let verdict := fun (s : State) (i : Fin 24) (b : List Byte) =>
    checkBlock b (s.mem.ins[i]) (owner i) (s.members (s.site (owner i))) fun c id => findSeg s.mem.segs[c] id
  let open_ := fun (s : State) (i : Fin 24) (d : Desc) => s.mem.ready = true ∧ s.mem.selfRef = false ∧ s.portTurn = some (.inb i) ∧
    (s.mem.ins[i]).descs.head? = some d ∧ (s.seqs[s.site (owner i)]).stall = none
  let image := fun (s : State) (i : Fin 24) (b : ClosedBlock) (a : BitVec 64) =>
    let x := b.bytes (if i.val % 2 = 0 then captureMagic else stampMagic) (owner i)
    payloads (128 * 2 ^ s.host.mps.val) x.length a x
  (∀ (s : State) (i : Fin 24) (b : List Byte) (d : Desc) (body : Body), open_ s i d →
    verdict s i b = .accept body → (s.mem.ins[i]).fetched + 1 < d.blocks →
    Completes (.blockEntry i b) s fun t => let h := BlkHdr.of b
      t.mem.port = (if 2 ≤ s.portTie.length then ⟨2 * i.val + 2, s.portTie.filter (· ≠ .inb i)⟩ else {}) ∧ (t.mem.ins[i]).expect = (s.mem.ins[i]).expect + 1 ∧
        (t.mem.ins[i]).fetched = (s.mem.ins[i]).fetched + 1 ∧
      (t.mem.ins[i]).good = (if (s.mem.ins[i]).bad then (s.mem.ins[i]).good else (s.mem.ins[i]).good + 1) ∧
      (t.mem.ins[i]).staged = (if (s.mem.ins[i]).play then (s.mem.ins[i]).staged + 1 else 0) ∧
      (∀ c : Cluster, t.mem.segs[c] = if c ∈ maskClusters h.mask then
        updSeg s.mem.segs[c] h.seg fun g => g.accept h.isFirst body else s.mem.segs[c]) ∧
      (∀ j : Fin 24, j ≠ i → t.mem.ins[j] = s.mem.ins[j]) ∧ t.cl = s.cl ∧ t.host = s.host) ∧
  (∀ (s : State) (i : Fin 24) (b : List Byte) (d : Desc) (n : Nat), open_ s i d → verdict s i b = .reject n → n ≤ 4 →
    (s.mem.ins[i]).fetched + 1 < d.blocks →
    Completes (.blockEntry i b) s fun t => t.mem.segs = s.mem.segs ∧ (t.mem.ins[i]).bad = true ∧ (t.mem.ins[i]).expect = (s.mem.ins[i]).expect ∧
      (let e := (s.cl[owner i]).dec
       (t.cl[owner i]).dec = { e with blkReject := satInc e.blkReject, blkCause := setBit e.blkCause (n - 1), lastSeg := u32At b 8,
                                      lastPos := BitVec.ofNat 32 (fieldAt b 20 4), lastChk := BitVec.ofNat 4 n }) ∧ ∀ c : Cluster, c ≠ owner i → t.cl[c] = s.cl[c]) ∧
  (∀ (s : State) (i : Fin 24) (b : List Byte) (d : Desc), open_ s i d → verdict s i b = .stale → (s.mem.ins[i]).bad = false →
    d.blocks ≤ (s.mem.ins[i]).fetched + 1 →
    Completes (.blockEntry i b) s fun t => let a := (s.mem.ins[i]).base + BitVec.ofNat 64 (16 * (s.mem.ins[i]).head)
      t.mem.segs = s.mem.segs ∧ t.cl = s.cl ∧ (t.mem.ins[i]).stale = satInc (s.mem.ins[i]).stale ∧ (t.mem.ins[i]).descs = (s.mem.ins[i]).descs.drop 1 ∧
      (t.mem.ins[i]).head = ((s.mem.ins[i]).head + 1) % (s.mem.ins[i]).size ∧
      t.host.writes = s.host.writes ++ [⟨a + 0xC, leBytes 2 ((s.mem.ins[i]).good + 1)⟩, ⟨a + 0xF, leBytes 1 0⟩, ⟨a + 0xE, leBytes 1 0⟩]) ∧
  (∀ (s : State) (i : Fin 24) (b : ClosedBlock) (rest : List ClosedBlock) (d : Desc) (ds : List Desc) (f : OutBuf) (g : BitVec 16) (oa : Bool), let o := s.mem.outs[i]
    o.area = b :: rest → o.descs = d :: ds → s.portTurn = some (.out i) → o.closing = false → s.mem.selfRef = false →
    o.buf = some f → f.written + 1 < d.blocks →
    b.blk.last = false →
    Completes (.outboundBlockWrite i true f.gen oa g) s fun t => (t.mem.outs[i]).buf = some { f with written := f.written + 1 } ∧
      t.mem.port = (if 2 ≤ s.portTie.length then ⟨2 * i.val + 1, s.portTie.filter (· ≠ .out i)⟩ else {}) ∧
      (t.mem.outs[i]).descs = d :: ds ∧ (t.mem.outs[i]).reclaimBytes = o.reclaimBytes ∧
      t.host.writes = s.host.writes ++ image s i b (d.addr + BitVec.ofNat 64 (4096 * f.written)) ∧ t.mem.segs = s.mem.segs) ∧
  (∀ (s : State) (i : Fin 24) (b : ClosedBlock) (rest : List ClosedBlock) (d : Desc) (ds : List Desc) (f : OutBuf) (g : BitVec 16) (oa : Bool), let o := s.mem.outs[i]
    o.area = b :: rest → o.descs = d :: ds → s.portTurn = some (.out i) → o.closing = false → s.mem.selfRef = false →
    o.buf = some f → Calm s →
    Completes (.outboundBlockWrite i false f.gen oa g) s fun t => (t.mem.outs[i]).buf = none ∧ (t.mem.outs[i]).descs = ds ∧ (t.mem.outs[i]).reclaim = true ∧
      (t.mem.outs[i]).reclaimBytes = satAdd o.reclaimBytes ((f.written + 1) * 4096) ∧ t.host.writes = s.host.writes ∧
      newest t = some (36, bitMask 12 (owner i).val, BitVec.ofNat 32 i.val)) ∧
  (∀ (s : State) (i : Fin 24) (d : Desc) (ds : List Desc) (f : OutBuf), let o := s.mem.outs[i]
    o.descs = d :: ds → o.closing = false → o.buf = some f → s.now ≤ f.since + 100000 * nsUnits →
    s.dma (s.host.owner[owner i]) = true → Calm s →
    Completes (.outboundPartialTimeout i true f.gen) s fun t => t.now = f.since + 100000 * nsUnits ∧ (t.mem.outs[i]).buf = none ∧ (t.mem.outs[i]).descs = ds ∧
      (let a := o.base + BitVec.ofNat 64 (16 * o.head)
       t.host.writes = s.host.writes ++ [⟨a + 0xC, leBytes 2 f.written⟩, ⟨a + 0xF, leBytes 1 (if f.written < d.blocks then 2 else 0)⟩, ⟨a + 0xE, leBytes 1 0⟩])) ∧
  (∀ (s : State) (c : Cluster) (p : Play) (e : Entry) (g : Seg) (x : Inst) (xs : List Inst) (i : Fin 24), (s.seqs[s.site c]).play = some p →
    s.entry (s.site c) p.entry = some e → findSeg s.mem.segs[c] e.segment = some g → g.stream = true → g.insts = x :: xs →
    x.released < x.blocks.length → s.playStream c e.segment = some i → (s.seqs[s.site c]).abortAt = none →
    ((x.blocks.take (x.released + 1)).map (·.vectors)).sum ≤ p.len → Calm s →
    Completes (.blockHbmRelease c) s fun t => (t.mem.ins[i]).staged = (s.mem.ins[i]).staged - 1 ∧ (t.instOf c e.segment).released = x.released + 1 ∧
      (t.instOf c e.segment).blocks = x.blocks ∧ t.gens = s.gens ∧ t.host = s.host)

/-- R159, R160, R186, R343, R368: corrected and uncorrectable errors are counted, placed and reported, and strike what they hit; the HBM is scrubbed, goes
into self-refresh and out of it, and can be lost.
Readings of the model that it rests on: log 27. -/
def Obligations.MemoryErrorsAndRefresh : Prop :=
  (∀ (s : State) (w : Word), s.mem.ready = true → Calm s → Completes (.eccCe w) s fun t => t.mem.eccCe = satInc s.mem.eccCe ∧ newest t = some (32, 0, w) ∧
    t.mem = { s.mem with eccCe := t.mem.eccCe } ∧ t.gens = s.gens) ∧
  (∀ (s : State) (w : Word), s.mem.ready = true → Completes (.eccUe w .other) s fun t => t = { s with mem := t.mem } ∧
    t.mem = { s.mem with eccUe := satInc s.mem.eccUe, eccUeBit := true, eccAddr := w, whereValid := true, whereVs := false, whereCl := 0,
                         eccSeg := 0xFFFFFFFF }) ∧
  (∀ (s : State) (w : Word) (c : Cluster) (vs : Bool) (p : Play) (e : Entry), s.mem.ready = true → (s.seqs[s.siteOf[c]]).play = some p →
    s.entry s.siteOf[c] p.entry = some e → (s.siteState s.siteOf[c]) = .running → (s.seqs[s.siteOf[c]]).stall = none → Calm s →
    Completes (.eccUe w (.segment c vs)) s fun t => t.mem.eccUe = satInc s.mem.eccUe ∧ t.mem.eccSeg = e.segment ∧ t.mem.whereVs = vs ∧
      t.mem.whereCl.toNat = c.val ∧ (t.sites[s.siteOf[c]]).req = (s.sites[s.siteOf[c]]).req ∧ (t.sites[s.siteOf[c]]).state = .stalled ∧
        (t.seqs[s.siteOf[c]]).abortAt.isSome = true ∧
      (∀ g ∈ t.mem.segs[c], g.id = e.segment → g.damaged = true) ∧ newest t = some (18, s.maskOf s.siteOf[c], w) ∧ t.gens = s.gens) ∧
  (∀ (s : State) (w : Word) (i : Fin 24) (b : ClosedBlock) (rest : List ClosedBlock), s.mem.ready = true → (s.mem.outs[i]).area = b :: rest → Calm s →
    Completes (.eccUe w (.outbound i)) s fun t => (t.mem.outs[i]).area = { b with bad := true } :: rest ∧ t.mem.eccUe = satInc s.mem.eccUe ∧
      newest t = some (33, bitMask 12 (i.val / 2), BitVec.ofNat 32 i.val) ∧ t.mem.segs = s.mem.segs) ∧
  (∀ s : State, s.mem.ready = true → s.mem.selfRef = false → s.now ≤ s.mem.scrubAt + 86400000000000 * nsUnits → Calm s →
    Completes .hbmScrub s fun t => t.now = s.mem.scrubAt + 86400000000000 * nsUnits ∧ t.mem = { s.mem with scrubAt := t.now }) ∧
  (∀ s : State, s.mem.ready = true → s.mem.selfRef = false → s.pwr.hbmSrEn = true → s.allDeep = true → s.areasHold = false →
    (∀ i : Fin 24, s.fetching i = false) → s.now ≤ s.pwr.hbmIdle + 100000 * nsUnits →
    s.pwr.hbmIdle + 100000 * nsUnits < s.mem.scrubAt + 86400000000000 * nsUnits → Calm s →
    Completes .hbmSrEntry s fun t => t.now = s.pwr.hbmIdle + 100000 * nsUnits ∧ t.mem = { s.mem with selfRef := true, srExit := none } ∧
      t.pwr = { s.pwr with hbm := 2 } ∧ t.gens = s.gens) ∧
  (∀ (s : State) (u : Nat), s.mem.srExit = some u → s.now ≤ u + 20000 * nsUnits → Calm s →
    Completes .hbmSrExitDone s fun t => t.now = u + 20000 * nsUnits ∧ t.pwr.hbm = 1 ∧ t.pwr.hbmIdle = t.now ∧
      t.mem = { s.mem with selfRef := false, srExit := none, outs := t.mem.outs } ∧
      ((∀ c : Cluster, (s.cl[c]).cap.fifo = [] ∧ (s.cl[c]).stamp.fifo = []) → t.mem.outs = s.mem.outs)) ∧
  (∀ (s : State) (run : Option Routine), s.pwr.phase = .ready → s.mem.ready = true → Calm s →
    Completes (.hbmFail run) s fun t => t.mem = { s.mem with ready := false } ∧ t.pwr.hbm = 3 ∧
    newest t = some (4, 0, 0) ∧ t.gens = s.gens)

/-- R194, R196, R199, R200, R202, R203, R205, R211, R230: an item goes to a core, ends with its flags and variables, without its table, or at the watchdog;
the samples are taken.
Readings of the model that it rests on: log 2 and 28. -/
def Obligations.ItemsRunOnCores : Prop :=
  (∀ (s : State) (i : Item), let p := s.sched.pointer s.now
    s.pwr.phase = .ready → s.flt.device = false → s.sched.queue = [i] → s.sched.cycleAt ≠ some (s.now / nsUnits) →
    s.sched.cores = Vector.replicate 16 {} → (s.sched.flow i.flow).inService = false → (s.sched.flow i.flow).lastCore = none →
    (i.prio = 0 ∨ s.sched.reserve.getLsbD p.val = false) → Calm s →
    Completes .itemDispatch s fun t => t.sched.queue = [] ∧ t.now = s.now ∧ t.sched.ptr = p + 1 ∧ t.sched.cycleAt = some (s.now / nsUnits) ∧
      ((t.sched.cores[p]).run.map fun r => (r.item.seqno, r.item.flow, r.started)) = some (i.seqno, i.flow, s.now + 10 * nsUnits) ∧
      (t.sched.flow i.flow).inService = true ∧ (∀ c : Fin 16, c ≠ p → (t.sched.cores[c]).run = none) ∧ t.gens = s.gens ∧ t.sites = s.sites) ∧
  (∀ (s : State) (c : Fin 16) (r : Running) (rs : List Rule) (w : Work), (s.sched.cores[c]).run = some r → (s.sched.cores[c]).slots = [] →
    r.item.type = .hostItem → r.item.site = none → r.table = some rs → evalRules (s.ruleEnv r.item) rs r.work = some w →
    w.levels = [] → w.edges = [] → w.restart = none → w.stop = false →
    s.now ≤ r.started + s.itemTime r * nsUnits → Calm s →
    Completes (.itemComplete c) s fun t => t.now = r.started + s.itemTime r * nsUnits ∧ (t.sched.cores[c]).run = none ∧
      (t.sched.flow r.item.flow).vars = w.vars ∧ (t.sched.flow r.item.flow).inService = false ∧ (t.sched.flow r.item.flow).lastCore = some c ∧
      (∀ p : Fin 4, t.sched.doneCnt[p] = if p = r.item.prio then s.sched.doneCnt[p] + 1 else s.sched.doneCnt[p]) ∧ t.sched.internal = s.sched.internal ∧
      t.gens = s.gens) ∧
  (∀ (s : State) (c : Fin 16) (r : Running) (k : Cluster), (s.sched.cores[c]).run = some r → (s.sched.cores[c]).slots = [] →
    r.item.type = .binAssign → r.item.site = some k → r.item.flow = k.val → fieldAt r.item.payload 1 1 = 0 → Calm s →
    Completes (.itemComplete c) s fun t => (t.sites[k]).scFlags.extractLsb' 16 8 = BitVec.ofNat 8 (fieldAt r.item.payload 0 1) ∧
      (t.sites[k]).scFlags.getLsbD 26 = true ∧ (t.sites[k]).scFlags.getLsbD 27 = false ∧
      (t.sites[k]).scFlags.extractLsb' 0 16 = r.sc.extractLsb' 0 16) ∧
  (∀ (s : State) (c : Fin 16) (r : Running), (s.sched.cores[c]).run = some r → (s.sched.cores[c]).slots = [] → r.item.type = .hostItem →
    r.item.site = none → r.num.isSome = true → r.table = none → Calm s →
    Completes (.itemComplete c) s fun t => t.sched.noTable = true ∧ t.sched.lastFlow = BitVec.ofNat 12 r.item.flow ∧
      (t.sched.flow r.item.flow).vars = (s.sched.flow r.item.flow).vars ∧ t.sched.internal = s.sched.internal) ∧
  (∀ (s : State) (c : Fin 16) (r : Running), (s.sched.cores[c]).run = some r → (s.sched.cores[c]).slots = [] → s.now ≤ r.started + 100000 * nsUnits → Calm s →
    Completes (.watchdog c) s fun t => t.now = r.started + 100000 * nsUnits ∧ (t.sched.cores[c]).run = none ∧ t.sched.watchdog = true ∧
      (t.sched.flow r.item.flow).inService = false ∧ (t.sched.flow r.item.flow).vars = (s.sched.flow r.item.flow).vars ∧
      (t.flt.history.map fun h => (h.source, h.detail)).head? = some (22, BitVec.ofNat 32 (r.item.flow + c.val * 65536))) ∧
  (∀ s : State, s.pwr.phase = .ready → s.now ≤ s.sched.window + 1000000 * nsUnits → Calm s →
    Completes (.schedSample true) s fun t => t.now = s.sched.window + 1000000 * nsUnits ∧ t.sched.window = t.now ∧ t.host.samples.done = s.sched.doneCnt ∧
      t.host.samples.hist = s.sched.runHist ∧ (∀ c : Fin 16, (t.sched.cores[c]).busy = 0) ∧ t.sched.queue = s.sched.queue) ∧
  (∀ s : State, s.pwr.phase = .ready → s.now % (1000 * nsUnits) = 0 → Calm s →
    Completes (.schedSample false) s fun t => t = { s with host := { s.host with samples := t.host.samples } } ∧
      ∀ p : Fin 4, t.host.samples.depth[p] = BitVec.ofNat 32 ((s.sched.queue.filter fun i => i.prio = p).length))

/-! ## Network time, rope -/

/-- R305, R309 to R315, R318: a time request is answered and sent; a response at either level makes an exchange, the sixteenth an estimate that locks the unit or is
refused; a PTM dialog does the same; the clock slews by one FU; the unit holds over. θ of a PTM dialog is the model's (PRESUMED, log 41).
Readings of the model that it rests on: log 13 and 31. -/
def Obligations.TimeIsExchanged : Prop :=
  let fu : Int := 32
  let judged := fun (s t : State) (theta : Int) => t.time.theta = theta ∧ t.time.sums = [] ∧ t.time.lastEst = t.now ∧
    (if theta.natAbs ≤ s.time.threshold * nsUnits then
      if s.time.state = .refused then t.time.corr = s.time.corr ∧ (if 15 ≤ s.time.within then t.time.state = .locked ∧ t.time.within = 0
        else t.time.state = .refused ∧ t.time.within = s.time.within + 1)
      else t.time.state = .locked ∧ t.time.corr = theta.tdiv fu
     else t.time.state = .refused ∧ t.time.corr = 0 ∧
      (s.time.state = .refused ∨ newest t = some (41, 0, BitVec.ofNat 32 (min (theta.natAbs / nsUnits) (2 ^ 32 - 1)))))
  (∀ (s : State) (n : Port) (fr : Frame) (turn : BitVec 24), Arrives s n 0x10 fr →
    Completes (.timeReq n fr turn) s fun t => let t2 := s.net / fu * fu
      OnlyPort s t n ∧ (t.rope.ports[n]).reqAt = some s.now ∧ (t.rope.ports[n]).lastRx = s.now ∧
      t.rope.sent = s.rope.sent ++ [⟨n, 0x11, 0, 0, Config.serial,
        (if (s.rope.ports[n]).level = 3 then leBytes 12 (stampOf t2).toNat
         else leBytes 4 (t2 / nsUnits % 2 ^ 32).toNat ++ leBytes 2 (t2 % nsUnits).toNat ++ List.replicate 6 0) ++ leBytes 3 turn.toNat ++
        leBytes 1 (min 15 s.time.stratum + (if s.time.state = .freeRun ∨ s.time.state = .locked ∨ s.time.state = .holdover then 16 else 0) +
          (if s.time.heldOver then 32 else 0))⟩]) ∧
  (∀ s : State, s.time.source = .rope → s.time.req = none → (s.rope.ports[s.time.port]).state = .up → s.now ≤ s.time.lastReq + 20000 * nsUnits →
    Calm s →
    Completes .timeReqTimer s fun t => t.now = s.time.lastReq + 20000 * nsUnits ∧
      t.time = { s.time with req := some (t.now, t.net / fu * fu), lastReq := t.now } ∧
      t.rope.sent = s.rope.sent ++ [⟨s.time.port, 0x10, 0, 0, Config.serial, List.replicate 16 0⟩] ∧ t.gens = s.gens) ∧
  (∀ (s : State) (n : Port) (fr : Frame) (el at_ : Nat) (t1 : Int), let ts := fieldAt fr.body 15 1
    let t2 := if (s.rope.ports[n]).level = 3 then timeOf (u96At fr.body 0)
      else (t1 / nsUnits + (u32At fr.body 0 - BitVec.ofInt 32 (t1 / nsUnits)).toInt) * nsUnits + fieldAt fr.body 4 2
    let t4 : Int := ((at_ + el : Nat) + s.netOff) / fu * fu
    let twice : Int := (t4 - (t2 + fieldAt fr.body 12 3 * fu)) - (t2 - t1) - (s.time.asymCable[n]).toInt
    let sums := s.time.sums ++ [twice]
    let theta := (sums.sum + 16) / 32
    s.time.req = some (at_, t1) → s.time.source = .rope → s.time.port = n → el ≤ 10000 * nsUnits → s.now ≤ at_ + el → Arrives s n 0x11 fr →
    ts / 16 % 2 = 1 → ts % 16 < 15 → Calm s →
    Completes (.timeResp n fr el) s fun t => t.now = at_ + el ∧ t.time.req = none ∧ t.time.stratum = ts % 16 + 1 ∧ t.gens = s.gens ∧
      (if sums.length < 16 then t.time = { s.time with req := none, stratum := ts % 16 + 1, sums := sums }
       else judged s t theta)) ∧
  (∀ (s : State) (at_ : Nat) (t1 : Int), s.time.req = some (at_, t1) → s.time.source = .rope → s.now ≤ at_ + 10000 * nsUnits → Calm s →
    Completes .timeRespTimeout s fun t => t.now = at_ + 10000 * nsUnits ∧ t.time = { s.time with req := none, respTmo := satInc s.time.respTmo } ∧
      t.rope = s.rope ∧ t.gens = s.gens) ∧
  (∀ s : State, s.time.source = .ptm → s.now ≤ s.time.lastReq + 1000000 * nsUnits → s.pwr.link ≠ .down → Calm s →
    Completes .ptmDialogStart s fun t => t.now = s.time.lastReq + 1000000 * nsUnits ∧
      t.time = { s.time with req := some (t.now, t.net), lastReq := t.now,
                             respTmo := if s.time.req.isSome then satInc s.time.respTmo else s.time.respTmo } ∧
      t.pwr = { s.pwr with link := .l0, quiet := t.now } ∧ t.rope = s.rope ∧ t.gens = s.gens) ∧
  (∀ (s : State) (r : Nat × Int) (t1 t4 master delay : Int), s.time.source = .ptm → s.time.req = some r → s.net ≤ t4 → Calm s →
    let sums := s.time.sums ++ [t1 + t4 - delay - 2 * master]
    Completes (.ptmDialog t1 t4 master delay) s fun t => t.net = t4 ∧ t.time.req = none ∧ t.time.stratum = 0 ∧ t.rope = s.rope ∧
      if sums.length < 16 then t.time = { s.time with req := none, stratum := 0, sums := sums } else judged s t ((sums.sum + 16) / 32)) ∧
  (∀ s : State, s.time.state = .locked → s.time.corr ≠ 0 → (∀ k ∈ s.siteIdxs, s.siteState k = .idle ∨ s.siteState k = .halted) →
    s.now ≤ s.time.lastStep + 100 * nsUnits → Calm s →
    Completes .timeSlewStep s fun t => let d : Int := if 0 < s.time.corr then 1 else -1
      t.now = s.time.lastStep + 100 * nsUnits ∧ t.netOff = s.netOff - d * fu ∧ t.time = { s.time with corr := s.time.corr - d, lastStep := t.now } ∧
      t.gens = s.gens ∧ t.rope = s.rope) ∧
  (∀ (s : State) (k : Cluster), s.time.state = .locked → s.time.corr ≠ 0 → k ∈ s.siteIdxs → s.siteState k = .running →
    s.now ≤ s.time.lastStep + 10000 * nsUnits → Calm s →
    Completes .timeSlewStep s fun t => t.now = s.time.lastStep + 10000 * nsUnits ∧
      t.netOff = s.netOff - (if 0 < s.time.corr then fu else -fu)) ∧
  (∀ s : State, s.time.state = .locked → s.time.source = .ptm → s.now ≤ s.time.lastEst + 20000000 * nsUnits → Calm s →
    Completes .timeHoldover s fun t => t.now = s.time.lastEst + 20000000 * nsUnits ∧ t.time = { s.time with state := .holdover, holdSeen := true, corr := 0 } ∧
      newest t = some (40, 0, 0) ∧ t.gens = s.gens) ∧
  (∀ s : State, s.time.state = .locked → s.time.source = .rope → (s.rope.ports[s.time.port]).state ≠ .up → Calm s →
    Completes .timeHoldover s fun t => t.now = s.now ∧ t.time = { s.time with state := .holdover, holdSeen := true, corr := 0 } ∧
      newest t = some (40, 0, 0) ∧ t.gens = s.gens)

/-- R57, R61, R62, R64, R68, R285, R286, R288, R289, R303: a fixed-latency frame is delivered on its tick and relayed, is late, or is a copy; site conditions,
votes and aborts reach the sites of their tag; a trigger reaches the acquisition engine; global events are latched and sent.
Readings of the model that it rests on: log 10, 23 and 30. -/
def Obligations.FramesReachTheBlocks : Prop :=
  let fixed : List Byte := [0x20, 0x21, 0x22, 0x30, 0x31]
  let mine := fun (s : State) (m : InMsg) (k : Cluster) =>
    decide (k ∈ s.siteIdxs) && (s.gangs[k]).any fun g => g.tag = u32At m.body 0 && g.members.contains m.src
  let voted := fun (s : State) (k : Cluster) => ((s.seqs[k]).armed.map (·.desc.seq)).or ((s.seqs[k]).start.map (·.seq))
  let isFrame := fun (m : InMsg) (n : Port) (c : Byte) (fr : Frame) => m.port = n ∧ m.ctype = c ∧ m.src = fr.src ∧ m.body = fr.body
  (∀ (s : State) (n : Port) (c : Byte) (fr : Frame) (at_ : Int), let d := (fr.tick - BitVec.ofInt 16 at_).toInt
    c ∈ fixed → s.flOk n = true → Arrives s n c fr → 0 ≤ d → s.net ≤ (at_ + d) * 20480 → Calm s →
    (∀ x ∈ s.rope.delivered, x.src ≠ fr.src ∨ x.ctype ≠ c ∨ x.tick ≠ fr.tick) → 3 ≤ fr.hops.toNat →
    Completes (.frameDelivery n c fr at_) s fun t => t.net = (at_ + d) * 20480 ∧ t.rope.sent = s.rope.sent ∧
      t.rope.inbox = s.rope.inbox ++ [⟨n, c, fr.hops.toNat + 1, t.net, fr.src, fr.body⟩] ∧ t.rope.delivered.head? = some ⟨fr.src, c, fr.tick, t.now⟩ ∧
      t.cl = s.cl ∧ t.seqs = s.seqs ∧ t.gens = s.gens) ∧
  (∀ (s : State) (n m : Port) (c : Byte) (fr : Frame) (at_ : Int), let d := (fr.tick - BitVec.ofInt 16 at_).toInt
    c ∈ fixed → s.flOk n = true → Arrives s n c fr → 0 ≤ d → s.net ≤ (at_ + d) * 20480 → (∀ j : Port, (s.rope.ports[j]).state ≠ .idle) → Calm s →
    (∀ x ∈ s.rope.delivered, x.src ≠ fr.src ∨ x.ctype ≠ c ∨ x.tick ≠ fr.tick) → fr.hops.toNat < 3 →
    ((List.finRange 4).filter fun j => decide (j ≠ n) && (decide ((s.rope.ports[j]).state = .up) &&
      (({ s with now := ((at_ + d) * 20480 - s.netOff).toNat } : State).flOk j && (decide (c ≠ 0x20) || decide ((s.rope.ports[j]).level = 3))))) = [m] →
    Completes (.frameDelivery n c fr at_) s fun t => t.net = (at_ + d) * 20480 ∧
      t.rope.inbox = s.rope.inbox ++ [⟨n, c, fr.hops.toNat + 1, t.net, fr.src, fr.body⟩] ∧
      t.rope.sent = s.rope.sent ++ [⟨m, c, BitVec.ofNat 8 (fr.hops.toNat + 1), fr.tick + 128, fr.src, fr.body⟩]) ∧
  (∀ (s : State) (n : Port) (c : Byte) (fr : Frame) (at_ : Int), c ∈ fixed → s.flOk n = true → Arrives s n c fr →
    (fr.tick - BitVec.ofInt 16 at_).toInt < 0 →
    Completes (.frameDelivery n c fr at_) s fun t => OnlyPort s t n ∧ t.rope.sent = s.rope.sent ∧
      t.rope.ports[n] = { s.rope.ports[n] with late := satInc (s.rope.ports[n]).late, lateSeen := true, lastRx := s.now, lastBusy := s.now }) ∧
  (∀ (s : State) (n : Port) (c : Byte) (fr : Frame) (at_ : Int), c ∈ fixed → (s.rope.ports[n]).state.hears = true →
    fr.crc ≠ crc32c ([c, fr.hops] ++ leBytes 2 fr.tick.toNat ++ leBytes 8 fr.src.toNat ++ (fr.body ++ List.replicate 16 0).take 16) →
    Completes (.frameDelivery n c fr at_) s fun t => OnlyPort s t n ∧ t.rope.sent = s.rope.sent ∧
      t.rope.ports[n] = { s.rope.ports[n] with crcErr := satInc (s.rope.ports[n]).crcErr }) ∧
  (∀ (s : State) (n : Port) (c : Byte) (fr : Frame) (at_ : Int), frameLevel c = none → (s.rope.ports[n]).state.hears = true →
    fr.crc = crc32c (frameBytes c fr) →
    Completes (.frameDelivery n c fr at_) s fun t => OnlyPort s t n ∧ t.rope.sent = s.rope.sent ∧
      t.rope.ports[n] = { s.rope.ports[n] with badFrame := satInc (s.rope.ports[n]).badFrame }) ∧
  (∀ (s : State) (n : Port) (fr : Frame) (m : InMsg) (rest : List InMsg), s.rope.inbox = m :: rest → isFrame m n 0x20 fr →
    Completes (.siteCond n fr) s fun t => t = { s with rope := { s.rope with inbox := rest }, seqs := t.seqs } ∧
      ∀ k : Cluster, t.seqs[k] = if mine s m k then
        { s.seqs[k] with receipts := (s.seqs[k]).receipts ++ [⟨m.src, false, u32At m.body 4, (byteAt m.body 10).getLsbD 0⟩] } else s.seqs[k]) ∧
  (∀ (s : State) (n : Port) (fr : Frame) (m : InMsg) (rest : List InMsg), s.rope.inbox = m :: rest → isFrame m n 0x21 fr →
    Completes (.siteVote n fr) s fun t => t = { s with rope := { s.rope with inbox := rest }, seqs := t.seqs } ∧
      ∀ k : Cluster, t.seqs[k] = if mine s m k && decide (voted s k = some (u16At m.body 4)) then
        { s.seqs[k] with receipts := (s.seqs[k]).receipts ++ [⟨m.src, true, u32At m.body 8, (byteAt m.body 6).getLsbD 0⟩] } else s.seqs[k]) ∧
  (∀ (s : State) (n : Port) (fr : Frame) (m : InMsg) (rest : List InMsg), s.rope.inbox = m :: rest → isFrame m n 0x22 fr →
    fieldAt m.body 4 1 = 2 →
    Completes (.siteAbort n fr) s fun t => t = { s with rope := { s.rope with inbox := rest }, seqs := t.seqs } ∧
      ∀ k : Cluster, let hit := mine s m k && decide (s.siteState k ≠ .idle) && decide (s.siteState k ≠ .halted)
        t.seqs[k] = if hit then { s.seqs[k] with siteAbort := true } else s.seqs[k]) ∧
  (∀ (s : State) (n : Port) (fr : Frame) (m : InMsg) (rest : List InMsg), s.rope.inbox = m :: rest → isFrame m n 0x22 fr →
    fieldAt m.body 4 1 ≠ 2 → s.flt.react = [] → s.flt.first = none → Calm s →
    Completes (.siteAbort n fr) s fun t => t.rope = { s.rope with inbox := rest } ∧ t.gens = s.gens ∧
      ∀ k : Cluster, let hit := mine s m k && decide (s.siteState k ≠ .idle) && decide (s.siteState k ≠ .halted)
        (t.seqs[k] = if hit then { s.seqs[k] with siteAbort := true } else s.seqs[k]) ∧
        (t.sites[k] = if hit then { s.sites[k] with taint := true } else s.sites[k]) ∧
        (hit = true → ∃ h ∈ t.flt.history, h.source = 20 ∧ h.mask = s.maskOf k)) ∧
  (∀ (s : State) (n : Port) (fr : Frame) (m : InMsg) (rest : List InMsg) (k : Cluster), s.rope.inbox = m :: rest → isFrame m n 0x30 fr →
    (∀ c : Cluster, c ≠ k → (s.cl[c]).cap.acq.active = false) →
    Completes (.trig n fr) s fun t => exec (.acqTrigger k (.rope m.src (byteAt m.body 0) (u16At m.body 2) (m.time - 40 * m.hops * nsUnits)))
      { s with rope := { s.rope with inbox := rest } } = .next t) ∧
  (∀ (s : State) (n : Port) (fr : Frame) (m : InMsg) (rest : List InMsg), s.rope.inbox = m :: rest → isFrame m n 0x31 fr →
    Completes (.gevt n fr) s fun t => t = { s with rope := { s.rope with inbox := rest }, cl := t.cl, seqs := t.seqs } ∧
      (∀ c : Cluster, (t.cl[c]).io.gevt = (s.cl[c]).io.gevt ||| byteAt m.body 0 ∧
        t.cl[c] = { s.cl[c] with io := { (s.cl[c]).io with gevt := (t.cl[c]).io.gevt, gevtFrom := (t.cl[c]).io.gevtFrom,
                                                           gevtLast := (t.cl[c]).io.gevtLast } }) ∧
      ∀ k : Cluster, (s.seqs[k]).play = none → t.seqs[k] = s.seqs[k]) ∧
  (∀ (s : State) (w : Word), s.barOpen 0 = true → w.setWidth 8 ≠ 0#8 →
    Completes (.globalEventWrite w) s fun t => let m : Byte := w.setWidth 8
      let quick := fun (j : Port) => decide ((s.rope.ports[j]).state = .idle) && decide (s.now < (s.rope.ports[j]).idleAt + 100000000 * nsUnits) &&
        decide ((s.hotDegrees - (s.rope.ports[j]).trainTemp.toInt).natAbs ≤ 15)
      (∀ c : Cluster, (t.cl[c]).io.gevt = (s.cl[c]).io.gevt ||| m ∧
        t.cl[c] = { s.cl[c] with io := { (s.cl[c]).io with gevt := (t.cl[c]).io.gevt, gevtFrom := (t.cl[c]).io.gevtFrom,
                                                           gevtLast := (t.cl[c]).io.gevtLast } }) ∧
      t.rope.sent = s.rope.sent ++ ((List.finRange 4).filter fun j => s.openTo 0x31 j && (decide ((s.rope.ports[j]).state = .up) || quick j)).map (fun j =>
        ⟨j, 0x31, 0, BitVec.ofInt 16 (s.net / 20480 + 128), Config.serial, leBytes 4 m.toNat ++ if (s.rope.ports[j]).level = 3 then leBytes 12 (stampOf s.net).toNat
          else leBytes 4 (s.net / nsUnits % 2 ^ 32).toNat ++ List.replicate 8 0⟩) ∧ t.rope.inbox = s.rope.inbox ∧ t.sites = s.sites ∧ t.gens = s.gens)

/-- R283, R284, R290, R291, R312: a detected signal starts training; loss of lock ends it; taps move and answer; a training ends marginal, well or failed and
is retried; probes are echoed and the echo gives the delay. The order PRE, MAIN, POST of one request's taps is the model's (log 42).
Readings of the model that it rests on: log 30. -/
def Obligations.LinksTrainAndAlign : Prop :=
  let tap := fun (cur preset req : Nat) (ok : Nat → Bool) =>
    let go := fun (n : Nat) => if n = cur || ok n then (n, 0) else (cur, 2)
    if req = 1 then (if cur ≥ 15 then (cur, 1) else go (cur + 1)) else if req = 2 then (if cur = 0 then (cur, 1) else go (cur - 1))
    else if req = 3 then go preset else (cur, 0)
  let cur := fun (t0 : Training) (i : Nat) => fieldAt t0.partner i 1
  let want := fun (t0 : Training) (i : Nat) => if t0.bestTaps = [] then cur t0 i else fieldAt t0.bestTaps i 1
  let far := fun (t0 : Training) (i : Nat) => ((cur t0 i : Int) - want t0 i).natAbs
  let homing := fun (n : Port) (t0 : Training) => (List.range (max (far t0 0) (max (far t0 1) (far t0 2)))).map fun j =>
    (⟨n, 0x50, 0, 0, Config.serial, ([0, 1, 2].map fun i => if far t0 i ≤ j then (0 : Byte) else if cur t0 i < want t0 i then 1 else 2) ++
      [t0.best, if t0.sentDone then 1 else 0] ++ List.replicate 11 0⟩ : Sent)
  (∀ (s : State) (n : Port), (s.rope.ports[n]).state = .detect → s.now ≤ s.rope.clockAt + 60000 * nsUnits → Calm s →
    Completes (.linkDetect n) s fun t => t.now = s.rope.clockAt + 60000 * nsUnits ∧ t.rope.sent = s.rope.sent ∧
      (∀ m : Port, m ≠ n → t.rope.ports[m] = s.rope.ports[m]) ∧ (t.rope.ports[n]).state = .train ∧
      (t.rope.ports[n]).training = some { began := t.now, lastReq := t.now } ∧ t.gens = s.gens) ∧
  (∀ (s : State) (n : Port), (s.rope.ports[n]).state = .detect → s.rope.clockAt + 60000 * nsUnits ≤ s.now →
    Completes (.linkDetect n) s fun t => OnlyPort s t n ∧ t.rope.sent = s.rope.sent ∧ let p := t.rope.ports[n]
      p.state = .train ∧ p.training = some { began := s.now, lastReq := s.now } ∧ p.pre = 0 ∧ p.main = 15 ∧ p.post = 0 ∧ p.marginal = false ∧
      p.aligned = false ∧ p.partner = none ∧ p.level = 0 ∧ p.loss = (s.rope.ports[n]).loss) ∧
  (∀ (s : State) (n : Port), ((s.rope.ports[n]).state = .train ∨ (s.rope.ports[n]).state = .align ∨ (s.rope.ports[n]).state = .ident) →
    (s.rope.ports[n]).test.running = false →
    Completes (.lossOfLock n) s fun t => OnlyPort s t n ∧ t.rope.sent = s.rope.sent ∧ let p := t.rope.ports[n]
      p.state = .detect ∧ p.training = none ∧ p.partner = none ∧ p.level = 0 ∧ p.loss = (s.rope.ports[n]).loss) ∧
  (∀ (s : State) (n : Port), (s.rope.ports[n]).state = .up → (s.rope.ports[n]).test.running = false → Calm s →
    Completes (.lossOfLock n) s fun t => newest t = some (38, 0, BitVec.ofNat 32 n.val) ∧ (∀ m : Port, m ≠ n → (t.rope.ports[m]).state = (s.rope.ports[m]).state) ∧
      let p := t.rope.ports[n]
      p.state = .detect ∧ p.partner = none ∧ p.level = 0 ∧ p.loss = satInc (s.rope.ports[n]).loss ∧ p.linkDown = true) ∧
  (∀ (s : State) (n : Port), (s.rope.ports[n]).state = .test → (s.rope.ports[n]).test.running = true →
    Completes (.lossOfLock n) s fun t => OnlyPort s t n ∧ let p := t.rope.ports[n]
      p.state = .detect ∧ p.test.running = false ∧ p.test.done = true ∧ p.loss = (s.rope.ports[n]).loss) ∧
  (∀ (s : State) (n : Port) (fr : Frame) (t0 : Training), Arrives s n 0x50 fr → (s.rope.ports[n]).training = some t0 →
    Completes (.trainReq n fr) s fun t => let p := s.rope.ports[n]
      let a := tap p.pre 0 (fieldAt fr.body 0 1) fun x => decide (x + p.post + 4 ≤ p.main)
      let m := tap p.main 15 (fieldAt fr.body 1 1) fun x => decide (a.1 + p.post + 4 ≤ x)
      let b := tap p.post 0 (fieldAt fr.body 2 1) fun x => decide (a.1 + x + 4 ≤ m.1)
      OnlyPort s t n ∧ (t.rope.ports[n]).pre = a.1 ∧ (t.rope.ports[n]).main = m.1 ∧ (t.rope.ports[n]).post = b.1 ∧
      (t.rope.ports[n]).training = some { t0 with gotDone := t0.gotDone || decide (fieldAt fr.body 4 1 = 1) } ∧
      t.rope.sent = s.rope.sent ++ [⟨n, 0x51, 0, 0, Config.serial,
        [BitVec.ofNat 8 a.1, BitVec.ofNat 8 m.1, BitVec.ofNat 8 b.1, BitVec.ofNat 8 a.2, BitVec.ofNat 8 m.2, BitVec.ofNat 8 b.2] ++ List.replicate 10 0⟩]) ∧
  (∀ (s : State) (n : Port) (fr : Frame) (t0 : Training), Arrives s n 0x51 fr → (s.rope.ports[n]).training = some t0 →
    Completes (.trainSts n fr) s fun t => OnlyPort s t n ∧ t.rope.sent = s.rope.sent ∧
      t.rope.ports[n] = { s.rope.ports[n] with training := some { t0 with partner := fr.body.take 6 }, lastRx := s.now, lastBusy := s.now }) ∧
  (∀ (s : State) (n : Port) (pre main post : Fin 4) (metric : Byte) (t0 : Training), (s.rope.ports[n]).training = some t0 →
    s.now ≤ t0.lastReq + 1000 * nsUnits → Calm s →
    Completes (.trainReqTimer n pre main post metric) s fun t => let done := t0.sentDone || decide (metric.toNat ≥ 160)
      let req := fun (x : Fin 4) => if done then 0 else BitVec.ofNat 8 x.val
      t.now = t0.lastReq + 1000 * nsUnits ∧
      (t.rope.ports[n]).training = some { t0 with lastReq := t.now, sentDone := done, metric := metric,
                                                  best := if t0.best.toNat ≤ metric.toNat then metric else t0.best,
                                                  bestTaps := if t0.best.toNat ≤ metric.toNat then t0.partner.take 3 else t0.bestTaps } ∧
      (∀ m : Port, m ≠ n → t.rope.ports[m] = s.rope.ports[m]) ∧
      t.rope.sent = s.rope.sent ++ [⟨n, 0x50, 0, 0, Config.serial, [req pre, req main, req post, metric, if done then 1 else 0] ++ List.replicate 11 0⟩]) ∧
  (∀ (s : State) (n : Port) (temp : BitVec 8) (asym : Word) (t0 : Training), (s.rope.ports[n]).state = .train → (s.rope.ports[n]).training = some t0 →
    t0.sentDone = true → t0.gotDone = true → 160 ≤ t0.best.toNat →
    Completes (.trainEnd n temp asym) s fun t => let p := t.rope.ports[n]
      p.state = .align ∧ p.training = none ∧ p.metric = t0.metric ∧ p.marginal = false ∧ p.trainTemp = temp ∧ t.now = s.now ∧ t.flt = s.flt ∧
      (∀ m : Port, t.time.asymInt[m] = if m = n then asym else s.time.asymInt[m]) ∧
      t.rope.sent = s.rope.sent ++ [⟨n, 0x52, 0, 0, Config.serial, leBytes 8 (s.net / 32 % 2 ^ 64).toNat ++ List.replicate 8 0⟩] ∧
      ∀ m : Port, m ≠ n → t.rope.ports[m] = s.rope.ports[m]) ∧
  (∀ (s : State) (n : Port) (temp : BitVec 8) (asym : Word) (t0 : Training), (s.rope.ports[n]).state = .train → (s.rope.ports[n]).training = some t0 →
    (t0.sentDone = false ∨ t0.gotDone = false) → s.now ≤ t0.began + 2000000 * nsUnits → 96 ≤ t0.best.toNat → t0.best.toNat < 160 → Calm s →
    Completes (.trainEnd n temp asym) s fun t => let p := t.rope.ports[n]
      t.rope.sent = s.rope.sent ++ homing n t0 ++
        [⟨n, 0x52, 0, 0, Config.serial, leBytes 8 (t.net / 32 % 2 ^ 64).toNat ++ List.replicate 8 0⟩] ∧
      t.now = t0.began + 2000000 * nsUnits ∧ p.state = .align ∧ p.metric = t0.best ∧ p.marginal = true ∧
      newest t = some (39, 0, BitVec.ofNat 32 (n.val + t0.best.toNat * 256))) ∧
  (∀ (s : State) (n : Port) (temp : BitVec 8) (asym : Word) (t0 : Training), (s.rope.ports[n]).state = .train → (s.rope.ports[n]).training = some t0 →
    (t0.sentDone = false ∨ t0.gotDone = false) → s.now ≤ t0.began + 2000000 * nsUnits → t0.best.toNat < 96 → Calm s →
    Completes (.trainEnd n temp asym) s fun t => let p := t.rope.ports[n]
      t.now = t0.began + 2000000 * nsUnits ∧ p.state = .train ∧ p.training = none ∧ p.trainFail = true ∧ p.retryAt = some (t.now + 100000000 * nsUnits) ∧
      p.metric = t0.best ∧ t.rope.sent = s.rope.sent ++ homing n t0 ∧ t.flt = s.flt ∧
      ∀ m : Port, t.time.asymInt[m] = if m = n then asym else s.time.asymInt[m]) ∧
  (∀ (s : State) (n : Port) (u : Nat), (s.rope.ports[n]).retryAt = some u → (s.rope.ports[n]).state = .train → s.now ≤ u → Calm s →
    Completes (.trainFailRetry n) s fun t => t.now = u ∧ (t.rope.ports[n]).state = .detect ∧ (t.rope.ports[n]).retryAt = none ∧ t.flt = s.flt ∧
      ∀ m : Port, m ≠ n → t.rope.ports[m] = s.rope.ports[m]) ∧
  (∀ (s : State) (n : Port) (fr : Frame) (turn : BitVec 64), Arrives s n 0x52 fr → fr.body.length = 16 →
    Completes (.alignProbe n fr turn) s fun t => OnlyPort s t n ∧ (t.rope.ports[n]).state = (s.rope.ports[n]).state ∧
      t.rope.sent = s.rope.sent ++ [⟨n, 0x53, 0, 0, Config.serial, fr.body.take 8 ++ leBytes 8 turn.toNat⟩]) ∧
  (∀ (s : State) (n : Port) (fr : Frame) (rt : Nat), Arrives s n 0x53 fr → (s.rope.ports[n]).state = .align →
    ((s.rope.ports[n]).test.running && (s.rope.ports[n]).test.waiting) = false →
    Completes (.alignEcho n fr rt) s fun t => OnlyPort s t n ∧ let p := t.rope.ports[n]
      p.state = (if (s.rope.ports[n]).partner.isSome then .up else .ident) ∧ p.aligned = true ∧
      p.delay = BitVec.ofNat 16 (min ((rt - fieldAt fr.body 8 8) / 2) 65535) ∧ p.identAt = s.now ∧
      (t.rope.sent.drop s.rope.sent.length).map (fun x => (x.port, x.ctype, x.hops)) = [(n, 0x40, 0)] ∧
      t.rope.sent.take s.rope.sent.length = s.rope.sent)

/-- R292 to R297, R300 to R303: an IDENT makes the partner and the topology entry and is relayed; entries age out; a port idles and leaves IDLE; the far-end loop
is asked for and granted; tests end, count and inject.
Readings of the model that it rests on: log 30. -/
def Obligations.DiscoveryIdlingAndTests : Prop :=
  let offer := fun (s : State) (n : Port) => min (s.rope.ports[n]).levelMax (if byteAt s.sec.header 0x0D = 2 then 2 else 3)
  let drift := fun (s : State) (n : Port) => s.pwr.temps.toList.foldl max (s.pwr.temps[0]) / 16 - (s.rope.ports[n]).trainTemp.toInt
  let lone := fun (s : State) (n : Port) => (s.time.source ≠ .rope ∨ s.time.port ≠ n) ∧ s.portInUse n = false
  (∀ (s : State) (n : Port) (fr : Frame), Arrives s n 0x40 fr → fr.hops = 0 → (s.rope.ports[n]).state = .ident → s.rope.topo = [] →
    ((s.rope.ports[n]).test.running && (s.rope.ports[n]).test.waiting) = false →
    (∀ m : Port, m ≠ n → (s.rope.ports[m]).state ≠ .up) →
    Completes (.ident n fr) s fun t => let p := t.rope.ports[n]
      let lv := min (offer s n) (fieldAt fr.body 5 1)
      OnlyPort s { t with rope := { t.rope with topo := s.rope.topo, topoChange := s.rope.topoChange } } n ∧ p.state = .up ∧ p.level = lv ∧
      p.partner = some ⟨fr.src, fieldAt fr.body 5 1, (byteAt fr.body 6).getLsbD 0, (byteAt fr.body 6).getLsbD 1⟩ ∧ t.rope.sent = s.rope.sent ∧
      t.rope.topo = (if fr.src = Config.serial then [] else
        [⟨fr.src, n, 1, min (fieldAt fr.body 5 1) lv, fieldAt fr.body 4 1 % 4, u32At fr.body 0, (byteAt fr.body 6).getLsbD 0 && t.flOk n, s.now⟩]) ∧
      t.rope.topoChange = if fr.src = Config.serial then s.rope.topoChange else s.rope.topoChange + 1) ∧
  (∀ (s : State) (n m : Port) (fr : Frame), Arrives s n 0x40 fr → fr.hops.toNat = 1 ∨ fr.hops.toNat = 2 → (s.rope.ports[n]).state = .up → fr.body.length = 16 →
    ((List.finRange 4).filter fun j => decide (j ≠ n) && decide ((s.rope.ports[j]).state = .up)) = [m] → s.rope.find fr.src = none → s.rope.topo.length < 64 →
    Completes (.ident n fr) s fun t => let lv := min (fieldAt fr.body 5 1) (s.rope.ports[n]).level
      let fl := (byteAt fr.body 6).getLsbD 0 && s.flOk n
      (t.rope.ports[n]).partner = (s.rope.ports[n]).partner ∧
      t.rope.sent = s.rope.sent ++ [⟨m, 0x40, fr.hops + 1, 0, fr.src,
        fr.body.take 5 ++ [BitVec.ofNat 8 lv, (if fl then 1 else 0) + (if (byteAt fr.body 6).getLsbD 1 then 2 else 0)] ++ fr.body.drop 7⟩] ∧
      t.rope.topo = (if fr.src = Config.serial then s.rope.topo else
        s.rope.topo ++ [⟨fr.src, n, fr.hops.toNat + 1, lv, fieldAt fr.body 4 1 % 4, u32At fr.body 0, fl, s.now⟩])) ∧
  (∀ (s : State) (n : Port), ((s.rope.ports[n]).state = .up ∨ (s.rope.ports[n]).state = .ident) → s.now ≤ (s.rope.ports[n]).identAt + 100000 * nsUnits → Calm s →
    Completes (.identTimer n) s fun t => t.now = (s.rope.ports[n]).identAt + 100000 * nsUnits ∧ t.rope.ports[n] = { s.rope.ports[n] with identAt := t.now } ∧
      t.rope.sent.take s.rope.sent.length = s.rope.sent ∧
      (t.rope.sent.drop s.rope.sent.length).map (fun x => (x.port, x.ctype, x.hops, (x.body.drop 4).take 2)) =
        [(n, 0x40, 0, [BitVec.ofNat 8 n.val, BitVec.ofNat 8 (offer s n)])]) ∧
  (∀ (s : State) (i : Fin 64) (e : TopoEntry), s.rope.topo[i.val]? = some e → (s.rope.ports[e.port]).state ≠ .idle →
    (let since := if e.hops = 1 then (s.rope.ports[e.port]).lastRx else e.seen
     s.now ≤ since + 1000000 * nsUnits → Calm s →
     Completes (.topoAgeOut i) s fun t => t.now = since + 1000000 * nsUnits ∧ t.rope.topo = s.rope.topo.filter (fun x => x.serial ≠ e.serial) ∧
      t.rope.topoChange = s.rope.topoChange + 1 ∧ t.rope.ports = s.rope.ports)) ∧
  (∀ (s : State) (n : Port), (s.rope.ports[n]).state = .up → lone s n → s.now ≤ (s.rope.ports[n]).lastBusy + 1000000 * nsUnits → Calm s →
    Completes (.idleEntry n) s fun t => t.now = (s.rope.ports[n]).lastBusy + 1000000 * nsUnits ∧ (t.rope.ports[n]).state = .idle ∧
      (t.rope.ports[n]).idleAt = t.now ∧ (t.rope.ports[n]).partner = (s.rope.ports[n]).partner ∧ (t.rope.ports[n]).level = (s.rope.ports[n]).level ∧
      (t.rope.ports[n]).loss = (s.rope.ports[n]).loss ∧ t.flt = s.flt ∧
      t.rope.sent = s.rope.sent ++ [⟨n, 0x60, 0, 0, Config.serial, List.replicate 16 0⟩]) ∧
  (∀ (s : State) (n : Port) (fr : Frame), Arrives s n 0x60 fr →
    Completes (.idleNotice n fr) s fun t => OnlyPort s t n ∧ t.rope.sent = s.rope.sent ∧ (t.rope.ports[n]).state = .idle ∧ (t.rope.ports[n]).idleAt = s.now ∧
      (t.rope.ports[n]).partner = (s.rope.ports[n]).partner) ∧
  (∀ (s : State) (n : Port), (s.rope.ports[n]).state = .idle → s.now < (s.rope.ports[n]).idleAt + 100000000 * nsUnits → -15 ≤ drift s n → drift s n ≤ 15 →
    Completes (.idleExit n) s fun t => (t.rope.ports[n]).state = .up ∧ (t.rope.ports[n]).lastBusy = s.now ∧
      (t.rope.ports[n]).lastRx = (s.rope.ports[n]).lastRx + (s.now - (s.rope.ports[n]).idleAt) ∧ t.rope.sent = s.rope.sent ∧
      t.rope.topo = s.rope.topo.map (fun e => if e.port = n then { e with seen := e.seen + (s.now - (s.rope.ports[n]).idleAt) } else e) ∧
      ∀ m : Port, m ≠ n → t.rope.ports[m] = s.rope.ports[m]) ∧
  (∀ (s : State) (n : Port), (s.rope.ports[n]).state = .idle →
    (s.now ≥ (s.rope.ports[n]).idleAt + 100000000 * nsUnits ∨ drift s n < -15 ∨ drift s n > 15) →
    Completes (.idleExit n) s fun t => (t.rope.ports[n]).state = .train ∧ (t.rope.ports[n]).training = some { began := s.now, lastReq := s.now } ∧
      (t.rope.ports[n]).partner = none ∧ t.flt = s.flt ∧ ∀ m : Port, m ≠ n → t.rope.ports[m] = s.rope.ports[m]) ∧
  (∀ (s : State) (n : Port) (fr : Frame), Arrives s n 0x61 fr → lone s n →
    Completes (.loopReq n fr) s fun t => OnlyPort s t n ∧ (t.rope.ports[n]).state = .test ∧ (t.rope.ports[n]).remoteLoop = true ∧
      (t.rope.ports[n]).loss = (s.rope.ports[n]).loss ∧ t.rope.sent = s.rope.sent ++ [⟨n, 0x62, 0, 0, Config.serial, List.replicate 16 0⟩]) ∧
  (∀ (s : State) (n : Port) (fr : Frame), Arrives s n 0x61 fr → ¬ lone s n →
    Completes (.loopReq n fr) s fun t => OnlyPort s t n ∧ (t.rope.ports[n]).state = .up ∧
      t.rope.sent = s.rope.sent ++ [⟨n, 0x62, 0, 0, Config.serial, 1 :: List.replicate 15 0⟩]) ∧
  (∀ (s : State) (n : Port) (fr : Frame), Arrives s n 0x62 fr → (s.rope.ports[n]).test.running = true → (s.rope.ports[n]).test.waiting = true →
    Completes (.loopAck n fr) s fun t => let x := (s.rope.ports[n]).test
      OnlyPort s t n ∧ t.rope.sent = s.rope.sent ∧ (t.rope.ports[n]).test.waiting = false ∧
      if byteAt fr.body 0 = 0 then (t.rope.ports[n]).state = .test ∧
        (t.rope.ports[n]).test = { x with waiting := false }
      else (t.rope.ports[n]).state = .up ∧ (t.rope.ports[n]).test.running = false ∧ (t.rope.ports[n]).test.refused = true) ∧
  (∀ (s : State) (n : Port) (u : Nat), (s.rope.ports[n]).test.endAt = some u → (s.rope.ports[n]).state = .test → s.now ≤ u → Calm s →
    Completes (.testEnd n) s fun t => t.now = u ∧ (t.rope.ports[n]).state = .detect ∧ (t.rope.ports[n]).test.running = false ∧ (t.rope.ports[n]).test.done = true ∧
      (t.rope.ports[n]).test.bits = (s.rope.ports[n]).test.checked u ∧ (t.rope.ports[n]).test.errs = (s.rope.ports[n]).test.errsAt n u ∧
      (t.rope.ports[n]).test.endAt = none ∧ ∀ m : Port, m ≠ n → t.rope.ports[m] = s.rope.ports[m]) ∧
  (∀ (s : State) (n : Port) (bits : List Bool), prbsLocks (s.rope.ports[n]).test.prbs bits = false →
    Completes (.checkerLock n bits) s fun t => t = s) ∧
  (∀ (s : State) (n : Port) (bits : List Bool), (s.rope.ports[n]).tests = true → (s.rope.ports[n]).test.lockAt = none →
    prbsLocks (s.rope.ports[n]).test.prbs bits = true →
    Completes (.checkerLock n bits) s fun t => let x := (s.rope.ports[n]).test
      OnlyPort s t n ∧ t.rope.sent = s.rope.sent ∧ t.rope.ports[n] = { s.rope.ports[n] with test := (t.rope.ports[n]).test } ∧
      (t.rope.ports[n]).test = { x with lockAt := some s.now, everLock := true, lockInj := 0,
                                        firstAt := if x.everLock = false ∧ x.inject ≠ 0 then some (s.now + 1000 * nsUnits) else x.firstAt }) ∧
  (∀ (s : State) (n : Port) (bits errs u : Nat), (s.rope.ports[n]).test.lockAt = some u → 256 ≤ errs → errs ≤ bits →
    Completes (.checkerLockLoss n bits errs) s fun t => let x := (s.rope.ports[n]).test
      OnlyPort s t n ∧ t.rope.sent = s.rope.sent ∧ t.rope.ports[n] = { s.rope.ports[n] with test := (t.rope.ports[n]).test } ∧
      (t.rope.ports[n]).test = { x with lockAt := none, lockLoss := satInc x.lockLoss, bits := x.bits + BitVec.ofNat 64 bits,
                                        errs := satAdd x.errs (errs - x.lockInj) }) ∧
  (∀ (s : State) (n : Port) (u : Nat), (s.rope.ports[n]).test.firstAt = some u → s.now ≤ u → Calm s →
    Completes (.testFirstInjection n) s fun t => let x := (s.rope.ports[n]).test
      let k := if x.inject = 2 then 16 else 1
      t.now = u ∧ (t.rope.ports[n]).test = { x with firstAt := none, injected := satAdd x.injected k,
                                                    errs := if x.lockAt.isSome ∧ x.loop ≠ 0 then satAdd x.errs k else x.errs,
                                                    lockInj := if x.lockAt.isSome ∧ x.loop ≠ 0 then x.lockInj + k else x.lockInj }) ∧
  (∀ (s : State) (n : Port) (w : Word), s.barOpen 0 = true → w.getLsbD 0 = true → (s.rope.ports[n]).tests = true → (s.rope.ports[n]).test.inject ≠ 0 →
    Completes (.testInject n w) s fun t => let x := (s.rope.ports[n]).test
      let k := if x.inject = 2 then 16 else 1
      OnlyPort s t n ∧ t.rope.sent = s.rope.sent ∧
      (t.rope.ports[n]).test = { x with injected := satAdd x.injected k, errs := if x.lockAt.isSome ∧ x.loop ≠ 0 then satAdd x.errs k else x.errs,
                                        lockInj := if x.lockAt.isSome ∧ x.loop ≠ 0 then x.lockInj + k else x.lockInj })

/-! ## Attestation, calibration, faults, power -/

/-- R389 to R391, R394 to R396, R399: a neighbour's report is requested, times out, comes in chunks, is asked for again, judged or lost; a request from a neighbour
is answered in chunks, or BUSY; named chunks are sent again; a generated tree joins the others. The LENGTH sent with BUSY is the model's open value (log 3).
Readings of the model that it rests on: log 20. -/
def Obligations.AttestationOverRope : Prop :=
  let chunk := fun (n : Port) (r : List Byte) (k : Nat) => (⟨n, 0x65, 0, 0, Config.serial, leBytes 2 k ++ padTo 14 ((r.drop (14 * k)).take 14)⟩ : Sent)
  (∀ (s : State) (w : Word), let n : Port := Fin.ofNat 4 w.toNat
    s.barOpen 0 = true → w.getLsbD 2 = true → s.sec.nbrReq = none →
    Completes (.nbrAttestGo w) s fun t => let x := s.sec.nbrNonce.toList.flatMap fun v => leBytes 4 v.toNat
      if (s.rope.ports[n]).state = .up then OnlyPort s { t with sec := s.sec } n ∧
        t.sec = { s.sec with nbrPort := n, nbr := { state := 1, port := n }, nbrReq := some { port := n, since := s.now, nonce := x } } ∧
        t.rope.sent = s.rope.sent ++ [⟨n, 0x63, 0, 0, Config.serial, x.take 16⟩, ⟨n, 0x64, 0, 0, Config.serial, x.drop 16⟩]
      else t = { s with sec := { s.sec with nbrPort := n, nbr := { state := 6, port := n } } }) ∧
  (∀ (s : State) (q : NbrRequest), s.sec.nbrReq = some q → q.ended = none → s.now ≤ q.since + 10000000 * nsUnits → Calm s →
    Completes .nbrAttestTimeout s fun t => t.now = q.since + 10000000 * nsUnits ∧
      t.sec = { s.sec with nbrReq := none, nbr := { state := 4, port := q.port } } ∧ t.rope = s.rope ∧ t.gens = s.gens) ∧
  (∀ (s : State) (n : Port) (fr : Frame), Arrives s n 0x63 fr →
    Completes (.attNonceLo n fr) s fun t => OnlyPort s t n ∧ t.rope.sent = s.rope.sent ∧
      t.rope.ports[n] = { s.rope.ports[n] with nonceLo := some fr.body, lastRx := s.now, lastBusy := s.now }) ∧
  (∀ (s : State) (n : Port) (fr : Frame) (lo : List Byte), Arrives s n 0x64 fr → (s.rope.ports[n]).nonceLo = some lo → s.sigAvailable = true →
    Completes (.attNonceHi n fr) s fun t => let r := (t.rope.ports[n]).report
      let x := s.reportBody (16 + n.val) (lo ++ fr.body)
      t.sec.next = s.sec.next + 1 ∧ s.sec.next < t.sec.end_ ∧ (t.rope.ports[n]).nonceLo = none ∧ r.take x.length = x ∧
      t.rope.sent = s.rope.sent ++ (List.range 673).map (chunk n r) ++ [⟨n, 0x66, 0, 0, Config.serial, leBytes 4 9420 ++ List.replicate 12 0⟩] ∧
      (∀ m : Port, m ≠ n → t.rope.ports[m] = s.rope.ports[m]) ∧ t.gens = s.gens) ∧
  (∀ (s : State) (n : Port) (fr : Frame) (lo : List Byte), Arrives s n 0x64 fr → (s.rope.ports[n]).nonceLo = some lo → s.sigAvailable = false →
    Completes (.attNonceHi n fr) s fun t => OnlyPort s { t with free := s.free } n ∧ t.free = s.free + 1 ∧ t.sec = s.sec ∧ (t.rope.ports[n]).nonceLo = none ∧
      t.rope.sent.take s.rope.sent.length = s.rope.sent ∧
      (t.rope.sent.drop s.rope.sent.length).map (fun x => (x.port, x.ctype, byteAt x.body 4)) = [(n, 0x66, 0x12)]) ∧
  (∀ (s : State) (n : Port) (fr : Frame), Arrives s n 0x67 fr → (s.rope.ports[n]).report ≠ [] →
    Completes (.attResend n fr) s fun t => let first := fieldAt fr.body 0 2
      OnlyPort s t n ∧ t.rope.sent = s.rope.sent ++
        ((List.range 673).filter fun k => decide (first ≤ k) && decide (k < first + fieldAt fr.body 2 2)).map (chunk n (s.rope.ports[n]).report)) ∧
  (∀ (s : State) (n : Port) (fr : Frame) (q : NbrRequest), let k := fieldAt fr.body 0 2
    Arrives s n 0x65 fr → s.sec.nbrReq = some q → q.port = n → q.ended = none → k < 673 →
    Completes (.attData n fr) s fun t => OnlyPort s { t with sec := s.sec } n ∧ t.rope.sent = s.rope.sent ∧
      t.sec = { s.sec with nbrReq := some { q with chunks := (k, (fr.body.drop 2).take 14) :: q.chunks.filter fun c => c.1 ≠ k } }) ∧
  (∀ (s : State) (n : Port) (fr : Frame) (q : NbrRequest), Arrives s n 0x66 fr → s.sec.nbrReq = some q → q.port = n → byteAt fr.body 4 = 0x12 →
    Completes (.attEnd n fr) s fun t => OnlyPort s { t with sec := s.sec } n ∧ t.rope.sent = s.rope.sent ∧
      t.sec = { s.sec with nbrReq := none, nbr := { state := 5, port := n } }) ∧
  (∀ (s : State) (n : Port) (fr : Frame) (q : NbrRequest) (k : Nat) (ks : List Nat), let last := ks.getLastD k
    Arrives s n 0x66 fr → s.sec.nbrReq = some q → q.port = n → byteAt fr.body 4 ≠ 0x12 →
    ((List.range 673).filter fun j => !(q.chunks.any fun c => c.1 = j)) = k :: ks →
    Completes (.attEnd n fr) s fun t => OnlyPort s { t with sec := s.sec } n ∧
      if q.resends < 3 then
        t.sec = { s.sec with nbrReq := some { q with ended := some s.now, resends := q.resends + 1, asked := last } } ∧
        t.rope.sent = s.rope.sent ++ [⟨n, 0x67, 0, 0, Config.serial, leBytes 2 k ++ leBytes 2 (last + 1 - k) ++ List.replicate 12 0⟩]
      else t.sec = { s.sec with nbrReq := none, nbr := { state := 3, lost := true, port := n } } ∧ t.rope.sent = s.rope.sent) ∧
  (∀ (s : State) (n : Port) (fr : Frame) (q : NbrRequest), Arrives s n 0x66 fr → s.sec.nbrReq = some q → q.port = n → byteAt fr.body 4 ≠ 0x12 →
    ((List.range 673).filter fun j => !(q.chunks.any fun c => c.1 = j)) = [] →
    Completes (.attEnd n fr) s fun t => OnlyPort s { t with sec := s.sec } n ∧ t.rope.sent = s.rope.sent ∧ t.sec = { s.sec with nbrReq := none, nbr := t.sec.nbr } ∧
      let r := ((List.range 673).flatMap fun j => ((q.chunks.find? fun c => c.1 = j).map (·.2)).getD []).take 9420
      let x := t.sec.nbr
      x.port = n ∧ x.lost = false ∧ x.state = (if x.cert || x.sig || x.nonce || x.serial then 3 else 2) ∧
      x.nonce = decide ((r.drop 0x30).take 32 ≠ q.nonce) ∧
      x.serial = ((s.rope.ports[n]).partner.all fun p => decide (p.serial ≠ u64At r 0x10)) ∧ x.rollback = byteAt r 0x2A ∧ x.fw = u32At r 0x24) ∧
  (∀ (s : State) (k : Nat), s.sec.treeGen = some k →
    Completes .treeGenerated s fun t => let tr := k :: s.sec.trees
      let cur := s.sec.next / 2 ^ 20
      (s.sec.treeHeld k = true → t.sec.treeLog = s.sec.treeLog ∧ t.sec.wrote = s.sec.wrote) ∧
      (s.sec.treeHeld k = false → s.sec.treeLog.sectors.length = 2 → s.sec.treeLog.at_ < 2 →
        t.sec.treeLog.at_ = 1 - s.sec.treeLog.at_ ∧ t.sec.treeLog.latest = treeRecord k) ∧
      t = { s with sec := { s.sec with trees := tr, treeLog := t.sec.treeLog, wrote := t.sec.wrote,
                                       treeGen := (if cur ∉ tr then some cur
                                         else if 2 ^ 20 * (cur + 1) - s.sec.next ≤ 65536 ∧ cur + 1 ∉ tr then some (cur + 1) else none) } })

/-- R323, R325, R327, R329, R332 to R337, R375, R376: readings and trips are taken, THERM_WARN sets and clears; background runs start on time; a commanded
run is accepted and staged, or rejected; targets are recomputed and staged; a due set grows stale; CAL_TIN edges are counted and lost.
Readings of the model that it rests on: log 33 and 35. -/
def Obligations.CalibrationFollowsItsRuns : Prop :=
  let reading := fun (s : State) (c : Cluster) (temp : Int) => s.pwr.temps.set c temp
  (∀ (s : State) (c : Cluster) (temp : Int), s.pwr.porst = false → s.pwr.thermWarn = false → (∀ d : Cluster, (reading s c temp)[d] < 1728) →
    Completes (.thermalRead c temp) s fun t => t = { s with pwr := { s.pwr with temps := reading s c temp, seen := setBit s.pwr.seen c.val } }) ∧
  (∀ (s : State) (c : Cluster) (temp : Int), s.pwr.porst = false → s.pwr.thermWarn = false → 1728 ≤ temp → (∀ d : Cluster, d ≠ c → s.pwr.temps[d] < temp) →
    Calm s →
    Completes (.thermalRead c temp) s fun t => t.pwr.thermWarn = true ∧ t.pwr.warnCnt = satInc s.pwr.warnCnt ∧ t.pwr.temps = reading s c temp ∧
      newest t = some (43, bitMask 12 c.val, BitVec.ofNat 32 ((BitVec.ofInt 16 temp).toNat + c.val * 65536)) ∧ t.gens = s.gens) ∧
  (∀ (s : State) (c : Cluster) (temp : Int) (d : Cluster), s.pwr.porst = false → s.pwr.thermWarn = true → 1664 < (reading s c temp)[d] →
    Completes (.thermalRead c temp) s fun t => t = { s with pwr := { s.pwr with temps := reading s c temp, seen := setBit s.pwr.seen c.val } }) ∧
  (∀ (s : State) (c : Cluster) (temp : Int), s.pwr.porst = false → s.pwr.thermWarn = true → (∀ d : Cluster, (reading s c temp)[d] ≤ 1664) →
    setBit s.pwr.seen c.val = 0xFFF → (∀ k : Cluster, (s.seqs[k]).start = none) →
    Completes (.thermalRead c temp) s fun t => t.pwr.thermWarn = false ∧ t.pwr.temps = reading s c temp ∧ t.flt = s.flt ∧ t.sites = s.sites ∧ t.gens = s.gens) ∧
  (∀ (s : State) (c : Cluster) (run : Option Routine), s.pwr.porst = false → s.pwr.tripped.getLsbD c.val = false → Calm s →
    Completes (.thermTrip c run) s fun t => t.pwr.tripped = s.pwr.tripped ||| bitMask 12 c.val ∧ t.gens = s.gens ∧
      newest t = some (1, bitMask 12 c.val, BitVec.ofNat 32 ((BitVec.ofInt 16 s.pwr.temps[c]).toNat + c.val * 65536))) ∧
  (∀ (s : State) (c : Cluster), Completes (.thermTripClear c) s fun t =>
    t = { s with pwr := { s.pwr with tripped := s.pwr.tripped &&& ~~~(bitMask 12 c.val) } }) ∧
  (∀ (s : State) (c : Cluster) (u : Nat), s.isReady = true → s.power c < 3 → (s.cal.cl[c]).what = 0 → (s.cal.cl[c]).background.getLsbD 0 = false →
    (s.cal.cl[c]).ranAt[0] = some u → s.now ≤ u + 1000000000 * nsUnits → 1024 < s.sched.free → Calm s →
    Completes (.calBackgroundRun c .dac) s fun t => t.now = u + 1000000000 * nsUnits ∧ (t.cal.cl[c]).ranAt[0] = some t.now ∧
      (t.cal.cl[c]).background.getLsbD 0 = true ∧ (∀ d : Cluster, d ≠ c → t.cal.cl[d] = s.cal.cl[d]) ∧ t.cl = s.cl ∧ t.gens = s.gens ∧
      t.sched.queue = s.sched.queue ∧ t.sched.due.map (fun i => (i.flow, i.source, i.queuedAt)) = [(4080 + c.val, 3, t.now)] ∧
      ∀ i ∈ t.sched.due, i.type = .calStep) ∧
  (∀ (s : State) (c : Cluster), s.mayRun c .tdc = true → (∀ i : Lane, (((s.cl[c]).tdc[i]).ranAt)[0] = none) → 1024 + s.sched.due.length + 8 ≤ s.sched.free →
    Completes (.calBackgroundRun c .tdc) s fun t => t.now = s.now ∧
      t.sched.due.length = s.sched.due.length + ((List.finRange 8).filter fun i => s.unarmed c i && !((s.cl[c]).tdc[i]).running).length ∧
      (∀ i : Lane, t.cl[c].tdc[i] = if s.unarmed c i && !((s.cl[c]).tdc[i]).running then
          { (s.cl[c]).tdc[i] with running := true, cmd := false, onMux := false, ranAt := ((s.cl[c]).tdc[i]).ranAt.set 0 (some s.now) }
        else (s.cl[c]).tdc[i]) ∧ (t.cal.cl[c]).background = (s.cal.cl[c]).background ∧
      ∀ d : Cluster, d ≠ c → t.cl[d] = s.cl[d]) ∧
  (∀ (s : State) (c : Cluster) (k : CalKind) (r : CalResult), k ≠ .tdc → k ≠ .dac → s.calOn c = true → (s.cal.cl[c]).next k = true → s.calChecks c k true r = 0 →
    (Readings.coeffs r.values).limits k = 0 →
    Completes (.calRunComplete c k true r) s fun t => let x := t.cal.cl[c]
      x.what = (s.cal.cl[c]).what &&& ~~~(bitMask 4 (kindNum k)) ∧
        getN x.kinds (kindNum k) none = some ⟨s.pwr.temps[c], Readings.coeffs r.values, Readings.coeffs r.drift, (s.cal.cl[c]).count + 1⟩ ∧
      x.follow.getLsbD (kindNum k) = true ∧ t.cal.staged[c] = some x.target ∧ x.target = t.calTarget c ∧ t.cal.reject = s.cal.reject ∧
      (∀ d : Cluster, d ≠ c → t.cal.cl[d] = s.cal.cl[d] ∧ t.cal.staged[d] = s.cal.staged[d]) ∧ t.flt = s.flt ∧ t.gens = s.gens) ∧
  (∀ (s : State) (c : Cluster) (k : CalKind) (r : CalResult), let cause := s.calChecks c k true r ||| (Readings.coeffs r.values).limits k
    k ≠ .tdc → k ≠ .dac → s.calOn c = true → (s.cal.cl[c]).next k = true → cause ≠ 0 → Calm s →
    Completes (.calRunComplete c k true r) s fun t => t.cal.reject = true ∧ t.cal.rejCause = s.cal.rejCause ||| cause ∧ t.cal.rejCl.toNat = c.val ∧
      (t.cal.cl[c]).what = (s.cal.cl[c]).what &&& ~~~(bitMask 4 (kindNum k)) ∧ (t.cal.cl[c]).kinds = (s.cal.cl[c]).kinds ∧ t.cal.staged = s.cal.staged ∧
      newest t = some (42, bitMask 12 c.val, t.cal.rejCause.setWidth 32) ∧ t.gens = s.gens) ∧
  (∀ (s : State) (c : Cluster), s.isReady = true → s.power c < 3 →
    Completes (.calTargetRecompute c) s fun t => t = { s with cal := t.cal } ∧ (t.cal.cl[c]).target = t.calTarget c ∧
      t.cal.staged[c] = (if (t.calTarget c).departs (s.cl[c]).coeffs then some (t.calTarget c) else s.cal.staged[c]) ∧
      (∀ i : Fin 4, (t.cal.cl[c]).follow.getLsbD i.val = ((s.cal.cl[c]).follow.getLsbD i.val &&
        ((s.cal.cl[c]).kinds[i].any fun d => decide (s.pwr.temps[c] - d.temp ≤ 80) && decide (d.temp - s.pwr.temps[c] ≤ 80)))) ∧
      ∀ d : Cluster, d ≠ c → t.cal.cl[d] = s.cal.cl[d] ∧ t.cal.staged[d] = s.cal.staged[d]) ∧
  (∀ (s : State) (c : Cluster) (x : Coeffs), s.cal.staged[c] = some x → s.siteState s.siteOf[c] = .running → (s.cal.cl[c]).stale = false →
    s.cal.due[c] ≤ 1000000000 * nsUnits → s.now ≤ s.cal.dueFrom[c] + (1000000000 * nsUnits - s.cal.due[c]) →
    Calm s →
    Completes (.calStale c) s fun t => t.now + s.cal.due[c] = s.cal.dueFrom[c] + 1000000000 * nsUnits ∧ (t.cal.cl[c]).stale = true ∧ t.cal.staged = s.cal.staged ∧
      (∀ d : Cluster, d ≠ c → t.cal.cl[d] = s.cal.cl[d]) ∧ t.gens = s.gens) ∧
  (∀ (s : State) (gap : Nat), s.isReady = true → s.cal.tinSeen ≠ 0 → s.now ≤ s.cal.tinAt + gap → Calm s →
    Completes (.calTinEdge gap) s fun t => t.now = s.cal.tinAt + gap ∧ t.cal.tinAt = t.now ∧
      (if 999 * nsUnits ≤ gap ∧ gap ≤ 1001 * nsUnits then t.cal.tinSeen = s.cal.tinSeen + 1 ∧ t.cal.tin = (s.cal.tin || decide (9 ≤ s.cal.tinSeen))
       else t.cal.tinSeen = 1 ∧ t.cal.tin = (s.cal.tin && decide (gap < 2000 * nsUnits))) ∧ t.gens = s.gens ∧ t.pwr = s.pwr) ∧
  (∀ s : State, s.cal.tinSeen ≠ 0 → s.now ≤ s.cal.tinAt + 2000 * nsUnits → Calm s →
    Completes .calTinLoss s fun t => t.now = s.cal.tinAt + 2000 * nsUnits ∧ t.cal = { s.cal with tin := false, tinSeen := 0 } ∧ t.gens = s.gens)

/-- R202, R343 to R347, R349, R353, R356, R358, R440: an event makes or joins the first-error record and enters the history, and its reaction is issued
with the end of the collector's cycle; supplies leave their range and return; the other sources report; the persistent log is written; ALIVE toggles but
under a DEVICE-class fault.
Readings of the model that it rests on: log 2 and 29. -/
def Obligations.FaultsAreCollected : Prop :=
  let cls := fun (e : FaultEvent) => if e.source ≤ 4 then FaultClass.device else if e.source ≤ 10 then .cluster
    else if e.source ≤ 22 then (if e.source = 22 ∧ e.mask = 0 then .advisory else .site) else .advisory
  let listed := fun (n : Nat) => n ≤ 4 ∨ (8 ≤ n ∧ n ≤ 10) ∨ (16 ≤ n ∧ n ≤ 22) ∨ (32 ≤ n ∧ n ≤ 44)
  (∀ (s : State) (e : FaultEvent), s.pwr.porst = false → listed e.source → s.flt.first = none → Calm s →
    Completes (.faultReport [e] none) s fun t =>
      (t.flt.first.map fun r => (r.stamp, r.source)) = some (s.net, e.source) ∧
      (t.flt.first.map fun r => (r.clusters, r.detail)) = some (e.mask, e.detail) ∧ (t.flt.first.map fun r => (r.cls, r.injected)) = some (cls e, false) ∧
      (t.flt.first.map fun r => (r.merged, r.cause)) = some (0, BitVec.ofNat 64 (2 ^ e.source)) ∧
      newest t = some (e.source, e.mask, e.detail) ∧ t.flt.count = s.flt.count + 1 ∧ t.flt.history.drop 1 = s.flt.history.take 31 ∧ t.gens = s.gens) ∧
  (∀ (s : State) (e : FaultEvent) (r : FaultRec), s.pwr.porst = false → listed e.source → s.flt.first = some r → Calm s →
    Completes (.faultReport [e] none) s fun t =>
      (t.flt.first.map fun x => (x.stamp, x.source)) = some (r.stamp, r.source) ∧
      (t.flt.first.map fun x => (x.clusters, x.detail)) = some (r.clusters ||| e.mask, r.detail) ∧
      (t.flt.first.map fun x => (x.merged, x.cause, x.lastStamp)) = some (satInc r.merged, r.cause ||| BitVec.ofNat 64 (2 ^ e.source), s.net) ∧
      (t.flt.first.map fun x => x.cls) = some (if r.cls.code < (cls e).code then cls e else r.cls) ∧
      newest t = some (e.source, e.mask, e.detail) ∧ (t.flt.history.head?.map fun h => (h.first, h.merged)) = some (false, true)) ∧
  (∀ (s : State) (e : FaultEvent) (k : Cluster), s.pwr.porst = false → listed e.source → s.flt.reaction e.source ≠ .log → k ∈ s.sitesOf e.mask →
    Completes (.faultReport [e] none) s fun t => (t.sites[k]).taint = true) ∧
  (∀ (s : State) (e : FaultEvent), s.pwr.phase = .ready → s.pwr.porst = false → e.source ≤ 4 → s.flt.first = none →
    s.flt.reaction e.source = .haltDevice → Calm s →
    Completes (.faultReport [e] none) s fun t => let u := t.idle
      (∀ k ∈ s.siteIdxs, (t.sites[k]).taint = true ∧ (u.sites[k]).taint = true ∧ (u.seqs[k]).start = none) ∧
      u.now = s.now + nsUnits ∧ u.flt.device = true ∧ u.flt.halted = 0xFFF ∧ u.flt.parked = 0xFFF ∧
      ∀ c : Cluster, (u.cl[c]).tim.pins = Vector.replicate 8 .disabled) ∧
  (∀ (s : State) (e : FaultEvent) (k c : Cluster), s.pwr.phase = .ready → s.pwr.porst = false → listed e.source → s.flt.first = none →
    s.flt.reaction e.source = .haltCluster → k ∈ s.sitesOf e.mask → Calm s →
    Completes (.faultReport [e] none) s fun t => let u := t.idle
      u.flt.halted = s.flt.halted ||| e.mask ∧ u.flt.parked = s.flt.parked ∧ u.flt.device = s.flt.device ∧ (u.seqs[k]).start = none ∧
      (c ∈ s.siteIdxs → c ∉ s.sitesOf e.mask → u.seqs[c] = t.seqs[c]) ∧ u.gens = s.gens) ∧
  (∀ (s : State) (es : List FaultEvent), (∀ e ∈ es, ¬ listed e.source) → Completes (.faultReport es none) s fun t => t = s) ∧
  (∀ (s : State) (rail : Byte) (mv : BitVec 16) (run : Option Routine), s.pwr.porst = false → Calm s →
    Completes (.supplyOutOfRange rail mv run) s fun t => t.pwr.supplyOut = (rail, mv) :: s.pwr.supplyOut.filter (fun p => p.1 ≠ rail) ∧ t.gens = s.gens ∧
      if s.pwr.supplyOut.any (fun p => p.1 = rail) then t = { s with pwr := t.pwr }
      else newest t = some (3, 0, BitVec.ofNat 32 (rail.toNat + mv.toNat * 65536))) ∧
  (∀ (s : State) (rail : Byte), Completes (.supplyInRange rail) s fun t =>
    t = { s with pwr := { s.pwr with supplyOut := s.pwr.supplyOut.filter fun p => p.1 ≠ rail } }) ∧
  (∀ (s : State) (p : Pll) (run : Option Routine), s.pwr.phase = .ready → s.pwr.porst = false → s.pwr.perst = false → Calm s →
    (p = .hbm → s.pwr.hbm = 1) → (p = .rope → s.clockRuns .rope = true) → (p = .pcie → s.pwr.link ≠ .l12) →
    Completes (.pllUnlock p run) s fun t => t.gens = s.gens ∧
      newest t = some (2, 0, match p with
        | .hbm => 2
        | .rope => 3
        | .pcie => 4)) ∧
  (∀ (s : State) (f : Func) (st : BitVec 16), s.pwr.porst = false → s.pwr.perst = false → Calm s →
    Completes (.pcieErr f st) s fun t => newest t = some (44, 0, BitVec.ofNat 32 (f.val + st.toNat * 65536)) ∧ t.gens = s.gens ∧
      t.host = { s.host with fn := t.host.fn } ∧
      ∀ g : Func, t.host.fn[g] = if g = f then { s.host.fn[f] with aer := (s.host.fn[f]).aer ||| st } else s.host.fn[g]) ∧
  (∀ (s : State) (c : Cluster) (kind : Fin 4) (run : Option Routine), s.isReady = true → Calm s →
    Completes (.cfgParity c kind run) s fun t => newest t = some (9, bitMask 12 c.val, BitVec.ofNat 32 kind.val) ∧ t.gens = s.gens) ∧
  (∀ (s : State) (r : PlogRec) (rest : List PlogRec), s.flt.plogPend = r :: rest → s.flt.taking = none →
    Completes .plogWrite s fun t => let x := { r with pseq := s.flt.pseq + 1 }
      let full := decide (1024 ≤ s.flt.active.length)
      t = { s with flt := { s.flt with plogPend := rest, pseq := s.flt.pseq + 1, active := (if full then [x] else x :: s.flt.active),
                                       sector := (if full then 1 - s.flt.sector else s.flt.sector), other := (if full then s.flt.active else s.flt.other) } }) ∧
  (∀ s : State, s.isReady = true → Calm s →
    Completes .aliveToggle s fun t => t.now = (s.now / (500000 * nsUnits) + 1) * (500000 * nsUnits) ∧
      (let fault := s.flt.first.any fun r => decide (r.cls = .device)
       t.pwr = { s.pwr with alive := (if fault then s.pwr.alive else !s.pwr.alive), aliveRun := !fault }) ∧ t.flt = s.flt ∧ t.gens = s.gens)

/-- R348: a DEVICE-class fault is present while the first-error record is VALID with CLASS 3, and DEV_FAULT (bit 1) of DEV_STATE reflects it. -/
def Obligations.DevFaultReflectsTheRecord : Prop :=
  ∀ s : State, s.devState.getLsbD 1 = true ↔ ∃ r : FaultRec, s.flt.first = some r ∧ r.cls.code = 3

/-- R18, R67, R107, R327, R334, R364 to R367, R406, R408: a cluster enters its chosen state 10 µs on, its pins and rails with it, and leaves for a limit
or a start, after an entry in progress; pins become absent and chips join; the target port takes its address. That targets come into force on leaving
BIVOUAC is the model's reading (log 33).
Readings of the model that it rests on: log 33. -/
def Obligations.PowerStatesMove : Prop :=
  (∀ (s : State) (c : Cluster), let p := s.pwr.cl[c]
    s.isReady = true → p.fed = false → p.chosen = s.choose c → p.state < p.chosen → p.entering = false → p.exiting = false → s.quietSite s.siteOf[c] = true →
    s.now ≤ p.since + 10000 * nsUnits → Calm s →
    Completes (.powerStateEntry c) s fun t => t.now = p.since + 10000 * nsUnits ∧
      t.pwr.cl[c] = { p with entering := true, state := p.chosen, goal := p.chosen, doneAt := t.now + 5000 * nsUnits,
                             bare := (t.pwr.cl[c]).bare, fed := (t.pwr.cl[c]).fed } ∧
      (p.chosen = 4 → (t.cl[c]).tim.pins = Vector.replicate 8 .disabled ∧ ∀ i : Lane, ((t.cl[c]).lvl.rails[i]).live = false) ∧
      (p.chosen ≠ 4 → (t.cl[c]).tim = (s.cl[c]).tim ∧ (t.cl[c]).lvl = (s.cl[c]).lvl) ∧
      (t.cal.cl[c]).background = (if p.chosen < 3 then (s.cal.cl[c]).background else 0) ∧ (∀ d : Cluster, d ≠ c → t.cl[d] = s.cl[d]) ∧ t.gens = s.gens) ∧
  (∀ (s : State) (c : Cluster), let p := s.pwr.cl[c]
    p.entering = true → s.now ≤ p.doneAt → Calm s →
    Completes (.powerEntryDone c) s fun t => t.now = p.doneAt ∧ t.pwr.cl[c] = { p with entering := false } ∧
      (∀ d : Cluster, d ≠ c → t.pwr.cl[d] = s.pwr.cl[d]) ∧ t.gens = s.gens ∧ t.cl = s.cl) ∧
  (∀ (s : State) (c : Cluster), let p := s.pwr.cl[c]
    s.isReady = true → p.fed = false → p.chosen = s.choose c → p.entering = true → p.exiting = false → 2 ≤ p.state → p.state ≤ 4 → s.allowed c < p.state →
    s.now ≤ p.doneAt → Calm s →
    Completes (.powerStateExit c) s fun t => t.now = p.doneAt ∧ t.cl = s.cl ∧ t.gens = s.gens ∧
      t.pwr.cl[c] = { p with entering := false, exiting := true, goal := p.chosen, bare := (t.pwr.cl[c]).bare, fed := (t.pwr.cl[c]).fed,
                             doneAt := p.doneAt + (if p.state = 2 then 1000 else if p.state = 3 then 25000 else 350000) * nsUnits }) ∧
  (∀ (s : State) (c : Cluster), let p := s.pwr.cl[c]
    s.isReady = true → p.fed = false → p.chosen = s.choose c → p.entering = false → p.exiting = false → 2 ≤ p.state → p.state ≤ 4 → s.allowed c < p.state →
    Completes (.powerStateExit c) s fun t => t.now = s.now ∧ t.cl = s.cl ∧ t.gens = s.gens ∧
      t.pwr.cl[c] = { p with exiting := true, goal := p.chosen, bare := (t.pwr.cl[c]).bare, fed := (t.pwr.cl[c]).fed,
                             doneAt := s.now + (if p.state = 2 then 1000 else if p.state = 3 then 25000 else 350000) * nsUnits }) ∧
  (∀ (s : State) (c : Cluster) (st : Start) (at_ : Int), let p := s.pwr.cl[c]
    let lat : Nat := if p.state = 2 then 1000 else if p.state = 3 then 25000 else 350000
    s.isReady = true → p.fed = false → p.chosen = s.choose c → p.entering = false → p.exiting = false → 2 ≤ p.state → p.state ≤ 4 → p.state ≤ s.allowed c →
    (s.seqs[s.siteOf[c]]).start = some st → st.sched = some at_ → (at_ - 600 * nsUnits) % 81920 = 0 → s.net ≤ at_ - 600 * nsUnits - lat * nsUnits →
    Calm s →
    Completes (.powerStateExit c) s fun t => t.net = at_ - 600 * nsUnits - lat * nsUnits ∧ t.cl = s.cl ∧ t.gens = s.gens ∧
      t.pwr.cl[c] = { p with exiting := true, goal := 1, doneAt := t.now + lat * nsUnits, bare := (t.pwr.cl[c]).bare, fed := (t.pwr.cl[c]).fed }) ∧
  (∀ (s : State) (c : Cluster), let p := s.pwr.cl[c]
    p.exiting = true → s.now ≤ p.doneAt → p.state < 3 → (s.cal.cl[c]).what = 0 → (s.seqs[s.siteOf[c]]).start = none → Calm s →
    Completes (.powerExitDone c) s fun t => t.now = p.doneAt ∧ t.cl = s.cl ∧ t.cal = s.cal ∧ t.gens = s.gens ∧
      (t.pwr.cl[c]).exiting = false ∧ (t.pwr.cl[c]).state = p.goal ∧ (t.pwr.cl[c]).chosen = t.choose c ∧
      (p.fed = false → (t.pwr.cl[c]).since = if p.chosen = t.choose c then p.since else t.now)) ∧
  (∀ (s : State) (c : Cluster), let p := s.pwr.cl[c]
    p.exiting = true → s.now ≤ p.doneAt → p.state = 4 → (s.cal.cl[c]).what = 0 → (s.seqs[s.siteOf[c]]).start = none → Calm s →
    Completes (.powerExitDone c) s fun t => t.now = p.doneAt ∧ (t.pwr.cl[c]).state = p.goal ∧ (t.pwr.cl[c]).exiting = false ∧
      (t.cal.cl[c]).applied = satInc (s.cal.cl[c]).applied ∧ t.cal.staged[c] = none ∧ (t.cl[c]).coeffs = (t.cal.cl[c]).target ∧
      (∀ d : Cluster, d ≠ c → t.cl[d] = s.cl[d]) ∧ t.gens = s.gens) ∧
  (∀ (s : State) (p : Pin) (ok : Bool) (run : Option Routine), s.isReady = true → s.ids.assigned.getLsbD p.val = true → s.ids.i3c.busy = false →
    (ok = true ∨ s.ids.misses[p] < 2) → (∀ u, s.ids.polled[p] = some u → s.now ≤ u + 990 * 1000 * nsUnits) → Calm s →
    Completes (.companionPoll p ok run) s fun t => t.gens = s.gens ∧ t.present = s.present ∧ t.flt = s.flt ∧ t.ids.polled[p] = some t.now ∧
      (s.ids.polled[p] = none → t.now = s.now) ∧
      (∀ u, s.ids.polled[p] = some u → u + 990 * 1000 * nsUnits ≤ t.now ∧ t.now ≤ u + 1010 * 1000 * nsUnits) ∧
      t.ids = { s.ids with misses := t.ids.misses, polled := t.ids.polled } ∧ (∀ q : Pin, q ≠ p → t.ids.polled[q] = s.ids.polled[q]) ∧
      ∀ q : Pin, t.ids.misses[q] = if q = p then (if ok then 0 else s.ids.misses[p] + 1) else s.ids.misses[q]) ∧
  (∀ (s : State) (p : Pin) (run : Option Routine), s.isReady = true → s.ids.assigned.getLsbD p.val = true → s.ids.misses[p] = 2 →
    s.ids.i3c.busy = false → Calm s →
    Completes (.companionPoll p false run) s fun t => t.present = s.present &&& ~~~(bitMask 96 p.val) ∧ t.ids.assigned.getLsbD p.val = false ∧
      t.lostPins.getLsbD p.val = true ∧ ((t.cl[pinCluster p]).tim.pins[pinLane p]) = .disabled ∧ t.gens = s.gens ∧
      newest t = some (10, bitMask 12 (p.val / 8), BitVec.ofNat 32 p.val)) ∧
  (∀ (s : State) (p : Pin) (ok : Bool) (run : Option Routine), s.ids.i3c.busy = true → s.ids.i3c.pin.toNat / 48 = p.val / 48 →
    Completes (.companionPoll p ok run) s (· = s)) ∧
  (∀ (s : State) (p : Pin) (bus : Fin 2), s.isReady = true → p.val / 48 = bus.val → s.ids.assigned.getLsbD p.val = false →
    Completes (.hotJoin bus p true (BitVec.ofNat 12 p.val) 1) s fun t => t.present = s.present ∧ t.rejoin.getLsbD p.val = true ∧
      t.ids.assigned.getLsbD p.val = true ∧
      t.lostPins.getLsbD p.val = false ∧ t.ids.misses[p] = 0 ∧ t.cl = s.cl ∧ t.flt = s.flt ∧ t.gens = s.gens) ∧
  (∀ (s : State) (p : Pin) (bus : Fin 2) (q : Bool) (id : BitVec 12) (contract : Byte),
    (q = false ∨ p.val / 48 ≠ bus.val ∨ s.ids.assigned.getLsbD p.val = true ∨ id.toNat ≠ p.val ∨ contract ≠ 1) →
    Completes (.hotJoin bus p q id contract) s fun t => t = s) ∧
  (∀ (s : State) (a : BitVec 7), s.pwr.porst = false →
    Completes (.targetDynamicAddressAssign a) s fun t => t = { s with ids := { s.ids with dynAddr := some a } })

/-! ## The invariant -/

/-- Every cluster belongs to a site whose index cluster is in that site (R12), and every configuration slot, and the pending one an arm point in the
cycle of a commit still sees (R243), carries a number from 1 to 0xFFFF (R278). -/
def Obligations.ResetKeepsTheInvariant : Prop :=
  (∀ c : Cluster, State.reset.siteOf[State.reset.siteOf[c]] = State.reset.siteOf[c]) ∧ (∀ c : Cluster, GenSlots.numbered State.reset.gens[c]) ∧
  ∀ c : Cluster, Recent.numbered State.reset.recent[c]

/-- Every step, whatever command is in front, keeps these: sites stay sites with their index cluster inside, and no configuration slot comes to carry
number 0. -/
def Obligations.EveryStepKeepsTheInvariant : Prop :=
  ∀ s t : State, (∀ c : Cluster, s.siteOf[s.siteOf[c]] = s.siteOf[c]) → (∀ c : Cluster, GenSlots.numbered s.gens[c]) →
    (∀ c : Cluster, Recent.numbered s.recent[c]) → step s = .next t →
    (∀ c : Cluster, t.siteOf[t.siteOf[c]] = t.siteOf[c]) ∧ (∀ c : Cluster, GenSlots.numbered t.gens[c]) ∧ ∀ c : Cluster, Recent.numbered t.recent[c]

end
end

