-- ==== Sys2Proof/Laws/State.lean ====
section
/-! SUPPORT. One lemma per field per update of the state, and the laws of updating one element of a vector. -/
namespace Sys2Proof.Machine

variable (s : State)

theorem upd_get {α : Type} {n : Nat} (v : Vector α n) (i j : Fin n) (f : α → α) : (upd v i f)[j] = if i = j then f v[i] else v[j] := by
  simp only [upd, Fin.getElem_fin, Vector.getElem_set, Fin.ext_iff]

/-- The same, as the simplifier spells an element: by its number. -/
@[simp] theorem upd_getElem {α : Type} {n : Nat} (v : Vector α n) (i : Fin n) (j : Nat) (h : j < n) (f : α → α) :
    (upd v i f)[j] = if i.val = j then f v[i.val] else v[j] := by
  simp only [upd, Vector.getElem_set, Fin.getElem_fin]

theorem upd_get_same {α : Type} {n : Nat} (v : Vector α n) (i : Fin n) (f : α → α) : (upd v i f)[i] = f v[i] := by
  rw [upd_get, if_pos rfl]

theorem upd_get_other {α : Type} {n : Nat} (v : Vector α n) (i j : Fin n) (f : α → α) (h : i ≠ j) : (upd v i f)[j] = v[j] := by
  rw [upd_get, if_neg h]

theorem updN_get {α : Type} {n : Nat} (v : Vector α n) (i : Nat) (j : Fin n) (f : α → α) :
    (updN v i f)[j] = if i = j.val then f v[j] else v[j] := by
  unfold updN
  split
  · rename_i h
    simp only [Fin.getElem_fin, Vector.getElem_set]
    split
    · rename_i e; subst e; rfl
    · rfl
  · rename_i h
    have : i ≠ j.val := by omega
    simp [this]


/-! ## `State.updSite` -/

@[simp] theorem State.updSite_pending (k : Cluster) (f : SiteRec → SiteRec) : (s.updSite k f).pending = s.pending := rfl
@[simp] theorem State.updSite_now (k : Cluster) (f : SiteRec → SiteRec) : (s.updSite k f).now = s.now := rfl
@[simp] theorem State.updSite_netOff (k : Cluster) (f : SiteRec → SiteRec) : (s.updSite k f).netOff = s.netOff := rfl
@[simp] theorem State.updSite_free (k : Cluster) (f : SiteRec → SiteRec) : (s.updSite k f).free = s.free := rfl
@[simp] theorem State.updSite_sites (k : Cluster) (f : SiteRec → SiteRec) : (s.updSite k f).sites = upd s.sites k f := rfl
@[simp] theorem State.updSite_reqWait (k : Cluster) (f : SiteRec → SiteRec) : (s.updSite k f).reqWait = s.reqWait := rfl
@[simp] theorem State.updSite_gens (k : Cluster) (f : SiteRec → SiteRec) : (s.updSite k f).gens = s.gens := rfl
@[simp] theorem State.updSite_seqs (k : Cluster) (f : SiteRec → SiteRec) : (s.updSite k f).seqs = s.seqs := rfl
@[simp] theorem State.updSite_recent (k : Cluster) (f : SiteRec → SiteRec) : (s.updSite k f).recent = s.recent := rfl
@[simp] theorem State.updSite_cl (k : Cluster) (f : SiteRec → SiteRec) : (s.updSite k f).cl = s.cl := rfl
@[simp] theorem State.updSite_pairs (k : Cluster) (f : SiteRec → SiteRec) : (s.updSite k f).pairs = s.pairs := rfl
@[simp] theorem State.updSite_siteOf (k : Cluster) (f : SiteRec → SiteRec) : (s.updSite k f).siteOf = s.siteOf := rfl
@[simp] theorem State.updSite_gangs (k : Cluster) (f : SiteRec → SiteRec) : (s.updSite k f).gangs = s.gangs := rfl
@[simp] theorem State.updSite_mem (k : Cluster) (f : SiteRec → SiteRec) : (s.updSite k f).mem = s.mem := rfl
@[simp] theorem State.updSite_sched (k : Cluster) (f : SiteRec → SiteRec) : (s.updSite k f).sched = s.sched := rfl
@[simp] theorem State.updSite_rope (k : Cluster) (f : SiteRec → SiteRec) : (s.updSite k f).rope = s.rope := rfl
@[simp] theorem State.updSite_time (k : Cluster) (f : SiteRec → SiteRec) : (s.updSite k f).time = s.time := rfl
@[simp] theorem State.updSite_cal (k : Cluster) (f : SiteRec → SiteRec) : (s.updSite k f).cal = s.cal := rfl
@[simp] theorem State.updSite_pwr (k : Cluster) (f : SiteRec → SiteRec) : (s.updSite k f).pwr = s.pwr := rfl
@[simp] theorem State.updSite_flt (k : Cluster) (f : SiteRec → SiteRec) : (s.updSite k f).flt = s.flt := rfl
@[simp] theorem State.updSite_host (k : Cluster) (f : SiteRec → SiteRec) : (s.updSite k f).host = s.host := rfl
@[simp] theorem State.updSite_cmd (k : Cluster) (f : SiteRec → SiteRec) : (s.updSite k f).cmd = s.cmd := rfl
@[simp] theorem State.updSite_sec (k : Cluster) (f : SiteRec → SiteRec) : (s.updSite k f).sec = s.sec := rfl
@[simp] theorem State.updSite_ids (k : Cluster) (f : SiteRec → SiteRec) : (s.updSite k f).ids = s.ids := rfl
@[simp] theorem State.updSite_present (k : Cluster) (f : SiteRec → SiteRec) : (s.updSite k f).present = s.present := rfl
@[simp] theorem State.updSite_rejoin (k : Cluster) (f : SiteRec → SiteRec) : (s.updSite k f).rejoin = s.rejoin := rfl
@[simp] theorem State.updSite_lostPins (k : Cluster) (f : SiteRec → SiteRec) : (s.updSite k f).lostPins = s.lostPins := rfl

/-! ## `State.updSeq` -/

@[simp] theorem State.updSeq_pending (k : Cluster) (f : Seqr → Seqr) : (s.updSeq k f).pending = s.pending := rfl
@[simp] theorem State.updSeq_now (k : Cluster) (f : Seqr → Seqr) : (s.updSeq k f).now = s.now := rfl
@[simp] theorem State.updSeq_netOff (k : Cluster) (f : Seqr → Seqr) : (s.updSeq k f).netOff = s.netOff := rfl
@[simp] theorem State.updSeq_free (k : Cluster) (f : Seqr → Seqr) : (s.updSeq k f).free = s.free := rfl
@[simp] theorem State.updSeq_sites (k : Cluster) (f : Seqr → Seqr) : (s.updSeq k f).sites = s.sites := rfl
@[simp] theorem State.updSeq_reqWait (k : Cluster) (f : Seqr → Seqr) : (s.updSeq k f).reqWait = s.reqWait := rfl
@[simp] theorem State.updSeq_gens (k : Cluster) (f : Seqr → Seqr) : (s.updSeq k f).gens = s.gens := rfl
@[simp] theorem State.updSeq_seqs (k : Cluster) (f : Seqr → Seqr) : (s.updSeq k f).seqs = upd s.seqs k f := rfl
@[simp] theorem State.updSeq_recent (k : Cluster) (f : Seqr → Seqr) : (s.updSeq k f).recent = s.recent := rfl
@[simp] theorem State.updSeq_cl (k : Cluster) (f : Seqr → Seqr) : (s.updSeq k f).cl = s.cl := rfl
@[simp] theorem State.updSeq_pairs (k : Cluster) (f : Seqr → Seqr) : (s.updSeq k f).pairs = s.pairs := rfl
@[simp] theorem State.updSeq_siteOf (k : Cluster) (f : Seqr → Seqr) : (s.updSeq k f).siteOf = s.siteOf := rfl
@[simp] theorem State.updSeq_gangs (k : Cluster) (f : Seqr → Seqr) : (s.updSeq k f).gangs = s.gangs := rfl
@[simp] theorem State.updSeq_mem (k : Cluster) (f : Seqr → Seqr) : (s.updSeq k f).mem = s.mem := rfl
@[simp] theorem State.updSeq_sched (k : Cluster) (f : Seqr → Seqr) : (s.updSeq k f).sched = s.sched := rfl
@[simp] theorem State.updSeq_rope (k : Cluster) (f : Seqr → Seqr) : (s.updSeq k f).rope = s.rope := rfl
@[simp] theorem State.updSeq_time (k : Cluster) (f : Seqr → Seqr) : (s.updSeq k f).time = s.time := rfl
@[simp] theorem State.updSeq_cal (k : Cluster) (f : Seqr → Seqr) : (s.updSeq k f).cal = s.cal := rfl
@[simp] theorem State.updSeq_pwr (k : Cluster) (f : Seqr → Seqr) : (s.updSeq k f).pwr = s.pwr := rfl
@[simp] theorem State.updSeq_flt (k : Cluster) (f : Seqr → Seqr) : (s.updSeq k f).flt = s.flt := rfl
@[simp] theorem State.updSeq_host (k : Cluster) (f : Seqr → Seqr) : (s.updSeq k f).host = s.host := rfl
@[simp] theorem State.updSeq_cmd (k : Cluster) (f : Seqr → Seqr) : (s.updSeq k f).cmd = s.cmd := rfl
@[simp] theorem State.updSeq_sec (k : Cluster) (f : Seqr → Seqr) : (s.updSeq k f).sec = s.sec := rfl
@[simp] theorem State.updSeq_ids (k : Cluster) (f : Seqr → Seqr) : (s.updSeq k f).ids = s.ids := rfl
@[simp] theorem State.updSeq_present (k : Cluster) (f : Seqr → Seqr) : (s.updSeq k f).present = s.present := rfl
@[simp] theorem State.updSeq_rejoin (k : Cluster) (f : Seqr → Seqr) : (s.updSeq k f).rejoin = s.rejoin := rfl
@[simp] theorem State.updSeq_lostPins (k : Cluster) (f : Seqr → Seqr) : (s.updSeq k f).lostPins = s.lostPins := rfl

/-! ## `State.updCl` -/

@[simp] theorem State.updCl_pending (c : Cluster) (f : ClusterEng → ClusterEng) : (s.updCl c f).pending = s.pending := rfl
@[simp] theorem State.updCl_now (c : Cluster) (f : ClusterEng → ClusterEng) : (s.updCl c f).now = s.now := rfl
@[simp] theorem State.updCl_netOff (c : Cluster) (f : ClusterEng → ClusterEng) : (s.updCl c f).netOff = s.netOff := rfl
@[simp] theorem State.updCl_free (c : Cluster) (f : ClusterEng → ClusterEng) : (s.updCl c f).free = s.free := rfl
@[simp] theorem State.updCl_sites (c : Cluster) (f : ClusterEng → ClusterEng) : (s.updCl c f).sites = s.sites := rfl
@[simp] theorem State.updCl_reqWait (c : Cluster) (f : ClusterEng → ClusterEng) : (s.updCl c f).reqWait = s.reqWait := rfl
@[simp] theorem State.updCl_gens (c : Cluster) (f : ClusterEng → ClusterEng) : (s.updCl c f).gens = s.gens := rfl
@[simp] theorem State.updCl_seqs (c : Cluster) (f : ClusterEng → ClusterEng) : (s.updCl c f).seqs = s.seqs := rfl
@[simp] theorem State.updCl_recent (c : Cluster) (f : ClusterEng → ClusterEng) : (s.updCl c f).recent = s.recent := rfl
@[simp] theorem State.updCl_cl (c : Cluster) (f : ClusterEng → ClusterEng) : (s.updCl c f).cl = upd s.cl c f := rfl
@[simp] theorem State.updCl_pairs (c : Cluster) (f : ClusterEng → ClusterEng) : (s.updCl c f).pairs = s.pairs := rfl
@[simp] theorem State.updCl_siteOf (c : Cluster) (f : ClusterEng → ClusterEng) : (s.updCl c f).siteOf = s.siteOf := rfl
@[simp] theorem State.updCl_gangs (c : Cluster) (f : ClusterEng → ClusterEng) : (s.updCl c f).gangs = s.gangs := rfl
@[simp] theorem State.updCl_mem (c : Cluster) (f : ClusterEng → ClusterEng) : (s.updCl c f).mem = s.mem := rfl
@[simp] theorem State.updCl_sched (c : Cluster) (f : ClusterEng → ClusterEng) : (s.updCl c f).sched = s.sched := rfl
@[simp] theorem State.updCl_rope (c : Cluster) (f : ClusterEng → ClusterEng) : (s.updCl c f).rope = s.rope := rfl
@[simp] theorem State.updCl_time (c : Cluster) (f : ClusterEng → ClusterEng) : (s.updCl c f).time = s.time := rfl
@[simp] theorem State.updCl_cal (c : Cluster) (f : ClusterEng → ClusterEng) : (s.updCl c f).cal = s.cal := rfl
@[simp] theorem State.updCl_pwr (c : Cluster) (f : ClusterEng → ClusterEng) : (s.updCl c f).pwr = s.pwr := rfl
@[simp] theorem State.updCl_flt (c : Cluster) (f : ClusterEng → ClusterEng) : (s.updCl c f).flt = s.flt := rfl
@[simp] theorem State.updCl_host (c : Cluster) (f : ClusterEng → ClusterEng) : (s.updCl c f).host = s.host := rfl
@[simp] theorem State.updCl_cmd (c : Cluster) (f : ClusterEng → ClusterEng) : (s.updCl c f).cmd = s.cmd := rfl
@[simp] theorem State.updCl_sec (c : Cluster) (f : ClusterEng → ClusterEng) : (s.updCl c f).sec = s.sec := rfl
@[simp] theorem State.updCl_ids (c : Cluster) (f : ClusterEng → ClusterEng) : (s.updCl c f).ids = s.ids := rfl
@[simp] theorem State.updCl_present (c : Cluster) (f : ClusterEng → ClusterEng) : (s.updCl c f).present = s.present := rfl
@[simp] theorem State.updCl_rejoin (c : Cluster) (f : ClusterEng → ClusterEng) : (s.updCl c f).rejoin = s.rejoin := rfl
@[simp] theorem State.updCl_lostPins (c : Cluster) (f : ClusterEng → ClusterEng) : (s.updCl c f).lostPins = s.lostPins := rfl

/-! ## `State.updGen` -/

@[simp] theorem State.updGen_pending (c : Cluster) (f : GenSlots → GenSlots) : (s.updGen c f).pending = s.pending := rfl
@[simp] theorem State.updGen_now (c : Cluster) (f : GenSlots → GenSlots) : (s.updGen c f).now = s.now := rfl
@[simp] theorem State.updGen_netOff (c : Cluster) (f : GenSlots → GenSlots) : (s.updGen c f).netOff = s.netOff := rfl
@[simp] theorem State.updGen_free (c : Cluster) (f : GenSlots → GenSlots) : (s.updGen c f).free = s.free := rfl
@[simp] theorem State.updGen_sites (c : Cluster) (f : GenSlots → GenSlots) : (s.updGen c f).sites = s.sites := rfl
@[simp] theorem State.updGen_reqWait (c : Cluster) (f : GenSlots → GenSlots) : (s.updGen c f).reqWait = s.reqWait := rfl
@[simp] theorem State.updGen_gens (c : Cluster) (f : GenSlots → GenSlots) : (s.updGen c f).gens = upd s.gens c f := rfl
@[simp] theorem State.updGen_seqs (c : Cluster) (f : GenSlots → GenSlots) : (s.updGen c f).seqs = s.seqs := rfl
@[simp] theorem State.updGen_recent (c : Cluster) (f : GenSlots → GenSlots) : (s.updGen c f).recent = s.recent := rfl
@[simp] theorem State.updGen_cl (c : Cluster) (f : GenSlots → GenSlots) : (s.updGen c f).cl = s.cl := rfl
@[simp] theorem State.updGen_pairs (c : Cluster) (f : GenSlots → GenSlots) : (s.updGen c f).pairs = s.pairs := rfl
@[simp] theorem State.updGen_siteOf (c : Cluster) (f : GenSlots → GenSlots) : (s.updGen c f).siteOf = s.siteOf := rfl
@[simp] theorem State.updGen_gangs (c : Cluster) (f : GenSlots → GenSlots) : (s.updGen c f).gangs = s.gangs := rfl
@[simp] theorem State.updGen_mem (c : Cluster) (f : GenSlots → GenSlots) : (s.updGen c f).mem = s.mem := rfl
@[simp] theorem State.updGen_sched (c : Cluster) (f : GenSlots → GenSlots) : (s.updGen c f).sched = s.sched := rfl
@[simp] theorem State.updGen_rope (c : Cluster) (f : GenSlots → GenSlots) : (s.updGen c f).rope = s.rope := rfl
@[simp] theorem State.updGen_time (c : Cluster) (f : GenSlots → GenSlots) : (s.updGen c f).time = s.time := rfl
@[simp] theorem State.updGen_cal (c : Cluster) (f : GenSlots → GenSlots) : (s.updGen c f).cal = s.cal := rfl
@[simp] theorem State.updGen_pwr (c : Cluster) (f : GenSlots → GenSlots) : (s.updGen c f).pwr = s.pwr := rfl
@[simp] theorem State.updGen_flt (c : Cluster) (f : GenSlots → GenSlots) : (s.updGen c f).flt = s.flt := rfl
@[simp] theorem State.updGen_host (c : Cluster) (f : GenSlots → GenSlots) : (s.updGen c f).host = s.host := rfl
@[simp] theorem State.updGen_cmd (c : Cluster) (f : GenSlots → GenSlots) : (s.updGen c f).cmd = s.cmd := rfl
@[simp] theorem State.updGen_sec (c : Cluster) (f : GenSlots → GenSlots) : (s.updGen c f).sec = s.sec := rfl
@[simp] theorem State.updGen_ids (c : Cluster) (f : GenSlots → GenSlots) : (s.updGen c f).ids = s.ids := rfl
@[simp] theorem State.updGen_present (c : Cluster) (f : GenSlots → GenSlots) : (s.updGen c f).present = s.present := rfl
@[simp] theorem State.updGen_rejoin (c : Cluster) (f : GenSlots → GenSlots) : (s.updGen c f).rejoin = s.rejoin := rfl
@[simp] theorem State.updGen_lostPins (c : Cluster) (f : GenSlots → GenSlots) : (s.updGen c f).lostPins = s.lostPins := rfl

/-! ## `State.updFn` -/

@[simp] theorem State.updFn_pending (g : Func) (f : HostFunc → HostFunc) : (s.updFn g f).pending = s.pending := rfl
@[simp] theorem State.updFn_now (g : Func) (f : HostFunc → HostFunc) : (s.updFn g f).now = s.now := rfl
@[simp] theorem State.updFn_netOff (g : Func) (f : HostFunc → HostFunc) : (s.updFn g f).netOff = s.netOff := rfl
@[simp] theorem State.updFn_free (g : Func) (f : HostFunc → HostFunc) : (s.updFn g f).free = s.free := rfl
@[simp] theorem State.updFn_sites (g : Func) (f : HostFunc → HostFunc) : (s.updFn g f).sites = s.sites := rfl
@[simp] theorem State.updFn_reqWait (g : Func) (f : HostFunc → HostFunc) : (s.updFn g f).reqWait = s.reqWait := rfl
@[simp] theorem State.updFn_gens (g : Func) (f : HostFunc → HostFunc) : (s.updFn g f).gens = s.gens := rfl
@[simp] theorem State.updFn_seqs (g : Func) (f : HostFunc → HostFunc) : (s.updFn g f).seqs = s.seqs := rfl
@[simp] theorem State.updFn_recent (g : Func) (f : HostFunc → HostFunc) : (s.updFn g f).recent = s.recent := rfl
@[simp] theorem State.updFn_cl (g : Func) (f : HostFunc → HostFunc) : (s.updFn g f).cl = s.cl := rfl
@[simp] theorem State.updFn_pairs (g : Func) (f : HostFunc → HostFunc) : (s.updFn g f).pairs = s.pairs := rfl
@[simp] theorem State.updFn_siteOf (g : Func) (f : HostFunc → HostFunc) : (s.updFn g f).siteOf = s.siteOf := rfl
@[simp] theorem State.updFn_gangs (g : Func) (f : HostFunc → HostFunc) : (s.updFn g f).gangs = s.gangs := rfl
@[simp] theorem State.updFn_mem (g : Func) (f : HostFunc → HostFunc) : (s.updFn g f).mem = s.mem := rfl
@[simp] theorem State.updFn_sched (g : Func) (f : HostFunc → HostFunc) : (s.updFn g f).sched = s.sched := rfl
@[simp] theorem State.updFn_rope (g : Func) (f : HostFunc → HostFunc) : (s.updFn g f).rope = s.rope := rfl
@[simp] theorem State.updFn_time (g : Func) (f : HostFunc → HostFunc) : (s.updFn g f).time = s.time := rfl
@[simp] theorem State.updFn_cal (g : Func) (f : HostFunc → HostFunc) : (s.updFn g f).cal = s.cal := rfl
@[simp] theorem State.updFn_pwr (g : Func) (f : HostFunc → HostFunc) : (s.updFn g f).pwr = s.pwr := rfl
@[simp] theorem State.updFn_flt (g : Func) (f : HostFunc → HostFunc) : (s.updFn g f).flt = s.flt := rfl
@[simp] theorem State.updFn_host (g : Func) (f : HostFunc → HostFunc) : (s.updFn g f).host = { s.host with fn := upd s.host.fn g f } := rfl
@[simp] theorem State.updFn_cmd (g : Func) (f : HostFunc → HostFunc) : (s.updFn g f).cmd = s.cmd := rfl
@[simp] theorem State.updFn_sec (g : Func) (f : HostFunc → HostFunc) : (s.updFn g f).sec = s.sec := rfl
@[simp] theorem State.updFn_ids (g : Func) (f : HostFunc → HostFunc) : (s.updFn g f).ids = s.ids := rfl
@[simp] theorem State.updFn_present (g : Func) (f : HostFunc → HostFunc) : (s.updFn g f).present = s.present := rfl
@[simp] theorem State.updFn_rejoin (g : Func) (f : HostFunc → HostFunc) : (s.updFn g f).rejoin = s.rejoin := rfl
@[simp] theorem State.updFn_lostPins (g : Func) (f : HostFunc → HostFunc) : (s.updFn g f).lostPins = s.lostPins := rfl

end Sys2Proof.Machine
end

