-- ==== Sys2Proof/Laws/Engine.lean ====
section
/-! SUPPORT. What fetching a packet and posting a reply can do, once (R223, R226), and what a packet's routine comes to when the check
stages let it through or refuse it (R241). -/
namespace Sys2Proof.Machine

/-! ## Fetch and reply: the fields they leave alone -/

/-- Fetching changes the host port, the engine and the mark of the last device request, nothing else. -/
theorem State.fetch_eq (s : State) (op : Nat) (p : Packet) :
    s.fetch op p = { s with host := (s.fetch op p).host, cmd := (s.fetch op p).cmd, pwr := (s.fetch op p).pwr } := by
  unfold State.fetch
  split <;> rfl

/-- Posting a reply changes the host port, the engine and the mark of the last device request, nothing else. -/
theorem State.reply_eq (s : State) (f : Func) (r : Reply) :
    s.reply f r = { s with host := (s.reply f r).host, pwr := (s.reply f r).pwr, cmd := (s.reply f r).cmd } := by
  simp only [State.reply]
  split <;> rfl

/-- A reply ends the routine (R271), but after a machine check (R277). -/
@[simp] theorem State.reply_cmd (s : State) (f : Func) (r : Reply) :
    (s.reply f r).cmd = if s.cmd.mcheck.isSome then s.cmd else { s.cmd with running := false, deferAll := false } := by
  simp only [State.reply]
  split <;> rfl

@[simp] theorem State.fetch_owner (s : State) (op : Nat) (p : Packet) : (s.fetch op p).host.owner = s.host.owner := by
  unfold State.fetch
  split <;> rfl

@[simp] theorem State.fetch_numVfs (s : State) (op : Nat) (p : Packet) : (s.fetch op p).host.numVfs = s.host.numVfs := by
  unfold State.fetch
  split <;> rfl

@[simp] theorem State.fetch_mcheck (s : State) (op : Nat) (p : Packet) : (s.fetch op p).cmd.mcheck = s.cmd.mcheck := by
  unfold State.fetch
  split <;> rfl

@[simp] theorem State.fetch_pending (s : State) (op : Nat) (p : Packet) : (s.fetch op p).pending = s.pending := by rw [State.fetch_eq]
@[simp] theorem State.reply_pending (s : State) (f : Func) (r : Reply) : (s.reply f r).pending = s.pending := by rw [State.reply_eq]
@[simp] theorem State.fetch_now (s : State) (op : Nat) (p : Packet) : (s.fetch op p).now = s.now := by rw [State.fetch_eq]
@[simp] theorem State.reply_now (s : State) (f : Func) (r : Reply) : (s.reply f r).now = s.now := by rw [State.reply_eq]
@[simp] theorem State.fetch_netOff (s : State) (op : Nat) (p : Packet) : (s.fetch op p).netOff = s.netOff := by rw [State.fetch_eq]
@[simp] theorem State.reply_netOff (s : State) (f : Func) (r : Reply) : (s.reply f r).netOff = s.netOff := by rw [State.reply_eq]
@[simp] theorem State.fetch_free (s : State) (op : Nat) (p : Packet) : (s.fetch op p).free = s.free := by rw [State.fetch_eq]
@[simp] theorem State.reply_free (s : State) (f : Func) (r : Reply) : (s.reply f r).free = s.free := by rw [State.reply_eq]
@[simp] theorem State.fetch_sites (s : State) (op : Nat) (p : Packet) : (s.fetch op p).sites = s.sites := by rw [State.fetch_eq]
@[simp] theorem State.reply_sites (s : State) (f : Func) (r : Reply) : (s.reply f r).sites = s.sites := by rw [State.reply_eq]
@[simp] theorem State.fetch_reqWait (s : State) (op : Nat) (p : Packet) : (s.fetch op p).reqWait = s.reqWait := by rw [State.fetch_eq]
@[simp] theorem State.reply_reqWait (s : State) (f : Func) (r : Reply) : (s.reply f r).reqWait = s.reqWait := by rw [State.reply_eq]
@[simp] theorem State.fetch_gens (s : State) (op : Nat) (p : Packet) : (s.fetch op p).gens = s.gens := by rw [State.fetch_eq]
@[simp] theorem State.reply_gens (s : State) (f : Func) (r : Reply) : (s.reply f r).gens = s.gens := by rw [State.reply_eq]
@[simp] theorem State.fetch_seqs (s : State) (op : Nat) (p : Packet) : (s.fetch op p).seqs = s.seqs := by rw [State.fetch_eq]
@[simp] theorem State.reply_seqs (s : State) (f : Func) (r : Reply) : (s.reply f r).seqs = s.seqs := by rw [State.reply_eq]
@[simp] theorem State.fetch_recent (s : State) (op : Nat) (p : Packet) : (s.fetch op p).recent = s.recent := by rw [State.fetch_eq]
@[simp] theorem State.reply_recent (s : State) (f : Func) (r : Reply) : (s.reply f r).recent = s.recent := by rw [State.reply_eq]
@[simp] theorem State.fetch_cl (s : State) (op : Nat) (p : Packet) : (s.fetch op p).cl = s.cl := by rw [State.fetch_eq]
@[simp] theorem State.reply_cl (s : State) (f : Func) (r : Reply) : (s.reply f r).cl = s.cl := by rw [State.reply_eq]
@[simp] theorem State.fetch_pairs (s : State) (op : Nat) (p : Packet) : (s.fetch op p).pairs = s.pairs := by rw [State.fetch_eq]
@[simp] theorem State.reply_pairs (s : State) (f : Func) (r : Reply) : (s.reply f r).pairs = s.pairs := by rw [State.reply_eq]
@[simp] theorem State.fetch_siteOf (s : State) (op : Nat) (p : Packet) : (s.fetch op p).siteOf = s.siteOf := by rw [State.fetch_eq]
@[simp] theorem State.reply_siteOf (s : State) (f : Func) (r : Reply) : (s.reply f r).siteOf = s.siteOf := by rw [State.reply_eq]
@[simp] theorem State.fetch_gangs (s : State) (op : Nat) (p : Packet) : (s.fetch op p).gangs = s.gangs := by rw [State.fetch_eq]
@[simp] theorem State.reply_gangs (s : State) (f : Func) (r : Reply) : (s.reply f r).gangs = s.gangs := by rw [State.reply_eq]
@[simp] theorem State.fetch_mem (s : State) (op : Nat) (p : Packet) : (s.fetch op p).mem = s.mem := by rw [State.fetch_eq]
@[simp] theorem State.reply_mem (s : State) (f : Func) (r : Reply) : (s.reply f r).mem = s.mem := by rw [State.reply_eq]
@[simp] theorem State.fetch_sched (s : State) (op : Nat) (p : Packet) : (s.fetch op p).sched = s.sched := by rw [State.fetch_eq]
@[simp] theorem State.reply_sched (s : State) (f : Func) (r : Reply) : (s.reply f r).sched = s.sched := by rw [State.reply_eq]
@[simp] theorem State.fetch_rope (s : State) (op : Nat) (p : Packet) : (s.fetch op p).rope = s.rope := by rw [State.fetch_eq]
@[simp] theorem State.reply_rope (s : State) (f : Func) (r : Reply) : (s.reply f r).rope = s.rope := by rw [State.reply_eq]
@[simp] theorem State.fetch_time (s : State) (op : Nat) (p : Packet) : (s.fetch op p).time = s.time := by rw [State.fetch_eq]
@[simp] theorem State.reply_time (s : State) (f : Func) (r : Reply) : (s.reply f r).time = s.time := by rw [State.reply_eq]
@[simp] theorem State.fetch_cal (s : State) (op : Nat) (p : Packet) : (s.fetch op p).cal = s.cal := by rw [State.fetch_eq]
@[simp] theorem State.reply_cal (s : State) (f : Func) (r : Reply) : (s.reply f r).cal = s.cal := by rw [State.reply_eq]
@[simp] theorem State.fetch_flt (s : State) (op : Nat) (p : Packet) : (s.fetch op p).flt = s.flt := by rw [State.fetch_eq]
@[simp] theorem State.reply_flt (s : State) (f : Func) (r : Reply) : (s.reply f r).flt = s.flt := by rw [State.reply_eq]
@[simp] theorem State.fetch_sec (s : State) (op : Nat) (p : Packet) : (s.fetch op p).sec = s.sec := by rw [State.fetch_eq]
@[simp] theorem State.reply_sec (s : State) (f : Func) (r : Reply) : (s.reply f r).sec = s.sec := by rw [State.reply_eq]
@[simp] theorem State.fetch_ids (s : State) (op : Nat) (p : Packet) : (s.fetch op p).ids = s.ids := by rw [State.fetch_eq]
@[simp] theorem State.reply_ids (s : State) (f : Func) (r : Reply) : (s.reply f r).ids = s.ids := by rw [State.reply_eq]
@[simp] theorem State.fetch_present (s : State) (op : Nat) (p : Packet) : (s.fetch op p).present = s.present := by rw [State.fetch_eq]
@[simp] theorem State.reply_present (s : State) (f : Func) (r : Reply) : (s.reply f r).present = s.present := by rw [State.reply_eq]
@[simp] theorem State.fetch_rejoin (s : State) (op : Nat) (p : Packet) : (s.fetch op p).rejoin = s.rejoin := by rw [State.fetch_eq]
@[simp] theorem State.reply_rejoin (s : State) (f : Func) (r : Reply) : (s.reply f r).rejoin = s.rejoin := by rw [State.reply_eq]
@[simp] theorem State.fetch_lostPins (s : State) (op : Nat) (p : Packet) : (s.fetch op p).lostPins = s.lostPins := by rw [State.fetch_eq]
@[simp] theorem State.reply_lostPins (s : State) (f : Func) (r : Reply) : (s.reply f r).lostPins = s.lostPins := by rw [State.reply_eq]

/-- A reply is posted to a host port whatever else the state holds. -/
theorem State.reply_host_congr (s t : State) (f : Func) (r : Reply) (hh : s.host = t.host) (hm : s.cmd.mcheck = t.cmd.mcheck) :
    (s.reply f r).host = (t.reply f r).host := by
  simp only [State.reply, hh, hm]
  split
  · exact hh
  · simp [State.endRoutine, State.writeHost, hh]

/-! ## The check stages see what fetching leaves alone -/

@[simp] theorem State.fetch_target (s : State) (op : Nat) (p q : Packet) (form : Form) :
    (s.fetch op p).target form q.target = s.target form q.target := by
  simp only [State.target, State.members, State.isSite, State.site, State.fetch_siteOf, State.fetch_numVfs]
  rfl

@[simp] theorem State.fetch_frameFault (s : State) (op : Nat) (p : Packet) (o : OpSpec) : (s.fetch op p).frameFault o p = s.frameFault o p := by
  simp only [State.frameFault, State.fetch_target]

@[simp] theorem State.fetch_owns (s : State) (op : Nat) (p : Packet) (f : Func) (c : Cluster) : (s.fetch op p).owns f c = s.owns f c := by
  simp only [State.owns, State.fetch_owner]

@[simp] theorem State.fetch_roleFault (s : State) (op : Nat) (p : Packet) (o : OpSpec) (cl : List Cluster) (owns : Option Nat) :
    (s.fetch op p).roleFault o p cl owns = s.roleFault o p cl owns := by
  have : (s.fetch op p).owns p.func = s.owns p.func := funext fun c => s.fetch_owns op p p.func c
  simp only [State.roleFault, this]

@[simp] theorem State.fetch_stageBusy (s : State) (op : Nat) (p : Packet) (o : OpSpec) (cl : List Cluster) :
    (s.fetch op p).stageBusy o cl = s.stageBusy o cl := by
  simp only [State.stageBusy, State.fetch_flt, State.fetch_ids]

@[simp] theorem State.fetch_genField (s : State) (op : Nat) (p : Packet) (g : GenField) (cl : List Cluster) :
    (s.fetch op p).genField g cl = s.genField g cl := by
  simp only [State.genField, State.site, State.fetch_gens, State.fetch_sites, State.fetch_siteOf]

/-- A packet the stages let through runs its body and replies with the body's verdict. -/
theorem State.runPacket_passes (s : State) (o : OpSpec) (p : Packet) (cl : List Cluster) (owns : Option Nat) (body : List Cluster → State → Ending)
    (hf : s.fetchable o.opcode p = true) (hfr : s.frameFault o p = none) (ht : s.target o.form p.target = some cl)
    (hr : s.roleFault o p cl owns = none) (hg : genCheck p = true → ∀ c ∈ maskClusters p.target, (s.gens[c]).shadow.number = p.expectGen)
    (hb : s.stageBusy o cl = false) :
    s.runPacket o p owns body
      = (body cl (s.fetch o.opcode p)).state.reply p.func ((body cl (s.fetch o.opcode p)).reply o p cl) := by
  have hfind : (if genCheck p then (maskClusters p.target).find? fun c => (s.gens[c]).shadow.number ≠ p.expectGen else none) = none := by
    split
    · rename_i h
      simpa using hg h
    · rfl
  simp only [State.runPacket, hf, State.stages, State.fetch_frameFault, hfr, State.fetch_target, ht, Option.getD_some,
    State.fetch_roleFault, hr, State.fetch_gens, hfind, State.fetch_stageBusy, hb]
  rfl

/-- A packet stage 2 refuses changes nothing but its reply (R240, R241). -/
theorem State.runPacket_frame (s : State) (o : OpSpec) (p : Packet) (owns : Option Nat) (body : List Cluster → State → Ending) (off : Nat)
    (hf : s.fetchable o.opcode p = true) (hfr : s.frameFault o p = some off) :
    s.runPacket o p owns body
      = (s.fetch o.opcode p).reply p.func (((s.fetch o.opcode p).badParam 1 off).reply o p ((s.target o.form p.target).getD [])) := by
  simp only [State.runPacket, hf, State.stages, State.fetch_frameFault, hfr, State.fetch_target, State.badParam]
  rfl

/-- A packet stage 3 refuses changes nothing but its reply (R240, R241). -/
theorem State.runPacket_role (s : State) (o : OpSpec) (p : Packet) (owns : Option Nat) (body : List Cluster → State → Ending)
    (cl : List Cluster) (off : Nat) (hf : s.fetchable o.opcode p = true) (hfr : s.frameFault o p = none)
    (ht : s.target o.form p.target = some cl) (hr : s.roleFault o p cl owns = some off) :
    s.runPacket o p owns body
      = (s.fetch o.opcode p).reply p.func
          (({ code := 0x13, dkind := 1, detail := off, state := s.fetch o.opcode p } : Ending).reply o p cl) := by
  simp only [State.runPacket, hf, State.stages, State.fetch_frameFault, hfr, State.fetch_target, ht, Option.getD_some,
    State.fetch_roleFault, hr]
  rfl

end Sys2Proof.Machine
end

