-- ==== Sys2Proof/Laws/Time.lean ====
section
/-! SUPPORT. What the passing of time alone does where nothing is under way: the REQ handshakes move, and nothing else (R60, R188, R23). A play that has
played as far as it goes stays as it is. -/
namespace Sys2Proof.Machine

/-- The handshakes change the site records and the requests that wait, nothing else. -/
theorem State.handshakes_eq (n : Nat) (s : State) :
    State.handshakes n s = { s with sites := (State.handshakes n s).sites, reqWait := (State.handshakes n s).reqWait } := by
  induction n generalizing s with
  | zero => rfl
  | succ n ih => exact ih s.handshakeStep

/-- With no post on its way and no cycle of the collector in hand, time brings `now` forward and moves the handshakes, nothing else. -/
theorem State.advance_calm (s : State) (t : Nat) (post : s.sched.due = []) (cycle : s.flt.taking = none) :
    s.advance t = if t ≤ s.now then s else { s with now := t, sites := (s.advance t).sites, reqWait := (s.advance t).reqWait } := by
  have h : s.endCycle t = s := by simp [State.endCycle, cycle]
  unfold State.advance
  split
  · rfl
  · simp only [post, List.isEmpty_nil, if_true, h]
    exact State.handshakes_eq _ _

theorem State.advance_calm_cl (s : State) (t : Nat) (post : s.sched.due = []) (cycle : s.flt.taking = none) : (s.advance t).cl = s.cl := by
  rw [State.advance_calm s t post cycle]
  split <;> rfl

theorem State.advance_calm_seqs (s : State) (t : Nat) (post : s.sched.due = []) (cycle : s.flt.taking = none) : (s.advance t).seqs = s.seqs := by
  rw [State.advance_calm s t post cycle]
  split <;> rfl

/-- A play whose vectors have all been played plays no more. -/
theorem State.playTo_done (s : State) (k : Cluster) (t : Int) (p : Play) (h : (s.seqs[k]).play = some p) (a : (s.seqs[k]).abortAt = none)
    (d : p.len ≤ p.played) : s.playTo k t = s := by
  have : min (p.started t) ((s.seqs[k]).abortAt.getD p.len) ≤ p.played := by
    rw [a]
    exact Nat.le_trans (Nat.min_le_right _ _) d
  unfold State.playTo
  simp only [h, this, if_true]

end Sys2Proof.Machine
end

