-- ==== Sys2Proof/WellFormed.lean ====
section
/-! DEFINITION. Which commands are well formed: an operand has the length, the alignment or the range that the interface it comes over
gives it (R27, R34, R57, R155, R173, R220, R235, R285, R425). `exec` is total all the same: a byte an ill-formed operand lacks reads 0. -/
namespace Sys2Proof

/-- A packet holds as many bytes as its LENGTH counts, header included (R235). -/
def Packet.wf (p : Packet) : Bool := p.length ≠ 0 && p.payload.length + 16 = 16 * p.length.toNat

/-- A frame has a body of 16 bytes (R285). -/
def Frame.wf (f : Frame) : Bool := f.body.length = 16

/-- Posted descriptors are whole 16-byte slots; each names 1 to 256 blocks at an address of 4 KiB alignment (R172). -/
def descsWf (b : List Byte) : Bool :=
  let at_ := fun (i : Nat) => (b.getD i 0).toNat
  b.length % 16 = 0 && (List.range (b.length / 16)).all fun k =>
    let n := at_ (16 * k + 8) + 256 * at_ (16 * k + 9)
    1 ≤ n && n ≤ 256 && at_ (16 * k) = 0 && at_ (16 * k + 1) % 16 = 0

/-- A routine that can be running: it is the routine of a well-formed packet (R273). -/
def Routine.wf (r : Routine) : Bool := r.packet.wf

def optionWf (r : Option Routine) : Bool := r.all Routine.wf

/-- Measured calibration values: as many as R326 counts. -/
def Readings.wf (r : Readings) : Bool :=
  r.gain.length = 16 && r.offset.length = 16 && r.drv.length = 8 && r.den.length = 8 && r.cmp.length = 8
    && r.tdcCorr.length = 12 && r.trig.length = 2

/-- A register access of 2^`width` bytes is aligned (R425). -/
def addrWf (a : BitVec 24) (width : Fin 3) : Bool := a.toNat % 2 ^ width.val = 0

/-- The checks on a command's operands. -/
def Instr.wf : Instr → Bool
  | .nop p | .identify p | .resetFunction p | .statusMirrorSet p | .timingSetWrite p | .levelSetWrite p | .pinFormatWrite p
  | .clockPinSet p | .genCommit p | .genRevert p | .genDiscard p | .seqLoad p | .segDeclare p | .burstCommit p | .burstStart p
  | .burstStop p | .jumpRequest p | .resume p | .siteGang p | .streamOpen p | .streamClose p | .segPin p | .segUnpin p
  | .captureConfig p | .acqArm p | .acqForce p | .tdcConfig p | .tdcStats p | .ruleLoad p | .itemPost p | .flowConfig p
  | .timeSource p | .timeAccept p | .timeThreshold p | .ropeConfig p | .ropeTest p | .calRun p | .calStore p _ | .calRefDeclare p
  | .faultConfig p | .faultInject p | .faultAck p | .powerTolerance p | .attest p | .fwStage p | .fwActivate p
  | .badOpcode p _ => p.wf
  | .abort p r => p.wf && optionWf r
  | .scInternalCommand r | .rechain _ r | .machineCheck _ _ _ _ r | .doorbellSqTail _ _ _ _ r | .lvlScDetect _ _ r | .thermTrip _ r
  | .refclkLoss r | .companionPoll _ _ r | .supplyOutOfRange _ _ r | .pllUnlock _ r | .hbmFail r | .cfgParity _ _ r => optionWf r
  | .doorbellInTail _ _ _ _ ds | .doorbellOutTail _ _ _ _ ds => descsWf ds
  | .rcRegisterRead _ a _ w | .latchedPairRead _ a w => addrWf a w
  | .registerWrite _ a _ whole _ => !whole || addrWf a 2
  | .i3cTransferDone _ d => d.length ≤ 16
  | .codeDensityDone _ _ hits => hits.length = 65
  | .blockEntry _ b => b.length = 4096
  | .timeReq _ f _ | .timeResp _ f _ | .siteCond _ f | .siteVote _ f | .siteAbort _ f | .trig _ f | .gevt _ f | .frameDelivery _ _ f _
  | .ident _ f | .trainReq _ f | .trainSts _ f | .alignProbe _ f _ | .alignEcho _ f _ | .idleNotice _ f | .loopReq _ f | .loopAck _ f
  | .attNonceLo _ f | .attNonceHi _ f | .attData _ f | .attEnd _ f | .attResend _ f => f.wf
  | .calRunComplete _ _ _ r => r.values.wf && r.drift.wf
  | .faultReport es r => !es.isEmpty && es.all (fun e => e.source < 64) && optionWf r
  | .ringErr _ _ _ | .doorbellRqHead _ _ _ | .hstOwnerWrite _ _ | .ringEnable _ _ | .sqDisable _ _ | .rqDisable _ | .rqDisableDone _
  | .hstEvtClr _ _ | .diagEnter _ | .diagExit _ | .diagWindowRead _ | .i3cTransferGo _ | .warmReset _ | .globalEventWrite _
  | .testInject _ _ | .topoSelect _ | .fltHistSelect _ | .fltPlogSelect _ | .mr7Extend _ | .nbrAttestGo _ | .nbrAttestTimeout
  | .porstAssert | .perstAssert | .bootStart _ _ _ | .bootComplete | .tryBootTimeout _ _ _ | .functionLevelReset _
  | .refclkReturn | .ocxoReadyChange _ | .evtEdge _ _ _ _ | .armPoint _ | .voteCount _ | .firstVector _ | .segmentStart _
  | .trigPulseEnd _ _ | .decisionPoint _ | .siteCondResolve _ | .abortBoundary _ | .burstEnd _ | .selectionRead _ | .chainedStart _
  | .chainTimeout _ | .stallExit _ | .streamTimeout _ | .compareComplete _ _ _ _ | .dropEnd _ | .periodicCairn _
  | .captureBlockClose _ | .acqTrigger _ _ | .acqAutoExpire _ | .acqComplete _ | .tdcEdge _ _ _ _ | .tdcLossResume _
  | .stampBlockClose _ | .gapCairn _ | .slewMove _ _ | .rangeSwitchDone _ _ | .outboundBlockWrite _ _ _ _ _
  | .outboundPartialTimeout _ _ _ | .eccCe _ | .eccUe _ _ | .hbmScrub | .hbmSrEntry | .itemDispatch | .itemComplete _ | .watchdog _
  | .schedSample _ | .mirrorRewrite _ | .timeReqTimer | .timeRespTimeout | .ptmDialog _ _ _ _ | .timeSlewStep | .timeHoldover
  | .identTimer _ | .trainEnd _ _ _ | .trainFailRetry _ | .linkDetect _ | .lossOfLock _ | .idleEntry _ | .idleExit _ | .topoAgeOut _
  | .testEnd _ | .thermalRead _ _ | .calBackgroundRun _ _ | .calTargetRecompute _ | .calStale _ | .calTinEdge _
  | .calTinLoss | .plogWrite | .powerStateEntry _ | .powerStateExit _ | .powerExitDone _ | .linkL1Entry _ | .treeGenerated
  | .aliveToggle | .ptmDialogStart | .trainReqTimer _ _ _ _ _ | .checkerLock _ _ | .checkerLockLoss _ _ _
  | .testFirstInjection _ | .blockHbmRelease _ | .supplyInRange _ | .thermTripClear _
  | .currentLimitRelease _ _ | .pcieErr _ _ | .porstDeassert _ | .configSpaceWrite _
  | .pcieLinkChange _ _ _ _ | .targetDynamicAddressAssign _ | .tdcTwindowBoundary _ | .powerEntryDone _ | .hbmSrExitDone => true
  | .hotJoin bus pin _ _ _ => pin.val / 48 = bus.val

end Sys2Proof
end

