-- ==== Sys2Proof/Tests/Slice0.lean ====
section
/-! SUPPORT. Tests: a witness for the hypotheses of every statement, ill-formed commands the well-formedness check refuses, and
single steps on a small booted device. -/
namespace Sys2Proof.Tests
-- The theorems below are checked one after another: evaluated all at once they would hold too many threads.
set_option Elab.async false
open Sys2Proof.Machine Sys2Proof.Claims

/-! ## A small device that has booted -/

def ring0 : SubRing := { en := true, base := 0x10000, log2 := 16, tail := 2000 }

def func0 : HostFunc :=
  { sq := Vector.replicate 4 ring0, rq := { en := true, open_ := true, base := 0x20000, log2 := 16 }, busMaster := true, memSpace := true }

/-- Ready, with every ring of every function enabled and clusters 0 to 11 the PF's; all companion chips present, all clusters READY. -/
def booted : State :=
  { now := 1000 * nsUnits * 1000, present := -1,
    pwr := { phase := .ready, porst := false, perst := false, bootDone := true, tbWarm := false, hbm := 1, link := .l0,
             cl := Vector.replicate 12 { state := 1, chosen := 1, goal := 1 } },
    host := { fn := Vector.replicate 13 func0, numVfs := 12 }, mem := { ready := true } }

/-- Only the rings of function `f` hold work. -/
def only (f : Func) (s : State) : State :=
  { s with host := { s.host with fn := Vector.ofFn fun g =>
      let h := s.host.fn[g]
      if g = f then h else { h with sq := h.sq.map fun r => { r with tail := r.head } } } }

/-- Only ring `r` holds work. -/
def ringOnly (r : Fin 4) (s : State) : State :=
  { s with host := { s.host with fn := s.host.fn.map fun h => { h with sq := Vector.ofFn fun q =>
      if q = r then h.sq[q] else { (h.sq[q]) with tail := (h.sq[q]).head } } } }

/-- A packet of the PF on ring 0, with tag 7. -/
def pk (units : Nat) (target : BitVec 16) (payload : List Byte) : Packet :=
  { func := 0, ring := 0, flags := 0, tag := 7, length := BitVec.ofNat 16 units, target := target, expectGen := 0, reserved := 0,
    payload := payload ++ List.replicate (16 * units - 16 - payload.length) 0 }

/-- A record that is read, from a decidable equation. -/
theorem read_ok {ε α : Type} {e : Except ε α} {v : α} (h : e.toOption = some v) : e = .ok v := by
  cases e with
  | error _ => cases h
  | ok _ => exact congrArg _ (Option.some.inj h)

theorem read_error {ε α : Type} {e : Except ε α} {v : ε} (h : (match e with | .ok _ => none | .error x => some x) = some v) : e = .error v := by
  cases e with
  | error _ => exact congrArg _ (Option.some.inj h)
  | ok _ => cases h

/-- The next state of a command, which must have one. -/
def after (i : Instr) (s : State) : State :=
  match exec i s with
  | .next t => t
  | .fault _ | .refused _ => s

/-! ## Witnesses: every clause's hypotheses are met together -/

def timingPkt : Packet := pk 31 5 (leBytes 16 3 ++ TimingSet.bytes { period := 20480 })
def badTimingPkt : Packet := pk 31 5 (leBytes 16 3 ++ TimingSet.bytes { period := 639 })
def levelPkt : Packet := pk 6 5 (leBytes 16 2 ++ levelBytes (Vector.replicate 8 { step := 3 }))
def railPkt : Packet := pk 3 5 (leBytes 16 0xFF ++ leBytes 16 0x81)
def railBadPkt : Packet := pk 3 5 (leBytes 16 0xFF ++ leBytes 16 0x181)
def clockSet : ClockPin := { enable := true, ph := 5, fw := 9 }
def clockPkt : Packet := pk 2 5 (clockSet.bytes 7)
def capSet : CapConfig := { mode := .total, closeUs := 7 }
def acqSet : AcqConfig := { armId := 9, source := .vaddr, pre := 4, post := 5, sparam := [1, 2, 3, 4, 5, 6] ++ List.replicate 10 0 }
def acqForced : AcqConfig := { armId := 9, pre := 4, post := 5 }
def tdcSet : Vector TdcConfig 8 := Vector.replicate 8 { en := true, edge := 1, bin := 3 }
def tdcPkt : Packet := pk 22 5 (List.replicate 16 (0 : Byte) ++ tdcSet.toList.flatMap TdcConfig.bytes)
def pairSet : Pair := { en := true, pinA := 95, pinB := 3, maxd := 77, origin := 1, bin := 9 }
def pairPkt : Packet := pk 3 0 ([1, 47, 1] ++ List.replicate 13 0 ++ [1, 95, 3, 0] ++ leBytes 4 77 ++ leBytes 4 1 ++ leBytes 4 9)
def twoEntries : List (Nat × Entry) := [(0, { segment := 5, op := .next }), (1, { segment := 6, op := .halt })]
def twoProgram : Program := { total := 2, entries := twoEntries }
def seqPkt : Packet := pk 4 4 (leBytes 4 2 ++ leBytes 4 0 ++ leBytes 4 2 ++ leBytes 4 2 ++ twoEntries.flatMap fun e => e.2.bytes)
def maskTable : List Byte := (List.range 16).flatMap fun m => leBytes 12 (m + 3)
def oneEntry (op : SeqOp) : List Byte := Entry.bytes { segment := 9, op := op }
def seqOpen : Packet := pk 15 5 (leBytes 4 2 ++ leBytes 4 0 ++ leBytes 4 1 ++ leBytes 4 1 ++ maskTable ++ oneEntry .next)
def seqMiddle : Packet := pk 3 5 (leBytes 4 3 ++ leBytes 4 1 ++ leBytes 4 1 ++ leBytes 4 0 ++ oneEntry .next)
def seqLast : Packet := pk 15 5 (leBytes 4 3 ++ leBytes 4 2 ++ leBytes 4 1 ++ leBytes 4 3 ++ maskTable ++ oneEntry .halt)

/-- A load of three entries is open on every cluster, and its first two stand. -/
def loadOpen : State :=
  { booted with gens := booted.gens.map fun g => { g with shadow := ⟨g.shadow.number,
      { g.shadow.config with program := { total := 3, loadOpen := true, entries := [(0, { op := .next }), (1, { segment := 6, op := .next })] } }⟩ } }

/-- Every cluster has a previous generation, and the next shadow number wraps. -/
def wrapGens : State :=
  { booted with gens := Vector.replicate 12 { prev := some ⟨9, { mux := 1 }⟩, cur := ⟨10, {}⟩, shadow := ⟨0xFFFF, { mux := 2 }⟩ } }

theorem witness_NopAndIdentifyReply :
    Passes booted { opcode := 0x0001, form := .none, units := 1, underHalt := true } (pk 1 0 []) []
    ∧ Passes booted { opcode := 0x0002, form := .none, units := 1, underHalt := true } (pk 1 0 []) []
    ∧ (booted.restartOf 1 (pk 1 0 []) = none ∧ booted.cmd.mcheck = none)
    ∧ (let s := { booted with cmd := { booted.cmd with slot := [(⟨1, pk 1 0 []⟩, 2)] } }
       s.restartOf 1 (pk 1 0 []) = some (⟨1, pk 1 0 []⟩, 2) ∧ s.cmd.mcheck = none) := by decide

theorem witness_StagesRefuseInOrder :
    ((0x7777#16).toNat ∉ opcodes ∧ booted.fetchable 0x7777 (pk 1 0 []) = true ∧ booted.cmd.mcheck = none)
    ∧ (booted.fetchable 1 (pk 2 0 []) = true ∧ booted.frameFault { opcode := 1, form := .none, units := 1 } (pk 2 0 []) = some 8)
    ∧ (let p := { pk 1 1 [] with func := 1 }
       let s := only 1 booted
       s.fetchable 0x112 p = true ∧ s.frameFault { opcode := 0x112, form := .clusters, units := 1 } p = none
       ∧ s.target .clusters p.target = some [0] ∧ s.roleFault { opcode := 0x112, form := .clusters, units := 1 } p [0] none = some 10)
    ∧ (let p := { pk 1 1 [] with flags := 1, expectGen := 3 }
       booted.fetchable 0x112 p = true ∧ booted.frameFault { opcode := 0x112, form := .clusters, units := 1 } p = none
       ∧ booted.target .clusters p.target = some [0] ∧ booted.roleFault { opcode := 0x112, form := .clusters, units := 1 } p [0] none = none ∧ genCheck p = true
       ∧ ((maskClusters p.target).find? fun c => (booted.gens[c]).shadow.number ≠ p.expectGen) = some 0)
    ∧ (let s := ringOnly 3 booted
       s.ringOpen 0 3 = true ∧ s.granted 0 3 = true ∧ ((s.host.fn[(0 : Func)]).sq[(3 : Fin 4)]).part = 0
       ∧ 0 < ((s.host.fn[(0 : Func)]).sq[(3 : Fin 4)]).held
       ∧ ((0x1001#16) = 0 ∨ 2 ^ (((s.host.fn[(0 : Func)]).sq[(3 : Fin 4)]).log2 - 4) < (0x1001#16).toNat)) := by decide +kernel

theorem witness_ShadowRecordsWritten :
    (Passes booted { opcode := 0x0100, form := .clusters, units := 31, gen := .shadow } timingPkt [0, 2]
      ∧ fieldAt timingPkt.payload 0 1 < 64 ∧ zeroAt timingPkt.payload 1 15 = true)
    ∧ parseTiming (fieldAt timingPkt.payload 0 1) (timingPkt.payload.drop 16) = .ok { period := 20480 }
    ∧ (Passes booted { opcode := 0x0101, form := .clusters, units := 6, gen := .shadow } levelPkt [0, 2]
      ∧ fieldAt levelPkt.payload 0 1 < 16 ∧ zeroAt levelPkt.payload 1 15 = true)
    ∧ parseLevels levelPkt.payload 16 = .ok (Vector.replicate 8 { step := 3 })
    ∧ (Passes booted { opcode := 0x0102, form := .clusters, units := 2, gen := .shadow } (pk 2 5 [3]) [0, 2]
      ∧ fieldAt (pk 2 5 [3]).payload 0 1 < 16 ∧ zeroAt (pk 2 5 [3]).payload 1 15 = true)
    ∧ Passes booted { opcode := 0x0103, form := .clusters, units := 2, gen := .shadow } clockPkt [0, 2]
    ∧ parseClock clockPkt.payload = .ok (1, clockSet) ∧ clockSet.fwOk = true :=
  ⟨by decide +kernel, read_ok (by decide +kernel), by decide +kernel, read_ok (by decide +kernel), by decide, by decide,
    read_ok (by decide +kernel), by decide⟩

theorem witness_RailControlRecord :
    (Passes booted { opcode := 0x0101, form := .clusters, units := 3, gen := .shadow } railPkt [0, 2] ∧ fieldAt railPkt.payload 0 1 = 0xFF
      ∧ zeroAt railPkt.payload 1 15 = true ∧ zeroAt railPkt.payload 17 15 = true)
    ∧ (Passes booted { opcode := 0x0101, form := .clusters, units := 3, gen := .shadow } railBadPkt [0, 2] ∧ fieldAt railBadPkt.payload 0 1 = 0xFF
      ∧ zeroAt railBadPkt.payload 1 15 = true ∧ zeroAt railBadPkt.payload 17 15 = false) := by decide

theorem witness_CaptureAndProgramRecordsWritten :
    (Passes booted { opcode := 0x0400, form := .clusters, units := 2, gen := .shadow } (pk 2 5 capSet.bytes) [0, 2]
      ∧ parseCapture (pk 2 5 capSet.bytes).payload = .ok capSet)
    ∧ (Passes booted { opcode := 0x0401, form := .clusters, units := 4, gen := .shadow } (pk 4 5 acqSet.bytes) [0, 2]
      ∧ parseAcq (pk 4 5 acqSet.bytes).payload false = .ok acqSet ∧ zeroAt (pk 4 5 acqSet.bytes).payload 40 8 = true)
    ∧ (Passes booted { opcode := 0x0402, form := .clusters, units := 4, gen := .shadow } (pk 4 5 acqForced.bytes) [0, 2]
      ∧ parseAcq (pk 4 5 acqForced.bytes).payload true = .ok acqForced ∧ zeroAt (pk 4 5 acqForced.bytes).payload 40 8 = true)
    ∧ (Passes booted { opcode := 0x0500, form := .clusters, units := 22, gen := .shadow } tdcPkt [0, 2]
      ∧ zeroAt tdcPkt.payload 0 16 = true ∧ parseTdc tdcPkt.payload 16 = .ok tdcSet)
    ∧ (PassesOwner booted { opcode := 0x0500, form := .none, units := 3, gen := .shadow } pairPkt [] (booted.pairOwner 0 pairPkt.payload)
      ∧ (fieldAt pairPkt.payload 0 1 = 1 ∧ fieldAt pairPkt.payload 2 1 = 1 ∧ fieldAt pairPkt.payload 1 1 < 48 ∧ zeroAt pairPkt.payload 3 13 = true)
      ∧ parsePair pairPkt.payload 16 = .ok pairSet) :=
  ⟨⟨by decide, read_ok (by decide +kernel)⟩, ⟨by decide, read_ok (by decide +kernel), by decide⟩,
    ⟨by decide, read_ok (by decide +kernel), by decide⟩, ⟨by decide +kernel, by decide, read_ok (by decide +kernel)⟩, by decide, by decide,
    read_ok (by decide +kernel)⟩

theorem witness_SeqLoadReplacesProgram_whole :
    Passes booted { opcode := 0x0200, form := .sites, units := 4, gen := .shadow } seqPkt [2] ∧ fieldAt seqPkt.payload 0 4 = 2
    ∧ fieldAt seqPkt.payload 4 4 = 0 ∧ fieldAt seqPkt.payload 8 4 = 2 ∧ fieldAt seqPkt.payload 12 1 = 2 ∧ zeroAt seqPkt.payload 13 3 = true
    ∧ (∀ i < 2, ((parseEntry ((seqPkt.payload.drop (16 + 16 * i)).take 16) 2).map fun e => e.lset) = some 0)
    ∧ ((parseEntry ((seqPkt.payload.drop 32).take 16) 2).any Entry.fallsThrough) = false := by decide +kernel

theorem witness_SeqLoadReplacesProgram_parts :
    (Passes booted { opcode := 0x0200, form := .sites, units := 15, gen := .shadow } seqOpen [0, 2] ∧ fieldAt seqOpen.payload 12 1 = 1
      ∧ (parseEntry ((seqOpen.payload.drop 208).take 16) 2).isSome = true)
    ∧ (Passes loadOpen { opcode := 0x0200, form := .sites, units := 3, gen := .shadow } seqMiddle [0, 2] ∧ fieldAt seqMiddle.payload 4 4 = 1
      ∧ (parseEntry ((seqMiddle.payload.drop 16).take 16) 3).isSome = true)
    ∧ Passes loadOpen { opcode := 0x0200, form := .sites, units := 15, gen := .shadow } seqLast [0, 2] ∧ fieldAt seqLast.payload 4 4 = 2
    ∧ ((parseEntry ((seqLast.payload.drop 208).take 16) 3).any Entry.fallsThrough) = false
    ∧ (([0, 2] : List Cluster).all fun c =>
        let q := (loadOpen.gens[c]).shadow.config.program
        q.loadOpen && q.total == 3 && (q.entry 0).isSome && (q.entry 1).isSome) = true :=
  ⟨by decide +kernel, by decide +kernel, by decide +kernel, by decide +kernel, by decide +kernel, by decide +kernel⟩

theorem witness_GenerationsCommitRevertDiscard :
    (Passes booted { opcode := 0x0110, form := .sites, units := 1, gen := .pend } (pk 1 5 []) [0, 2]
      ∧ (booted.commitFault [0, 2]).isNone ∧ ∀ k ∈ booted.sitesFor [0, 2], (booted.seqs[k]).front = none)
    ∧ (Passes wrapGens { opcode := 0x0111, form := .sites, units := 1, gen := .pend } (pk 1 5 []) [0, 2]
      ∧ ∀ c ∈ ([0, 2] : List Cluster), (wrapGens.gens[c]).prev = some ⟨9, { mux := 1 }⟩)
    ∧ Passes wrapGens { opcode := 0x0112, form := .clusters, units := 1, gen := .shadow } (pk 1 5 []) [0, 2] :=
  ⟨⟨by decide, by decide +kernel, by decide +kernel⟩, ⟨by decide, by decide +kernel⟩, by decide⟩

theorem witness_RefusedTimingSetChangesNothing :
    (Passes booted { opcode := 0x0100, form := .clusters, units := 31, gen := .shadow } badTimingPkt [0, 2]
      ∧ fieldAt badTimingPkt.payload 0 1 < 64 ∧ zeroAt badTimingPkt.payload 1 15 = true)
    ∧ parseTiming (fieldAt badTimingPkt.payload 0 1) (badTimingPkt.payload.drop 16) = .error ⟨1, 3, 0, 0⟩ := ⟨by decide +kernel, read_error (by decide +kernel)⟩

/-- A whole STORED segment of 512 vectors. -/
def wholeSeg (id : Word) : Seg :=
  { id := id, len := 512, idleSafe := false, stream := false,
    insts := [{ blocks := [{ runs := [(512, 0)], vectors := 512, opBytes := 8, bodyLen := 8 }], next := 1, vectors := 512, done := true }] }

/-- `booted`, its clusters with a two-entry program in force and its segments whole. -/
def playable : State :=
  { booted with gens := Vector.replicate 12 { cur := ⟨1, { program := twoProgram }⟩, shadow := ⟨2, { program := twoProgram }⟩ },
                mem := { booted.mem with segs := Vector.replicate 12 [wholeSeg 5, wholeSeg 6] } }

def descPay (flags : Nat) : List Byte := leBytes 2 17 ++ leBytes 1 1 ++ leBytes 1 flags ++ List.replicate 60 0
def descSet : Descriptor := ⟨17, [0], 0, false, Vector.replicate 12 0, 0⟩
def commitPkt (flags : Nat) : Packet := pk 5 8 (descPay flags)
def startPkt (mode : Nat) (time : BitVec 96) : Packet := pk 3 8 (leBytes 2 17 ++ leBytes 2 mode ++ leBytes 12 time.toNat)

/-- Site 3 of `playable` holds the descriptor. -/
def described : State := { playable with seqs := upd playable.seqs 3 fun q => { q with front := some descSet } }
/-- Site 3 is in some state, with a start pending or not. -/
def siteIs (x : SiteState) (start : Bool) : State :=
  let st : Option Start := if start then some ⟨.atTime, 17, some (10 ^ 18), false⟩ else none
  let play : Option Play :=
    if x.busy then some { entry := 0, start := playable.net - 100, vaddr := 0, len := 512, period := 20480, tset := 0, lset := 0 } else none
  { described with sites := upd described.sites 3 fun r => { r with state := x },
                   seqs := upd described.seqs 3 fun q => { q with start := st, desc := some descSet, play := play } }
/-- Site 3 has a member on another device. -/
def ganged : State := { described with gangs := upd described.gangs 3 fun _ => some ⟨9, [77], [0], 1⟩ }

/-- Cluster 2 joins site 3 of clusters 3 and 4. -/
def mixed : State :=
  { described with siteOf := ⟨#[0, 1, 2, 3, 3, 5, 6, 7, 8, 9, 10, 11], rfl⟩ }
def gangPkt : Packet := pk 2 12 []
def declPkt : Packet := pk 2 5 (leBytes 4 9 ++ leBytes 4 8 ++ [1])
def pinPkt : Packet := pk 2 5 (leBytes 4 5)
/-- Stream 5 of cluster 2: a LOAD stream in, or the stamp stream out. -/
def openPkt (dir : Nat) : Packet := pk 3 4 ([5] ++ leBytes 1 dir ++ leBytes 2 0 ++ leBytes 8 0x3000 ++ leBytes 4 16 ++ leBytes 2 1 ++ leBytes 2 0 ++ leBytes 4 40)
def closePkt (dir : Nat) : Packet := pk 2 4 ([5] ++ leBytes 1 dir)
def streaming : State :=
  { playable with mem := { playable.mem with ins := upd playable.mem.ins 5 fun t => { t with isOpen := true, staged := 3 },
                                             outs := upd playable.mem.outs 5 fun t => { t with isOpen := true } } }
def statsPkt (kind flags len : Nat) : Packet :=
  pk 3 0 (leBytes 1 kind ++ leBytes 1 flags ++ leBytes 2 2 ++ leBytes 4 len ++ leBytes 8 0x5000 ++ [3, 17])

theorem witness_BurstCommitPublishesDescriptor :
    (Passes playable { opcode := 0x0210, form := .site, units := 5, gen := .pend, notInDiag := true } (commitPkt 0) [3]
      ∧ bitOf (fieldAt (commitPkt 0).payload 3 1) 1 = false ∧ (playable.seqs[(3 : Cluster)]).start.isNone
      ∧ (playable.deepCheck 3 (fun c => ((playable.gens[c]).pend.getD (playable.gens[c]).cur).config) descSet).isOk)
    ∧ parseDescriptor (commitPkt 0).payload 2 (playable.members 3) (playable.siteLevel 3) = .ok (descSet, false)
    ∧ (Passes playable { opcode := 0x0210, form := .site, units := 5, gen := .pend, notInDiag := true } (commitPkt 2) [3]
      ∧ bitOf (fieldAt (commitPkt 2).payload 3 1) 1 = true ∧ (playable.commitFault (playable.members 3)).isNone
      ∧ (playable.deepCheck 3 (fun c => (playable.gens[c]).shadow.config) descSet).isOk)
    ∧ parseDescriptor (commitPkt 2).payload 2 (playable.members 3) (playable.siteLevel 3) = .ok (descSet, true) :=
  ⟨by decide +kernel, read_ok (by decide +kernel), by decide +kernel, read_ok (by decide +kernel)⟩

theorem witness_BurstStartMakesStartPending :
    (Passes described { opcode := 0x0211, form := .site, units := 3, gen := .pend, notInDiag := true, haltSites := true } (startPkt 1 0) [3]
      ∧ (described.seqs[(3 : Cluster)]).start.isNone ∧ (∀ c ∈ described.members 3, described.limCal c = false)
      ∧ (described.sites[(3 : Cluster)]).state.rests = true ∧ described.powered 3 = true ∧ described.blockedAt described.net = false
      ∧ (described.sites[(3 : Cluster)]).pends (reqStop ||| reqAbort) = false
      ∧ described.net < timeOf (stampOf (described.net + 1000000000)) - 600 * nsUnits
      ∧ ((siteIs .running false).sites[(3 : Cluster)]).state.rests = false ∧ ((siteIs .idle true).seqs[(3 : Cluster)]).start.isSome
      ∧ ganged.multi 3 = true ∧ timeOf 5 - 600 * nsUnits ≤ ganged.net)
    ∧ parseStart (startPkt 0 (stampOf (described.net + 1000000000))).payload false = .ok (17, .atTime, stampOf (described.net + 1000000000))
    ∧ parseStart (startPkt 1 0).payload false = .ok (17, .asap, 0) ∧ parseStart (startPkt 2 0).payload false = .ok (17, .chained, 0)
    ∧ parseStart (startPkt 0 5).payload true = .ok (17, .atTime, 5) :=
  ⟨by decide +kernel, read_ok (by decide +kernel), read_ok (by decide +kernel), read_ok (by decide +kernel), read_ok (by decide +kernel)⟩

/-- A NOP that runs when an ABORT comes. -/
def nopRun : Routine := ⟨0x0001, { pk 1 0 [] with ring := 2 }⟩

theorem witness_StopAndAbortBySiteState :
    (∀ x ∈ [SiteState.running, .belay, .stalled], Passes (siteIs x true) { opcode := 0x0212, form := .site, units := 1, gen := .pend } (pk 1 8 []) [3]
      ∧ ((siteIs x true).sites[(3 : Cluster)]).state.busy = true)
    ∧ (∀ x ∈ [SiteState.armed, .idle, .halted], ((siteIs x true).sites[(3 : Cluster)]).state.busy = false
      ∧ ((siteIs x true).seqs[(3 : Cluster)]).start.isSome = true)
    ∧ (∀ r ∈ [none, some nopRun], Passes (beforeAbort (siteIs .running false) (pk 1 8 []) r)
        { opcode := 0x0215, form := .site, units := 1, gen := .pend } (pk 1 8 []) [3])
    ∧ ((siteIs .running false).seqs[(3 : Cluster)]).play.isSome = true ∧ ((siteIs .running false).seqs[(3 : Cluster)]).stall.isNone
    ∧ (described.sites[(3 : Cluster)]).state.rests = true ∧ (described.seqs[(3 : Cluster)]).start.isNone := by
  refine ⟨?_, ?_, ?_⟩ <;> decide +kernel

theorem witness_JumpAndResumeBySiteState :
    Passes described { opcode := 0x0213, form := .site, units := 1, gen := .pend } (pk 1 8 []) [3]
    ∧ Passes (siteIs .stalled false) { opcode := 0x0214, form := .site, units := 1, gen := .pend } (pk 1 8 []) [3]
    ∧ ((siteIs .stalled false).sites[(3 : Cluster)]).state = .stalled ∧ (described.sites[(3 : Cluster)]).state ≠ .stalled := by decide +kernel

theorem witness_SiteGangFormsSites :
    ((∀ c : Cluster, mixed.siteOf[mixed.siteOf[c]] = mixed.siteOf[c])
      ∧ Passes mixed { opcode := 0x0220, form := .clusters, units := 2, notInDiag := true } gangPkt [2, 3]
      ∧ fieldAt gangPkt.payload 0 1 = 0 ∧ (∀ k ∈ mixed.sitesFor [2, 3], mixed.quietSite k = true) ∧ (∀ c ∈ ([2, 3] : List Cluster), mixed.limCal c = false)
      ∧ (mixed.sitesFor [2, 3]).flatMap mixed.members = [2, 3, 4])
    ∧ mixed.parseGang gangPkt.payload = .ok none := ⟨by decide +kernel, read_ok (by decide +kernel)⟩

theorem witness_SegmentsDeclaredAndPinned :
    (Passes playable { opcode := 0x0201, form := .clusters, units := 2 } declPkt [0, 2]
      ∧ (u32At declPkt.payload 0 ≠ 0xFFFFFFFF ∧ fieldAt declPkt.payload 4 4 = 8 ∧ fieldAt declPkt.payload 8 1 = 1 ∧ zeroAt declPkt.payload 9 7 = true)
      ∧ ∀ c ∈ ([0, 2] : List Cluster), playable.reaches c 9 = false ∧ playable.boundOn c 9 = false)
    ∧ (Passes playable { opcode := 0x0302, form := .clusters, units := 2 } pinPkt [0, 2] ∧ zeroAt pinPkt.payload 4 12 = true
      ∧ (∀ c ∈ ([0, 2] : List Cluster), findSeg playable.mem.segs[c] 5 = some (wholeSeg 5))
      ∧ ((wholeSeg 5).stream = false ∧ (wholeSeg 5).complete = true ∧ (wholeSeg 5).wholePages - (wholeSeg 5).pages ≤ playable.freePages 0))
    ∧ (Passes playable { opcode := 0x0303, form := .clusters, units := 2 } pinPkt [0, 2]
      ∧ ∀ c ∈ ([0, 2] : List Cluster), (findSeg playable.mem.segs[c] 5).isSome = true ∧ playable.reaches c 5 = false) := by
  refine ⟨?_, ?_, ?_⟩ <;> decide +kernel

theorem witness_StreamsOpenAndClose :
    (∀ dir ∈ [0, 1], Passes playable { opcode := 0x0300, form := .cluster, units := 3 } (openPkt dir) [2]
      ∧ (firstBad (playable.openFields (openPkt dir).payload 2)).isNone ∧ fieldAt (openPkt dir).payload 0 1 = 5 ∧ fieldAt (openPkt dir).payload 1 1 = dir
      ∧ playable.mem.freeBytes ≥ fieldAt (openPkt dir).payload 0x10 2 * 2 ^ 20 ∧ (playable.mem.ins[(5 : Fin 24)]).isOpen = false
      ∧ (playable.mem.outs[(5 : Fin 24)]).isOpen = false)
    ∧ (∀ dir ∈ [0, 1], Passes streaming { opcode := 0x0301, form := .cluster, units := 2 } (closePkt dir) [2]
      ∧ fieldAt (closePkt dir).payload 0 1 = 5 ∧ fieldAt (closePkt dir).payload 1 1 = dir ∧ zeroAt (closePkt dir).payload 2 14 = true
      ∧ (streaming.mem.ins[(5 : Fin 24)]).isOpen = true ∧ (streaming.mem.ins[(5 : Fin 24)]).play = false
      ∧ (streaming.mem.outs[(5 : Fin 24)]).isOpen = true ∧ streaming.quietSite (streaming.site 2) = true) := by
  refine ⟨?_, ?_⟩ <;> decide +kernel

theorem witness_TdcStatsSnapshot :
    (∀ x ∈ [(0, 1, 200), (1, 3, 9000), (0, 0, 127)],
      let p := statsPkt x.1 x.2.1 x.2.2
      PassesOwner playable { opcode := 0x0501, form := .none, units := 3 } p [] (playable.statsOwner p.func p.payload)
      ∧ fieldAt p.payload 2 1 = 2 ∧ fieldAt p.payload 0 1 = x.1 ∧ fieldAt p.payload 1 1 = x.2.1 ∧ fieldAt p.payload 4 4 = x.2.2
      ∧ zeroAt p.payload 3 1 = true ∧ fieldAt p.payload 8 8 % 64 = 0 ∧ fieldAt p.payload 16 1 = 3 ∧ fieldAt p.payload 17 1 = 17
      ∧ zeroAt p.payload 18 14 = true) := by decide +kernel

def rulesPkt : Packet := pk 4 0 (leBytes 2 6 ++ leBytes 2 1 ++ List.replicate 28 0 ++ [1] ++ List.replicate 15 0)
def itemPkt : Packet := pk 5 0 ([10, 0] ++ leBytes 2 700)
def flowPkt (n : Nat) : Packet := pk 2 0 (leBytes 2 n ++ [1, 1] ++ leBytes 2 6 ++ leBytes 2 40 ++ [5, 0] ++ leBytes 2 17)
def sourcePkt (src port : Nat) : Packet := pk 3 0 (leBytes 1 src ++ leBytes 1 port ++ [2] ++ List.replicate 13 0 ++ leBytes 4 1 ++ leBytes 4 77)
/-- PTM is enabled, port 2 is trained, and the time unit has refused a step. -/
def timed : State :=
  { booted with host := { booted.host with ptm := true }, time := { booted.time with state := .refused, theta := 500, source := .rope, port := 1 },
                rope := { booted.rope with ports := upd booted.rope.ports 2 fun p => { p with state := .align } } }
def ropePkt (port ctl level : Nat) : Packet := pk 2 0 (leBytes 1 port ++ leBytes 1 ctl ++ leBytes 1 level)
def testPkt (port loop prbs inject : Nat) : Packet := pk 2 0 (leBytes 1 port ++ leBytes 1 loop ++ leBytes 1 prbs ++ leBytes 1 inject ++ leBytes 4 9)
/-- Site 3 has a path through port 0 and a start pending. -/
def roped : State := { ganged with seqs := upd ganged.seqs 3 fun q => { q with start := some ⟨.atTime, 17, some (10 ^ 18), false⟩ } }
/-- Every cluster has an accepted commanded run of every kind at 35 degrees. -/
def calibrated : State :=
  { booted with cal := { booted.cal with cl := Vector.replicate 12 { kinds := Vector.replicate 4 (some ⟨560, {}, {}, 0⟩), cmdTables := Vector.replicate 12 (some ([], 560)) } } }
/-- A HALT_CLUSTER record is held on source 10. -/
def held : State :=
  { booted with flt := { booted.flt with
      first := some ⟨5, 10, 1, 7, .cluster, false, false, .haltCluster, 0, 1024, 5⟩, halted := 1 } }
def attestPkt : Packet := pk 4 0 (List.replicate 32 3 ++ leBytes 8 0x8000 ++ leBytes 4 9420)
def signing : State := { booted with sec := { booted.sec with trees := [0] } }
def stagePkt (first off : Nat) : Packet := pk 3 0 (leBytes 4 off ++ leBytes 4 16 ++ leBytes 1 first ++ List.replicate 7 0 ++ List.replicate 16 9)
def staging : State := { booted with sec := { booted.sec with slots := ⟨#[.factory, .bytes (List.replicate 32 1)], rfl⟩, stageNext := some 32 } }
def activatePkt (n : Nat) : Packet := pk 2 0 (leBytes 1 n)

theorem witness_RulesLoadedAndItemsPosted :
    (Passes booted { opcode := 0x0600, form := .none, units := 4 } rulesPkt [] ∧ fieldAt rulesPkt.payload 2 2 = 1)
    ∧ parseRules rulesPkt.payload = .ok (6, [{ act := .setFlag }])
    ∧ (Passes booted { opcode := 0x0601, form := .none, units := 5 } itemPkt [] ∧ ItemType.ofCode (fieldAt itemPkt.payload 0 1) = some .hostItem
      ∧ zeroAt itemPkt.payload 1 1 = true ∧ fieldAt itemPkt.payload 2 2 = 700 ∧ booted.flowOwner 700 = itemPkt.func ∧ zeroAt itemPkt.payload 4 20 = true
      ∧ itemReservedOk .hostItem ((itemPkt.payload.drop 24).take 40) = true ∧ booted.sched.pendingOf 700 < (booted.sched.flow 700).maxPending
      ∧ 1024 < booted.sched.free) := ⟨by decide +kernel, read_ok (by decide +kernel), by decide +kernel⟩

theorem witness_FlowConfigWritesRecord :
    ∀ n ∈ [5, 700, 0xFFFF], PassesOwner booted { opcode := 0x0602, form := .none, units := 2 } (flowPkt n) [] (booted.flowRole 0 (flowPkt n).payload)
      ∧ fieldAt (flowPkt n).payload 0 2 = n ∧ fieldAt (flowPkt n).payload 2 1 < 4 ∧ fieldAt (flowPkt n).payload 3 1 < 2
      ∧ zeroAt (flowPkt n).payload 6 2 = false ∧ fieldAt (flowPkt n).payload 8 1 < 13 ∧ zeroAt (flowPkt n).payload 9 1 = true
      ∧ zeroAt (flowPkt n).payload 12 4 = true := by decide +kernel

theorem witness_ReservedCoreTakesPriorityZero :
    let x : Sched := { queue := [{ type := .hostItem, prio := 0, flow := 0, site := none, source := 0 }] }
    x.reserve.getLsbD 1 = true ∧ (x.firstEligible 0 1).isSome := by decide +kernel

theorem witness_TimeCommands :
    (∀ x ∈ [(0, 0, TimeSource.freeRun), (1, 0, .ptm), (2, 2, .rope)],
      let p := sourcePkt x.1 x.2.1
      Passes timed { opcode := 0x0700, form := .none, units := 3, pfOnly := true } p [] ∧ TimeSource.ofCode (fieldAt p.payload 0 1) = some x.2.2
      ∧ fieldAt p.payload 1 1 = x.2.1 ∧ fieldAt p.payload 2 1 < 16 ∧ zeroAt p.payload 3 13 = true)
    ∧ (timed.host.ptm = true ∧ (timed.rope.ports[(2 : Port)]).state.trained = true)
    ∧ (Passes timed { opcode := 0x0701, form := .none, units := 1, pfOnly := true } (pk 1 0 []) [] ∧ timed.time.state = .refused ∧ timed.allQuiet = true
      ∧ booted.time.state ≠ .refused ∧ roped.allQuiet = false)
    ∧ (Passes booted { opcode := 0x0702, form := .none, units := 2, pfOnly := true } (pk 2 0 [1, 2]) [] ∧ fieldAt (pk 2 0 [1, 2]).payload 0 4 = 513
      ∧ zeroAt (pk 2 0 [1, 2]).payload 4 12 = true) := by
  refine ⟨?_, ?_, ?_, ?_⟩ <;> decide +kernel

theorem witness_RopeConfigAndTest :
    (Passes timed { opcode := 0x0800, form := .none, units := 2, pfOnly := true } (ropePkt 2 7 3) [] ∧ fieldAt (ropePkt 2 7 3).payload 0 1 = 2
      ∧ fieldAt (ropePkt 2 7 3).payload 1 1 = 7 ∧ fieldAt (ropePkt 2 7 3).payload 2 1 = 3 ∧ zeroAt (ropePkt 2 7 3).payload 3 13 = true
      ∧ timed.portInUse 2 = false ∧ (timed.rope.ports[(2 : Port)]).state ≠ .up ∧ roped.portInUse 0 = true)
    ∧ (Passes timed { opcode := 0x0801, form := .none, units := 2, pfOnly := true } (testPkt 2 1 1 1) [] ∧ fieldAt (testPkt 2 1 1 1).payload 0 1 = 2
      ∧ fieldAt (testPkt 2 1 1 1).payload 1 1 = 1 ∧ fieldAt (testPkt 2 1 1 1).payload 2 1 = 1 ∧ fieldAt (testPkt 2 1 1 1).payload 3 1 = 1
      ∧ zeroAt (testPkt 2 1 1 1).payload 8 8 = true ∧ (timed.rope.ports[(2 : Port)]).test.running = false) := by
  constructor <;> decide +kernel

theorem witness_CalibrationCommands :
    (Passes booted { opcode := 0x0900, form := .clusters, units := 2, notInDiag := true } (pk 2 5 [15]) [0, 2] ∧ fieldAt (pk 2 5 [15]).payload 0 1 = 15
      ∧ zeroAt (pk 2 5 [15]).payload 1 15 = true ∧ (∀ c ∈ ([0, 2] : List Cluster), booted.quietSite (booted.site c) = true)
      ∧ booted.pwr.tbWarm = false ∧ roped.quietSite (roped.site 3) = false)
    ∧ (Passes calibrated { opcode := 0x0901, form := .none, units := 2, pfOnly := true } (pk 2 0 [2]) [] ∧ fieldAt (pk 2 0 [2]).payload 0 1 = 2
      ∧ zeroAt (pk 2 0 [2]).payload 1 15 = true ∧ (calibrated.calMissing 2).isNone ∧ calibrated.recentStores < 8)
    ∧ (let p := pk 2 0 (leBytes 4 1200001 ++ leBytes 4 0xFFFFFFFE)
       Passes booted { opcode := 0x0902, form := .none, units := 2, pfOnly := true } p [] ∧ fieldAt p.payload 0 4 = 1200001
       ∧ (u32At p.payload 4).toInt = -2 ∧ zeroAt p.payload 8 8 = true) := by
  refine ⟨?_, ?_, ?_⟩ <;> decide +kernel

theorem witness_FaultCommands :
    (Passes booted { opcode := 0x0A00, form := .none, units := 2, pfOnly := true } (pk 2 0 [10, 0, 3]) []
      ∧ sourceOf 10 = some (.cluster, .haltCluster) ∧ Reaction.ofCode 3 = some .parkCluster ∧ FaultClass.cluster.floor.code ≤ Reaction.parkCluster.code
      ∧ zeroAt (pk 2 0 [10, 0, 3]).payload 3 13 = true)
    ∧ (let p := pk 2 0 [10, 0, 0, 0, 4, 0, 0, 0, 7]
       Passes booted { opcode := 0x0A01, form := .none, units := 2, pfOnly := true } p [] ∧ fieldAt p.payload 0 2 = 10 ∧ zeroAt p.payload 2 2 = true
       ∧ fieldAt p.payload 4 2 < 4096 ∧ zeroAt p.payload 6 2 = true ∧ zeroAt p.payload 12 4 = true ∧ booted.flt.first = none)
    ∧ (Passes held { opcode := 0x0A02, form := .none, units := 2, pfOnly := true, underHalt := true } (pk 2 0 [10]) []
      ∧ zeroAt (pk 2 0 [10]).payload 2 14 = true ∧ held.flt.first.map (·.source) = some 10 ∧ held.conditions = []
      ∧ fieldAt (pk 2 0 [10]).payload 0 2 = 10 ∧ fieldAt (pk 2 0 [11]).payload 0 2 ≠ 10) := by
  refine ⟨?_, ?_, ?_⟩ <;> decide +kernel

theorem witness_PowerToleranceSet :
    Passes booted { opcode := 0x0B00, form := .clusters, units := 2 } (pk 2 5 (leBytes 4 400000)) [0, 2]
    ∧ zeroAt (pk 2 5 (leBytes 4 400000)).payload 4 12 = true := by decide +kernel

theorem witness_SecurityCommands :
    (Passes signing { opcode := 0x0C00, form := .none, units := 4, underHalt := true } attestPkt [] ∧ (firstBad (attestFields attestPkt.payload)).isNone
      ∧ 9420 ≤ fieldAt attestPkt.payload 0x28 4 ∧ signing.sec.reserved = [] ∧ signing.sigAvailable = true ∧ booted.sigAvailable = false)
    ∧ (Passes booted { opcode := 0x0C01, form := .none, units := 3, pfOnly := true } (stagePkt 1 0) [] ∧ fieldAt (stagePkt 1 0).payload 4 4 = 16
      ∧ fieldAt (stagePkt 1 0).payload 8 1 = 1 ∧ fieldAt (stagePkt 1 0).payload 0 4 = 0 ∧ zeroAt (stagePkt 1 0).payload 9 7 = true)
    ∧ (Passes staging { opcode := 0x0C01, form := .none, units := 3, pfOnly := true } (stagePkt 0 32) [] ∧ fieldAt (stagePkt 0 32).payload 8 1 = 0
      ∧ fieldAt (stagePkt 0 32).payload 0 4 = 32 ∧ staging.sec.stageNext = some 32 ∧ staging.sec.slots[staging.sec.bootSlot + 1] = .bytes (List.replicate 32 1))
    ∧ (∀ n ∈ [0, 1], Passes booted { opcode := 0x0C02, form := .none, units := 2, pfOnly := true } (activatePkt n) []
      ∧ fieldAt (activatePkt n).payload 0 1 = n ∧ zeroAt (activatePkt n).payload 1 15 = true) := by
  refine ⟨?_, ?_, ?_, ?_⟩ <;> decide +kernel

def fromVf2 (p : Packet) : Packet := { p with func := 2 }

theorem witness_MirrorSetAndFunctionReset :
    (let p := pk 2 0 (leBytes 8 0x7000 ++ [1])
     Passes booted { opcode := 0x0010, form := .none, units := 2, underHalt := true } p [] ∧ fieldAt p.payload 8 1 = 1
     ∧ (u64At p.payload 0).toNat % 4096 = 0 ∧ zeroAt p.payload 9 7 = true)
    ∧ (PassesOwner (siteIs .running true) { opcode := 0x0003, form := .func, units := 1 } (pk 1 0x0000 []) [] none
      ∧ (siteIs .running true).owns 0 3 = true ∧ ((siteIs .running true).sites[(3 : Cluster)]).state.busy = true
       ∧ PassesOwner (only 2 booted) { opcode := 0x0003, form := .func, units := 1 } (fromVf2 (pk 1 0x2000 [])) [] none) := by
  refine ⟨?_, ?_⟩ <;> decide +kernel

def armGens (s : State) : Cluster → ClusterConfig := fun c => if c ∈ ([3] : List Cluster) then (s.gens[c]).shadow.config else ((s.gens[c]).pend.getD (s.gens[c]).cur).config
def memG (s : State) : Memory := match s.deepCheck 3 (armGens s) descSet with | .ok m => m | _ => {}
def errG (s : State) : Option Ending := match s.deepCheck 3 (armGens s) descSet with | .error m => some m | _ => none
def shadowProg (pr : Program) : State := { described with gens := upd described.gens 3 fun g => { g with shadow := ⟨g.shadow.number, { g.shadow.config with program := pr }⟩, prev := some ⟨99, { g.shadow.config with program := pr }⟩ } }
def reGood : State := shadowProg twoProgram
def reGoodSr : State := { reGood with mem := { reGood.mem with selfRef := true } }
def reSeg : State := shadowProg { total := 2, entries := [(0, { segment := 77, op := .next }), (1, { segment := 6, op := .halt })] }
def prevOf (s : State) : Cluster → Generation := fun _ => ((s.gens[(3 : Cluster)]).prev.getD ⟨0, {}⟩)
def reNone : State := shadowProg {}
def reAdm : State := { reGood with mem := { reGood.mem with segs := upd reGood.mem.segs 3 fun _ => [wholeSeg 5, { wholeSeg 6 with damaged := true, res := .staged }] } }
theorem leBytes_length (k n : Nat) : (leBytes k n).length = k := by
  induction k generalizing n with
  | zero => rfl
  | succ k ih => simp [leBytes, ih]
theorem config_bytes_long (g : ClusterConfig) : (16 : BitVec 35).toNat < g.bytes.length := by
  simp only [ClusterConfig.bytes, List.length_append, leBytes_length]
  have : (16 : BitVec 35).toNat = 16 := rfl
  omega
def opened : State := { booted with mem := { booted.mem with ins := upd booted.mem.ins 3 fun t => {t with isOpen := true, size := 16, tail := 14, head := 10}, outs := upd booted.mem.outs 3 fun t => {t with isOpen := true, size := 16, tail := 14, head := 10} } }
def desc1 : Desc := ⟨0x4000, 4, 1⟩
def given1 : State := {booted with host := {booted.host with fn := upd booted.host.fn 3 fun h => {h with rq := {h.rq with tail := 9}}}}
def urgentR : Routine := ⟨0x0001, { pk 1 0 [] with ring := 2 }⟩
def emptyRing0 : State := {booted with host := {booted.host with fn := upd booted.host.fn 0 fun h => {h with sq := upd h.sq 0 fun r => {r with tail := 0}}}}

theorem witness_DoorbellsSetTheirIndex :
    (booted.barOpen (1 : Func) = true ∧ booted.host.fn[(1 : Func)].sq[(2 : Fin 4)].takes (BitVec.toNat (2007 : Word)) = true)
    ∧ (given1.barOpen (3 : Func) = true ∧ given1.host.fn[(3 : Func)].rq.en = true
      ∧ ringStep given1.host.fn[(3 : Func)].rq.entries given1.host.fn[(3 : Func)].rq.head (BitVec.toNat (8 : Word)) ≤ ringStep given1.host.fn[(3 : Func)].rq.entries given1.host.fn[(3 : Func)].rq.head given1.host.fn[(3 : Func)].rq.tail)
    ∧ (opened.barOpen (0 : Func) = true ∧ opened.mem.ins[(3 : Fin 24)].isOpen = true ∧ opened.host.owner[streamCluster (3 : Fin 24).val] = (0 : Func)
      ∧ ringStep opened.mem.ins[(3 : Fin 24)].size opened.mem.ins[(3 : Fin 24)].head opened.mem.ins[(3 : Fin 24)].tail + ringStep opened.mem.ins[(3 : Fin 24)].size opened.mem.ins[(3 : Fin 24)].tail (BitVec.toNat (1 : Word)) < opened.mem.ins[(3 : Fin 24)].size)
    ∧ (opened.barOpen (0 : Func) = true ∧ opened.mem.outs[(3 : Fin 24)].isOpen = true ∧ opened.host.owner[streamCluster (3 : Fin 24).val] = (0 : Func)
      ∧ ringStep opened.mem.outs[(3 : Fin 24)].size opened.mem.outs[(3 : Fin 24)].head opened.mem.outs[(3 : Fin 24)].tail + ringStep opened.mem.outs[(3 : Fin 24)].size opened.mem.outs[(3 : Fin 24)].tail (BitVec.toNat (1 : Word)) < opened.mem.outs[(3 : Fin 24)].size)
    ∧ (opened.barOpen (0 : Func) = true ∧ (false = false ∨ opened.host.fn[(0 : Func)].sq[(3 : Fin 4)].en = false))
    ∧ (opened.barOpen (2 : Func) = true ∧ (true = false ∨ opened.mem.ins[(3 : Fin 24)].isOpen = false
      ∨ opened.host.owner[streamCluster (3 : Fin 24).val] ≠ (2 : Func)))
    ∧ (emptyRing0.barOpen (0 : Func) = true ∧ emptyRing0.host.fn[(0 : Func)].sq[(0 : Fin 4)].takes (BitVec.toNat (5 : Word)) = true
      ∧ urgentR.packet.func = (0 : Func) ∧ urgentR.packet.ring ≠ (0 : Fin 4) ∧ emptyRing0.restartOf urgentR.opcode.toNat urgentR.packet = none
      ∧ emptyRing0.couldRun urgentR.opcode.toNat urgentR.packet = true ∧ emptyRing0.ringOpen (0 : Func) (0 : Fin 4) = true
      ∧ BitVec.toNat (5 : Word) % 2 ^ (emptyRing0.host.fn[(0 : Func)].sq[(0 : Fin 4)].log2 - 4) ≠ emptyRing0.host.fn[(0 : Func)].sq[(0 : Fin 4)].head
      ∧ emptyRing0.host.fn[(0 : Func)].sq[(0 : Fin 4)].head < 2 ^ (emptyRing0.host.fn[(0 : Func)].sq[(0 : Fin 4)].log2 - 4)) := by and_intros <;> decide +kernel

def shutRings : State := {booted with host := {booted.host with fn := upd booted.host.fn 4 fun h => {h with sq := upd h.sq (1 : Fin 4) fun r => {r with en := false, err := true}, rq := {h.rq with en := false}}}}

theorem witness_OwnersAndRingEnables :
    (booted.barOpen (0 : Func) = true ∧ (3 : Cluster).val / 8 = 0 ∧ (4 : Func).val ≤ ↑booted.host.numVfs ∧ booted.ownerFree (3 : Cluster) = true
      ∧ ∀ (d : Cluster), ↑d / 8 = 0
      → bitsOf (BitVec.toNat (16384 : Word)) (4 * ↑d) 4 = if d = (3 : Cluster) then (4 : Func).val else ↑booted.host.owner[d])
    ∧ (shutRings.barOpen (4 : Func) = true ∧ shutRings.host.fn[(4 : Func)].sq[(1 : Fin 4)].en = false)
    ∧ (shutRings.barOpen (4 : Func) = true ∧ shutRings.host.fn[(4 : Func)].rq.en = false)
    ∧ (shutRings.barOpen (4 : Func) = true)
    ∧ (booted.barOpen (4 : Func) = true)
    ∧ (shutRings.host.fn[(4 : Func)].rq.en = false ∧ shutRings.restarts (4 : Func) = 0)
    ∧ (booted.barOpen (0 : Func) = true ∧ (3 : Cluster).val / 8 = (0 : Fin 2).val
      ∧ bitsOf (BitVec.toNat (53248 : Word)) (4 * ((3 : Cluster).val % 8)) 4 ≠ ↑booted.host.owner[(3 : Cluster)]
      ∧ (↑booted.host.numVfs < bitsOf (BitVec.toNat (53248 : Word)) (4 * ((3 : Cluster).val % 8)) 4 ∨ booted.ownerFree (3 : Cluster) = false)
      ∧ ∀ (d : Cluster), ↑d / 8 = (0 : Fin 2).val → d ≠ (3 : Cluster) → bitsOf (BitVec.toNat (53248 : Word)) (4 * (↑d % 8)) 4 = ↑booted.host.owner[d])
    ∧ ((siteIs SiteState.running false).barOpen (0 : Func) = true ∧ (3 : Cluster).val / 8 = (0 : Fin 2).val
      ∧ bitsOf (BitVec.toNat (8192 : Word)) (4 * ((3 : Cluster).val % 8)) 4 ≠ ↑(siteIs SiteState.running false).host.owner[(3 : Cluster)]
      ∧ (↑(siteIs SiteState.running false).host.numVfs < bitsOf (BitVec.toNat (8192 : Word)) (4 * ((3 : Cluster).val % 8)) 4
      ∨ (siteIs SiteState.running false).ownerFree (3 : Cluster) = false) ∧ ∀ (d : Cluster), ↑d / 8 = (0 : Fin 2).val → d ≠ (3 : Cluster)
      → bitsOf (BitVec.toNat (8192 : Word)) (4 * (↑d % 8)) 4 = ↑(siteIs SiteState.running false).host.owner[d]) := by and_intros <;> decide +kernel

def flagged : State := {booted with siteOf := upd booted.siteOf 5 fun _ => 2, seqs := booted.seqs.map fun q => {q with lateFlag := true, aborted := true, condMiss := true}, cl := booted.cl.map fun e => {e with cap := {e.cap with loss := true}, tdc := e.tdc.map fun t => {t with ovf := true}, lvl := {e.lvl with lvlSc := 0x81}}, mem := {booted.mem with perCl := booted.mem.perCl.map fun x => {x with underrun := true}}}

theorem witness_EventClearReachesItsSources :
    (flagged.barOpen (0 : Func) = true ∧ bitsOf (BitVec.toNat (130088962 : Word)) 0 4 = (2 : Cluster).val ∧ flagged.siteOf[(2 : Cluster)] = (2 : Cluster)
      ∧ flagged.owns (0 : Func) (2 : Cluster) = true)
    ∧ (flagged.barOpen (0 : Func) = true ∧ (12 ≤ bitsOf (BitVec.toNat (130088973 : Word)) 0 4
      ∨ flagged.isSite (Fin.ofNat 12 (bitsOf (BitVec.toNat (130088973 : Word)) 0 4)) = false
      ∨ flagged.owns (0 : Func) (Fin.ofNat 12 (bitsOf (BitVec.toNat (130088973 : Word)) 0 4)) = false)) := by and_intros <;> decide +kernel

def counted1 : State := {booted with cmd := {booted.cmd with abandons := 5}, host := {booted.host with fn := upd booted.host.fn 2 fun h => {h with dbErr := 3}}, cl := booted.cl.map fun e => {e with cap := {e.cap with dropVec := 9, cmpCnt := 0x123456789A}}, seqs := booted.seqs.map fun q => {q with lateFlag := true, aborted := true, condMiss := true}}
def diagOn (space : BitVec 2) (addr : BitVec 35) : State := {booted with ids := {booted.ids with diag := {booted.ids.diag with active := true, space := space, cluster := 4, addr := addr}}}
def afterRead_ (i : Instr) (s : State) : State := match exec i s with | .next t => t | _ => s
def busOf (s : State) : Word := s.host.busRead.getD 0

theorem witness_ReadsClearLatchAndWindow :
    (counted1.barOpen (2 : Func) = true)
    ∧ (counted1.barOpen (0 : Func) = true)
    ∧ (counted1.barOpen (0 : Func) = true)
    ∧ (counted1.barOpen (0 : Func) = true)
    ∧ (counted1.barOpen (0 : Func) = true)
    ∧ (counted1.barOpen (0 : Func) = true)
    ∧ (State.reset.barOpen (1 : Func) = false ∨ false = true ∧ (1 : Func) ≠ (0 : Func) ∨ (if (1 : Func) = (0 : Func)
      ∧ false = false then 2 ^ 24 else 2 ^ 16) ≤ BitVec.toNat (4 : BitVec 24))
    ∧ (counted1.barOpen (0 : Func) = true ∧ (true = true → (0 : Func) = (0 : Func)) ∧ (BitVec.toNat (64 : BitVec 24) < if (0 : Func) = (0 : Func)
      ∧ true = false then 2 ^ 24 else 2 ^ 16) ∧ (true = true ∨ (0 : Func) ≠ (0 : Func) ∧ BitVec.toNat (64 : BitVec 24) < 4096
      ∨ regAt (0 : Func) (64 : BitVec 24) = none))
    ∧ ((diagOn (2 : BitVec 2) (16 : BitVec 35)).barOpen (0 : Func) = true ∧ (diagOn (2 : BitVec 2) (16 : BitVec 35)).ids.diag.active = true
      ∧ (diagOn (2 : BitVec 2) (16 : BitVec 35)).ids.diag.space = (2 : BitVec 2)
      ∧ (diagOn (2 : BitVec 2) (16 : BitVec 35)).ids.diag.cluster.toNat = (4 : Cluster).val
      ∧ (diagOn (2 : BitVec 2) (16 : BitVec 35)).ids.diag.addr.toNat < (diagOn (2 : BitVec 2) (16 : BitVec 35)).gens[(4 : Cluster)].shadow.config.bytes.length)
    ∧ ((diagOn (0 : BitVec 2) (16 : BitVec 35)).barOpen (0 : Func) = true ∧ (diagOn (0 : BitVec 2) (16 : BitVec 35)).ids.diag.active = true
      ∧ (diagOn (0 : BitVec 2) (16 : BitVec 35)).ids.diag.space = (0 : BitVec 2)
      ∧ (diagOn (0 : BitVec 2) (16 : BitVec 35)).ids.diag.addr.toNat < hbmBytes)
    ∧ ((diagOn (0 : BitVec 2) (25769803776 : BitVec 35)).barOpen (0 : Func) = true
      ∧ (diagOn (0 : BitVec 2) (25769803776 : BitVec 35)).ids.diag.active = true
      ∧ (diagOn (0 : BitVec 2) (25769803776 : BitVec 35)).ids.diag.space = (0 : BitVec 2)
      ∧ hbmBytes ≤ (diagOn (0 : BitVec 2) (25769803776 : BitVec 35)).ids.diag.addr.toNat)
    ∧ (BitVec.toNat (69640 : BitVec 24) % 4 = 0 ∧ (1 : Fin 4).val + 2 ^ (1 : Fin 3).val ≤ 4
      ∧ exec (Instr.rcRegisterRead (0 : Func) (69640 : BitVec 24) false (2 : Fin 3)) counted1 = Host.Outcome.next (afterRead_ (Instr.rcRegisterRead (0 : Func) (69640 : BitVec 24)) counted1)
      ∧ (afterRead_ (Instr.rcRegisterRead (0 : Func) (69640 : BitVec 24)) counted1).host.busRead = some (busOf (afterRead_ (Instr.rcRegisterRead (0 : Func) (69640 : BitVec 24)) counted1)))
    ∧ (BitVec.toNat (5242880 : BitVec 24) % 4 = 0 ∧ (3 : Fin 4).val + 2 ^ (0 : Fin 3).val ≤ 4
      ∧ exec (Instr.rcRegisterRead (3 : Func) (5242880 : BitVec 24) false (2 : Fin 3)) booted = Host.Outcome.next (afterRead_ (Instr.rcRegisterRead (3 : Func) (5242880 : BitVec 24)) booted)
      ∧ (afterRead_ (Instr.rcRegisterRead (3 : Func) (5242880 : BitVec 24)) booted).host.busRead = some (4294967295 : Word))
    ∧ (BitVec.toNat (262148 : BitVec 24) % 4 = 0 ∧ (2 : Fin 4).val + 2 ^ (0 : Fin 3).val ≤ 4
      ∧ exec (Instr.latchedPairRead (0 : Func) (262148 : BitVec 24) (2 : Fin 3)) counted1 = Host.Outcome.next (afterRead_ (Instr.latchedPairRead (0 : Func) (262148 : BitVec 24)) counted1)
      ∧ (afterRead_ (Instr.latchedPairRead (0 : Func) (262148 : BitVec 24)) counted1).host.busRead = some (busOf (afterRead_ (Instr.latchedPairRead (0 : Func) (262148 : BitVec 24)) counted1))) := 
  ⟨by and_intros <;> decide +kernel,
    by and_intros <;> decide +kernel,
    by and_intros <;> decide +kernel,
    by and_intros <;> decide +kernel,
    by and_intros <;> decide +kernel,
    by and_intros <;> decide +kernel,
    by and_intros <;> decide +kernel,
    by and_intros <;> decide +kernel,
    ⟨by decide +kernel, by decide +kernel, by decide +kernel, by decide +kernel, config_bytes_long _⟩,
    by and_intros <;> decide +kernel,
    by and_intros <;> decide +kernel,
    ⟨by decide, by decide, rfl, by decide +kernel⟩,
    ⟨by decide, by decide, rfl, by decide +kernel⟩,
    ⟨by decide, by decide, rfl, by decide +kernel⟩⟩

def someTopo : State := {booted with rope := {booted.rope with topoFull := true, topo := [⟨1, 0, 1, 3, 2, 7, true, 5⟩, ⟨2, 0, 1, 3, 2, 7, true, 5⟩]}, flt := {booted.flt with history := [⟨0, 8, 1, 2, .cluster, false, true, false, false, true, .parkCluster, 0, 1⟩]}}

theorem witness_RegisterWritesAndSelections :
    (booted.barOpen (0 : Func) = true)
    ∧ (booted.barOpen (0 : Func) = true)
    ∧ (counted1.barOpen (0 : Func) = true)
    ∧ (counted1.barOpen (5 : Func) = true ∧ counted1.host.fn[(5 : Func)].sq[(3 : Fin 4)].en = true)
    ∧ (counted1.barOpen (0 : Func) = true ∧ counted1.host.fn[(0 : Func)].sq[(3 : Fin 4)].en = true)
    ∧ (shutRings.barOpen (4 : Func) = true ∧ shutRings.host.fn[(4 : Func)].sq[(1 : Fin 4)].en = false)
    ∧ (booted.barOpen (0 : Func) = true)
    ∧ (booted.barOpen (3 : Func) = true ∧ false = decide ((3 : Func) = (0 : Func)) ∧ BitVec.toNat (68 : BitVec 24) < 4096 ∧ (false = false
      ∨ ¬(BitVec.toNat (68 : BitVec 24) < 20 ∨ 64 ≤ BitVec.toNat (68 : BitVec 24) ∧ BitVec.toNat (68 : BitVec 24) < 256)))
    ∧ (someTopo.barOpen (0 : Func) = true)
    ∧ (someTopo.barOpen (0 : Func) = true)
    ∧ (someTopo.barOpen (0 : Func) = true)
    ∧ (someTopo.barOpen (0 : Func) = true ∧ BitVec.getLsbD (65 : Word) 0 = true) := by and_intros <;> decide +kernel

def i3cBusy : State := {booted with ids := {booted.ids with i3c := {booted.ids.i3c with busy := true, dir := true, len := 5, data := ⟨#[1,2,3,4], rfl⟩}}}

theorem witness_DiagnosticModeAndI3c :
    (booted.barOpen (0 : Func) = true ∧ booted.allQuiet = true)
    ∧ ((siteIs SiteState.running false).barOpen (0 : Func) = true ∧ (siteIs SiteState.running false).allQuiet = false)
    ∧ ((diagOn (1 : BitVec 2) (2 : BitVec 35)).barOpen (0 : Func) = true)
    ∧ ((5 : BitVec 16) ≠ (17481 : BitVec 16))
    ∧ (booted.barOpen (0 : Func) = true ∧ booted.ids.i3c.busy = false ∧ (BitVec.extractLsb' 0 7 (270532613 : Word)).toNat < 96
      ∧ 1 ≤ (BitVec.extractLsb' 24 5 (270532613 : Word)).toNat ∧ (BitVec.extractLsb' 24 5 (270532613 : Word)).toNat ≤ 16
      ∧ booted.present.getLsbD (BitVec.extractLsb' 0 7 (270532613 : Word)).toNat = true)
    ∧ (i3cBusy.barOpen (0 : Func) = true ∧ i3cBusy.ids.i3c.busy = true)
    ∧ (booted.barOpen (0 : Func) = true ∧ booted.ids.i3c.busy = false ∧ (95 < (BitVec.extractLsb' 0 7 (287309829 : Word)).toNat
      ∨ (BitVec.extractLsb' 24 5 (287309829 : Word)).toNat = 0 ∨ 16 < (BitVec.extractLsb' 24 5 (287309829 : Word)).toNat))
    ∧ (i3cBusy.ids.i3c.busy = true ∧ i3cBusy.ids.i3c.dir = true
      ∧ i3cBusy.ids.i3c.len.toNat = [(9 : Byte), (8 : Byte), (7 : Byte), (6 : Byte), (5 : Byte)].length
      ∧ [(9 : Byte), (8 : Byte), (7 : Byte), (6 : Byte), (5 : Byte)].length ≤ 16)
    ∧ (i3cBusy.ids.i3c.busy = true)
    ∧ ((diagOn (1 : BitVec 2) (2 : BitVec 35)).barOpen (0 : Func) = true)
    ∧ ((diagOn (1 : BitVec 2) (2 : BitVec 35)).barOpen (0 : Func) = true)
    ∧ (booted.barOpen (0 : Func) = true) := by and_intros <;> decide +kernel

def ropeLocked : State := {booted with time := {booted.time with source := .rope, state := .locked}}

theorem witness_ResetsKeepAndClear :
    (counted1.pwr.porst = false ∧ ∀ (w : Nat × LogId), counted1.sec.wrote = some w → w.fst < counted1.now)
    ∧ (counted1.pwr.porst = false ∧ counted1.pwr.perst = false ∧ counted1.flt.taking = none)
    ∧ (counted1.barOpen (0 : Func) = true ∧ BitVec.extractLsb' 16 16 (1463877633 : Word) = (22337 : BitVec 16) ∧ BitVec.getLsbD (1463877633 : Word) 0 = true
      ∧ ¬(counted1.time.source = TimeSource.rope ∧ counted1.time.state = TimeState.locked) ∧ counted1.flt.taking = none)
    ∧ (ropeLocked.barOpen (0 : Func) = true ∧ BitVec.extractLsb' 16 16 (1463877633 : Word) = (22337 : BitVec 16)
      ∧ BitVec.getLsbD (1463877633 : Word) 0 = true ∧ (ropeLocked.time.source = TimeSource.rope ∧ ropeLocked.time.state = TimeState.locked)
      ∧ ropeLocked.flt.taking = none)
    ∧ (ropeLocked.barOpen (0 : Func) = true ∧ (BitVec.extractLsb' 16 16 (1463877632 : Word) ≠ (22337 : BitVec 16)
      ∨ BitVec.getLsbD (1463877632 : Word) 0 = false))
    ∧ (State.reset.pwr.porst = true) := by and_intros <;> decide +kernel

def coldStart : State := {State.reset with pwr := {State.reset.pwr with porst := false}}
def coldNoRef : State := {coldStart with pwr := {coldStart.pwr with refclkOk := false, cause := 2}, flt := {coldStart.flt with read := true}}
def chipsTwo : List Chip := [⟨0, 8, 1⟩, ⟨0, 3, 1⟩, ⟨1, 9, 1⟩]
def bootingTry : State := {booted with pwr := {booted.pwr with phase := .booting (booted.now - 5) true, bootDone := false}, sec := {booted.sec with try_ := some 1, bootSlot := 1}}
def bootingNoRef : State := {bootingTry with pwr := {bootingTry.pwr with pllLost := true}}

theorem witness_BootAndClocks :
    (coldStart.pwr.porst = false ∧ coldStart.pwr.phase = BootPhase.held ∧ coldStart.pwr.refclkOk = true ∧ coldStart.pwr.cause ≠ (4 : BitVec 3))
    ∧ (coldNoRef.pwr.porst = false ∧ coldNoRef.pwr.phase = BootPhase.held ∧ coldNoRef.pwr.refclkOk = false ∧ coldNoRef.flt.read = true)
    ∧ (bootingNoRef.pwr.phase = BootPhase.booting (booted.now - 5) true ∧ (bootingNoRef.pwr.refclkOk = false ∨ bootingNoRef.pwr.pllLost = true))
    ∧ (bootingTry.pwr.phase = BootPhase.booting (booted.now - 5) true ∧ bootingTry.pwr.refclkOk = true ∧ bootingTry.pwr.pllLost = false)
    ∧ (bootingTry.pwr.phase = BootPhase.booting (booted.now - 5) true ∧ bootingTry.now ≤ booted.now - 5 + 1000000000 * nsUnits)
    ∧ (booted.pwr.phase = BootPhase.ready ∧ (3 : Func).val ≤ ↑booted.host.numVfs)
    ∧ (booted.pwr.phase = BootPhase.ready ∧ booted.pwr.refclkOk = true ∧ booted.pwr.pllLost = false ∧ Calm booted)
    ∧ (booted.pwr.porst = false ∧ ∀ (k : Cluster), k ∈ booted.siteIdxs → Option.any (fun x => x.late) booted.seqs[k].start = false) := by and_intros <;> decide +kernel

def stopCmd : InternalCommand := ⟨3, some 3, Vector.replicate 12 2, [], [], none, true, false⟩
def levelCmd (n : BitVec 16) : InternalCommand := ⟨3, some 3, Vector.replicate 12 n, [(0x325, -7)], [], none, false, false⟩
def withInternal (x : InternalCommand) : State := {siteIs .running false with sched := {(siteIs .running false).sched with internal := [x, stopCmd]}}
def rechaining (start : Bool) : State := {siteIs .running start with sched := ({(siteIs .running false).sched with rechain := 0x00A}).updFlow 3 fun f => {f with rechain := true, rechainDesc := 99}}
/-- A micro-sequencer at word 0, its micro-stack empty, with three entries and full. -/
def idleMicro : Micro := {}
def deepMicro : Micro := { z := true, stack := [5, 6, 7] }
def fullMicro : Micro := { stack := [5, 6, 7, 8] }

theorem witness_InternalCommandsAndMachineChecks :
    ((withInternal stopCmd).pwr.phase = BootPhase.ready ∧ (withInternal stopCmd).cmd.halted = false
      ∧ (withInternal stopCmd).sched.internal = [stopCmd, stopCmd]
      ∧ (withInternal stopCmd).tieWinner (0 : Fin 4) = some ((withInternal stopCmd).flowOwner stopCmd.flow)
      ∧ stopCmd = { flow := stopCmd.flow, site := some (3 : Cluster), expectGen := stopCmd.expectGen, levels := [], edges := [], restart := none, stop := true, search := false }
      ∧ ((withInternal stopCmd).siteState (3 : Cluster)).busy = true
      ∧ (withInternal stopCmd).sites[(3 : Cluster)].reqAck &&& (2 : BitVec 8) = (0 : BitVec 8)
      ∧ (withInternal stopCmd).gens[(3 : Cluster)].shadow.number = stopCmd.expectGen[(3 : Cluster)])
    ∧ ((withInternal (levelCmd (2 : BitVec 16))).pwr.phase = BootPhase.ready ∧ (withInternal (levelCmd (2 : BitVec 16))).cmd.halted = false
      ∧ (withInternal (levelCmd (2 : BitVec 16))).sched.internal = [levelCmd (2 : BitVec 16), stopCmd]
      ∧ (withInternal (levelCmd (2 : BitVec 16))).tieWinner (0 : Fin 4) = some ((withInternal (levelCmd (2 : BitVec 16))).flowOwner (levelCmd (2 : BitVec 16)).flow)
      ∧ levelCmd (2 : BitVec 16) = { flow := (levelCmd (2 : BitVec 16)).flow, site := some (3 : Cluster), expectGen := (levelCmd (2 : BitVec 16)).expectGen, levels := [((805 : BitVec 16), (-7 : Int))], edges := [], restart := none, stop := false, search := (levelCmd (2 : BitVec 16)).search }
      ∧ (withInternal (levelCmd (2 : BitVec 16))).siteOf[(3 : Cluster)] = (3 : Cluster)
      ∧ bitsOf (BitVec.toNat (805 : BitVec 16)) 8 4 = (3 : Cluster).val
      ∧ (withInternal (levelCmd (2 : BitVec 16))).gens[(3 : Cluster)].shadow.number = (levelCmd (2 : BitVec 16)).expectGen[(3 : Cluster)])
    ∧ ((withInternal (levelCmd (7 : BitVec 16))).pwr.phase = BootPhase.ready ∧ (withInternal (levelCmd (7 : BitVec 16))).cmd.halted = false
      ∧ (withInternal (levelCmd (7 : BitVec 16))).sched.internal = [levelCmd (7 : BitVec 16), stopCmd]
      ∧ (withInternal (levelCmd (7 : BitVec 16))).tieWinner (0 : Fin 4) = some ((withInternal (levelCmd (7 : BitVec 16))).flowOwner (levelCmd (7 : BitVec 16)).flow)
      ∧ levelCmd (7 : BitVec 16) = { flow := (levelCmd (7 : BitVec 16)).flow, site := some (3 : Cluster), expectGen := (levelCmd (7 : BitVec 16)).expectGen, levels := [((805 : BitVec 16), (-7 : Int))], edges := [], restart := none, stop := false, search := false }
      ∧ (withInternal (levelCmd (7 : BitVec 16))).siteOf[(3 : Cluster)] = (3 : Cluster)
      ∧ bitsOf (BitVec.toNat (805 : BitVec 16)) 8 4 = (3 : Cluster).val
      ∧ (withInternal (levelCmd (7 : BitVec 16))).gens[(3 : Cluster)].shadow.number ≠ (levelCmd (7 : BitVec 16)).expectGen[(3 : Cluster)]
      ∧ Calm (withInternal (levelCmd (7 : BitVec 16))))
    ∧ ((rechaining false).pwr.phase = BootPhase.ready ∧ (rechaining false).cmd.halted = false
      ∧ (rechaining false).sched.rechain.getLsbD (3 : Cluster).val = true ∧ ((rechaining false).sched.flow (3 : Cluster).val).rechain = true
      ∧ ((rechaining false).sched.flow (3 : Cluster).val).rechainDesc ≠ (0 : BitVec 16) ∧ (rechaining false).gangs[(3 : Cluster)] = none
      ∧ (rechaining false).startHeld (3 : Cluster) = false ∧ (rechaining false).flt.device = false ∧ (rechaining false).ids.diag.active = false
      ∧ (∀ (c : Cluster), c ∈ (rechaining false).members (3 : Cluster) → (rechaining false).flt.halted.getLsbD ↑c = false
      ∧ (rechaining false).limCal c = false) ∧ ((rechaining false).siteState (3 : Cluster)).rests = false
      ∧ (rechaining false).sched.rechainOff.getLsbD (3 : Cluster).val = false
      ∧ (rechaining false).tieWinner (0 : Fin 4) = some ((rechaining false).flowOwner (3 : Cluster).val))
    ∧ ((rechaining true).pwr.phase = BootPhase.ready ∧ (rechaining true).cmd.halted = false
      ∧ (rechaining true).sched.rechain.getLsbD (3 : Cluster).val = true ∧ ((rechaining true).sched.flow (3 : Cluster).val).rechain = true
      ∧ (rechaining true).startHeld (3 : Cluster) = true ∧ (rechaining true).sched.rechainOff.getLsbD (3 : Cluster).val = false
      ∧ (rechaining true).tieWinner (0 : Fin 4) = some ((rechaining true).flowOwner (3 : Cluster).val))
    ∧ (booted.pwr.phase = BootPhase.ready ∧ booted.cmd.halted = false ∧ Calm booted)
    ∧ (booted.pwr.phase = BootPhase.ready ∧ booted.cmd.halted = false ∧ booted.couldRun urgentR.opcode.toNat urgentR.packet = true
      ∧ booted.restartOf urgentR.opcode.toNat urgentR.packet = none)
    ∧ ((storedWord (2147610639 : Word) ^^^ (1 : StoredWord)).fails 0 = true)
    ∧ ((storedWord (2147610639 : Word) ^^^ (8589934592 : StoredWord)).fails 0 = false
      ∧ (storedWord (2147610639 : Word) ^^^ (8589934592 : StoredWord)).fails 1 = true)
    ∧ (BitVec.toNat (72700468 : Word) / 2 ^ 26 = 1)
    ∧ (BitVec.toNat (139809332 : Word) / 2 ^ 26 = 2)
    ∧ (BitVec.toNat (206918196 : Word) / 2 ^ 26 = 3)
    ∧ (BitVec.toNat (274027060 : Word) / 2 ^ 26 = 4)
    ∧ (BitVec.toNat (341135924 : Word) / 2 ^ 26 = 5)
    ∧ (BitVec.toNat (408244788 : Word) / 2 ^ 26 = 6)
    ∧ (BitVec.toNat (341135924 : Word) / 2 ^ 26 = 5)
    ∧ (BitVec.toNat (408244788 : Word) / 2 ^ 26 = 6) := by and_intros <;> decide +kernel

def given2 : State := {booted with host := {booted.host with numVfs := 3}}
def quietLink : State := {booted with host := {booted.host with aspm := true, fn := Vector.replicate 13 {}}, pwr := {booted.pwr with quiet := booted.now - 5, cl := Vector.replicate 12 {}}}
def given3 : State := {quietLink with pwr := {quietLink.pwr with link := .l1}}
def given4 : State := {quietLink with pwr := {quietLink.pwr with cl := Vector.replicate 12 {state := 3, chosen := 3}}}
def mirrored : State := {booted with host := {booted.host with fn := upd booted.host.fn 2 fun h => {h with mirrorOn := true, mirrorAddr := 0x7000, mirrorSeq := 4}}}

theorem witness_ConfigurationLinkAndMirror :
    (booted.pwr.phase = BootPhase.ready ∧ (4 : Func).val ≤ ↑booted.host.numVfs)
    ∧ (booted.pwr.phase = BootPhase.ready ∧ (4 : Func).val ≤ ↑booted.host.numVfs)
    ∧ (given2.pwr.phase = BootPhase.ready ∧ ↑given2.host.numVfs < (4 : Func).val)
    ∧ (booted.pwr.phase = BootPhase.ready)
    ∧ (booted.pwr.phase = BootPhase.ready)
    ∧ (booted.pwr.phase = BootPhase.ready)
    ∧ (booted.pwr.phase = BootPhase.ready)
    ∧ (booted.pwr.porst = false ∧ booted.pwr.perst = false ∧ booted.mayL1 (decide (LinkState.l1 = LinkState.l12)) = false ∧ LinkState.l1 ≠ LinkState.down
      ∧ LinkState.l1 ≠ LinkState.l0)
    ∧ (given3.pwr.porst = false ∧ given3.pwr.perst = false ∧ given3.mayL1 (decide (LinkState.l11 = LinkState.l12)) = true ∧ given3.pwr.link ≠ LinkState.l0
      ∧ LinkState.l11 ≠ LinkState.down ∧ LinkState.l11 ≠ LinkState.l0)
    ∧ (booted.pwr.porst = false ∧ booted.pwr.perst = false ∧ (LinkState.down = LinkState.down ∨ LinkState.down = LinkState.l0))
    ∧ (given4.pwr.phase = BootPhase.ready ∧ given4.host.aspm = true ∧ given4.pwr.link = LinkState.l0 ∧ given4.unfetched = false ∧ (true = true
      → given4.allDeep = true) ∧ given4.now ≤ given4.pwr.quiet + 10000 * nsUnits ∧ Calm given4)
    ∧ (mirrored.portTurn = some (PortReq.mirror (2 : Func))) := by and_intros <;> decide +kernel

def armTime : Int := playable.net + 700 * nsUnits
def toArm (fail : Bool) : State := {described with seqs := upd described.seqs 3 fun q => {q with start := some ⟨.atTime, 17, some armTime, false⟩}, gens := described.gens.map fun g => {g with pend := some ⟨5, g.cur.config⟩}, pwr := {described.pwr with thermWarn := fail}}
def armedSet : Armed := { mode := .atTime, desc := descSet, sched := 20480 * 60000000000, armedAt := 0, due := 20480 * 60000000000, entry := some 0 }
def armedIs (a : Armed) (gang : Bool) : State := { siteIs .armed false with seqs := upd described.seqs 3 fun q => {q with armed := some a, desc := some descSet}, gangs := if gang then upd described.gangs 3 fun _ => some ⟨7, [0x55], [1], 2⟩ else described.gangs}
def voting (v : Bool) : State := let s := armedIs {armedSet with vote := some true} true; {s with seqs := upd s.seqs 3 fun q => {q with receipts := [⟨0x55, true, BitVec.ofInt 32 (armedSet.sched / nsUnits % 1000000000), v⟩]}}
def given5 : Armed := {armedSet with vote := some true}
def pulsing : State := {playable with cl := upd playable.cl 3 fun e => {e with io := {e.io with trig0Until := some (playable.net + 7), trig1Until := some 3}}}

theorem witness_EventsArmAndVote :
    (playable.pwr.phase = BootPhase.ready ∧ 5 * nsUnits ≤ 2 * (3 * nsUnits))
    ∧ (playable.pwr.phase = BootPhase.ready ∧ 2 * (2 * nsUnits) < 5 * nsUnits)
    ∧ ((toArm false).seqs[(3 : Cluster)].start = some { mode := StartMode.atTime, seq := (17 : BitVec 16), sched := some armTime }
      ∧ (toArm false).seqs[(3 : Cluster)].front = some descSet ∧ descSet.seq = (17 : BitVec 16) ∧ (toArm false).gangs[(3 : Cluster)] = none
      ∧ ((toArm false).siteState (3 : Cluster)).rests = true ∧ (toArm false).powered (3 : Cluster) = true
      ∧ (toArm false).blockedAt (ceilTo (armTime - (600 : Int) * ↑nsUnits) (4 * tickUnits)) = false
      ∧ (toArm false).sites[(3 : Cluster)].req = (0 : BitVec 8) ∧ (toArm false).reqWait[(3 : Cluster)] = (0 : BitVec 8)
      ∧ (toArm false).net ≤ ceilTo (armTime - (600 : Int) * ↑nsUnits) (4 * tickUnits) ∧ Calm (toArm false)
      ∧ (toArm false).earlier (toArm false).recent[(3 : Cluster)].frontAt (ceilTo (armTime - (600 : Int) * ↑nsUnits) (4 * tickUnits)) = true
      ∧ ∀ (c : Cluster), c ∈ (toArm false).members (3 : Cluster)
      → (toArm false).earlier (toArm false).recent[c].commitAt (ceilTo (armTime - (600 : Int) * ↑nsUnits) (4 * tickUnits)) = true)
    ∧ ((toArm true).seqs[(3 : Cluster)].start = some { mode := StartMode.atTime, seq := (17 : BitVec 16), sched := some armTime }
      ∧ (toArm true).gangs[(3 : Cluster)] = none ∧ (toArm true).net ≤ ceilTo (armTime - (600 : Int) * ↑nsUnits) (4 * tickUnits) ∧ Calm (toArm true)
      ∧ ((toArm true).powered (3 : Cluster) = false ∨ (toArm true).blockedAt (ceilTo (armTime - (600 : Int) * ↑nsUnits) (4 * tickUnits)) = true
      ∧ (toArm true).armBlocked = true ∨ ((toArm true).siteState (3 : Cluster)).rests = false))
    ∧ ((voting true).gangs[(3 : Cluster)].isSome = true ∧ (voting true).seqs[(3 : Cluster)].armed = some given5 ∧ given5.vote = some true
      ∧ (voting true).votesIn (3 : Cluster) given5.sched = true ∧ (voting true).net ≤ given5.sched - (400 : Int) * ↑nsUnits ∧ Calm (voting true))
    ∧ ((voting false).gangs[(3 : Cluster)].isSome = true ∧ (voting false).seqs[(3 : Cluster)].armed = some given5
      ∧ (voting false).siteState (3 : Cluster) = SiteState.armed ∧ (given5.vote = some false ∨ given5.vote = some true
      ∧ (voting false).votesIn (3 : Cluster) given5.sched = false) ∧ Calm (voting false))
    ∧ (pulsing.cl[(3 : Cluster)].io.trig0Until = some (playable.net + (7 : Int)) ∧ pulsing.net ≤ playable.net + (7 : Int) ∧ Calm pulsing) := by and_intros <;> decide +kernel

def e0 : Entry := { segment := 5, op := .next }
def e1 : Entry := { segment := 6, op := .halt }
def given6 : Armed := {armedSet with ready := false}
def given7 : State := {armedIs {armedSet with mode := .chained} false with sched := (rechaining false).sched}
def given8 : Armed := {armedSet with mode := .chained}
def playing1 : Play := { entry := 0, start := playable.net - 100, vaddr := 0, len := 512, period := 20480, tset := 0, lset := 0, succ := some (.entry 1) }
def decided : State := let s := siteIs .running false; {s with seqs := upd s.seqs 3 fun q => {q with play := some playing1}}

theorem witness_PlaysStart :
    ((armedIs armedSet false).seqs[(3 : Cluster)].armed = some armedSet ∧ armedSet.entry = some 0 ∧ armedSet.mode ≠ StartMode.chained
      ∧ armedSet.vote = none ∧ armedSet.ready = true ∧ (armedIs armedSet false).entry (3 : Cluster) 0 = some e0
      ∧ (∀ (c : Cluster), c ∈ (armedIs armedSet false).members (3 : Cluster) → (armedIs armedSet false).cl[c].lvl.busyUntil = none)
      ∧ armedSet.due % ↑tickUnits = (0 : Int) ∧ (armedIs armedSet false).net ≤ armedSet.due ∧ Calm (armedIs armedSet false))
    ∧ ((armedIs given6 false).seqs[(3 : Cluster)].armed = some given6 ∧ given6.entry = some 0 ∧ given6.mode ≠ StartMode.chained ∧ given6.vote = none
      ∧ given6.ready = false ∧ (armedIs given6 false).entry (3 : Cluster) 0 = some e0
      ∧ (∀ (c : Cluster), c ∈ (armedIs given6 false).members (3 : Cluster) → (armedIs given6 false).cl[c].lvl.busyUntil = none)
      ∧ given6.due % ↑tickUnits = (0 : Int) ∧ (armedIs given6 false).net ≤ given6.due ∧ Calm (armedIs given6 false))
    ∧ (given7.seqs[(3 : Cluster)].armed = some given8 ∧ given8.entry = some 0 ∧ given8.mode = StartMode.chained ∧ given8.ready = true
      ∧ given7.entry (3 : Cluster) 0 = some e0 ∧ (∀ (c : Cluster), c ∈ given7.members (3 : Cluster) → given7.cl[c].lvl.busyUntil = none)
      ∧ given8.due % ↑tickUnits = (0 : Int) ∧ given7.net ≤ given8.due ∧ Calm given7)
    ∧ (decided.seqs[(3 : Cluster)].play = some playing1 ∧ playing1.succ = some (Succ.entry 1) ∧ playing1.belay = false
      ∧ decided.siteState (3 : Cluster) = SiteState.running ∧ decided.seqs[(3 : Cluster)].belay = none ∧ decided.seqs[(3 : Cluster)].stall = none
      ∧ decided.seqs[(3 : Cluster)].abortAt = none ∧ decided.seqs[(3 : Cluster)].ending = none ∧ decided.entry (3 : Cluster) 1 = some e1
      ∧ decided.net ≤ playing1.stop ∧ Calm decided) := by and_intros <;> decide +kernel

def deciding (e : Entry) (f : Seqr → Seqr) (g : SiteRec → SiteRec) : State :=
  let s := siteIs .running false
  let pr : Program := { total := 3, entries := [(0, e), (1, e1), (2, e0)] }
  { s with gens := s.gens.map fun x => {x with cur := ⟨1, {x.cur.config with program := pr}⟩},
           seqs := upd s.seqs 3 fun q => f {q with play := some {playing1 with succ := none}}, sites := upd s.sites 3 g }
def playD : Play := {playing1 with succ := none}
def eJump : Entry := {e0 with op := .jump, target := 2}
def eCall : Entry := {e0 with op := .call, target := 2}
def eRet : Entry := {e0 with op := .ret}
def eBranch : Entry := {e0 with op := .branch, cond := .failBurst, target := 2}
def failing : State := deciding eBranch (fun q => {q with failBurst := true}) id
def stopping : State := deciding e0 id (fun r => {r with req := 2})
def playR : Play := {playD with resolve := some (true, true)}
def resolving (b : Bool) : State := let s := deciding eBranch (fun q => {q with play := some playR, receipts := if b then [⟨0x55, false, 0, false⟩] else []}) id; {s with gangs := upd s.gangs 3 fun _ => some ⟨7, [0x55], [1], 2⟩}

theorem witness_DecisionsFixTheSuccessor :
    (((deciding e0 id id).seqs[(3 : Cluster)].play = some playD ∧ playD.succ = none ∧ playD.resolve = none ∧ playD.belay = false
      ∧ (deciding e0 id id).seqs[(3 : Cluster)].stall = none ∧ (deciding e0 id id).seqs[(3 : Cluster)].abortAt = none
      ∧ (deciding e0 id id).seqs[(3 : Cluster)].siteAbort = false ∧ (deciding e0 id id).entry (3 : Cluster) playD.entry = some e0
      ∧ (deciding e0 id id).net ≤ playD.startOf (playD.len - leadOf playD.period ((deciding e0 id id).hops (3 : Cluster))) ∧ Calm (deciding e0 id id))
      ∧ ((deciding e0 id id).sites[(3 : Cluster)].req = (0 : BitVec 8) ∧ (deciding e0 id id).reqWait[(3 : Cluster)] = (0 : BitVec 8))
      ∧ e0.op = SeqOp.next ∧ (deciding e0 id id).readyAfter (3 : Cluster) playD.entry (playD.entry + 1) = true)
    ∧ (((deciding eJump id id).seqs[(3 : Cluster)].play = some playD ∧ playD.succ = none ∧ playD.resolve = none ∧ playD.belay = false
      ∧ (deciding eJump id id).seqs[(3 : Cluster)].stall = none ∧ (deciding eJump id id).seqs[(3 : Cluster)].abortAt = none
      ∧ (deciding eJump id id).seqs[(3 : Cluster)].siteAbort = false ∧ (deciding eJump id id).entry (3 : Cluster) playD.entry = some eJump
      ∧ (deciding eJump id id).net ≤ playD.startOf (playD.len - leadOf playD.period ((deciding eJump id id).hops (3 : Cluster)))
      ∧ Calm (deciding eJump id id)) ∧ ((deciding eJump id id).sites[(3 : Cluster)].req = (0 : BitVec 8)
      ∧ (deciding eJump id id).reqWait[(3 : Cluster)] = (0 : BitVec 8)) ∧ eJump.op = SeqOp.jump
      ∧ (deciding eJump id id).readyAfter (3 : Cluster) playD.entry eJump.target.toNat = true)
    ∧ (((deciding e1 id id).seqs[(3 : Cluster)].play = some playD ∧ playD.succ = none ∧ playD.resolve = none ∧ playD.belay = false
      ∧ (deciding e1 id id).seqs[(3 : Cluster)].stall = none ∧ (deciding e1 id id).seqs[(3 : Cluster)].abortAt = none
      ∧ (deciding e1 id id).seqs[(3 : Cluster)].siteAbort = false ∧ (deciding e1 id id).entry (3 : Cluster) playD.entry = some e1
      ∧ (deciding e1 id id).net ≤ playD.startOf (playD.len - leadOf playD.period ((deciding e1 id id).hops (3 : Cluster))) ∧ Calm (deciding e1 id id))
      ∧ ((deciding e1 id id).sites[(3 : Cluster)].req = (0 : BitVec 8) ∧ (deciding e1 id id).reqWait[(3 : Cluster)] = (0 : BitVec 8))
      ∧ e1.op = SeqOp.halt)
    ∧ (((deciding eCall id id).seqs[(3 : Cluster)].play = some playD ∧ playD.succ = none ∧ playD.resolve = none ∧ playD.belay = false
      ∧ (deciding eCall id id).seqs[(3 : Cluster)].stall = none ∧ (deciding eCall id id).seqs[(3 : Cluster)].abortAt = none
      ∧ (deciding eCall id id).seqs[(3 : Cluster)].siteAbort = false ∧ (deciding eCall id id).entry (3 : Cluster) playD.entry = some eCall
      ∧ (deciding eCall id id).net ≤ playD.startOf (playD.len - leadOf playD.period ((deciding eCall id id).hops (3 : Cluster)))
      ∧ Calm (deciding eCall id id)) ∧ ((deciding eCall id id).sites[(3 : Cluster)].req = (0 : BitVec 8)
      ∧ (deciding eCall id id).reqWait[(3 : Cluster)] = (0 : BitVec 8)) ∧ eCall.op = SeqOp.call
      ∧ (deciding eCall id id).seqs[(3 : Cluster)].stack.length < 8
      ∧ (deciding eCall id id).readyAfter (3 : Cluster) playD.entry eCall.target.toNat = true)
    ∧ (((deciding eRet id id).seqs[(3 : Cluster)].play = some playD ∧ playD.succ = none ∧ playD.resolve = none ∧ playD.belay = false
      ∧ (deciding eRet id id).seqs[(3 : Cluster)].stall = none ∧ (deciding eRet id id).seqs[(3 : Cluster)].abortAt = none
      ∧ (deciding eRet id id).seqs[(3 : Cluster)].siteAbort = false ∧ (deciding eRet id id).entry (3 : Cluster) playD.entry = some eRet
      ∧ (deciding eRet id id).net ≤ playD.startOf (playD.len - leadOf playD.period ((deciding eRet id id).hops (3 : Cluster)))
      ∧ Calm (deciding eRet id id)) ∧ ((deciding eRet id id).sites[(3 : Cluster)].req = (0 : BitVec 8)
      ∧ (deciding eRet id id).reqWait[(3 : Cluster)] = (0 : BitVec 8)) ∧ eRet.op = SeqOp.ret ∧ (deciding eRet id id).seqs[(3 : Cluster)].stack = [])
    ∧ ((failing.seqs[(3 : Cluster)].play = some playD ∧ playD.succ = none ∧ playD.resolve = none ∧ playD.belay = false
      ∧ failing.seqs[(3 : Cluster)].stall = none ∧ failing.seqs[(3 : Cluster)].abortAt = none ∧ failing.seqs[(3 : Cluster)].siteAbort = false
      ∧ failing.entry (3 : Cluster) playD.entry = some eBranch
      ∧ failing.net ≤ playD.startOf (playD.len - leadOf playD.period (failing.hops (3 : Cluster))) ∧ Calm failing)
      ∧ (failing.sites[(3 : Cluster)].req = (0 : BitVec 8) ∧ failing.reqWait[(3 : Cluster)] = (0 : BitVec 8)) ∧ eBranch.op = SeqOp.branch
      ∧ eBranch.cond = Cond.failBurst ∧ eBranch.invert = false ∧ failing.seqs[(3 : Cluster)].failBurst = true
      ∧ failing.readyAfter (3 : Cluster) playD.entry eBranch.target.toNat = true)
    ∧ ((stopping.seqs[(3 : Cluster)].play = some playD ∧ playD.succ = none ∧ playD.resolve = none ∧ playD.belay = false
      ∧ stopping.seqs[(3 : Cluster)].stall = none ∧ stopping.seqs[(3 : Cluster)].abortAt = none ∧ stopping.seqs[(3 : Cluster)].siteAbort = false
      ∧ stopping.entry (3 : Cluster) playD.entry = some e0
      ∧ stopping.net ≤ playD.startOf (playD.len - leadOf playD.period (stopping.hops (3 : Cluster))) ∧ Calm stopping) ∧ e0.op = SeqOp.next
      ∧ stopping.pendsBy (3 : Cluster) (2 : BitVec 8) (playD.startOf (playD.len - leadOf playD.period (stopping.hops (3 : Cluster)))) = true)
    ∧ ((resolving true).seqs[(3 : Cluster)].play = some playR ∧ playR.resolve = some (true, true)
      ∧ (resolving true).entry (3 : Cluster) playR.entry = some eBranch ∧ eBranch.op = SeqOp.branch
      ∧ (resolving true).seqs[(3 : Cluster)].abortAt = none
      ∧ List.map (resolving true).seqs[(3 : Cluster)].valueOf ((Option.map (fun x => x.members) (resolving true).gangs[(3 : Cluster)]).getD []) = List.map some [false]
      ∧ (resolving true).readyAfter (3 : Cluster) playR.entry eBranch.target.toNat = true
      ∧ (resolving true).readyAfter (3 : Cluster) playR.entry (playR.entry + 1) = true
      ∧ (resolving true).net ≤ playR.startOf (playR.len - leadOf playR.period ((resolving true).hops (3 : Cluster))) + ↑(40 * (resolving true).hops (3 : Cluster) * nsUnits)
      ∧ Calm (resolving true))
    ∧ ((resolving false).seqs[(3 : Cluster)].play = some playR ∧ playR.resolve = some (true, true)
      ∧ (resolving false).entry (3 : Cluster) playR.entry = some eBranch
      ∧ (85 : BitVec 64) ∈ (Option.map (fun x => x.members) (resolving false).gangs[(3 : Cluster)]).getD []
      ∧ (resolving false).seqs[(3 : Cluster)].valueOf (85 : BitVec 64) = none ∧ (resolving false).seqs[(3 : Cluster)].stall = none
      ∧ (resolving false).net ≤ playR.startOf (playR.len - leadOf playR.period ((resolving false).hops (3 : Cluster))) + ↑(40 * (resolving false).hops (3 : Cluster) * nsUnits)
      ∧ Calm (resolving false)) := by and_intros <;> decide +kernel

def upper : BitVec 96 := 0x8
def cond_ (op : SeqOp) (c : Cond) (n : BitVec 16) (inv : Bool) : Entry := {e0 with op := op, cond := c, cparam := n, invert := inv, target := 2, count := 4}
def hears (s : State) : State :=
  { s with gens := s.gens.map fun x => {x with cur := ⟨1, {x.cur.config with program := {x.cur.config.program with masks := Vector.replicate 16 upper}}⟩},
           seqs := s.seqs.map fun q => {q with window := [(0, 3, true), (5, 2, false)], loops := ⟨#[4, 1, 0, 7], rfl⟩, playCnt := 4}, recent := s.recent,
           cl := s.cl.map fun e => {e with io := {e.io with evt0 := true, evt1 := true, gevt := 0xFF}},
           sites := s.sites.map fun r => {r with req := 1, scFlags := 0x20} }
def condState (op : SeqOp) (c : Cond) (n : BitVec 16) (inv : Bool) : State := hears (deciding (cond_ op c n inv) id id)
def returning : State := deciding eRet (fun q => {q with stack := [2, 1]}) id
def fullStack : State := deciding eCall (fun q => {q with stack := List.replicate 8 1}) id
def noSeg (s : State) (safe : Bool) : State :=
  { s with mem := { s.mem with segs := s.mem.segs.map fun l => ({ wholeSeg 99 with stream := true, insts := [] } :: l).map fun x => { x with idleSafe := safe } },
           gens := s.gens.map fun x => {x with cur := ⟨1, {x.cur.config with program := {x.cur.config.program with entries := x.cur.config.program.entries.map fun p => if p.1 = 0 then p else (p.1, { p.2 with segment := 99 })}}⟩} }
def holding_ : State := noSeg (hears (deciding (cond_ .wait .fail 0 false) id id)) true
def starved : State := noSeg (deciding e0 id id) false
def aborting : State := deciding e0 (fun q => {q with abortAt := some 64}) (fun r => {r with req := 8})
def stall1 : Stall := { since := playable.net - 500, start := playable.net + 20480 * 64, period := 20480, vaddr := 512, next := 1, stream := 6 }
def stalling (f : Seqr → Seqr) (g : SiteRec → SiteRec) : State :=
  let s := siteIs .stalled false
  { s with seqs := upd s.seqs 3 fun q => f {q with play := none, stall := some stall1}, sites := upd s.sites 3 g }
def stallAbort : State := stalling (fun q => {q with abortAt := some 64}) id
def ending1 : State := deciding e0 (fun q => {q with ending := some (playable.net + 3, false), vectors := 512}) id
def dueItem : Item := { flow := 3, type := .burstDone, source := 0, site := some 3, payload := List.replicate 48 0, queuedAt := 100, prio := 0 }
def posting : State := { booted with sched := { booted.sched with due := [dueItem] } }

theorem witness_BurstsEnd :
    (aborting.seqs[(3 : Cluster)].play = some playD ∧ aborting.seqs[(3 : Cluster)].abortAt = some 64 ∧ aborting.seqs[(3 : Cluster)].ending = none
      ∧ aborting.net ≤ playD.startOf 64 ∧ Calm aborting)
    ∧ (stallAbort.seqs[(3 : Cluster)].play = none ∧ stallAbort.seqs[(3 : Cluster)].stall = some stall1 ∧ stallAbort.seqs[(3 : Cluster)].abortAt = some 64
      ∧ stallAbort.seqs[(3 : Cluster)].ending = none ∧ stallAbort.net ≤ stall1.start + ↑64 * stall1.step ∧ Calm stallAbort)
    ∧ (ending1.seqs[(3 : Cluster)].lastVector = some (playable.net + (3 : Int), false) ∧ ending1.seqs[(3 : Cluster)].start = none
      ∧ ending1.net ≤ playable.net + (3 : Int) + (150 : Int) * ↑nsUnits ∧ Calm ending1)
    ∧ (posting.pending = [] ∧ posting.sched.due = [dueItem] ∧ dueItem.queuedAt < (posting.now + nsUnits) / nsUnits * nsUnits
      ∧ (dueItem.type = ItemType.burstDone ∨ dueItem.type = ItemType.ruleEval) ∧ dueItem.flow = (3 : Cluster).val ∧ dueItem.site = some (3 : Cluster)
      ∧ posting.sched.proc (3 : Cluster).val = none ∧ posting.sched.reduction (3 : Cluster).val = none
      ∧ posting.sched.pendingOf (3 : Cluster).val < (posting.sched.flow (3 : Cluster).val).maxPending ∧ 0 < posting.sched.free) := by and_intros <;> decide +kernel

def chainArmed : Armed := {armedSet with mode := .chained, entry := none, armedAt := playable.net - 5}
def selecting : State := let s := armedIs chainArmed false; {s with sites := upd s.sites 3 fun r => {r with scFlags := 0x58000000, burstId := 5}, cl := upd s.cl 3 fun e => {e with io := {e.io with ctlIn := {e.io.ctlIn with chainTmo := 3}}}}
def resuming : State := stalling id (fun r => {r with req := 4})
def lateStream : State := let s := stalling id id; {s with mem := {s.mem with ins := upd s.mem.ins 6 fun t => {t with tmoMs := 5}, segs := Vector.replicate 12 [wholeSeg 5, {wholeSeg 6 with stream := true, insts := []}]}}

theorem witness_SelectionsAndStalls :
    (selecting.seqs[(3 : Cluster)].armed = some chainArmed ∧ chainArmed.mode = StartMode.chained ∧ chainArmed.entry = none
      ∧ selecting.seqs[(3 : Cluster)].selTaken = false ∧ selecting.sites[(3 : Cluster)].scFlags.getLsbD 27 = true
      ∧ (BitVec.extractLsb' 28 4 selecting.sites[(3 : Cluster)].scFlags).toNat = BitVec.toNat selecting.sites[(3 : Cluster)].burstId % 16
      ∧ chainArmed.desc.candidates[(BitVec.extractLsb' 24 2 selecting.sites[(3 : Cluster)].scFlags).toNat]? = some 0)
    ∧ (selecting.seqs[(3 : Cluster)].armed = some chainArmed ∧ chainArmed.mode = StartMode.chained ∧ chainArmed.entry = none
      ∧ selecting.siteState (3 : Cluster) = SiteState.armed ∧ selecting.cl[(3 : Cluster)].io.ctlIn.chainTmo.toNat ≠ 0
      ∧ selecting.net ≤ chainArmed.armedAt + ↑(selecting.cl[(3 : Cluster)].io.ctlIn.chainTmo.toNat * 1000 * nsUnits) ∧ Calm selecting)
    ∧ (resuming.seqs[(3 : Cluster)].stall = some stall1 ∧ resuming.seqs[(3 : Cluster)].abortAt = none
      ∧ resuming.sites[(3 : Cluster)].pends (4 : BitVec 8) = true ∧ resuming.awaited (3 : Cluster) stall1.next = true
      ∧ resuming.entry (3 : Cluster) stall1.next = some e1 ∧ resuming.net ≤ stall1.start ∧ Calm resuming)
    ∧ (lateStream.seqs[(3 : Cluster)].stall = some stall1 ∧ lateStream.seqs[(3 : Cluster)].abortAt = none
      ∧ lateStream.awaited (3 : Cluster) stall1.next = false ∧ lateStream.mem.ins[stall1.stream].tmoMs ≠ 0
      ∧ lateStream.net ≤ stall1.since + ↑(lateStream.mem.ins[stall1.stream].tmoMs * 1000000 * nsUnits)
      ∧ lateStream.siteState (3 : Cluster) = SiteState.stalled ∧ Calm lateStream) := by and_intros <;> decide +kernel

def vec1 : Vec := { vaddr := 9, start := playable.net - 100, syms := Vector.replicate 8 .H, clock := 0, closing := Vector.replicate 8 (playable.net + 50), cairn := ⟨0,0,0,9,0,0,0,0⟩, seen := 0xF7, window := 0, mux := 0, obs := 0, failed := 0 }
def comparing : State := {playable with cl := upd playable.cl 3 fun e => {e with cap := {e.cap with vecs := [vec1], burstOpen := true}}}
def dropping1 : State := {playable with cl := upd playable.cl 3 fun e => {e with cap := {e.cap with dropping := some 77, dropped := 5, burstOpen := true}}}
def playC : Play := {playD with start := playable.net + 100 - 10 * (20480*32), played := 10}
def cairnDue : State := let s := deciding e0 (fun q => {q with play := some playC}) id; {s with cl := upd s.cl 3 fun e => {e with cap := {e.cap with nextPeriodic := playable.net + 100}}}
def block1 : OpenBlock := { words := [1,2], recs := 1, since := playable.net - 5 }
def openBlocks : State := {playable with cl := upd playable.cl 3 fun e => {e with cap := {e.cap with open_ := some block1}, stamp := {e.stamp with open_ := some block1}}, gens := playable.gens.map fun g => {g with cur := ⟨1, {g.cur.config with capture := capSet, tdc := tdcSet.map fun x => {x with log := true}}⟩}}

theorem witness_ComparesDropsAndBlocks :
    (comparing.seqs[comparing.site (3 : Cluster)].play = none ∧ comparing.seqs[comparing.site (3 : Cluster)].stall = none
      ∧ comparing.cl[(3 : Cluster)].cap.target 9 (bitMask 8 (3 : Lane).val) = some vec1 ∧ comparing.cl[(3 : Cluster)].cap.over vec1 = false
      ∧ vec1.compared (3 : Lane) = true ∧ comparing.net ≤ vec1.closing[(3 : Lane)] + (16 : Int) * ↑nsUnits ∧ Calm comparing)
    ∧ (comparing.seqs[comparing.site (3 : Cluster)].play = none ∧ comparing.seqs[comparing.site (3 : Cluster)].stall = none
      ∧ comparing.cl[(3 : Cluster)].cap.target 9 (bitMask 8 (3 : Lane).val) = some vec1 ∧ comparing.cl[(3 : Cluster)].cap.over vec1 = false
      ∧ vec1.compared (3 : Lane) = true ∧ comparing.net ≤ vec1.closing[(3 : Lane)] + (16 : Int) * ↑nsUnits ∧ Calm comparing)
    ∧ (dropping1.cl[(3 : Cluster)].cap.dropping = some 77
      ∧ dropping1.cl[(3 : Cluster)].cap.halfEmpty (dropping1.config (3 : Cluster)).capture.mode.code dropping1.cl[(3 : Cluster)].cap.dropAt (dropping1.bidOf (3 : Cluster)) = true
      ∧ dropping1.cl[(3 : Cluster)].cap.older = [] ∧ dropping1.cl[(3 : Cluster)].cap.vecs = [] ∧ dropping1.cl[(3 : Cluster)].cap.ended = false
      ∧ dropping1.seqs[dropping1.site (3 : Cluster)].play = none ∧ dropping1.seqs[dropping1.site (3 : Cluster)].stall = none
      ∧ dropping1.cl[(3 : Cluster)].cap.acq.beginDue = none ∧ dropping1.cl[(3 : Cluster)].cap.acq.waiting = none ∧ Calm dropping1)
    ∧ ((cairnDue.siteState (cairnDue.site (3 : Cluster))).busy = true ∧ cairnDue.seqs[cairnDue.site (3 : Cluster)].play = some playC
      ∧ cairnDue.seqs[cairnDue.site (3 : Cluster)].abortAt = none ∧ cairnDue.members (cairnDue.site (3 : Cluster)) = [(3 : Cluster)]
      ∧ playC.played < playC.len ∧ 0 < playC.period ∧ playC.startOf playC.played = cairnDue.cl[(3 : Cluster)].cap.nextPeriodic
      ∧ cairnDue.cl[(3 : Cluster)].cap.cause = 0 ∧ cairnDue.net ≤ cairnDue.cl[(3 : Cluster)].cap.nextPeriodic ∧ Calm cairnDue)
    ∧ (openBlocks.cl[(3 : Cluster)].cap.open_ = some block1 ∧ (openBlocks.config (3 : Cluster)).capture.closeUs.toNat ≠ 0
      ∧ openBlocks.net ≤ block1.since + ↑((openBlocks.config (3 : Cluster)).capture.closeUs.toNat * 1000 * nsUnits) ∧ Calm openBlocks) := by and_intros <;> decide +kernel

def acqV : AcqConfig := { acqSet with pre := 4, post := 5, auto := true, autoUs := 1, sparam := [30,0,0,0,0,0] ++ List.replicate 10 0 }
def hist1 (va : Nat) : HistVec := ⟨va, 0, 0, 5, false, playable.net - 50, ⟨0,0,0,va,0,0,0,0⟩⟩
def acquiring (base : Nat) (g : AcqConfig) (trig : Option Nat) : State :=
  { playable with cl := upd playable.cl 3 fun e => {e with cap := {e.cap with burstOpen := true, acq := {e.cap.acq with armId := 9, active := true, trig := trig, written := 60, fillBase := some (base, playable.net - 1000), history := [hist1 30], autoAcc := 1000 * nsUnits - 700}}},
                  gens := playable.gens.map fun x => {x with cur := ⟨1, {x.cur.config with acq := g}⟩},
                  seqs := upd playable.seqs 3 fun q => {q with spans := [⟨playable.net - 1000, 20480, 0, 512⟩]} }
def acquiringV (base : Nat) : State := acquiring base acqV none
def acquiringF : State := acquiring 20 {acqV with source := .force} none
def acquiringT : State := acquiring 20 acqV (some 40)
def hitB : HistVec := {hist1 31 with failed := 1}
def hitA : HistVec := {hist1 30 with failed := 1}
def hitS : HistVec := {hist1 30 with first := true, segment := 5}
def hitP : HistVec := {hist1 22 with obs := 3}
def acqOn (src : AcqSource) (sp : List Byte) (h : List HistVec) : State :=
  let s := acquiring 20 {acqV with source := src, sparam := sp ++ List.replicate (16 - sp.length) 0} none
  {s with cl := upd s.cl 3 fun e => {e with cap := {e.cap with acq := {e.cap.acq with history := h}}}}

theorem witness_AcquisitionsTriggerAndComplete :
    (((acquiringV 20).config (3 : Cluster)).acq.source = AcqSource.vaddr ∧ (acquiringV 20).cl[(3 : Cluster)].cap.watching = true
      ∧ ((acquiringV 20).cl[(3 : Cluster)].cap.hits ((acquiringV 20).config (3 : Cluster)).acq).getLast? = some (hist1 30)
      ∧ (acquiringV 20).cl[(3 : Cluster)].cap.acq.fillBase = some (20, playable.net - (1000 : Int))
      ∧ 20 + ((acquiringV 20).config (3 : Cluster)).acq.pre ≤ (hist1 30).vaddr)
    ∧ (((acquiringV 28).config (3 : Cluster)).acq.source = AcqSource.vaddr ∧ (acquiringV 28).cl[(3 : Cluster)].cap.watching = true
      ∧ ((acquiringV 28).cl[(3 : Cluster)].cap.hits ((acquiringV 28).config (3 : Cluster)).acq).getLast? = some (hist1 30)
      ∧ (acquiringV 28).cl[(3 : Cluster)].cap.acq.fillBase = some (28, playable.net - (1000 : Int))
      ∧ (hist1 30).vaddr < 28 + ((acquiringV 28).config (3 : Cluster)).acq.pre)
    ∧ (acquiringF.cl[(3 : Cluster)].cap.acq.fillBase = some (20, playable.net - (1000 : Int))
      ∧ playedBy acquiringF.seqs[acquiringF.site (3 : Cluster)].spans (playable.net - (1000 : Int)) ((acquiringF.config (3 : Cluster)).acq.autoUs * (1000 * nsUnits) - acquiringF.cl[(3 : Cluster)].cap.acq.autoAcc) = some (playable.net - (300 : Int))
      ∧ (List.filter (fun h => decide (20 + (acquiringF.config (3 : Cluster)).acq.pre ≤ h.vaddr) && decide (playable.net - (300 : Int) ≤ h.start)) acquiringF.cl[(3 : Cluster)].cap.acq.history).getLast? = some (hist1 30)
      ∧ (acquiringF.config (3 : Cluster)).acq.auto = true ∧ acquiringF.cl[(3 : Cluster)].cap.pending = true ∧ Calm acquiringF)
    ∧ (acquiringT.cl[(3 : Cluster)].cap.acq.trig = some 40 ∧ 40 + (acquiringT.config (3 : Cluster)).acq.post ≤ acquiringT.cl[(3 : Cluster)].cap.acq.written
      ∧ acquiringT.cl[(3 : Cluster)].cap.dropping = none ∧ acquiringT.cl[(3 : Cluster)].cap.full 8 40 4 (acquiringT.bidOf (3 : Cluster)) = false)
    ∧ ((((acqOn AcqSource.fail [(1 : Byte)] [hitB, hitA, hist1 29]).config (3 : Cluster)).acq.source = AcqSource.fail ∧ AcqEvent.fail = AcqEvent.fail
      ∨ ((acqOn AcqSource.fail [(1 : Byte)] [hitB, hitA, hist1 29]).config (3 : Cluster)).acq.source = AcqSource.vaddr
      ∧ AcqEvent.fail = AcqEvent.vaddr
      ∨ ((acqOn AcqSource.fail [(1 : Byte)] [hitB, hitA, hist1 29]).config (3 : Cluster)).acq.source = AcqSource.segment
      ∧ AcqEvent.fail = AcqEvent.segment
      ∨ ((acqOn AcqSource.fail [(1 : Byte)] [hitB, hitA, hist1 29]).config (3 : Cluster)).acq.source = AcqSource.pattern
      ∧ AcqEvent.fail = AcqEvent.pattern)
      ∧ (List.filter (fun h => decide ((acqOn AcqSource.fail [(1 : Byte)] [hitB, hitA, hist1 29]).cl[(3 : Cluster)].cap.acq.scan ≤ h.vaddr) && (decide (((acqOn AcqSource.fail [(1 : Byte)] [hitB, hitA, hist1 29]).config (3 : Cluster)).acq.source = AcqSource.fail) && decide (h.failed &&& byteAt ((acqOn AcqSource.fail [(1 : Byte)] [hitB, hitA, hist1 29]).config (3 : Cluster)).acq.sparam 0 ≠ (0 : Byte)) || decide (((acqOn AcqSource.fail [(1 : Byte)] [hitB, hitA, hist1 29]).config (3 : Cluster)).acq.source = AcqSource.vaddr) && decide (h.vaddr = fieldAt ((acqOn AcqSource.fail [(1 : Byte)] [hitB, hitA, hist1 29]).config (3 : Cluster)).acq.sparam 0 6) || decide (((acqOn AcqSource.fail [(1 : Byte)] [hitB, hitA, hist1 29]).config (3 : Cluster)).acq.source = AcqSource.segment) && h.first && decide (h.segment = u32At ((acqOn AcqSource.fail [(1 : Byte)] [hitB, hitA, hist1 29]).config (3 : Cluster)).acq.sparam 0) || decide (((acqOn AcqSource.fail [(1 : Byte)] [hitB, hitA, hist1 29]).config (3 : Cluster)).acq.source = AcqSource.pattern) && decide ((h.obs ^^^ u16At ((acqOn AcqSource.fail [(1 : Byte)] [hitB, hitA, hist1 29]).config (3 : Cluster)).acq.sparam 0) &&& u16At ((acqOn AcqSource.fail [(1 : Byte)] [hitB, hitA, hist1 29]).config (3 : Cluster)).acq.sparam 2 = (0 : BitVec 16)))) (acqOn AcqSource.fail [(1 : Byte)] [hitB, hitA, hist1 29]).cl[(3 : Cluster)].cap.acq.history).getLast? = some hitA
      ∧ (acqOn AcqSource.fail [(1 : Byte)] [hitB, hitA, hist1 29]).cl[(3 : Cluster)].cap.watching = true
      ∧ (acqOn AcqSource.fail [(1 : Byte)] [hitB, hitA, hist1 29]).cl[(3 : Cluster)].cap.acq.fillBase = some (20, playable.net - (1000 : Int)))
    ∧ ((((acqOn AcqSource.segment [(5 : Byte)] [hitS]).config (3 : Cluster)).acq.source = AcqSource.fail ∧ AcqEvent.segment = AcqEvent.fail
      ∨ ((acqOn AcqSource.segment [(5 : Byte)] [hitS]).config (3 : Cluster)).acq.source = AcqSource.vaddr ∧ AcqEvent.segment = AcqEvent.vaddr
      ∨ ((acqOn AcqSource.segment [(5 : Byte)] [hitS]).config (3 : Cluster)).acq.source = AcqSource.segment ∧ AcqEvent.segment = AcqEvent.segment
      ∨ ((acqOn AcqSource.segment [(5 : Byte)] [hitS]).config (3 : Cluster)).acq.source = AcqSource.pattern ∧ AcqEvent.segment = AcqEvent.pattern)
      ∧ (List.filter (fun h => decide ((acqOn AcqSource.segment [(5 : Byte)] [hitS]).cl[(3 : Cluster)].cap.acq.scan ≤ h.vaddr) && (decide (((acqOn AcqSource.segment [(5 : Byte)] [hitS]).config (3 : Cluster)).acq.source = AcqSource.fail) && decide (h.failed &&& byteAt ((acqOn AcqSource.segment [(5 : Byte)] [hitS]).config (3 : Cluster)).acq.sparam 0 ≠ (0 : Byte)) || decide (((acqOn AcqSource.segment [(5 : Byte)] [hitS]).config (3 : Cluster)).acq.source = AcqSource.vaddr) && decide (h.vaddr = fieldAt ((acqOn AcqSource.segment [(5 : Byte)] [hitS]).config (3 : Cluster)).acq.sparam 0 6) || decide (((acqOn AcqSource.segment [(5 : Byte)] [hitS]).config (3 : Cluster)).acq.source = AcqSource.segment) && h.first && decide (h.segment = u32At ((acqOn AcqSource.segment [(5 : Byte)] [hitS]).config (3 : Cluster)).acq.sparam 0) || decide (((acqOn AcqSource.segment [(5 : Byte)] [hitS]).config (3 : Cluster)).acq.source = AcqSource.pattern) && decide ((h.obs ^^^ u16At ((acqOn AcqSource.segment [(5 : Byte)] [hitS]).config (3 : Cluster)).acq.sparam 0) &&& u16At ((acqOn AcqSource.segment [(5 : Byte)] [hitS]).config (3 : Cluster)).acq.sparam 2 = (0 : BitVec 16)))) (acqOn AcqSource.segment [(5 : Byte)] [hitS]).cl[(3 : Cluster)].cap.acq.history).getLast? = some hitS
      ∧ (acqOn AcqSource.segment [(5 : Byte)] [hitS]).cl[(3 : Cluster)].cap.watching = true
      ∧ (acqOn AcqSource.segment [(5 : Byte)] [hitS]).cl[(3 : Cluster)].cap.acq.fillBase = some (20, playable.net - (1000 : Int)))
    ∧ ((((acqOn AcqSource.pattern [(5 : Byte), (0 : Byte), (1 : Byte), (0 : Byte)] [hitP]).config (3 : Cluster)).acq.source = AcqSource.fail
      ∧ AcqEvent.pattern = AcqEvent.fail
      ∨ ((acqOn AcqSource.pattern [(5 : Byte), (0 : Byte), (1 : Byte), (0 : Byte)] [hitP]).config (3 : Cluster)).acq.source = AcqSource.vaddr
      ∧ AcqEvent.pattern = AcqEvent.vaddr
      ∨ ((acqOn AcqSource.pattern [(5 : Byte), (0 : Byte), (1 : Byte), (0 : Byte)] [hitP]).config (3 : Cluster)).acq.source = AcqSource.segment
      ∧ AcqEvent.pattern = AcqEvent.segment
      ∨ ((acqOn AcqSource.pattern [(5 : Byte), (0 : Byte), (1 : Byte), (0 : Byte)] [hitP]).config (3 : Cluster)).acq.source = AcqSource.pattern
      ∧ AcqEvent.pattern = AcqEvent.pattern)
      ∧ (List.filter (fun h => decide ((acqOn AcqSource.pattern [(5 : Byte), (0 : Byte), (1 : Byte), (0 : Byte)] [hitP]).cl[(3 : Cluster)].cap.acq.scan ≤ h.vaddr) && (decide (((acqOn AcqSource.pattern [(5 : Byte), (0 : Byte), (1 : Byte), (0 : Byte)] [hitP]).config (3 : Cluster)).acq.source = AcqSource.fail) && decide (h.failed &&& byteAt ((acqOn AcqSource.pattern [(5 : Byte), (0 : Byte), (1 : Byte), (0 : Byte)] [hitP]).config (3 : Cluster)).acq.sparam 0 ≠ (0 : Byte)) || decide (((acqOn AcqSource.pattern [(5 : Byte), (0 : Byte), (1 : Byte), (0 : Byte)] [hitP]).config (3 : Cluster)).acq.source = AcqSource.vaddr) && decide (h.vaddr = fieldAt ((acqOn AcqSource.pattern [(5 : Byte), (0 : Byte), (1 : Byte), (0 : Byte)] [hitP]).config (3 : Cluster)).acq.sparam 0 6) || decide (((acqOn AcqSource.pattern [(5 : Byte), (0 : Byte), (1 : Byte), (0 : Byte)] [hitP]).config (3 : Cluster)).acq.source = AcqSource.segment) && h.first && decide (h.segment = u32At ((acqOn AcqSource.pattern [(5 : Byte), (0 : Byte), (1 : Byte), (0 : Byte)] [hitP]).config (3 : Cluster)).acq.sparam 0) || decide (((acqOn AcqSource.pattern [(5 : Byte), (0 : Byte), (1 : Byte), (0 : Byte)] [hitP]).config (3 : Cluster)).acq.source = AcqSource.pattern) && decide ((h.obs ^^^ u16At ((acqOn AcqSource.pattern [(5 : Byte), (0 : Byte), (1 : Byte), (0 : Byte)] [hitP]).config (3 : Cluster)).acq.sparam 0) &&& u16At ((acqOn AcqSource.pattern [(5 : Byte), (0 : Byte), (1 : Byte), (0 : Byte)] [hitP]).config (3 : Cluster)).acq.sparam 2 = (0 : BitVec 16)))) (acqOn AcqSource.pattern [(5 : Byte), (0 : Byte), (1 : Byte), (0 : Byte)] [hitP]).cl[(3 : Cluster)].cap.acq.history).getLast? = some hitP
      ∧ (acqOn AcqSource.pattern [(5 : Byte), (0 : Byte), (1 : Byte), (0 : Byte)] [hitP]).cl[(3 : Cluster)].cap.watching = true
      ∧ (acqOn AcqSource.pattern [(5 : Byte), (0 : Byte), (1 : Byte), (0 : Byte)] [hitP]).cl[(3 : Cluster)].cap.acq.fillBase = some (20, playable.net - (1000 : Int)))
    ∧ ((acquiringF.config (3 : Cluster)).acq.source = AcqSource.force ∧ acquiringF.cl[(3 : Cluster)].cap.watching = true
      ∧ acquiringF.cl[(3 : Cluster)].cap.acq.fillBase = some (20, playable.net - (1000 : Int))
      ∧ (List.filter (fun h => decide (20 + (acquiringF.config (3 : Cluster)).acq.pre ≤ h.vaddr)) acquiringF.cl[(3 : Cluster)].cap.acq.history).getLast? = some (hist1 30)) := by and_intros <;> decide +kernel

def playA : Play := {playD with start := playable.net, vaddr := 0}
def onPlayA (src : AcqSource) (sp : List Byte) : State :=
  let s := acqOn src sp [hist1 30]
  {s with seqs := upd s.seqs 3 fun q => {q with play := some playA, spans := [⟨playA.start, playA.period, playA.vaddr, playA.len⟩]}}
def vecTime (n : Nat) (off : Int) : Int := playable.net + n * 20480 * 32 + off
def withTdc (x : TdcConfig) (f : TdcChan → TdcChan) : State := {playable with gens := playable.gens.map fun g => {g with cur := ⟨1, {g.cur.config with tdc := Vector.replicate 8 x}⟩}, cl := playable.cl.map fun e => {e with tdc := e.tdc.map f}}
def contTdc : TdcConfig := { en := true, edge := 1, bin := 3, arm := .continuous, log := true }
def listening : State := withTdc contTdc id
def deaf : State := withTdc {contTdc with arm := .symbol} (fun t => {t with running := true})
def gapping : State := {openBlocks with seqs := upd openBlocks.seqs 3 fun q => {q with vectors := 9}}
def goodHits : List Nat := List.replicate 64 20000
def badHits : List Nat := 200000 :: List.replicate 63 20000
def deafMux : State := withTdc {contTdc with arm := .symbol} (fun t => {t with running := true, onMux := true})
def windowTdc : TdcConfig := {contTdc with arm := .twindow, start := stampOf (booted.net + 500), stop := stampOf (booted.net + 900)}
def opening : State := withTdc windowTdc (fun t => {t with running := true})

theorem witness_EdgesStampsAndTables :
    ((listening.config (pinCluster (29 : Pin))).tdc[pinLane (29 : Pin)].en = true
      ∧ (listening.config (pinCluster (29 : Pin))).tdc[pinLane (29 : Pin)].edge.getLsbD (if false = true then 1 else 0) = true
      ∧ BitVec.getLsbD (listening.absentMask (pinCluster (29 : Pin))) ((listening.config (pinCluster (29 : Pin))).port ↑(pinLane (29 : Pin))) = false
      ∧ (listening.config (pinCluster (29 : Pin))).tdc[pinLane (29 : Pin)].arm = ArmMode.continuous
      ∧ listening.cl[pinCluster (29 : Pin)].tdc[pinLane (29 : Pin)].tWin = []
      ∧ listening.cl[pinCluster (29 : Pin)].tdc[pinLane (29 : Pin)].lastEdge = none
      ∧ listening.seqs[listening.site (pinCluster (29 : Pin))].play = none ∧ listening.seqs[listening.site (pinCluster (29 : Pin))].stall = none
      ∧ Calm listening)
    ∧ ((deaf.config (pinCluster (29 : Pin))).tdc[pinLane (29 : Pin)].arm = ArmMode.symbol ∧ deaf.cl[pinCluster (29 : Pin)].tdc[pinLane (29 : Pin)].tWin = []
      ∧ deaf.seqs[deaf.site (pinCluster (29 : Pin))].play = none ∧ deaf.seqs[deaf.site (pinCluster (29 : Pin))].stall = none
      ∧ deaf.seqs[deaf.site (pinCluster (29 : Pin))].armed = none ∧ Calm deaf)
    ∧ (deaf.cl[pinCluster (29 : Pin)].tdc[pinLane (29 : Pin)].level deaf.cl[pinCluster (29 : Pin)].stamp (↑(pinLane (29 : Pin))) deaf.net ≤ 8192)
    ∧ (openBlocks.cl[(3 : Cluster)].stamp.open_ = some block1
      ∧ openBlocks.net ≤ block1.since + ↑((if (openBlocks.config (3 : Cluster)).capture.closeUs.toNat = 0 then 100 else (openBlocks.config (3 : Cluster)).capture.closeUs.toNat) * 1000 * nsUnits)
      ∧ Calm openBlocks)
    ∧ ((gapping.siteState (gapping.site (3 : Cluster))).busy = false ∧ gapping.seqs[gapping.site (3 : Cluster)].played ≠ 0
      ∧ gapping.seqs[gapping.site (3 : Cluster)].played ≤ 2 ^ 48 ∧ Calm gapping)
    ∧ ((deafMux.cal.cl[(3 : Cluster)].what.getLsbD 2 = true ∧ deafMux.calOn (3 : Cluster) = true
      ∨ deafMux.cl[(3 : Cluster)].tdc[routeLane (9 : Fin 12)].running = true
      ∧ deafMux.cl[(3 : Cluster)].tdc[routeLane (9 : Fin 12)].onMux = decide (8 ≤ (9 : Fin 12).val)) ∧ densityDone goodHits = true
      ∧ (deafMux.config (3 : Cluster)).tdc[routeLane (9 : Fin 12)].arm = ArmMode.symbol
      ∧ deafMux.cl[(3 : Cluster)].tdc[routeLane (9 : Fin 12)].tWin = [] ∧ sumOk (densityTable goodHits) = true
      ∧ widthOk (densityTable goodHits) = true ∧ dnlOk (densityTable goodHits) = true)
    ∧ ((deaf.cal.cl[(3 : Cluster)].what.getLsbD 2 = true ∧ deaf.calOn (3 : Cluster) = true
      ∨ deaf.cl[(3 : Cluster)].tdc[routeLane (2 : Fin 12)].running = true
      ∧ deaf.cl[(3 : Cluster)].tdc[routeLane (2 : Fin 12)].onMux = decide (8 ≤ (2 : Fin 12).val)) ∧ densityDone badHits = true
      ∧ (deaf.config (3 : Cluster)).tdc[routeLane (2 : Fin 12)].arm = ArmMode.symbol ∧ deaf.cl[(3 : Cluster)].tdc[routeLane (2 : Fin 12)].tWin = []
      ∧ (sumOk (densityTable badHits) && widthOk (densityTable badHits) && dnlOk (densityTable badHits)) = false ∧ Calm deaf)
    ∧ ((opening.config (pinCluster (29 : Pin))).tdc[pinLane (29 : Pin)].en = true
      ∧ (opening.config (pinCluster (29 : Pin))).tdc[pinLane (29 : Pin)].arm = ArmMode.twindow
      ∧ timeOf (opening.config (pinCluster (29 : Pin))).tdc[pinLane (29 : Pin)].start < timeOf (opening.config (pinCluster (29 : Pin))).tdc[pinLane (29 : Pin)].stop
      ∧ opening.net < timeOf (opening.config (pinCluster (29 : Pin))).tdc[pinLane (29 : Pin)].start ∧ Calm opening) := by and_intros <;> decide +kernel

def stampRead (s : State) (pin : Pin) : Int := stampTime 20000000 5 (getN (s.cl[pinCluster pin]).coeffs.bins ((s.config (pinCluster pin)).route (pinLane pin)) []) (getN (s.cl[pinCluster pin]).coeffs.tdc ((s.config (pinCluster pin)).route (pinLane pin)) 0)
def readAt : Int := stampRead listening 29 * 64
def symTdc (a b : Int) : State := withTdc {contTdc with arm := .symbol} (fun t => {t with tWin := [(readAt + a, readAt + b)], running := true})
def winTdc (a b : Int) : State := withTdc {contTdc with arm := .twindow, start := stampOf (readAt + a), stop := stampOf (readAt + b)} id
def vwTdc (a b : Nat) (off : Int) : State :=
  let s := withTdc {contTdc with arm := .vwindow, start := BitVec.ofNat 96 a, stop := BitVec.ofNat 96 b} id
  {s with seqs := upd s.seqs 3 fun q => {q with play := some {playA with start := readAt - off}, spans := [⟨readAt - off, playA.period, playA.vaddr, playA.len⟩]}}
def playV (off : Int) : Play := {playA with start := readAt - off}
def withRail (r : Rail) : State := {playable with cl := upd playable.cl 3 fun e => {e with lvl := {e.lvl with rails := upd e.lvl.rails 2 fun _ => r}}}
def moving : Rail := { live := true, out := 1000, target := 100, step := 256, interval := 1, nextMove := some (playable.net + 3) }
def switching : Rail := { live := true, out := 0, upCode := 400, step := 256, interval := 1, phase := .switching (playable.net + 3) }
def limited : Rail := {moving with limiting := true}

theorem witness_RailsMoveSwitchAndShort :
    ((withRail moving).cl[(3 : Cluster)].lvl.rails[(2 : Lane)].phase = RangePhase.none
      ∧ (withRail moving).cl[(3 : Cluster)].lvl.rails[(2 : Lane)].disabling = false
      ∧ (withRail moving).cl[(3 : Cluster)].lvl.rails[(2 : Lane)].deferred = none
      ∧ (withRail moving).cl[(3 : Cluster)].lvl.rails[(2 : Lane)].nextMove = some (playable.net + (3 : Int))
      ∧ 0 < (withRail moving).cl[(3 : Cluster)].lvl.rails[(2 : Lane)].step
      ∧ (withRail moving).cl[(3 : Cluster)].lvl.rails[(2 : Lane)].out ≠ (withRail moving).cl[(3 : Cluster)].lvl.rails[(2 : Lane)].target
      ∧ (withRail moving).net ≤ playable.net + (3 : Int) ∧ Calm (withRail moving))
    ∧ ((withRail switching).cl[(3 : Cluster)].lvl.rails[(2 : Lane)].phase = RangePhase.switching (playable.net + (3 : Int))
      ∧ (withRail switching).cl[(3 : Cluster)].lvl.rails[(2 : Lane)].deferred = none ∧ (withRail switching).net ≤ playable.net + (3 : Int)
      ∧ Calm (withRail switching))
    ∧ ((withRail moving).cl[(3 : Cluster)].lvl.rails[(2 : Lane)].live = true ∧ (withRail moving).cl[(3 : Cluster)].lvl.rails[(2 : Lane)].limiting = false
      ∧ (withRail moving).pwr.phase = BootPhase.ready ∧ (withRail moving).flt.first = none ∧ (withRail moving).flt.react = []
      ∧ Calm (withRail moving))
    ∧ ((withRail limited).cl[(3 : Cluster)].lvl.rails[(2 : Lane)].live = true ∧ (withRail limited).cl[(3 : Cluster)].lvl.rails[(2 : Lane)].limiting = true) := by and_intros <;> decide +kernel

def blockBody (seq : Nat) : List Byte :=
  let body := leBytes 4 0x10000002 ++ leBytes 4 0x11111111 ++ leBytes 4 0x22222222 ++ leBytes 4 0x20000002 ++ leBytes 4 0xF0000000
  leBytes 4 0x42534C47 ++ leBytes 2 2 ++ leBytes 2 3 ++ leBytes 4 7 ++ leBytes 4 seq ++ leBytes 2 3 ++ leBytes 2 20 ++ leBytes 4 0 ++ leBytes 4 0
    ++ leBytes 2 0 ++ [1, 0] ++ body ++ List.replicate (4060 - 20) 0
def blockBytes (seq : Nat) : List Byte := blockBody seq ++ leBytes 4 (crc32c (blockBody seq)).toNat
theorem blockBody_length (seq : Nat) : (blockBody seq).length = 4092 := by
  simp only [blockBody, List.length_append, leBytes_length, List.length_replicate, List.length_cons, List.length_nil]
theorem blockBytes_length (seq : Nat) : (blockBytes seq).length = 4096 := by
  simp only [blockBytes, List.length_append, blockBody_length, leBytes_length]
theorem blockBytes_crc (seq : Nat) : crc32c ((blockBytes seq).take 4092) = u32At (blockBytes seq) 4092 := by
  have h := blockBody_length seq
  have e : (blockBytes seq).take 4092 = blockBody seq := by rw [blockBytes, ← h, List.take_left]
  have d : (blockBytes seq).drop 4092 = leBytes 4 (crc32c (blockBody seq)).toNat := by rw [blockBytes, ← h, List.drop_left]
  have lt := (crc32c (blockBody seq)).isLt
  rw [e, u32At, fieldAt, d]
  apply BitVec.eq_of_toNat_eq
  simp only [leBytes, List.take_succ_cons, List.take_zero, leNat, BitVec.toNat_ofNat]
  omega
def loading : State := {booted with mem := {booted.mem with ins := upd booted.mem.ins 3 fun t => {t with isOpen := true, size := 16, head := 15, base := 0x9000, descs := [⟨0x4000, 4, 9⟩], expect := 8}, segs := Vector.replicate 12 [{ id := 7, len := 4, idleSafe := false, stream := false }, wholeSeg 5]}}
def loadingEnd : State := {loading with mem := {loading.mem with ins := upd loading.mem.ins 3 fun t => {t with fetched := 3, good := 3}}}
def blkIn : Body := ⟨[.lit [0x11111111, 0x22222222], .rpt 2, .end_], none, 20, 20, true⟩
def desc9 : Desc := ⟨0x4000, 4, 9⟩
theorem block_accepted : checkBlock (blockBytes 8) loading.mem.ins[(3 : Fin 24)] 1 (loading.members (loading.site 1))
    (fun c id => findSeg loading.mem.segs[c] id) = .accept blkIn := by
  simp only [checkBlock, blockBytes_crc, blockBytes_length, ne_eq, not_true_eq_false]
  decide +kernel
theorem block_stale : checkBlock (blockBytes 7) loadingEnd.mem.ins[(3 : Fin 24)] 1 (loadingEnd.members (loadingEnd.site 1))
    (fun c id => findSeg loadingEnd.mem.segs[c] id) = .stale := by
  simp only [checkBlock, blockBytes_crc, blockBytes_length, ne_eq, not_true_eq_false]
  decide +kernel
def outBlock : ClosedBlock := { blk := { words := [1,2], recs := 1 }, seq := 4 }
def bufSet : OutBuf := ⟨9, 1, booted.now - 500⟩
def outgoing : State := {booted with mem := {booted.mem with outs := upd booted.mem.outs 3 fun t => {t with isOpen := true, size := 16, head := 15, base := 0x9000, descs := [⟨0x4000, 4, 9⟩], area := [outBlock], buf := some bufSet}}}
def blkA : Blk := { runs := [(256, 0)], vectors := 256, opBytes := 8, bodyLen := 8 }
def streamInst : Inst := { blocks := [blkA, blkA], next := 2, vectors := 512, done := true }
def streamSeg : Seg := { id := 5, len := 512, idleSafe := false, stream := true, insts := [streamInst] }
def releasing : State := let s := deciding e0 id id; {s with mem := {s.mem with segs := Vector.replicate 12 [streamSeg, wholeSeg 6], ins := upd s.mem.ins 6 fun t => {t with isOpen := true, play := true, bound := 5, areaMib := 1, staged := 2}}}

theorem witness_BlocksComeAndGo :
    ((loading.mem.ready = true ∧ loading.mem.selfRef = false ∧ loading.portTurn = some (PortReq.inb (3 : Fin 24))
      ∧ loading.mem.ins[(3 : Fin 24)].descs.head? = some desc9 ∧ loading.seqs[loading.site (Fin.ofNat 12 ((3 : Fin 24).val / 2))].stall = none)
      ∧ (checkBlock (blockBytes 8) loading.mem.ins[(3 : Fin 24)] (Fin.ofNat 12 ((3 : Fin 24).val / 2)) (loading.members (loading.site (Fin.ofNat 12 ((3 : Fin 24).val / 2)))) fun c id => findSeg loading.mem.segs[c] id) = Verdict.accept blkIn
      ∧ loading.mem.ins[(3 : Fin 24)].fetched + 1 < desc9.blocks)
    ∧ ((loading.mem.ready = true ∧ loading.mem.selfRef = false ∧ loading.portTurn = some (PortReq.inb (3 : Fin 24))
      ∧ loading.mem.ins[(3 : Fin 24)].descs.head? = some desc9 ∧ loading.seqs[loading.site (Fin.ofNat 12 ((3 : Fin 24).val / 2))].stall = none)
      ∧ (checkBlock [(5 : Byte)] loading.mem.ins[(3 : Fin 24)] (Fin.ofNat 12 ((3 : Fin 24).val / 2)) (loading.members (loading.site (Fin.ofNat 12 ((3 : Fin 24).val / 2)))) fun c id => findSeg loading.mem.segs[c] id) = Verdict.reject 1
      ∧ 1 ≤ 4 ∧ loading.mem.ins[(3 : Fin 24)].fetched + 1 < desc9.blocks)
    ∧ ((loadingEnd.mem.ready = true ∧ loadingEnd.mem.selfRef = false ∧ loadingEnd.portTurn = some (PortReq.inb (3 : Fin 24))
      ∧ loadingEnd.mem.ins[(3 : Fin 24)].descs.head? = some desc9
      ∧ loadingEnd.seqs[loadingEnd.site (Fin.ofNat 12 ((3 : Fin 24).val / 2))].stall = none)
      ∧ (checkBlock (blockBytes 7) loadingEnd.mem.ins[(3 : Fin 24)] (Fin.ofNat 12 ((3 : Fin 24).val / 2)) (loadingEnd.members (loadingEnd.site (Fin.ofNat 12 ((3 : Fin 24).val / 2)))) fun c id => findSeg loadingEnd.mem.segs[c] id) = Verdict.stale
      ∧ loadingEnd.mem.ins[(3 : Fin 24)].bad = false ∧ desc9.blocks ≤ loadingEnd.mem.ins[(3 : Fin 24)].fetched + 1)
    ∧ (outgoing.mem.outs[(3 : Fin 24)].area = [outBlock] ∧ outgoing.mem.outs[(3 : Fin 24)].descs = [desc9]
      ∧ outgoing.portTurn = some (PortReq.out (3 : Fin 24)) ∧ outgoing.mem.outs[(3 : Fin 24)].closing = false ∧ outgoing.mem.selfRef = false
      ∧ outgoing.mem.outs[(3 : Fin 24)].buf = some bufSet ∧ bufSet.written + 1 < desc9.blocks ∧ outBlock.blk.last = false)
    ∧ (outgoing.mem.outs[(3 : Fin 24)].area = [outBlock] ∧ outgoing.mem.outs[(3 : Fin 24)].descs = [desc9]
      ∧ outgoing.portTurn = some (PortReq.out (3 : Fin 24)) ∧ outgoing.mem.outs[(3 : Fin 24)].closing = false ∧ outgoing.mem.selfRef = false
      ∧ outgoing.mem.outs[(3 : Fin 24)].buf = some bufSet ∧ Calm outgoing)
    ∧ (outgoing.mem.outs[(3 : Fin 24)].descs = [desc9] ∧ outgoing.mem.outs[(3 : Fin 24)].closing = false ∧ outgoing.mem.outs[(3 : Fin 24)].buf = some bufSet
      ∧ outgoing.now ≤ bufSet.since + 100000 * nsUnits ∧ outgoing.dma outgoing.host.owner[Fin.ofNat 12 ((3 : Fin 24).val / 2)] = true ∧ Calm outgoing)
    ∧ (releasing.seqs[releasing.site (3 : Cluster)].play = some playD ∧ releasing.entry (releasing.site (3 : Cluster)) playD.entry = some e0
      ∧ findSeg releasing.mem.segs[(3 : Cluster)] e0.segment = some streamSeg ∧ streamSeg.stream = true ∧ streamSeg.insts = [streamInst]
      ∧ streamInst.released < streamInst.blocks.length ∧ releasing.playStream (3 : Cluster) e0.segment = some (6 : Fin 24)
      ∧ releasing.seqs[releasing.site (3 : Cluster)].abortAt = none
      ∧ (List.map (fun x => x.vectors) (List.take (streamInst.released + 1) streamInst.blocks)).sum ≤ playD.len ∧ Calm releasing) := 
  ⟨⟨by and_intros <;> decide +kernel, block_accepted, by decide +kernel⟩,
    by and_intros <;> decide +kernel,
    ⟨by and_intros <;> decide +kernel, block_stale, by and_intros <;> decide +kernel⟩,
    by and_intros <;> decide +kernel,
    by and_intros <;> decide +kernel,
    by and_intros <;> decide +kernel,
    by and_intros <;> decide +kernel⟩

def running3 : State := deciding e0 id id
def napping : State := {booted with pwr := {booted.pwr with hbmSrEn := true, hbmIdle := booted.now - 7, cl := Vector.replicate 12 { state := 3, chosen := 3, goal := 3 }}}
def refreshing : State := {napping with mem := {napping.mem with selfRef := true, srExit := some (booted.now - 3)}, pwr := {napping.pwr with hbm := 2}}

theorem witness_MemoryErrorsAndRefresh :
    (booted.mem.ready = true ∧ Calm booted)
    ∧ (booted.mem.ready = true)
    ∧ (running3.mem.ready = true ∧ running3.seqs[running3.siteOf[(3 : Cluster)]].play = some playD
      ∧ running3.entry running3.siteOf[(3 : Cluster)] playD.entry = some e0 ∧ running3.siteState running3.siteOf[(3 : Cluster)] = SiteState.running
      ∧ running3.seqs[running3.siteOf[(3 : Cluster)]].stall = none ∧ Calm running3)
    ∧ (outgoing.mem.ready = true ∧ outgoing.mem.outs[(3 : Fin 24)].area = [outBlock] ∧ Calm outgoing)
    ∧ (booted.mem.ready = true ∧ booted.mem.selfRef = false ∧ booted.now ≤ booted.mem.scrubAt + 86400000000000 * nsUnits ∧ Calm booted)
    ∧ (napping.mem.ready = true ∧ napping.mem.selfRef = false ∧ napping.pwr.hbmSrEn = true ∧ napping.allDeep = true ∧ napping.areasHold = false
      ∧ (∀ (i : Fin 24), napping.fetching i = false) ∧ napping.now ≤ napping.pwr.hbmIdle + 100000 * nsUnits
      ∧ napping.pwr.hbmIdle + 100000 * nsUnits < napping.mem.scrubAt + 86400000000000 * nsUnits ∧ Calm napping)
    ∧ (refreshing.mem.srExit = some (booted.now - 3) ∧ refreshing.now ≤ booted.now - 3 + 20000 * nsUnits ∧ Calm refreshing)
    ∧ (booted.pwr.phase = BootPhase.ready ∧ booted.mem.ready = true ∧ Calm booted) := by and_intros <;> decide +kernel

def item1 : Item := { flow := 5, type := .hostItem, source := 1, site := none, payload := leBytes 2 4 ++ List.replicate 46 0, queuedAt := booted.now - 50, prio := 2, seqno := 8 }
def queued1 : State := {booted with sched := {booted.sched with queue := [item1], ptr := 7, cycleAt := some (booted.now / nsUnits - 1)}}
def itemTop : Item := { item1 with prio := 0 }
def afterIt (i : Instr) (s : State) : State := match exec i s with | .next t => t | _ => s
def reservedTop : State := {queued1 with sched := {queued1.sched with queue := [itemTop], reserve := 0x0180}}
def reservedPast : State := {queued1 with sched := {queued1.sched with reserve := 0x0180}}
def reservedAll : State := {queued1 with sched := {queued1.sched with reserve := -1}}

theorem witness_ReservedCoreTakesPriorityZero_more :
    (exec Instr.itemDispatch reservedTop = Host.Outcome.next (afterIt Instr.itemDispatch reservedTop)
      ∧ reservedTop.sched.reserve.getLsbD (7 : Fin 16).val = true
      ∧ (itemTop ∈ (afterIt Instr.itemDispatch reservedTop).sched.cores[(7 : Fin 16)].slots
      ∨ Option.map (fun r => r.item) (afterIt Instr.itemDispatch reservedTop).sched.cores[(7 : Fin 16)].run = some itemTop))
    ∧ ((reservedTop.pwr.phase = BootPhase.ready ∧ reservedTop.flt.device = false ∧ reservedTop.sched.queue = [itemTop]
      ∧ reservedTop.sched.cycleAt ≠ some (reservedTop.now / nsUnits) ∧ reservedTop.sched.cores = Vector.replicate 16 { }
      ∧ (reservedTop.sched.flow itemTop.flow).inService = false ∧ (reservedTop.sched.flow itemTop.flow).lastCore = none ∧ Calm reservedTop)
      ∧ reservedTop.sched.reserve.getLsbD ↑(reservedTop.sched.pointer reservedTop.now) = true ∧ itemTop.prio = (0 : Fin 4))
    ∧ ((reservedPast.pwr.phase = BootPhase.ready ∧ reservedPast.flt.device = false ∧ reservedPast.sched.queue = [item1]
      ∧ reservedPast.sched.cycleAt ≠ some (reservedPast.now / nsUnits) ∧ reservedPast.sched.cores = Vector.replicate 16 { }
      ∧ (reservedPast.sched.flow item1.flow).inService = false ∧ (reservedPast.sched.flow item1.flow).lastCore = none ∧ Calm reservedPast)
      ∧ item1.prio ≠ (0 : Fin 4) ∧ (∀ (m : Fin 16), m < (2 : Fin 16)
      → reservedPast.sched.reserve.getLsbD ↑(m + reservedPast.sched.pointer reservedPast.now) = true)
      ∧ reservedPast.sched.reserve.getLsbD ↑((2 : Fin 16) + reservedPast.sched.pointer reservedPast.now) = false)
    ∧ ((reservedAll.pwr.phase = BootPhase.ready ∧ reservedAll.flt.device = false ∧ reservedAll.sched.queue = [item1]
      ∧ reservedAll.sched.cycleAt ≠ some (reservedAll.now / nsUnits) ∧ reservedAll.sched.cores = Vector.replicate 16 { }
      ∧ (reservedAll.sched.flow item1.flow).inService = false ∧ (reservedAll.sched.flow item1.flow).lastCore = none ∧ Calm reservedAll)
      ∧ item1.prio ≠ (0 : Fin 4) ∧ reservedAll.sched.reserve = (-1 : BitVec 16)) := 
  ⟨⟨rfl, by and_intros <;> decide +kernel⟩,
    by and_intros <;> decide +kernel,
    by and_intros <;> decide +kernel,
    by and_intros <;> decide +kernel⟩

def rule1 : Rule := { opnd := .zero, cmp := .eq, act := .setVar, aparam := 3, value := 99 }
def run1 : Running := ⟨item1, booted.now - 10, some 0, some [rule1], Vector.replicate 12 0, 74, 0, Vector.replicate 8 0⟩
def work1 : Work := (evalRules (booted.ruleEnv item1) [rule1] run1.work).getD run1.work
def onCore (r : Running) : State := {booted with sched := {booted.sched with cores := upd booted.sched.cores 9 fun k => {k with run := some r}}}
def onCore1 : State := onCore run1
def binItem : Item := { flow := 4, type := .binAssign, source := 1, site := some 4, payload := [0x5A, 0] ++ List.replicate 46 0, prio := 2 }
def onCore2 : State := onCore { run1 with item := binItem, table := none }
def run2 : Running := { run1 with item := binItem, table := none }
def run3 : Running := { run1 with table := none }
def onCore3 : State := onCore run3

theorem witness_ItemsRunOnCores :
    (queued1.pwr.phase = BootPhase.ready ∧ queued1.flt.device = false ∧ queued1.sched.queue = [item1]
      ∧ queued1.sched.cycleAt ≠ some (queued1.now / nsUnits) ∧ queued1.sched.cores = Vector.replicate 16 { }
      ∧ (queued1.sched.flow item1.flow).inService = false ∧ (queued1.sched.flow item1.flow).lastCore = none ∧ (item1.prio = (0 : Fin 4)
      ∨ queued1.sched.reserve.getLsbD ↑(queued1.sched.pointer queued1.now) = false) ∧ Calm queued1)
    ∧ (onCore1.sched.cores[(9 : Fin 16)].run = some run1 ∧ onCore1.sched.cores[(9 : Fin 16)].slots = [] ∧ run1.item.type = ItemType.hostItem
      ∧ run1.item.site = none ∧ run1.table = some [rule1] ∧ evalRules (onCore1.ruleEnv run1.item) [rule1] run1.work = some work1 ∧ work1.levels = []
      ∧ work1.edges = [] ∧ work1.restart = none ∧ work1.stop = false ∧ onCore1.now ≤ run1.started + onCore1.itemTime run1 * nsUnits ∧ Calm onCore1)
    ∧ (onCore2.sched.cores[(9 : Fin 16)].run = some run2 ∧ onCore2.sched.cores[(9 : Fin 16)].slots = [] ∧ run2.item.type = ItemType.binAssign
      ∧ run2.item.site = some (4 : Cluster) ∧ run2.item.flow = (4 : Cluster).val ∧ fieldAt run2.item.payload 1 1 = 0 ∧ Calm onCore2)
    ∧ (onCore3.sched.cores[(9 : Fin 16)].run = some run3 ∧ onCore3.sched.cores[(9 : Fin 16)].slots = [] ∧ run3.item.type = ItemType.hostItem
      ∧ run3.item.site = none ∧ run3.num.isSome = true ∧ run3.table = none ∧ Calm onCore3)
    ∧ (onCore1.sched.cores[(9 : Fin 16)].run = some run1 ∧ onCore1.sched.cores[(9 : Fin 16)].slots = [] ∧ onCore1.now ≤ run1.started + 100000 * nsUnits
      ∧ Calm onCore1)
    ∧ (booted.pwr.phase = BootPhase.ready ∧ booted.now ≤ booted.sched.window + 1000000 * nsUnits ∧ Calm booted)
    ∧ (queued1.pwr.phase = BootPhase.ready ∧ queued1.now % (1000 * nsUnits) = 0 ∧ Calm queued1) := by and_intros <;> decide +kernel

def upPort : RopePort := { state := .up, fixedLat := true, level := 3, aligned := true, delay := 100, partner := some ⟨0x55, 3, true, true⟩, reqAt := some (booted.now - 5) }
def ropeUp : State := { playable with rope := { playable.rope with ports := Vector.replicate 4 upPort }, time := { playable.time with source := .rope, port := 2, state := .locked, stratum := 2, sums := [] } }
def frame (ctype hops : Byte) (tick : BitVec 16) (body : List Byte) : Frame :=
  let f : Frame := ⟨hops, tick, 0x55, body ++ List.replicate (16 - body.length) 0, 0⟩
  { f with crc := crc32c (frameBytes ctype f) }
def reqFrame : Frame := frame 0x10 0 0 []
def ropeUp2 : State := {ropeUp with rope := {ropeUp.rope with ports := ropeUp.rope.ports.map fun p => {p with level := 2}}}
def asking : State := {ropeUp with time := {ropeUp.time with lastReq := ropeUp.now - 50}}
def asked (sums : List Int) : State := {ropeUp with time := {ropeUp.time with sums := sums, req := some (ropeUp.now - 1000, ropeUp.net - 1000), asymCable := Vector.replicate 4 5}}
def respFrame (off : Int) : Frame := frame 0x11 0 0 (leBytes 12 (stampOf (ropeUp.net + off)).toNat ++ leBytes 3 9 ++ [0x13])
def asked0 : State := asked []
def asked15 : State := asked (List.replicate 15 300)
def asked2 (sums : List Int) : State := let s := asked sums; {s with rope := ropeUp2.rope}
def respShort (off : Int) : Frame := let u := ropeUp.net + off; frame 0x11 0 0 (leBytes 4 (u / nsUnits % 2 ^ 32).toNat ++ leBytes 2 (u % nsUnits).toNat ++ List.replicate 6 0 ++ leBytes 3 9 ++ [0x13])
def asked20 : State := asked2 []
def asked215 : State := asked2 (List.replicate 15 300)
def ptm : State := {ropeUp with time := {ropeUp.time with source := .ptm, lastReq := ropeUp.now - 7, lastEst := ropeUp.now - 9}}
def ptmOpen : State := {ptm with time := {ptm.time with req := some (ptm.now - 7, ptm.net - 7)}}
def ptmMean : State := {ptmOpen with time := {ptmOpen.time with sums := List.replicate 15 300}}
def slewing : State := {ropeUp with time := {ropeUp.time with corr := -3, lastStep := ropeUp.now - 9}}
def slewing2 : State := {slewing with sites := upd slewing.sites 3 fun r => {r with state := .running}}
def upstreamDown : State := {ropeUp with rope := {ropeUp.rope with ports := upd ropeUp.rope.ports 2 fun p => {p with state := .train}}}

theorem witness_TimeIsExchanged :
    (Arrives ropeUp (1 : Port) (16 : Byte) reqFrame)
    ∧ (Arrives ropeUp2 (1 : Port) (16 : Byte) reqFrame)
    ∧ (asking.time.source = TimeSource.rope ∧ asking.time.req = none ∧ asking.rope.ports[asking.time.port].state = PortState.up
      ∧ asking.now ≤ asking.time.lastReq + 20000 * nsUnits ∧ Calm asking)
    ∧ (asked0.time.req = some (ropeUp.now - 1000, ropeUp.net - (1000 : Int)) ∧ asked0.time.source = TimeSource.rope ∧ asked0.time.port = (2 : Port)
      ∧ 3000 ≤ 10000 * nsUnits ∧ asked0.now ≤ ropeUp.now - 1000 + 3000 ∧ Arrives asked0 (2 : Port) (17 : Byte) (respFrame (100 : Int))
      ∧ fieldAt (respFrame (100 : Int)).body 15 1 / 16 % 2 = 1 ∧ fieldAt (respFrame (100 : Int)).body 15 1 % 16 < 15 ∧ Calm asked0)
    ∧ (asked15.time.req = some (ropeUp.now - 1000, ropeUp.net - (1000 : Int)) ∧ asked15.time.source = TimeSource.rope ∧ asked15.time.port = (2 : Port)
      ∧ 3000 ≤ 10000 * nsUnits ∧ asked15.now ≤ ropeUp.now - 1000 + 3000 ∧ Arrives asked15 (2 : Port) (17 : Byte) (respFrame (100 : Int))
      ∧ fieldAt (respFrame (100 : Int)).body 15 1 / 16 % 2 = 1 ∧ fieldAt (respFrame (100 : Int)).body 15 1 % 16 < 15 ∧ Calm asked15)
    ∧ (asked15.time.req = some (ropeUp.now - 1000, ropeUp.net - (1000 : Int)) ∧ asked15.time.source = TimeSource.rope ∧ asked15.time.port = (2 : Port)
      ∧ 3000 ≤ 10000 * nsUnits ∧ asked15.now ≤ ropeUp.now - 1000 + 3000 ∧ Arrives asked15 (2 : Port) (17 : Byte) (respFrame (1000000000 : Int))
      ∧ fieldAt (respFrame (1000000000 : Int)).body 15 1 / 16 % 2 = 1 ∧ fieldAt (respFrame (1000000000 : Int)).body 15 1 % 16 < 15 ∧ Calm asked15)
    ∧ (asked20.time.req = some (ropeUp.now - 1000, ropeUp.net - (1000 : Int)) ∧ asked20.time.source = TimeSource.rope ∧ asked20.time.port = (2 : Port)
      ∧ 3000 ≤ 10000 * nsUnits ∧ asked20.now ≤ ropeUp.now - 1000 + 3000 ∧ Arrives asked20 (2 : Port) (17 : Byte) (respShort (100 : Int))
      ∧ fieldAt (respShort (100 : Int)).body 15 1 / 16 % 2 = 1 ∧ fieldAt (respShort (100 : Int)).body 15 1 % 16 < 15 ∧ Calm asked20)
    ∧ (asked215.time.req = some (ropeUp.now - 1000, ropeUp.net - (1000 : Int)) ∧ asked215.time.source = TimeSource.rope ∧ asked215.time.port = (2 : Port)
      ∧ 3000 ≤ 10000 * nsUnits ∧ asked215.now ≤ ropeUp.now - 1000 + 3000 ∧ Arrives asked215 (2 : Port) (17 : Byte) (respShort (100 : Int))
      ∧ fieldAt (respShort (100 : Int)).body 15 1 / 16 % 2 = 1 ∧ fieldAt (respShort (100 : Int)).body 15 1 % 16 < 15 ∧ Calm asked215)
    ∧ (asked215.time.req = some (ropeUp.now - 1000, ropeUp.net - (1000 : Int)) ∧ asked215.time.source = TimeSource.rope ∧ asked215.time.port = (2 : Port)
      ∧ 3000 ≤ 10000 * nsUnits ∧ asked215.now ≤ ropeUp.now - 1000 + 3000 ∧ Arrives asked215 (2 : Port) (17 : Byte) (respShort (-300000 : Int))
      ∧ fieldAt (respShort (-300000 : Int)).body 15 1 / 16 % 2 = 1 ∧ fieldAt (respShort (-300000 : Int)).body 15 1 % 16 < 15 ∧ Calm asked215)
    ∧ (asked0.time.req = some (ropeUp.now - 1000, ropeUp.net - (1000 : Int)) ∧ asked0.time.source = TimeSource.rope
      ∧ asked0.now ≤ ropeUp.now - 1000 + 10000 * nsUnits ∧ Calm asked0)
    ∧ (ptm.time.source = TimeSource.ptm ∧ ptm.now ≤ ptm.time.lastReq + 1000000 * nsUnits ∧ ptm.pwr.link ≠ LinkState.down ∧ Calm ptm)
    ∧ (ptmOpen.time.source = TimeSource.ptm ∧ ptmOpen.time.req = some (ptm.now - 7, ptm.net - (7 : Int)) ∧ ptmOpen.net ≤ ptm.net + (60 : Int)
      ∧ Calm ptmOpen)
    ∧ (ptmMean.time.source = TimeSource.ptm ∧ ptmMean.time.req = some (ptm.now - 7, ptm.net - (7 : Int)) ∧ ptmMean.net ≤ ptm.net + (60 : Int)
      ∧ Calm ptmMean)
    ∧ (ptmMean.time.source = TimeSource.ptm ∧ ptmMean.time.req = some (ptm.now - 7, ptm.net - (7 : Int)) ∧ ptmMean.net ≤ ptm.net + (60 : Int)
      ∧ Calm ptmMean)
    ∧ (slewing.time.state = TimeState.locked ∧ slewing.time.corr ≠ (0 : Int) ∧ (∀ (k : Cluster), k ∈ slewing.siteIdxs → slewing.siteState k = SiteState.idle
      ∨ slewing.siteState k = SiteState.halted) ∧ slewing.now ≤ slewing.time.lastStep + 100 * nsUnits ∧ Calm slewing)
    ∧ (slewing2.time.state = TimeState.locked ∧ slewing2.time.corr ≠ (0 : Int) ∧ (3 : Cluster) ∈ slewing2.siteIdxs
      ∧ slewing2.siteState (3 : Cluster) = SiteState.running ∧ slewing2.now ≤ slewing2.time.lastStep + 10000 * nsUnits ∧ Calm slewing2)
    ∧ (ptm.time.state = TimeState.locked ∧ ptm.time.source = TimeSource.ptm ∧ ptm.now ≤ ptm.time.lastEst + 20000000 * nsUnits ∧ Calm ptm)
    ∧ (upstreamDown.time.state = TimeState.locked ∧ upstreamDown.time.source = TimeSource.rope
      ∧ upstreamDown.rope.ports[upstreamDown.time.port].state ≠ PortState.up ∧ Calm upstreamDown) := by and_intros <;> decide +kernel

def netTick : Int := ropeUp.net / 20480
def atFrame (ctype hops : Byte) (ahead : Int) : Frame := frame ctype hops (BitVec.ofInt 16 (netTick + ahead)) [7, 1, 3]
def onePort : State := {ropeUp with rope := {ropeUp.rope with ports := (upd (upd ropeUp.rope.ports 0 fun p => {p with state := .train}) 2 fun p => {p with fixedLat := false})}}
def badCrc : Frame := {atFrame 0x30 1 9 with crc := 5}
def oddFrame : Frame := atFrame 0x77 1 9
def condFrame : Frame := frame 0x20 0 0 (leBytes 4 7 ++ leBytes 4 5 ++ leBytes 2 2 ++ [1])
def voteFrame : Frame := frame 0x21 0 0 (leBytes 4 7 ++ leBytes 2 17 ++ [1, 0] ++ leBytes 4 99)
def abortFrame : Frame := frame 0x22 0 0 (leBytes 4 7)
def msgOf (ctype : Byte) (f : Frame) : InMsg := ⟨1, ctype, 1, booted.net, f.src, f.body⟩
def inboxed (ctype : Byte) (f : Frame) : State := let s := resolving false; {s with rope := {s.rope with inbox := [msgOf ctype f, msgOf 0x22 f]}, seqs := upd s.seqs 3 fun q => {q with start := some ⟨.atTime, 17, some 5, false⟩}}
def condIn : State := inboxed 0x20 condFrame
def voteIn : State := inboxed 0x21 voteFrame
def abortIn : State := inboxed 0x22 abortFrame
def cause2 : Frame := frame 0x22 0 0 (leBytes 4 7 ++ [2])
def abortIn2 : State := inboxed 0x22 cause2
def trigFrame : Frame := frame 0x30 0 0 [4, 0, 9, 0]
def acqRope : AcqConfig := { acqSet with source := .rope, pre := 0, sparam := leBytes 8 0x55 ++ [4, 1, 0, 0] ++ List.replicate 4 0 }
def trigIn : State := let s := acquiring 20 acqRope none; {s with rope := {s.rope with inbox := [{msgOf 0x30 trigFrame with time := s.net + 40 * nsUnits - 300}]}}
def trigMsg : InMsg := {msgOf 0x30 trigFrame with time := (acquiring 20 acqRope none).net + 40 * nsUnits - 300}
def gevtIn : State := inboxed 0x31 trigFrame

theorem witness_FramesReachTheBlocks :
    ((34 : Byte) ∈ [(32 : Byte), (33 : Byte), (34 : Byte), (48 : Byte), (49 : Byte)] ∧ ropeUp.flOk (1 : Port) = true
      ∧ Arrives ropeUp (1 : Port) (34 : Byte) (atFrame (34 : Byte) (3 : Byte) (9 : Int))
      ∧ (0 : Int) ≤ ((atFrame (34 : Byte) (3 : Byte) (9 : Int)).tick - BitVec.ofInt 16 (netTick + (1 : Int))).toInt
      ∧ ropeUp.net ≤ (netTick + (1 : Int) + ((atFrame (34 : Byte) (3 : Byte) (9 : Int)).tick - BitVec.ofInt 16 (netTick + (1 : Int))).toInt) * (20480 : Int)
      ∧ Calm ropeUp ∧ (∀ (x : Delivered), x ∈ ropeUp.rope.delivered → x.src ≠ (atFrame (34 : Byte) (3 : Byte) (9 : Int)).src ∨ x.ctype ≠ (34 : Byte)
      ∨ x.tick ≠ (atFrame (34 : Byte) (3 : Byte) (9 : Int)).tick) ∧ 3 ≤ BitVec.toNat (atFrame (34 : Byte) (3 : Byte) (9 : Int)).hops)
    ∧ ((32 : Byte) ∈ [(32 : Byte), (33 : Byte), (34 : Byte), (48 : Byte), (49 : Byte)] ∧ onePort.flOk (1 : Port) = true
      ∧ Arrives onePort (1 : Port) (32 : Byte) (atFrame (32 : Byte) (1 : Byte) (9 : Int))
      ∧ (0 : Int) ≤ ((atFrame (32 : Byte) (1 : Byte) (9 : Int)).tick - BitVec.ofInt 16 (netTick + (1 : Int))).toInt
      ∧ onePort.net ≤ (netTick + (1 : Int) + ((atFrame (32 : Byte) (1 : Byte) (9 : Int)).tick - BitVec.ofInt 16 (netTick + (1 : Int))).toInt) * (20480 : Int)
      ∧ (∀ (j : Port), onePort.rope.ports[j].state ≠ PortState.idle) ∧ Calm onePort ∧ (∀ (x : Delivered), x ∈ onePort.rope.delivered
      → x.src ≠ (atFrame (32 : Byte) (1 : Byte) (9 : Int)).src ∨ x.ctype ≠ (32 : Byte) ∨ x.tick ≠ (atFrame (32 : Byte) (1 : Byte) (9 : Int)).tick)
      ∧ BitVec.toNat (atFrame (32 : Byte) (1 : Byte) (9 : Int)).hops < 3
      ∧ List.filter (fun j => decide (j ≠ (1 : Port)) && (decide (onePort.rope.ports[j].state = PortState.up) && (({ onePort with now := ((netTick + (1 : Int) + ((atFrame (32 : Byte) (1 : Byte) (9 : Int)).tick - BitVec.ofInt 16 (netTick + (1 : Int))).toInt) * (20480 : Int) - onePort.netOff).toNat } : State).flOk j && (decide ((32 : Byte) ≠ (32 : Byte)) || decide (onePort.rope.ports[j].level = 3))))) (List.finRange 4) = [(3 : Port)])
    ∧ ((48 : Byte) ∈ [(32 : Byte), (33 : Byte), (34 : Byte), (48 : Byte), (49 : Byte)] ∧ ropeUp.flOk (1 : Port) = true
      ∧ Arrives ropeUp (1 : Port) (48 : Byte) (atFrame (48 : Byte) (1 : Byte) (-9 : Int))
      ∧ ((atFrame (48 : Byte) (1 : Byte) (-9 : Int)).tick - BitVec.ofInt 16 (netTick + (1 : Int))).toInt < (0 : Int))
    ∧ ((48 : Byte) ∈ [(32 : Byte), (33 : Byte), (34 : Byte), (48 : Byte), (49 : Byte)] ∧ ropeUp.rope.ports[(1 : Port)].state.hears = true
      ∧ badCrc.crc ≠ crc32c ([(48 : Byte), badCrc.hops] ++ leBytes 2 badCrc.tick.toNat ++ leBytes 8 badCrc.src.toNat ++ List.take 16 (badCrc.body ++ List.replicate 16 (0 : Byte))))
    ∧ (frameLevel (119 : Byte) = none ∧ ropeUp.rope.ports[(1 : Port)].state.hears = true ∧ oddFrame.crc = crc32c (frameBytes (119 : Byte) oddFrame))
    ∧ (condIn.rope.inbox = [msgOf (32 : Byte) condFrame, msgOf (34 : Byte) condFrame] ∧ (msgOf (32 : Byte) condFrame).port = (1 : Port)
      ∧ (msgOf (32 : Byte) condFrame).ctype = (32 : Byte) ∧ (msgOf (32 : Byte) condFrame).src = condFrame.src
      ∧ (msgOf (32 : Byte) condFrame).body = condFrame.body)
    ∧ (voteIn.rope.inbox = [msgOf (33 : Byte) voteFrame, msgOf (34 : Byte) voteFrame] ∧ (msgOf (33 : Byte) voteFrame).port = (1 : Port)
      ∧ (msgOf (33 : Byte) voteFrame).ctype = (33 : Byte) ∧ (msgOf (33 : Byte) voteFrame).src = voteFrame.src
      ∧ (msgOf (33 : Byte) voteFrame).body = voteFrame.body)
    ∧ (abortIn2.rope.inbox = [msgOf (34 : Byte) cause2, msgOf (34 : Byte) cause2] ∧ ((msgOf (34 : Byte) cause2).port = (1 : Port)
      ∧ (msgOf (34 : Byte) cause2).ctype = (34 : Byte) ∧ (msgOf (34 : Byte) cause2).src = cause2.src ∧ (msgOf (34 : Byte) cause2).body = cause2.body)
      ∧ fieldAt (msgOf (34 : Byte) cause2).body 4 1 = 2)
    ∧ (abortIn.rope.inbox = [msgOf (34 : Byte) abortFrame, msgOf (34 : Byte) abortFrame] ∧ ((msgOf (34 : Byte) abortFrame).port = (1 : Port)
      ∧ (msgOf (34 : Byte) abortFrame).ctype = (34 : Byte) ∧ (msgOf (34 : Byte) abortFrame).src = abortFrame.src
      ∧ (msgOf (34 : Byte) abortFrame).body = abortFrame.body) ∧ fieldAt (msgOf (34 : Byte) abortFrame).body 4 1 ≠ 2 ∧ abortIn.flt.react = []
      ∧ abortIn.flt.first = none ∧ Calm abortIn)
    ∧ (trigIn.rope.inbox = [trigMsg] ∧ (trigMsg.port = (1 : Port) ∧ trigMsg.ctype = (48 : Byte) ∧ trigMsg.src = trigFrame.src
      ∧ trigMsg.body = trigFrame.body) ∧ ∀ (c : Cluster), c ≠ (3 : Cluster) → trigIn.cl[c].cap.acq.active = false)
    ∧ (gevtIn.rope.inbox = [msgOf (49 : Byte) trigFrame, msgOf (34 : Byte) trigFrame] ∧ (msgOf (49 : Byte) trigFrame).port = (1 : Port)
      ∧ (msgOf (49 : Byte) trigFrame).ctype = (49 : Byte) ∧ (msgOf (49 : Byte) trigFrame).src = trigFrame.src
      ∧ (msgOf (49 : Byte) trigFrame).body = trigFrame.body)
    ∧ (ropeUp.barOpen (0 : Func) = true ∧ BitVec.setWidth 8 (53 : Word) ≠ BitVec.ofNat 8 0) := by and_intros <;> decide +kernel

def portIs (n : Port) (f : RopePort → RopePort) : State := {ropeUp with rope := {ropeUp.rope with ports := upd ropeUp.rope.ports n f}}
def detecting : State := portIs 1 fun p => {p with state := .detect, level := 0, partner := none}
def training0 : Training := { began := ropeUp.now - 900, lastReq := ropeUp.now - 70, best := 0x80, metric := 0x70 }
def trainingIs (t : Training) : State := portIs 1 fun p => {p with state := .train, level := 0, partner := none, training := some t, pre := 2, post := 3, main := 9}
def trainBoth : Training := { training0 with sentDone := true, gotDone := true, best := 0xB0 }
def trainLow : Training := { training0 with best := 0x20 }
def inTraining : State := trainingIs training0
def testing0 : PortTest := { loop := 2, prbs := 1, inject := 2, duration := 40, running := true, endAt := some (ropeUp.now + 99), firstAt := some (ropeUp.now + 5) }
def testingIs (x : PortTest) : State := portIs 1 fun p => {p with state := .test, level := 0, partner := none, test := x}
def inTest : State := testingIs testing0
def detectSoon : State := {detecting with rope := {detecting.rope with clockAt := detecting.now - 500}}
def trainReqFrame (a b c d : Byte) : Frame := frame 0x50 0 0 [a, b, c, 0x70, d]
def trainReqA : Frame := trainReqFrame 1 3 2 1
def trainReqB : Frame := trainReqFrame 2 2 1 0
def trainReqC : Frame := trainReqFrame 3 1 3 0
def trainStsFrame : Frame := frame 0x51 0 0 [3, 14, 2, 1, 0, 2]
def trainedBoth : State := trainingIs trainBoth
def trainedLow : State := trainingIs trainLow
def failed1 : State := portIs 1 fun p => {p with state := .train, retryAt := some (ropeUp.now + 50)}
def probeFrame : Frame := frame 0x52 0 0 [1,2,3,4,5,6,7,8]
def echoFrame : Frame := frame 0x53 0 0 [1,2,3,4,5,6,7,8,99]
def aligning (p : Bool) : State := portIs 1 fun q => {q with state := .align, partner := if p then q.partner else none}
def aligningOne : State := aligning false
def aligningTwo : State := aligning true
def identFrame (hops : Byte) : Frame := frame 0x40 hops 0 [5, 0, 1, 0, 3, 2, 3, 0]
def meeting : State := {ropeUp with rope := {ropeUp.rope with ports := (Vector.replicate 4 {upPort with state := .detect}).set 1 {upPort with state := .ident, partner := none, level := 0}}}
def relaying : State := {ropeUp with rope := {ropeUp.rope with ports := ((Vector.replicate 4 {upPort with state := .detect}).set 1 upPort).set 3 upPort}}
def given9 : State := {relaying with rope := {relaying.rope with ports := relaying.rope.ports.map fun p => {p with identAt := relaying.now - 8}}}
def entry1 : TopoEntry := ⟨0x99, 2, 2, 3, 1, 6, true, ropeUp.now - 40⟩
def aging : State := {ropeUp with rope := {ropeUp.rope with topo := [{entry1 with serial := 4}, entry1]}}
def busyAt : State := {ropeUp with rope := {ropeUp.rope with ports := ropeUp.rope.ports.map fun p => {p with lastBusy := ropeUp.now - 8}}}
def noticeFrame : Frame := frame 0x60 0 0 []
def idling (d : Nat) : State := let s := portIs 1 fun p => {p with state := .idle, idleAt := ropeUp.now - d}; {s with rope := {s.rope with topo := [{entry1 with port := 1}, entry1]}}
def idlingShort : State := idling 100
def idlingLong : State := { idling 100 with now := ropeUp.now + 100000000 * nsUnits }
def loopFrame : Frame := frame 0x61 0 0 []
def loopWait : State := portIs 1 fun p => {p with test := {testing0 with loop := 3, endAt := none, firstAt := none, waiting := true}}
def ackFrame (r : Byte) : Frame := frame 0x62 0 0 [r]
def ackYes : Frame := ackFrame 0
def ackNo : Frame := ackFrame 1
def prbsStream (k : Nat) : Nat → Nat → List Bool
  | 0, _ => []
  | n + 1, reg => let (b, r) := prbsNext k reg; b :: prbsStream k n r
def goodBits : List Bool := prbsStream 1 1031 5
def lockedTest : State := testingIs {testing0 with lockAt := some (ropeUp.now - 50), everLock := true}

theorem witness_DiscoveryIdlingAndTests :
    (Arrives meeting (1 : Port) (64 : Byte) (identFrame (0 : Byte)) ∧ (identFrame (0 : Byte)).hops = (0 : Byte)
      ∧ meeting.rope.ports[(1 : Port)].state = PortState.ident ∧ meeting.rope.topo = []
      ∧ (meeting.rope.ports[(1 : Port)].test.running && meeting.rope.ports[(1 : Port)].test.waiting) = false ∧ ∀ (m : Port), m ≠ (1 : Port)
      → meeting.rope.ports[m].state ≠ PortState.up)
    ∧ (Arrives relaying (1 : Port) (64 : Byte) (identFrame (2 : Byte)) ∧ (BitVec.toNat (identFrame (2 : Byte)).hops = 1
      ∨ BitVec.toNat (identFrame (2 : Byte)).hops = 2) ∧ relaying.rope.ports[(1 : Port)].state = PortState.up
      ∧ (identFrame (2 : Byte)).body.length = 16
      ∧ List.filter (fun j => decide (j ≠ (1 : Port)) && decide (relaying.rope.ports[j].state = PortState.up)) (List.finRange 4) = [(3 : Port)]
      ∧ relaying.rope.find (identFrame (2 : Byte)).src = none ∧ relaying.rope.topo.length < 64)
    ∧ ((given9.rope.ports[(1 : Port)].state = PortState.up ∨ given9.rope.ports[(1 : Port)].state = PortState.ident)
      ∧ given9.now ≤ given9.rope.ports[(1 : Port)].identAt + 100000 * nsUnits ∧ Calm given9)
    ∧ (aging.rope.topo[(1 : Fin 64).val]? = some entry1 ∧ aging.rope.ports[entry1.port].state ≠ PortState.idle
      ∧ aging.now ≤ (if entry1.hops = 1 then aging.rope.ports[entry1.port].lastRx else entry1.seen) + 1000000 * nsUnits ∧ Calm aging)
    ∧ (busyAt.rope.ports[(1 : Port)].state = PortState.up ∧ ((busyAt.time.source ≠ TimeSource.rope ∨ busyAt.time.port ≠ (1 : Port))
      ∧ busyAt.portInUse (1 : Port) = false) ∧ busyAt.now ≤ busyAt.rope.ports[(1 : Port)].lastBusy + 1000000 * nsUnits ∧ Calm busyAt)
    ∧ (Arrives ropeUp (1 : Port) (96 : Byte) noticeFrame)
    ∧ (idlingShort.rope.ports[(1 : Port)].state = PortState.idle ∧ idlingShort.now < idlingShort.rope.ports[(1 : Port)].idleAt + 100000000 * nsUnits
      ∧ (-15 : Int) ≤ List.foldl max idlingShort.pwr.temps[0] idlingShort.pwr.temps.toList / (16 : Int) - BitVec.toInt idlingShort.rope.ports[(1 : Port)].trainTemp
      ∧ List.foldl max idlingShort.pwr.temps[0] idlingShort.pwr.temps.toList / (16 : Int) - BitVec.toInt idlingShort.rope.ports[(1 : Port)].trainTemp ≤ (15 : Int))
    ∧ (idlingLong.rope.ports[(1 : Port)].state = PortState.idle ∧ (idlingLong.now ≥ idlingLong.rope.ports[(1 : Port)].idleAt + 100000000 * nsUnits
      ∨ List.foldl max idlingLong.pwr.temps[0] idlingLong.pwr.temps.toList / (16 : Int) - BitVec.toInt idlingLong.rope.ports[(1 : Port)].trainTemp < (-15 : Int)
      ∨ List.foldl max idlingLong.pwr.temps[0] idlingLong.pwr.temps.toList / (16 : Int) - BitVec.toInt idlingLong.rope.ports[(1 : Port)].trainTemp > (15 : Int)))
    ∧ (Arrives ropeUp (1 : Port) (97 : Byte) loopFrame ∧ (ropeUp.time.source ≠ TimeSource.rope ∨ ropeUp.time.port ≠ (1 : Port))
      ∧ ropeUp.portInUse (1 : Port) = false)
    ∧ (Arrives ropeUp (2 : Port) (97 : Byte) loopFrame ∧ ¬((ropeUp.time.source ≠ TimeSource.rope ∨ ropeUp.time.port ≠ (2 : Port))
      ∧ ropeUp.portInUse (2 : Port) = false))
    ∧ (Arrives loopWait (1 : Port) (98 : Byte) ackYes ∧ loopWait.rope.ports[(1 : Port)].test.running = true
      ∧ loopWait.rope.ports[(1 : Port)].test.waiting = true)
    ∧ (Arrives loopWait (1 : Port) (98 : Byte) ackNo ∧ loopWait.rope.ports[(1 : Port)].test.running = true
      ∧ loopWait.rope.ports[(1 : Port)].test.waiting = true)
    ∧ (inTest.rope.ports[(1 : Port)].test.endAt = some (ropeUp.now + 99) ∧ inTest.rope.ports[(1 : Port)].state = PortState.test
      ∧ inTest.now ≤ ropeUp.now + 99 ∧ Calm inTest)
    ∧ (prbsLocks inTest.rope.ports[(1 : Port)].test.prbs [true] = false)
    ∧ (inTest.rope.ports[(1 : Port)].tests = true ∧ inTest.rope.ports[(1 : Port)].test.lockAt = none
      ∧ prbsLocks inTest.rope.ports[(1 : Port)].test.prbs goodBits = true)
    ∧ (lockedTest.rope.ports[(1 : Port)].test.lockAt = some (ropeUp.now - 50) ∧ 256 ≤ 300 ∧ 300 ≤ 550)
    ∧ (lockedTest.rope.ports[(1 : Port)].test.firstAt = some (ropeUp.now + 5) ∧ lockedTest.now ≤ ropeUp.now + 5 ∧ Calm lockedTest)
    ∧ (lockedTest.barOpen (0 : Func) = true ∧ BitVec.getLsbD (1 : Word) 0 = true ∧ lockedTest.rope.ports[(1 : Port)].tests = true
      ∧ lockedTest.rope.ports[(1 : Port)].test.inject ≠ 0) := by and_intros <;> decide +kernel

def trainFar : Training := { training0 with partner := [3, 9, 4, 0, 0, 0], bestTaps := [1, 12, 4] }
def inTrainingFar : State := trainingIs trainFar

theorem witness_LinksTrainAndAlign :
    (detectSoon.rope.ports[(1 : Port)].state = PortState.detect ∧ detectSoon.now ≤ detectSoon.rope.clockAt + 60000 * nsUnits ∧ Calm detectSoon)
    ∧ (detecting.rope.ports[(1 : Port)].state = PortState.detect ∧ detecting.rope.clockAt + 60000 * nsUnits ≤ detecting.now)
    ∧ ((inTraining.rope.ports[(1 : Port)].state = PortState.train ∨ inTraining.rope.ports[(1 : Port)].state = PortState.align
      ∨ inTraining.rope.ports[(1 : Port)].state = PortState.ident) ∧ inTraining.rope.ports[(1 : Port)].test.running = false)
    ∧ (ropeUp.rope.ports[(1 : Port)].state = PortState.up ∧ ropeUp.rope.ports[(1 : Port)].test.running = false ∧ Calm ropeUp)
    ∧ (inTest.rope.ports[(1 : Port)].state = PortState.test ∧ inTest.rope.ports[(1 : Port)].test.running = true)
    ∧ (Arrives inTraining (1 : Port) (80 : Byte) trainReqA ∧ inTraining.rope.ports[(1 : Port)].training = some training0)
    ∧ (Arrives inTraining (1 : Port) (80 : Byte) trainReqB ∧ inTraining.rope.ports[(1 : Port)].training = some training0)
    ∧ (Arrives inTraining (1 : Port) (80 : Byte) trainReqC ∧ inTraining.rope.ports[(1 : Port)].training = some training0)
    ∧ (Arrives inTraining (1 : Port) (81 : Byte) trainStsFrame ∧ inTraining.rope.ports[(1 : Port)].training = some training0)
    ∧ (inTraining.rope.ports[(1 : Port)].training = some training0 ∧ inTraining.now ≤ training0.lastReq + 1000 * nsUnits ∧ Calm inTraining)
    ∧ (inTraining.rope.ports[(1 : Port)].training = some training0 ∧ inTraining.now ≤ training0.lastReq + 1000 * nsUnits ∧ Calm inTraining)
    ∧ (trainedBoth.rope.ports[(1 : Port)].state = PortState.train ∧ trainedBoth.rope.ports[(1 : Port)].training = some trainBoth ∧ trainBoth.sentDone = true
      ∧ trainBoth.gotDone = true ∧ 160 ≤ BitVec.toNat trainBoth.best)
    ∧ (inTraining.rope.ports[(1 : Port)].state = PortState.train ∧ inTraining.rope.ports[(1 : Port)].training = some training0 ∧ (training0.sentDone = false
      ∨ training0.gotDone = false) ∧ inTraining.now ≤ training0.began + 2000000 * nsUnits ∧ 96 ≤ BitVec.toNat training0.best
      ∧ BitVec.toNat training0.best < 160 ∧ Calm inTraining)
    ∧ (trainedLow.rope.ports[(1 : Port)].state = PortState.train ∧ trainedLow.rope.ports[(1 : Port)].training = some trainLow ∧ (trainLow.sentDone = false
      ∨ trainLow.gotDone = false) ∧ trainedLow.now ≤ trainLow.began + 2000000 * nsUnits ∧ BitVec.toNat trainLow.best < 96 ∧ Calm trainedLow)
    ∧ (failed1.rope.ports[(1 : Port)].retryAt = some (ropeUp.now + 50) ∧ failed1.rope.ports[(1 : Port)].state = PortState.train
      ∧ failed1.now ≤ ropeUp.now + 50 ∧ Calm failed1)
    ∧ (Arrives ropeUp (1 : Port) (82 : Byte) probeFrame ∧ probeFrame.body.length = 16)
    ∧ (Arrives aligningOne (1 : Port) (83 : Byte) echoFrame ∧ aligningOne.rope.ports[(1 : Port)].state = PortState.align
      ∧ (aligningOne.rope.ports[(1 : Port)].test.running && aligningOne.rope.ports[(1 : Port)].test.waiting) = false)
    ∧ (Arrives aligningTwo (1 : Port) (83 : Byte) echoFrame ∧ aligningTwo.rope.ports[(1 : Port)].state = PortState.align
      ∧ (aligningTwo.rope.ports[(1 : Port)].test.running && aligningTwo.rope.ports[(1 : Port)].test.waiting) = false)
    ∧ (inTrainingFar.rope.ports[(1 : Port)].state = PortState.train ∧ inTrainingFar.rope.ports[(1 : Port)].training = some trainFar
      ∧ (trainFar.sentDone = false ∨ trainFar.gotDone = false) ∧ inTrainingFar.now ≤ trainFar.began + 2000000 * nsUnits
      ∧ 96 ≤ BitVec.toNat trainFar.best ∧ BitVec.toNat trainFar.best < 160 ∧ Calm inTrainingFar) := by and_intros <;> decide +kernel

def secSet : Security := { ropeUp.sec with nbrNonce := Vector.ofFn fun (i : Fin 8) => BitVec.ofNat 32 (i.val + 5), trees := [0] }
def attesting : State := {ropeUp with sec := secSet}
def attDown : State := {attesting with rope := {attesting.rope with ports := upd attesting.rope.ports 1 fun p => {p with state := .train}}}
def nbr0 : NbrRequest := { port := 1, since := ropeUp.now - 80 }
def requesting (q : NbrRequest) : State := {attesting with sec := {attesting.sec with nbrReq := some q}}
def requested : State := requesting nbr0
def nonceLoFrame : Frame := frame 0x63 0 0 [1, 2, 3]
def nonceHiFrame : Frame := frame 0x64 0 0 [4, 5, 6]
def halfAsked : State := {attesting with rope := {attesting.rope with ports := upd attesting.rope.ports 1 fun p => {p with nonceLo := some [1, 2, 3]}}}
def halfAskedBusy : State := {halfAsked with sec := {halfAsked.sec with trees := []}}
def reported : State := {attesting with rope := {attesting.rope with ports := upd attesting.rope.ports 1 fun p => {p with report := List.replicate 200 7}}}
def resendFrame : Frame := frame 0x67 0 0 [3, 0, 2, 0]
def dataFrame : Frame := frame 0x65 0 0 [3, 0, 2, 0]
def busyFrame : Frame := frame 0x66 0 0 [0xCC, 0x24, 0, 0, 0x12]
def endFrame : Frame := frame 0x66 0 0 [0xCC, 0x24, 0, 0, 0]
def most (a n : Nat) : List (Nat × List Byte) := (List.range n).map fun k => (a + k, List.replicate 14 3)
def nbr1 : NbrRequest := { nbr0 with resends := 3, chunks := most 1 672 }
def requested3 : State := requesting nbr1
def nbr2 : NbrRequest := { nbr0 with chunks := most 0 670 }
def requestedMost : State := requesting nbr2
def nbr3 : NbrRequest := { nbr0 with chunks := most 0 673 }
def requestedAll : State := requesting nbr3
theorem most_has (a n j : Nat) : ((most a n).any fun c => c.1 = j) = decide (a ≤ j ∧ j < a + n) := by
  rw [Bool.eq_iff_iff]
  simp only [most, List.any_map, List.any_eq_true, List.mem_range, Function.comp_apply, decide_eq_true_eq]
  exact ⟨fun ⟨k, hk, e⟩ => ⟨by omega, by omega⟩, fun ⟨h, h'⟩ => ⟨j - a, by omega, by omega⟩⟩
theorem missing_none : ((List.range 673).filter fun j => !(nbr3.chunks.any fun c => c.1 = j)) = [] := by
  refine List.filter_eq_nil_iff.mpr fun j hj => ?_
  have h := List.mem_range.mp hj
  simp [nbr3, most_has, h]
theorem missing_last : ((List.range 673).filter fun j => !(nbr2.chunks.any fun c => c.1 = j)) = [670, 671, 672] := by
  rw [show (673 : Nat) = 670 + 3 from rfl, List.range_add, List.filter_append, List.filter_eq_nil_iff.mpr]
  · simp [nbr2, most_has, List.range_succ]
  · intro j hj
    have h := List.mem_range.mp hj
    simp [nbr2, most_has, h]
theorem missing_first : ((List.range 673).filter fun j => !(nbr1.chunks.any fun c => c.1 = j)) = [0] := by
  have h : ((List.range 672).map (1 + ·)).filter (fun j => !(nbr1.chunks.any fun c => c.1 = j)) = [] := by
    refine List.filter_eq_nil_iff.mpr fun j hj => ?_
    obtain ⟨k, hk, rfl⟩ := List.mem_map.mp hj
    have := List.mem_range.mp hk
    simp [nbr1, most_has]; omega
  rw [show (673 : Nat) = 1 + 672 from rfl, List.range_add, List.filter_append, h]
  simp [nbr1, most_has]
def growing : State := {attesting with sec := {attesting.sec with next := 2 ^ 20 - 5, treeGen := some 0, trees := []}}

theorem witness_AttestationOverRope :
    (attesting.barOpen (0 : Func) = true ∧ BitVec.getLsbD (5 : Word) 2 = true ∧ attesting.sec.nbrReq = none)
    ∧ (attDown.barOpen (0 : Func) = true ∧ BitVec.getLsbD (5 : Word) 2 = true ∧ attDown.sec.nbrReq = none)
    ∧ (requested.sec.nbrReq = some nbr0 ∧ nbr0.ended = none ∧ requested.now ≤ nbr0.since + 10000000 * nsUnits ∧ Calm requested)
    ∧ (Arrives attesting (1 : Port) (99 : Byte) nonceLoFrame)
    ∧ (Arrives halfAsked (1 : Port) (100 : Byte) nonceHiFrame ∧ halfAsked.rope.ports[(1 : Port)].nonceLo = some [(1 : Byte), (2 : Byte), (3 : Byte)]
      ∧ halfAsked.sigAvailable = true)
    ∧ (Arrives halfAskedBusy (1 : Port) (100 : Byte) nonceHiFrame ∧ halfAskedBusy.rope.ports[(1 : Port)].nonceLo = some [(1 : Byte), (2 : Byte), (3 : Byte)]
      ∧ halfAskedBusy.sigAvailable = false)
    ∧ (Arrives reported (1 : Port) (103 : Byte) resendFrame ∧ reported.rope.ports[(1 : Port)].report ≠ [])
    ∧ (Arrives requested (1 : Port) (101 : Byte) dataFrame ∧ requested.sec.nbrReq = some nbr0 ∧ nbr0.port = (1 : Port) ∧ nbr0.ended = none
      ∧ fieldAt dataFrame.body 0 2 < 673)
    ∧ (Arrives requested (1 : Port) (102 : Byte) busyFrame ∧ requested.sec.nbrReq = some nbr0 ∧ nbr0.port = (1 : Port)
      ∧ byteAt busyFrame.body 4 = (18 : Byte))
    ∧ (Arrives requestedMost (1 : Port) (102 : Byte) endFrame ∧ requestedMost.sec.nbrReq = some nbr2 ∧ nbr2.port = (1 : Port)
      ∧ byteAt endFrame.body 4 ≠ (18 : Byte) ∧ List.filter (fun j => !nbr2.chunks.any fun c => decide (c.fst = j)) (List.range 673) = [670, 671, 672])
    ∧ (Arrives requested3 (1 : Port) (102 : Byte) endFrame ∧ requested3.sec.nbrReq = some nbr1 ∧ nbr1.port = (1 : Port)
      ∧ byteAt endFrame.body 4 ≠ (18 : Byte) ∧ List.filter (fun j => !nbr1.chunks.any fun c => decide (c.fst = j)) (List.range 673) = [0])
    ∧ (Arrives requestedAll (1 : Port) (102 : Byte) endFrame ∧ requestedAll.sec.nbrReq = some nbr3 ∧ nbr3.port = (1 : Port)
      ∧ byteAt endFrame.body 4 ≠ (18 : Byte) ∧ List.filter (fun j => !nbr3.chunks.any fun c => decide (c.fst = j)) (List.range 673) = [])
    ∧ (growing.sec.treeGen = some 0) := 
  ⟨by and_intros <;> decide +kernel,
    by and_intros <;> decide +kernel,
    by and_intros <;> decide +kernel,
    by and_intros <;> decide +kernel,
    by and_intros <;> decide +kernel,
    by and_intros <;> decide +kernel,
    by and_intros <;> decide +kernel,
    by and_intros <;> decide +kernel,
    by and_intros <;> decide +kernel,
    ⟨by and_intros <;> decide +kernel, rfl, rfl, by decide +kernel, missing_last⟩,
    ⟨by and_intros <;> decide +kernel, rfl, rfl, by decide +kernel, missing_first⟩,
    ⟨by and_intros <;> decide +kernel, rfl, rfl, by decide +kernel, missing_none⟩,
    by and_intros <;> decide +kernel⟩

def warmState : State := {playable with pwr := {playable.pwr with thermWarn := true, seen := 0xFF7, temps := Vector.replicate 12 1660}}
def given10 : State := {playable with pwr := {playable.pwr with tripped := 0x9}}
def dacDue : State := {playable with cal := {playable.cal with cl := playable.cal.cl.map fun x => {x with ranAt := Vector.replicate 2 (some (playable.now - 70))}}}
def deafTdc : State := withTdc {contTdc with arm := .symbol} id
def readings0 : Readings := { gain := List.replicate 16 1, offset := List.replicate 16 0, iref := 1, drv := List.replicate 8 3, den := List.replicate 8 4, cmp := List.replicate 8 5, tdcCorr := List.replicate 12 6, trig := [7, 8] }
def result0 : CalResult := { values := readings0, drift := readings0, repeatDiff := 1, vref := 1200000 }
def resultBad : CalResult := { result0 with values := { readings0 with cmp := List.replicate 8 2000 }, repeatDiff := 5 }
def inCal : State := {playable with cal := {playable.cal with cl := upd playable.cal.cl 3 fun x => {x with what := 10}}}
def following : State := {playable with pwr := {playable.pwr with temps := Vector.replicate 12 480}, cal := {playable.cal with cl := upd playable.cal.cl 3 fun x => {x with follow := 15, kinds := #v[some ⟨480, Readings.coeffs readings0, Readings.coeffs readings0, 0⟩, some ⟨400, Readings.coeffs readings0, Readings.coeffs readings0, 0⟩, none, some ⟨399, Readings.coeffs readings0, Readings.coeffs readings0, 0⟩]}}}
def staleSoon : State := let s := siteIs .running false; {s with cal := {s.cal with staged := upd s.cal.staged 3 fun _ => some {}, dueFrom := Vector.replicate 12 (s.now - 60), due := Vector.replicate 12 500}}
def given11 : Coeffs := {}
def tinning (n : Nat) : State := {playable with cal := {playable.cal with tinSeen := n, tinAt := playable.now - 50}}
def tinning9 : State := tinning 9

theorem witness_CalibrationFollowsItsRuns :
    (playable.pwr.porst = false ∧ playable.pwr.thermWarn = false ∧ ∀ (d : Cluster), (playable.pwr.temps.set 3 (1727 : Int))[d] < (1728 : Int))
    ∧ (playable.pwr.porst = false ∧ playable.pwr.thermWarn = false ∧ (1728 : Int) ≤ (1728 : Int) ∧ (∀ (d : Cluster), d ≠ (3 : Cluster)
      → playable.pwr.temps[d] < (1728 : Int)) ∧ Calm playable)
    ∧ (warmState.pwr.porst = false ∧ warmState.pwr.thermWarn = true ∧ (1664 : Int) < (warmState.pwr.temps.set 3 (1665 : Int))[(3 : Cluster)])
    ∧ (warmState.pwr.porst = false ∧ warmState.pwr.thermWarn = true ∧ (∀ (d : Cluster), (warmState.pwr.temps.set 3 (1664 : Int))[d] ≤ (1664 : Int))
      ∧ setBit warmState.pwr.seen (3 : Cluster).val = (4095 : BitVec 12) ∧ ∀ (k : Cluster), warmState.seqs[k].start = none)
    ∧ (playable.pwr.porst = false ∧ playable.pwr.tripped.getLsbD (3 : Cluster).val = false ∧ Calm playable)
    ∧ (dacDue.isReady = true ∧ dacDue.power (3 : Cluster) < 3 ∧ dacDue.cal.cl[(3 : Cluster)].what = (0 : BitVec 4)
      ∧ dacDue.cal.cl[(3 : Cluster)].background.getLsbD 0 = false ∧ dacDue.cal.cl[(3 : Cluster)].ranAt[0] = some (playable.now - 70)
      ∧ dacDue.now ≤ playable.now - 70 + 1000000000 * nsUnits ∧ 1024 < dacDue.sched.free ∧ Calm dacDue)
    ∧ (playable.mayRun (3 : Cluster) CalKind.tdc = true ∧ (∀ (i : Lane), playable.cl[(3 : Cluster)].tdc[i].ranAt[0] = none)
      ∧ 1024 + playable.sched.due.length + 8 ≤ playable.sched.free)
    ∧ (CalKind.deskew ≠ CalKind.tdc ∧ CalKind.deskew ≠ CalKind.dac ∧ inCal.calOn (3 : Cluster) = true
      ∧ inCal.cal.cl[(3 : Cluster)].next CalKind.deskew = true ∧ inCal.calChecks (3 : Cluster) CalKind.deskew true result0 = (0 : BitVec 10)
      ∧ (Readings.coeffs result0.values).limits CalKind.deskew = (0 : BitVec 10))
    ∧ (CalKind.deskew ≠ CalKind.tdc ∧ CalKind.deskew ≠ CalKind.dac ∧ inCal.calOn (3 : Cluster) = true
      ∧ inCal.cal.cl[(3 : Cluster)].next CalKind.deskew = true
      ∧ inCal.calChecks (3 : Cluster) CalKind.deskew true resultBad ||| (Readings.coeffs resultBad.values).limits CalKind.deskew ≠ (0 : BitVec 10)
      ∧ Calm inCal)
    ∧ (following.isReady = true ∧ following.power (3 : Cluster) < 3)
    ∧ (playable.isReady = true ∧ playable.power (3 : Cluster) < 3)
    ∧ (staleSoon.cal.staged[(3 : Cluster)] = some given11 ∧ staleSoon.siteState staleSoon.siteOf[(3 : Cluster)] = SiteState.running
      ∧ staleSoon.cal.cl[(3 : Cluster)].stale = false ∧ staleSoon.cal.due[(3 : Cluster)] ≤ 1000000000 * nsUnits
      ∧ staleSoon.now ≤ staleSoon.cal.dueFrom[(3 : Cluster)] + (1000000000 * nsUnits - staleSoon.cal.due[(3 : Cluster)]) ∧ Calm staleSoon)
    ∧ (tinning9.isReady = true ∧ tinning9.cal.tinSeen ≠ 0 ∧ tinning9.now ≤ tinning9.cal.tinAt + 1001 * nsUnits ∧ Calm tinning9)
    ∧ (tinning9.isReady = true ∧ tinning9.cal.tinSeen ≠ 0 ∧ tinning9.now ≤ tinning9.cal.tinAt + (1001 * nsUnits + 1) ∧ Calm tinning9)
    ∧ (tinning9.cal.tinSeen ≠ 0 ∧ tinning9.now ≤ tinning9.cal.tinAt + 2000 * nsUnits ∧ Calm tinning9) := by and_intros <;> decide +kernel

def ev (n : Nat) (m : BitVec 12) : FaultEvent := ⟨n, m, 0x77⟩
def rec1 : FaultRec := ⟨5, 40, 2, 9, .advisory, false, false, .log, 3, 0x100, 6⟩
def faulted : State := {running3 with flt := {running3.flt with first := some rec1, history := [⟨0, 8, 1, 2, .cluster, false, true, false, false, true, .log, 0, 1⟩]}}
def outState : State := {playable with pwr := {playable.pwr with supplyOut := [(3, 900)]}}
def plog1 : PlogRec := ⟨0, ⟨0, 2, 1, 2, .device, false, true, false, false, true, .haltDevice, 0, 1⟩, 7, 40⟩
def logging (full : Bool) : State := {playable with flt := {playable.flt with plogPend := [plog1, plog1], pseq := 6, active := if full then List.replicate 1024 plog1 else [plog1]}}
def loggingHalf : State := logging false
def loggingFull : State := logging true
def deviceFault : State := {playable with flt := {playable.flt with first := some {rec1 with cls := .device}}}

theorem witness_FaultsAreCollected :
    (running3.pwr.porst = false ∧ ((ev 18 (8 : BitVec 12)).source ≤ 4 ∨ 8 ≤ (ev 18 (8 : BitVec 12)).source ∧ (ev 18 (8 : BitVec 12)).source ≤ 10
      ∨ 16 ≤ (ev 18 (8 : BitVec 12)).source ∧ (ev 18 (8 : BitVec 12)).source ≤ 22 ∨ 32 ≤ (ev 18 (8 : BitVec 12)).source
      ∧ (ev 18 (8 : BitVec 12)).source ≤ 44) ∧ running3.flt.first = none ∧ Calm running3)
    ∧ (running3.pwr.porst = false ∧ ((ev 2 (0 : BitVec 12)).source ≤ 4 ∨ 8 ≤ (ev 2 (0 : BitVec 12)).source ∧ (ev 2 (0 : BitVec 12)).source ≤ 10
      ∨ 16 ≤ (ev 2 (0 : BitVec 12)).source ∧ (ev 2 (0 : BitVec 12)).source ≤ 22 ∨ 32 ≤ (ev 2 (0 : BitVec 12)).source
      ∧ (ev 2 (0 : BitVec 12)).source ≤ 44) ∧ running3.flt.first = none ∧ Calm running3)
    ∧ (running3.pwr.porst = false ∧ ((ev 22 (0 : BitVec 12)).source ≤ 4 ∨ 8 ≤ (ev 22 (0 : BitVec 12)).source ∧ (ev 22 (0 : BitVec 12)).source ≤ 10
      ∨ 16 ≤ (ev 22 (0 : BitVec 12)).source ∧ (ev 22 (0 : BitVec 12)).source ≤ 22 ∨ 32 ≤ (ev 22 (0 : BitVec 12)).source
      ∧ (ev 22 (0 : BitVec 12)).source ≤ 44) ∧ running3.flt.first = none ∧ Calm running3)
    ∧ (faulted.pwr.porst = false ∧ ((ev 18 (8 : BitVec 12)).source ≤ 4 ∨ 8 ≤ (ev 18 (8 : BitVec 12)).source ∧ (ev 18 (8 : BitVec 12)).source ≤ 10
      ∨ 16 ≤ (ev 18 (8 : BitVec 12)).source ∧ (ev 18 (8 : BitVec 12)).source ≤ 22 ∨ 32 ≤ (ev 18 (8 : BitVec 12)).source
      ∧ (ev 18 (8 : BitVec 12)).source ≤ 44) ∧ faulted.flt.first = some rec1 ∧ Calm faulted)
    ∧ (faulted.pwr.porst = false ∧ ((ev 3 (0 : BitVec 12)).source ≤ 4 ∨ 8 ≤ (ev 3 (0 : BitVec 12)).source ∧ (ev 3 (0 : BitVec 12)).source ≤ 10
      ∨ 16 ≤ (ev 3 (0 : BitVec 12)).source ∧ (ev 3 (0 : BitVec 12)).source ≤ 22 ∨ 32 ≤ (ev 3 (0 : BitVec 12)).source
      ∧ (ev 3 (0 : BitVec 12)).source ≤ 44) ∧ faulted.flt.first = some rec1 ∧ Calm faulted)
    ∧ (faulted.pwr.porst = false ∧ ((ev 18 (8 : BitVec 12)).source ≤ 4 ∨ 8 ≤ (ev 18 (8 : BitVec 12)).source ∧ (ev 18 (8 : BitVec 12)).source ≤ 10
      ∨ 16 ≤ (ev 18 (8 : BitVec 12)).source ∧ (ev 18 (8 : BitVec 12)).source ≤ 22 ∨ 32 ≤ (ev 18 (8 : BitVec 12)).source
      ∧ (ev 18 (8 : BitVec 12)).source ≤ 44) ∧ faulted.flt.reaction (ev 18 (8 : BitVec 12)).source ≠ Reaction.log
      ∧ (3 : Cluster) ∈ faulted.sitesOf (ev 18 (8 : BitVec 12)).mask)
    ∧ (running3.pwr.phase = BootPhase.ready ∧ running3.pwr.porst = false ∧ (ev 2 (0 : BitVec 12)).source ≤ 4 ∧ running3.flt.first = none
      ∧ running3.flt.reaction (ev 2 (0 : BitVec 12)).source = Reaction.haltDevice ∧ Calm running3)
    ∧ (playable.pwr.phase = BootPhase.ready ∧ playable.pwr.porst = false ∧ ((ev 10 (8 : BitVec 12)).source ≤ 4 ∨ 8 ≤ (ev 10 (8 : BitVec 12)).source
      ∧ (ev 10 (8 : BitVec 12)).source ≤ 10 ∨ 16 ≤ (ev 10 (8 : BitVec 12)).source ∧ (ev 10 (8 : BitVec 12)).source ≤ 22
      ∨ 32 ≤ (ev 10 (8 : BitVec 12)).source ∧ (ev 10 (8 : BitVec 12)).source ≤ 44) ∧ playable.flt.first = none
      ∧ playable.flt.reaction (ev 10 (8 : BitVec 12)).source = Reaction.haltCluster ∧ (3 : Cluster) ∈ playable.sitesOf (ev 10 (8 : BitVec 12)).mask
      ∧ Calm playable)
    ∧ (playable.pwr.phase = BootPhase.ready ∧ playable.pwr.porst = false ∧ ((ev 10 (24 : BitVec 12)).source ≤ 4 ∨ 8 ≤ (ev 10 (24 : BitVec 12)).source
      ∧ (ev 10 (24 : BitVec 12)).source ≤ 10 ∨ 16 ≤ (ev 10 (24 : BitVec 12)).source ∧ (ev 10 (24 : BitVec 12)).source ≤ 22
      ∨ 32 ≤ (ev 10 (24 : BitVec 12)).source ∧ (ev 10 (24 : BitVec 12)).source ≤ 44) ∧ playable.flt.first = none
      ∧ playable.flt.reaction (ev 10 (24 : BitVec 12)).source = Reaction.haltCluster ∧ (4 : Cluster) ∈ playable.sitesOf (ev 10 (24 : BitVec 12)).mask
      ∧ Calm playable)
    ∧ (∀ (e : FaultEvent), e ∈ [ev 5 (1 : BitVec 12), ev 11 (2 : BitVec 12), ev 63 (0 : BitVec 12)] → ¬(e.source ≤ 4 ∨ 8 ≤ e.source ∧ e.source ≤ 10
      ∨ 16 ≤ e.source ∧ e.source ≤ 22 ∨ 32 ≤ e.source ∧ e.source ≤ 44))
    ∧ (outState.pwr.porst = false ∧ Calm outState)
    ∧ (outState.pwr.porst = false ∧ Calm outState)
    ∧ (playable.pwr.phase = BootPhase.ready ∧ playable.pwr.porst = false ∧ playable.pwr.perst = false ∧ Calm playable ∧ (Pll.hbm = Pll.hbm
      → playable.pwr.hbm = 1) ∧ (Pll.hbm = Pll.rope → playable.clockRuns ClockDomain.rope = true) ∧ (Pll.hbm = Pll.pcie
      → playable.pwr.link ≠ LinkState.l12))
    ∧ (playable.pwr.porst = false ∧ playable.pwr.perst = false ∧ Calm playable)
    ∧ (playable.isReady = true ∧ Calm playable)
    ∧ (loggingHalf.flt.plogPend = [plog1, plog1] ∧ loggingHalf.flt.taking = none)
    ∧ (loggingFull.flt.plogPend = [plog1, plog1] ∧ loggingFull.flt.taking = none)
    ∧ (playable.isReady = true ∧ Calm playable)
    ∧ (deviceFault.isReady = true ∧ Calm deviceFault) := by and_intros <;> decide +kernel

def powered (p : PwrCl) : State := {playable with pwr := {playable.pwr with cl := Vector.replicate 12 p}}
def pwr1 : PwrCl := { state := 1, chosen := 4, goal := 1, since := playable.now - 70 }
def resting : State := powered pwr1
def pwr2 : PwrCl := { state := 1, chosen := 4, goal := 4, entering := true, doneAt := playable.now + 7 }
def pwr3 : PwrCl := {pwr2 with goal := 2}
def entering4 : State := powered pwr2
def entering2 : State := powered pwr3
def leaveEarly : PwrCl := { state := 3, chosen := 2, goal := 3, entering := true, doneAt := playable.now + 7, tol := 1000 }
def leavingEarly : State := powered leaveEarly
def pwrTol : PwrCl := { state := 3, chosen := 2, goal := 3, tol := 1000 }
def tolerating : State := powered pwrTol
def pwrDeep : PwrCl := { state := 3, chosen := 1, goal := 3 }
def armSoon : Int := (playable.net / 81920 + 30000) * 81920 + 600 * nsUnits
def pendStart : Start := ⟨.atTime, 17, some armSoon, false⟩
def starting : State := let s := powered pwrDeep; {s with seqs := upd s.seqs 3 fun q => {q with start := some pendStart}}
def leaving (n : Nat) : State := powered { state := n, chosen := 4, goal := 1, exiting := true, doneAt := playable.now + 7 }
def leaving2 : State := leaving 2
def leaving4 : State := leaving 4
def assigned (n : Nat) : State := {running3 with ids := {running3.ids with assigned := -1, misses := Vector.replicate 96 n}}
def assigned1 : State := assigned 1
def assigned2 : State := assigned 2
def busTaken : State := {assigned1 with ids := {assigned1.ids with i3c := {assigned1.ids.i3c with busy := true, pin := 29}}}
def given12 : State := {playable with lostPins := -1}

theorem witness_PowerStatesMove :
    (resting.isReady = true ∧ resting.pwr.cl[(3 : Cluster)].fed = false ∧ resting.pwr.cl[(3 : Cluster)].chosen = resting.choose (3 : Cluster)
      ∧ resting.pwr.cl[(3 : Cluster)].state < resting.pwr.cl[(3 : Cluster)].chosen ∧ resting.pwr.cl[(3 : Cluster)].entering = false
      ∧ resting.pwr.cl[(3 : Cluster)].exiting = false ∧ resting.quietSite resting.siteOf[(3 : Cluster)] = true
      ∧ resting.now ≤ resting.pwr.cl[(3 : Cluster)].since + 10000 * nsUnits ∧ Calm resting)
    ∧ (entering4.pwr.cl[(3 : Cluster)].entering = true ∧ entering4.now ≤ entering4.pwr.cl[(3 : Cluster)].doneAt ∧ Calm entering4)
    ∧ (entering2.pwr.cl[(3 : Cluster)].entering = true ∧ entering2.now ≤ entering2.pwr.cl[(3 : Cluster)].doneAt ∧ Calm entering2)
    ∧ (leavingEarly.isReady = true ∧ leavingEarly.pwr.cl[(3 : Cluster)].fed = false
      ∧ leavingEarly.pwr.cl[(3 : Cluster)].chosen = leavingEarly.choose (3 : Cluster) ∧ leavingEarly.pwr.cl[(3 : Cluster)].entering = true
      ∧ leavingEarly.pwr.cl[(3 : Cluster)].exiting = false ∧ 2 ≤ leavingEarly.pwr.cl[(3 : Cluster)].state
      ∧ leavingEarly.pwr.cl[(3 : Cluster)].state ≤ 4 ∧ leavingEarly.allowed (3 : Cluster) < leavingEarly.pwr.cl[(3 : Cluster)].state
      ∧ leavingEarly.now ≤ leavingEarly.pwr.cl[(3 : Cluster)].doneAt ∧ Calm leavingEarly)
    ∧ (tolerating.isReady = true ∧ tolerating.pwr.cl[(3 : Cluster)].fed = false ∧ tolerating.pwr.cl[(3 : Cluster)].chosen = tolerating.choose (3 : Cluster)
      ∧ tolerating.pwr.cl[(3 : Cluster)].entering = false ∧ tolerating.pwr.cl[(3 : Cluster)].exiting = false
      ∧ 2 ≤ tolerating.pwr.cl[(3 : Cluster)].state ∧ tolerating.pwr.cl[(3 : Cluster)].state ≤ 4
      ∧ tolerating.allowed (3 : Cluster) < tolerating.pwr.cl[(3 : Cluster)].state)
    ∧ (starting.isReady = true ∧ starting.pwr.cl[(3 : Cluster)].fed = false ∧ starting.pwr.cl[(3 : Cluster)].chosen = starting.choose (3 : Cluster)
      ∧ starting.pwr.cl[(3 : Cluster)].entering = false ∧ starting.pwr.cl[(3 : Cluster)].exiting = false ∧ 2 ≤ starting.pwr.cl[(3 : Cluster)].state
      ∧ starting.pwr.cl[(3 : Cluster)].state ≤ 4 ∧ starting.pwr.cl[(3 : Cluster)].state ≤ starting.allowed (3 : Cluster)
      ∧ starting.seqs[starting.siteOf[(3 : Cluster)]].start = some pendStart ∧ pendStart.sched = some armSoon
      ∧ (armSoon - (600 : Int) * ↑nsUnits) % (81920 : Int) = (0 : Int)
      ∧ starting.net ≤ armSoon - (600 : Int) * ↑nsUnits - ↑(if starting.pwr.cl[(3 : Cluster)].state = 2 then 1000 else if starting.pwr.cl[(3 : Cluster)].state = 3 then 25000 else 350000) * ↑nsUnits
      ∧ Calm starting)
    ∧ (leaving2.pwr.cl[(3 : Cluster)].exiting = true ∧ leaving2.now ≤ leaving2.pwr.cl[(3 : Cluster)].doneAt ∧ leaving2.pwr.cl[(3 : Cluster)].state < 3
      ∧ leaving2.cal.cl[(3 : Cluster)].what = (0 : BitVec 4) ∧ leaving2.seqs[leaving2.siteOf[(3 : Cluster)]].start = none ∧ Calm leaving2)
    ∧ (leaving4.pwr.cl[(3 : Cluster)].exiting = true ∧ leaving4.now ≤ leaving4.pwr.cl[(3 : Cluster)].doneAt ∧ leaving4.pwr.cl[(3 : Cluster)].state = 4
      ∧ leaving4.cal.cl[(3 : Cluster)].what = (0 : BitVec 4) ∧ leaving4.seqs[leaving4.siteOf[(3 : Cluster)]].start = none ∧ Calm leaving4)
    ∧ (assigned1.isReady = true ∧ assigned1.ids.assigned.getLsbD (29 : Pin).val = true ∧ assigned1.ids.i3c.busy = false ∧ (false = true
      ∨ assigned1.ids.misses[(29 : Pin)] < 2) ∧ (∀ (u : Nat), assigned1.ids.polled[(29 : Pin)] = some u → assigned1.now ≤ u + 990 * 1000 * nsUnits)
      ∧ Calm assigned1)
    ∧ (assigned2.isReady = true ∧ assigned2.ids.assigned.getLsbD (29 : Pin).val = true ∧ assigned2.ids.i3c.busy = false ∧ (true = true
      ∨ assigned2.ids.misses[(29 : Pin)] < 2) ∧ (∀ (u : Nat), assigned2.ids.polled[(29 : Pin)] = some u → assigned2.now ≤ u + 990 * 1000 * nsUnits)
      ∧ Calm assigned2)
    ∧ (assigned2.isReady = true ∧ assigned2.ids.assigned.getLsbD (29 : Pin).val = true ∧ assigned2.ids.misses[(29 : Pin)] = 2
      ∧ assigned2.ids.i3c.busy = false ∧ Calm assigned2)
    ∧ (busTaken.ids.i3c.busy = true ∧ busTaken.ids.i3c.pin.toNat / 48 = (29 : Pin).val / 48)
    ∧ (given12.isReady = true ∧ (95 : Pin).val / 48 = (1 : Fin 2).val ∧ given12.ids.assigned.getLsbD (95 : Pin).val = false)
    ∧ (false = false ∨ (29 : Pin).val / 48 ≠ (0 : Fin 2).val ∨ assigned1.ids.assigned.getLsbD (29 : Pin).val = true
      ∨ BitVec.toNat (29 : BitVec 12) ≠ (29 : Pin).val ∨ (1 : Byte) ≠ (1 : Byte))
    ∧ (playable.pwr.porst = false) := by and_intros <;> decide +kernel


/-! ## Conditions on decisions, triggers and edges whose instants the converters' open latency fixes, or that name a state the play reaches -/

theorem witness_GenerationsCommitRevertDiscard_stays :
    (∀ s ∈ [reGood, reGoodSr, reSeg, reAdm, reNone], Passes s { opcode := 0x0110, form := .sites, units := 1, gen := .pend } (pk 1 8 []) [3])
    ∧ (∀ s ∈ [reGood, reSeg], Passes s { opcode := 0x0111, form := .sites, units := 1, gen := .pend } (pk 1 8 []) [3])
    ∧ (∀ s ∈ [reGood, reGoodSr, reSeg, reAdm, reNone], (s.commitFault [3]).isNone ∧ s.sitesFor [3] = [3]
        ∧ (s.seqs[(3 : Cluster)]).front = some descSet ∧ (s.gens[(3 : Cluster)]).prev = some (prevOf s 3))
    ∧ (∀ s ∈ [reGood, reGoodSr, reSeg, reAdm], ∀ i ∈ descSet.candidates, i < (armGens s 3).program.total)
    ∧ reGood.deepCheck 3 (armGens reGood) descSet = .ok (memG reGood) ∧ reGoodSr.deepCheck 3 (armGens reGoodSr) descSet = .ok (memG reGoodSr) :=
  ⟨by decide +kernel, by decide +kernel, by decide +kernel, by decide +kernel, read_ok (by decide +kernel), read_ok (by decide +kernel)⟩

theorem witness_GenerationsCommitRevertDiscard_drops :
    (errG reSeg).map (fun e => e.dkind) = some 2 ∧ (errG reAdm).map (fun e => e.dkind) = some 4
    ∧ (∃ i ∈ descSet.candidates, (armGens reNone 3).program.total ≤ i) := by decide +kernel

abbrev decisionAt (s : State) (p : Play) : Int := p.startOf (p.len - leadOf p.period (s.hops 3))
abbrev upToDecision (s : State) (p : Play) : State := (s.advanceNet (decisionAt s p)).playTo 3 (decisionAt s p)
abbrev decides (s : State) (p : Play) (e : Entry) : Prop :=
  (s.seqs[(3 : Cluster)]).play = some p ∧ p.succ = none ∧ p.resolve = none ∧ p.belay = false ∧ (s.seqs[(3 : Cluster)]).stall = none
    ∧ (s.seqs[(3 : Cluster)]).abortAt = none ∧ (s.seqs[(3 : Cluster)]).siteAbort = false ∧ s.entry 3 p.entry = some e
    ∧ s.net ≤ decisionAt s p ∧ Calm s ∧ (upToDecision s p).pendsBy 3 2 (decisionAt s p) = false
def decidesNow (s : State) (p : Play) (e : Entry) : Bool := decide (decides s p e)
def truth (u : State) (e : Entry) (d : Int) : Bool :=
  let n := e.cparam.toNat % 32
  let done := (u.seqs[(3 : Cluster)]).window.filter fun x => decide (x.1 < d)
  let mask := (u.config 3).program.masks[(Fin.ofNat 16 n : Fin 16)]
  match e.cond with
  | .fail => done.any fun x => x.2.2
  | .failMask => done.any fun x => x.2.2 && mask.getLsbD x.2.1
  | .match_ => (done.any fun x => mask.getLsbD x.2.1) && done.all fun x => !(mask.getLsbD x.2.1) || !x.2.2
  | .failBurst => (u.seqs[(3 : Cluster)]).failBurst || done.any fun x => x.2.2
  | .evt => (u.members 3).any fun c => c.val = n % 16 && (if bitOf n 4 then (u.cl[c]).io.evt1 else (u.cl[c]).io.evt0)
      && (u.cl[c]).io.evtFrom[(if bitOf n 4 then 1 else 0 : Fin 2)] + u.netOff < d
  | .gevt => (u.members 3).any fun c => (u.cl[c]).io.gevt.getLsbD (n % 8) && (u.cl[c]).io.gevtFrom[(Fin.ofNat 8 n : Fin 8)] + u.netOff < d
  | .hostJump => u.pendsBy 3 1 d
  | .scFlag => (u.sites[(3 : Cluster)]).scFlags.getLsbD (n % 16)
  | .cntEq => (u.seqs[(3 : Cluster)]).loops[(Fin.ofNat 4 n : Fin 4)] = e.count
  | .ropeSite => false

theorem witness_DecisionsFixTheSuccessor_conditions :
    ∀ x ∈ ([(.fail, 0, true), (.failMask, 5, true), (.match_, 2, false), (.failBurst, 0, true), (.evt, 3, true), (.evt, 0x13, true), (.evt, 4, false),
        (.gevt, 6, true), (.hostJump, 0, true), (.scFlag, 5, true), (.scFlag, 6, false), (.cntEq, 0, true), (.cntEq, 1, false)]
        : List (Cond × BitVec 16 × Bool)),
      let e := cond_ .branch x.1 x.2.1 false
      let s := condState .branch x.1 x.2.1 false
      decidesNow s playD e = true ∧ e.op.conditional = true ∧ e.cond ≠ .ropeSite ∧ truth (upToDecision s playD) e (decisionAt s playD) = x.2.2
      ∧ s.readyAfter 3 playD.entry (if x.2.2 then e.target.toNat else playD.entry + 1) = true := by decide +kernel

theorem witness_DecisionsFixTheSuccessor_plays :
    ∀ x ∈ ([(.matchLoop, .fail, 0, true), (.wait, .scFlag, 6, false)] : List (SeqOp × Cond × BitVec 16 × Bool)),
      let e := cond_ x.1 x.2.1 x.2.2.1 false
      let s := condState x.1 x.2.1 x.2.2.1 false
      decidesNow s playD e = true ∧ truth (upToDecision s playD) e (decisionAt s playD) = x.2.2.2 ∧ (s.seqs[(3 : Cluster)]).playCnt = e.count := by decide +kernel

theorem witness_DecisionsFixTheSuccessor_loops :
    (([0, 1, 2, 3] : List (BitVec 16)).all fun n => decidesNow (condState .loopEnd .fail n false) playD (cond_ .loopEnd .fail n false)) = true
    ∧ ([SeqOp.loopBegin, .signal].all fun op => decidesNow (deciding (cond_ op .fail 0x1234 false) id id) playD (cond_ op .fail 0x1234 false)) = true :=
  ⟨by decide +kernel, by decide +kernel⟩

theorem witness_DecisionsFixTheSuccessor_stack :
    (decidesNow returning playD eRet = true ∧ (returning.seqs[(3 : Cluster)]).stack = [2, 1])
    ∧ (decidesNow fullStack playD eCall = true ∧ 8 ≤ (fullStack.seqs[(3 : Cluster)]).stack.length) := ⟨by decide +kernel, by decide +kernel⟩

theorem witness_DecisionsFixTheSuccessor_underruns :
    (decidesNow holding_ playD (cond_ .wait .fail 0 false) = true ∧ holding_.multi 3 = false ∧ holding_.idleSafe 3 playD.entry = true
      ∧ truth (upToDecision holding_ playD) (cond_ .wait .fail 0 false) (decisionAt holding_ playD) = true
      ∧ holding_.readyAfter 3 playD.entry (playD.entry + 1) = false)
    ∧ decidesNow starved playD e0 = true ∧ e0.op = .next ∧ starved.multi 3 = false ∧ 3 ∈ starved.members 3
    ∧ starved.readyAfter 3 playD.entry (playD.entry + 1) = false := by decide +kernel

abbrev meetsPlay (s : State) (te : Int) : Prop :=
  let u := (s.advanceNet te).playTo 3 te
  (s.cl[(3 : Cluster)]).cap.watching = true ∧ (s.seqs[(3 : Cluster)]).play = some playA ∧ (s.seqs[(3 : Cluster)]).stall = none
    ∧ (s.seqs[(3 : Cluster)]).armed = none ∧ (s.seqs[(3 : Cluster)]).abortAt = none
    ∧ (s.seqs[(3 : Cluster)]).spans = [⟨playA.start, playA.period, playA.vaddr, playA.len⟩] ∧ playA.start ≤ te ∧ te + 4 * fuUnits < playA.stop
    ∧ (u.cl[(3 : Cluster)]).cap.watching = true ∧ (u.cl[(3 : Cluster)]).cap.acq.fillBase.map (·.1) = some 20 ∧ Calm s

theorem witness_AcquisitionsTriggerAndComplete_stamped :
    (∀ n ∈ ([23, 30, 40] : List Nat), let te := vecTime n 100
      meetsPlay (onPlayA .rope (leBytes 8 0x55 ++ [3, 0, 9, 0])) te
      ∧ (let s := onPlayA .time (leBytes 12 (stampOf te).toNat)
         meetsPlay s te ∧ timeOf (u96At (s.config 3).acq.sparam 0) = te)
      ∧ meetsPlay (onPlayA .evt [3]) (ceilTo te (5 * nsUnits / 4)))
    ∧ bitsOf (fieldAt ((onPlayA .evt [3]).config 3).acq.sparam 0 1) 0 1 = 1 ∧ bitOf (fieldAt ((onPlayA .evt [3]).config 3).acq.sparam 0 1) 1 = true
    ∧ u64At ((onPlayA .rope (leBytes 8 0x55 ++ [3, 0, 9, 0])).config 3).acq.sparam 0 = 0x55
    ∧ u16At ((onPlayA .rope (leBytes 8 0x55 ++ [3, 0, 9, 0])).config 3).acq.sparam 10 = 9 := by decide +kernel

abbrev hearsEdge (s : State) : Prop :=
  let g := (s.config 3).tdc[(5 : Lane)]
  g.en = true ∧ g.edge.getLsbD 0 = true ∧ (s.absentMask 3).getLsbD ((s.config 3).port 5) = false ∧ ((s.cl[(3 : Cluster)]).tdc[(5 : Lane)]).lastEdge = none
    ∧ (s.seqs[s.site 3]).stall = none ∧ Calm s

theorem stampRead_of (s : State)
    (b : getN (s.cl[pinCluster 29]).coeffs.bins ((s.config (pinCluster 29)).route (pinLane 29)) []
      = getN (listening.cl[pinCluster 29]).coeffs.bins ((listening.config (pinCluster 29)).route (pinLane 29)) [])
    (r : getN (s.cl[pinCluster 29]).coeffs.tdc ((s.config (pinCluster 29)).route (pinLane 29)) 0
      = getN (listening.cl[pinCluster 29]).coeffs.tdc ((listening.config (pinCluster 29)).route (pinLane 29)) 0) :
    stampRead s 29 * 64 = readAt := by
  unfold readAt stampRead
  rw [b, r]

theorem witness_EdgesStampsAndTables_symbol :
    (hearsEdge (symTdc 0 500) ∧ ((symTdc 0 500).seqs[(3 : Cluster)]).play = none ∧ ((symTdc 0 500).seqs[(3 : Cluster)]).armed = none
      ∧ (((symTdc 0 500).config 3).tdc[(5 : Lane)]).arm = .symbol)
    ∧ (((symTdc 0 500).cl[(3 : Cluster)]).tdc[(5 : Lane)]).tWin = [(readAt + 0, readAt + 500)]
    ∧ stampRead (symTdc 0 500) 29 * 64 = readAt ∧ readAt + 0 ≤ readAt ∧ readAt < readAt + 500 :=
  ⟨by decide +kernel, by simp [symTdc, withTdc], stampRead_of _ (by decide +kernel) (by decide +kernel), by omega, by omega⟩

theorem witness_EdgesStampsAndTables_twindow :
    hearsEdge (winTdc 0 500) ∧ ((winTdc 0 500).seqs[(3 : Cluster)]).play = none ∧ ((winTdc 0 500).seqs[(3 : Cluster)]).armed = none
    ∧ (((winTdc 0 500).config 3).tdc[(5 : Lane)]).arm = .twindow ∧ (((winTdc 0 500).cl[(3 : Cluster)]).tdc[(5 : Lane)]).tWin = []
    ∧ (((winTdc 0 500).cl[(3 : Cluster)]).tdc[(5 : Lane)]).running = false := by decide +kernel

/-- A play whose vectors have all begun, vector 7 at the edge. -/
def playW : Play := { playV (7 * 655360) with played := 512 }
def vwDone : State := let s := vwTdc 5 10 0; {s with seqs := upd s.seqs 3 fun q => {q with play := some playW, spans := [⟨playW.start, playW.period, playW.vaddr, playW.len⟩]}}

theorem vwDone_steady (t u : Int) : ((((vwDone.advanceNet t).playTo 3 t).playTo 3 u).cl[(3 : Cluster)].tdc[(5 : Lane)]).tWin = [] := by
  have q : ∀ n : Nat, (vwDone.advance n).seqs[(3 : Cluster)] = vwDone.seqs[(3 : Cluster)] := fun n => by
    rw [State.advance_calm_seqs vwDone n (by decide +kernel) (by decide +kernel)]
  have p : (vwDone.seqs[(3 : Cluster)]).play = some playW := rfl
  have a : (vwDone.seqs[(3 : Cluster)]).abortAt = none := by decide +kernel
  rw [State.advanceNet, State.playTo_done _ 3 t playW (by rw [q]; exact p) (by rw [q]; exact a) (by decide),
    State.playTo_done _ 3 u playW (by rw [q]; exact p) (by rw [q]; exact a) (by decide),
    State.advance_calm_cl vwDone _ (by decide +kernel) (by decide +kernel)]
  decide +kernel

theorem witness_EdgesStampsAndTables_vwindow :
    let g := (vwDone.config 3).tdc[(5 : Lane)]
    (hearsEdge vwDone ∧ g.arm = .vwindow ∧ (vwDone.seqs[(3 : Cluster)]).abortAt = none) ∧ (vwDone.seqs[(3 : Cluster)]).play = some playW
    ∧ (vwDone.seqs[(3 : Cluster)]).spans = [⟨playW.start, playW.period, playW.vaddr, playW.len⟩] ∧ stampRead vwDone 29 * 64 = readAt
    ∧ playW.start ≤ readAt ∧ readAt + 4 * fuUnits < playW.stop
    ∧ ((((vwDone.advanceNet readAt).playTo 3 readAt).playTo 3 (readAt + 4 * fuUnits)).cl[(3 : Cluster)].tdc[(5 : Lane)]).tWin = []
    ∧ ((readAt - playW.start) / (playW.period * fuUnits : Nat)).toNat = 7
    ∧ (bitsOf g.start.toNat 0 48 = 5 ∧ bitsOf g.stop.toNat 0 48 = 10 ∧ playW.vaddr = 0 ∧ playW.len = 512) := by
  have e : playW.start = readAt - 7 * 655360 := rfl
  have w : playW.stop = playW.start + 512 * 655360 := rfl
  refine ⟨by decide +kernel, rfl, rfl, stampRead_of _ (by decide +kernel) (by decide +kernel), by omega, ?_, vwDone_steady _ _, ?_, by decide +kernel⟩
  · rw [w, e]
    show readAt + 4 * (32 : Nat) < _
    omega
  · rw [e, Int.sub_sub_self]
    decide

theorem witness_EveryStepKeepsTheInvariant :
    (∀ c : Cluster, ({ booted with pending := [.nop (pk 1 0 [])] } : State).siteOf[({ booted with pending := [.nop (pk 1 0 [])] } : State).siteOf[c]]
        = ({ booted with pending := [.nop (pk 1 0 [])] } : State).siteOf[c])
    ∧ (∀ c : Cluster, GenSlots.numbered ({ booted with pending := [.nop (pk 1 0 [])] } : State).gens[c])
    ∧ (∀ c : Cluster, Recent.numbered ({ booted with pending := [.nop (pk 1 0 [])] } : State).recent[c])
    ∧ step { booted with pending := [.nop (pk 1 0 [])] } = .next (after (.nop (pk 1 0 [])) booted) := by
  have h : ∀ c : Cluster, ({ booted with pending := [.nop (pk 1 0 [])] } : State).gens[c] = {} := by decide +kernel
  have k : ∀ c : Cluster, (({ booted with pending := [.nop (pk 1 0 [])] } : State).recent[c]).pend = none := by decide +kernel
  refine ⟨by decide, fun c => ?_, (fun c p e => by rw [k c] at e; cases e), rfl⟩
  rw [h c]
  exact ⟨by decide, by decide, (fun p e => by cases e), (fun p e => by cases e)⟩

/-! ## Well-formedness: a term each check refuses -/

def shortFrame : Frame := ⟨0, 0, 0x55, [1, 2, 3], 0⟩
def shortPkt : Packet := { pk 2 0 [] with payload := [] }

theorem test_wf_accepts : Instr.wf (.nop (pk 1 0 [])) = true ∧ Instr.wf (.timeReq 1 reqFrame 0) = true ∧ Instr.wf (.hotJoin 1 95 true) = true := by decide
theorem test_wf_packet_length : Instr.wf (.nop shortPkt) = false ∧ Instr.wf (.nop { pk 1 0 [] with length := 0 }) = false := by decide
theorem test_wf_frame_body : Instr.wf (.ident 2 shortFrame) = false := by decide
theorem test_wf_routine : Instr.wf (.scInternalCommand (some ⟨1, shortPkt⟩)) = false := by decide
theorem test_wf_descriptor : Instr.wf (.doorbellInTail 0 3 1 true (Machine.Desc.bytes ⟨0x4001, 4, 1⟩)) = false
    ∧ Instr.wf (.doorbellOutTail 0 3 1 true (Machine.Desc.bytes ⟨0x4000, 257, 1⟩)) = false := by decide +kernel
theorem test_wf_register_offset : Instr.wf (.rcRegisterRead 0 6) = false ∧ Instr.wf (.registerWrite 0 6 0 true) = false := by decide
theorem test_wf_i3c_length : Instr.wf (.i3cTransferDone true (List.replicate 17 0)) = false := by decide
theorem test_wf_code_density : Instr.wf (.codeDensityDone 0 0 [1, 2]) = false := by decide
theorem test_wf_block : Instr.wf (.blockEntry 0 [1]) = false := by decide
theorem test_wf_readings : Instr.wf (.calRunComplete 0 .dac true { result0 with values := { readings0 with trig := [] } }) = false := by decide
theorem test_wf_fault_events : Instr.wf (.faultReport [] none) = false ∧ Instr.wf (.faultReport [⟨64, 0, 0⟩] none) = false := by decide
theorem test_wf_hot_join_bus : Instr.wf (.hotJoin 0 95 true) = false := by decide

/-! ## The queue -/

theorem test_idle_step : (match step booted with
    | .next t => decide (t.now = booted.now + nsUnits)
    | _ => false) = true := by decide +kernel
theorem test_first_in_first_out : (match step { booted with pending := [.hbmScrub, .nop (pk 1 0 [])] } with
    | .next t => decide (t.pending.length = 1)
    | _ => false) = true := by decide +kernel
theorem test_no_word_spells_a_command : decodeTableWord 128 0 = none ∧ State.reset.withFetchWord 128 0 = State.reset := by decide

/-! ## Microwords (R269) -/

def isCheck : MicroNext → Bool
  | .check stack _ => stack
  | _ => false

theorem test_mcall_on_a_full_stack : isCheck (fullMicro.step (storedWord 0x14555234) 0) = true := by decide +kernel
theorem test_mret_on_an_empty_stack : isCheck (idleMicro.step (storedWord 0x18555234) 0) = true
    ∧ isCheck (deepMicro.step (storedWord 0x18555234) 0) = false := by decide +kernel

/-! ## Worked numbers of the spec -/

/-- The representative balls of R403: AJ1, AU8, AT9, AV9, AJ55, AJ47, AL46. -/
theorem test_balls_of_the_bands : [ballAt 28 1, ballAt 35 8, ballAt 34 9, ballAt 36 9, ballAt 28 55, ballAt 28 47, ballAt 30 46]
    = [some (.pin .drv 24 true), some (.pin .cml 31 false), some (.rail 3 6), some (.gnds 3), some (.pin .drv 72 true), some (.rail 9 0),
       some (.trig 9 0)] := by decide +kernel
/-- BT38, C29, K11, K12, BG18 (R403). -/
theorem test_balls_elsewhere : [ballAt 53 38, ballAt 3 29, ballAt 10 11, ballAt 10 12, ballAt 45 18]
    = [some (.pcie true 7 true), some (.rope false 3 true), some .vss, some (.supply .vddCore), some .vss]
    ∧ [rowName 28, rowName 53] = [['A', 'J'], ['B', 'T']] := by decide +kernel
/-- The four levels of a DRV line (R404). -/
theorem test_drv_levels : [drvLevel false false, drvLevel false true, drvLevel true true, drvLevel true false].map DrvLevel.mv
    = [-400, -133, 133, 400] := by decide

/-- CRC-32C of the nine digits (R35): the check value of the polynomial. -/
theorem test_crc32c : crc32c [0x31, 0x32, 0x33, 0x34, 0x35, 0x36, 0x37, 0x38, 0x39] = 0xE3069283 := by decide +kernel

end Sys2Proof.Tests
end

namespace Sys2Proof.Machine

/-! ## What the passage of time leaves of the scheduler: its cores and its reserve mask (R14, R188, R345) -/

/-- What steps each keep a projection of the state, a fold over them keeps. -/
theorem foldl_keeps {σ α β : Type} (g : σ → β) (f : σ → α → σ) (h : ∀ s a, g (f s a) = g s) (l : List α) (s : σ) :
    g (l.foldl f s) = g s := by
  induction l generalizing s with
  | nil => rfl
  | cons a l ih => rw [List.foldl_cons, ih, h]

/-! ### Reactions leave the scheduler alone -/

@[simp] theorem State.accountDue_sched (s : State) (k : Cluster) : (s.accountDue k).sched = s.sched :=
  foldl_keeps State.sched _ (by intros; rfl) _ _

@[simp] theorem State.touchPaths_sched (s : State) (k : Cluster) : (s.touchPaths k).sched = s.sched := by
  unfold State.touchPaths
  split <;> rfl

@[simp] theorem State.setState_sched (s : State) (k : Cluster) (x : SiteState) : (s.setState k x).sched = s.sched := by
  unfold State.setState
  split <;> simp

@[simp] theorem State.cancelStart_sched (s : State) (k : Cluster) : (s.cancelStart k).sched = s.sched := by
  dsimp only [State.cancelStart]
  split <;> simp

@[simp] theorem State.abortNow_sched (s : State) (k : Cluster) : (s.abortNow k).sched = s.sched := by
  unfold State.abortNow
  split <;> simp

@[simp] theorem State.leaveIdle_sched (s : State) (n : Port) : (s.leaveIdle n).sched = s.sched := by
  dsimp only [State.leaveIdle]
  split <;> rfl

@[simp] theorem State.issue_sched (s : State) (ctype : Byte) (body : Nat → List Byte) : (s.issue ctype body).sched = s.sched :=
  foldl_keeps State.sched _ State.leaveIdle_sched _ _

@[simp] theorem State.sendAbort_sched (s : State) (k : Cluster) (cause : Nat) : (s.sendAbort k cause).sched = s.sched := by
  unfold State.sendAbort
  split <;> simp

@[simp] theorem State.haltSite_sched (s : State) (k : Cluster) : (s.haltSite k).sched = s.sched := by simp [State.haltSite]

theorem State.react_sched (s : State) (r : Reaction) (m : BitVec 12) : (s.react r m).sched = s.sched := by
  have halt (l : List Cluster) (s : State) : (l.foldl State.haltSite s).sched = s.sched :=
    foldl_keeps State.sched _ State.haltSite_sched _ _
  have park (f : State → Cluster → ClusterEng → ClusterEng) (l : List Cluster) (s : State) :
      (l.foldl (fun s c => s.updCl c (f s c)) s).sched = s.sched :=
    foldl_keeps State.sched _ (by intros; rfl) _ _
  unfold State.react
  cases r <;> simp [Reaction.code, halt, park]

@[simp] theorem State.endCycle_sched (s : State) (t : Nat) : (s.endCycle t).sched = s.sched := by
  unfold State.endCycle State.issueFaults
  split
  · split
    · rfl
    · exact foldl_keeps State.sched _ (fun s _ => s.react_sched _ _) _ _
  · rfl

/-! ### Reports and posts -/

theorem State.collectOne_sched (s : State) (e : FaultEvent × Bool) : (s.collectOne e).sched = s.sched := by
  dsimp only [State.collectOne, State.taintFor]
  split
  · exact foldl_keeps State.sched _ (by intros; rfl) _ _
  · rfl

@[simp] theorem State.report_sched (s : State) (source : Nat) (mask : BitVec 12) (detail : Word) :
    (s.report source mask detail).sched = s.sched :=
  (foldl_keeps State.sched _ State.collectOne_sched _ _).trans (s.endCycle_sched s.now)

/-- What a scheduler cycle's turns are settled by, and no post changes: the cores and the reserve mask (R194). -/
def Sched.coreView (x : Sched) : Vector SchedCore 16 × BitVec 16 := (x.cores, x.reserve)

theorem Sched.skipReduce_coreView (x : Sched) (i : Item) : (x.skipReduce i).coreView = x.coreView := by
  unfold Sched.skipReduce
  split <;> rfl

theorem State.postNow_coreView (s : State) (i : Item) : (s.postNow i).sched.coreView = s.sched.coreView := by
  dsimp only [State.postNow]
  split
  · rfl
  split
  · rw [State.report_sched]
    exact s.sched.skipReduce_coreView _
  · split <;> rfl

theorem State.settlePosts_coreView (s : State) (t : Nat) : (s.settlePosts t).sched.coreView = s.sched.coreView := by
  have posts (l : List Item) (s : State) : (l.foldl State.postNow s).sched.coreView = s.sched.coreView :=
    foldl_keeps (fun s : State => s.sched.coreView) _ State.postNow_coreView _ _
  dsimp only [State.settlePosts]
  split
  · rfl
  · exact foldl_keeps (fun s : State => s.sched.coreView) _ (by intros; exact posts _ _) _ _

theorem State.settleCycle_coreView (s : State) : s.settleCycle.sched.coreView = s.sched.coreView := s.settlePosts_coreView _

theorem State.advance_coreView (s : State) (t : Nat) : (s.advance t).sched.coreView = s.sched.coreView := by
  unfold State.advance
  split
  · rfl
  · rw [State.handshakes_eq]
    simp only [State.endCycle_sched]
    split
    · rfl
    · exact s.settlePosts_coreView _

end Sys2Proof.Machine

namespace Sys2Proof.Machine

/-! ## What a core holds -/

/-- A core holds an item when the item waits in a slot of it or runs on it. -/
theorem SchedCore.mem_items (k : SchedCore) (i : Item) : i ∈ k.items ↔ i ∈ k.slots ∨ (k.run.map fun r => r.item) = some i := by
  simp [SchedCore.items, or_comm]

/-! ## One core's turn in a scheduler cycle (R203) -/

/-- R194: a reserved core looks for items of priority 0 alone. -/
theorem Sched.firstEligible_reserved (x : Sched) (now : Nat) (c : Fin 16) (h : x.reserve.getLsbD c.val = true) :
    x.firstEligible now c = x.queue.find? fun i => i.prio.val = 0 && x.eligible now c i := by
  have r : List.range 4 = [0, 1, 2, 3] := rfl
  simp only [Sched.firstEligible, r, List.findSome?_cons, List.findSome?_nil, h]
  generalize (x.queue.find? fun i => i.prio.val = 0 && x.eligible now c i) = o
  cases o <;> simp

theorem Sched.firstEligible_reserved_prio (x : Sched) (now : Nat) (c : Fin 16) (i : Item) (h : x.reserve.getLsbD c.val = true)
    (e : x.firstEligible now c = some i) : i.prio = 0 := by
  rw [x.firstEligible_reserved now c h] at e
  have := List.find?_some e
  rw [Bool.and_eq_true, decide_eq_true_eq] at this
  exact Fin.ext this.1

/-- Core `c` gets item `i`: the item leaves its queue for a slot of the core, and its flow is in service (R203). -/
def Sched.give (x : Sched) (c : Fin 16) (i : Item) : Sched :=
  { x.updFlow i.flow fun f => { f with inService := true } with
    queue := x.queue.filter fun j => j.seqno ≠ i.seqno, cores := upd x.cores c fun k => { k with slots := k.slots ++ [i] } }

/-- A turn gives core `c` its first eligible item, or changes nothing. -/
theorem Sched.grant_cases (x : Sched) (now : Nat) (c : Fin 16) :
    x.grant now c = (x, false) ∨ ∃ i, x.firstEligible now c = some i ∧ x.grant now c = (x.give c i, true) := by
  unfold Sched.grant
  split
  · exact .inl rfl
  · split
    · exact .inl rfl
    · next i e => exact .inr ⟨i, e, rfl⟩

@[simp] theorem Sched.grant_reserve (x : Sched) (now : Nat) (c : Fin 16) : (x.grant now c).1.reserve = x.reserve := by
  obtain e | ⟨i, -, e⟩ := x.grant_cases now c
  · rw [e]
  · rw [e]
    rfl

/-- What a core holds after a turn it held before, or the turn gave it. -/
theorem Sched.grant_items (x : Sched) (now : Nat) (c d : Fin 16) (i : Item) (h : i ∈ ((x.grant now c).1.cores[d]).items) :
    i ∈ (x.cores[d]).items ∨ c = d ∧ x.firstEligible now c = some i := by
  obtain e | ⟨j, hj, e⟩ := x.grant_cases now c
  · exact .inl (by rwa [e] at h)
  · by_cases hc : c = d
    · subst hc
      rw [e, Sched.give, upd_get_same, SchedCore.items, ← List.append_assoc, List.mem_append, List.mem_singleton] at h
      obtain held | rfl := h
      · exact .inl held
      · exact .inr ⟨rfl, hj⟩
    · rw [e, Sched.give, upd_get_other _ _ _ _ hc] at h
      exact .inl h

/-! ## A scheduler cycle -/

/-- One turn, and the first core that a turn of the cycle gave an item. -/
def Sched.turn (now : Nat) (acc : Sched × Option (Fin 16)) (c : Fin 16) : Sched × Option (Fin 16) :=
  ((acc.1.grant now c).1, if (acc.1.grant now c).2 then acc.2.or (some c) else acc.2)

/-- The turns of the cores `l`, in order. -/
def Sched.turns (x : Sched) (now : Nat) (l : List (Fin 16)) : Sched × Option (Fin 16) := l.foldl (Sched.turn now) (x, none)

/-- Where the dequeue pointer goes after a cycle whose first grant went to `first` (R203). -/
def Sched.pointerAfter (x : Sched) : Option (Fin 16) → Fin 16
  | some c => if 2 ≤ ((List.finRange 16).filter fun c => (x.cores[c]).slots.length < 2).length then c + 1 else 0
  | none => 0

theorem Sched.cycle_eq (x : Sched) (now : Nat) :
    x.cycle now = { (x.turns now (scanOrder (x.pointer now))).1 with
      cycleAt := some (now / nsUnits), ptr := x.pointerAfter (x.turns now (scanOrder (x.pointer now))).2 } := by
  have fold : x.turns now (scanOrder (x.pointer now)) =
      (scanOrder (x.pointer now)).foldl (fun (acc : Sched × Option (Fin 16)) c =>
        let (t, got) := acc.1.grant now c
        (t, if got then acc.2.or (some c) else acc.2)) (x, none) := rfl
  rw [Sched.cycle, ← fold]
  generalize x.turns now (scanOrder (x.pointer now)) = after
  obtain ⟨y, _ | first⟩ := after <;> rfl

theorem Sched.cycle_cores (x : Sched) (now : Nat) : (x.cycle now).cores = (x.turns now (scanOrder (x.pointer now))).1.cores := by
  rw [x.cycle_eq]

/-- R194: what a reserved core newly takes in the turns of a cycle has priority 0. -/
theorem Sched.turns_reserved (now : Nat) (d : Fin 16) (i : Item) (l : List (Fin 16)) (acc : Sched × Option (Fin 16))
    (hr : acc.1.reserve.getLsbD d.val = true) :
    i ∈ ((l.foldl (Sched.turn now) acc).1.cores[d]).items → i ∈ (acc.1.cores[d]).items ∨ i.prio = 0 := by
  induction l generalizing acc with
  | nil => exact .inl
  | cons c l ih =>
    intro h
    obtain before | zero := ih (Sched.turn now acc c) (by simpa [Sched.turn] using hr) h
    · obtain held | ⟨rfl, e⟩ := acc.1.grant_items now c d i before
      · exact .inl held
      · exact .inr (acc.1.firstEligible_reserved_prio now c i hr e)
    · exact .inr zero

theorem Sched.cycle_reserved (x : Sched) (now : Nat) (d : Fin 16) (i : Item) (hr : x.reserve.getLsbD d.val = true) :
    i ∈ ((x.cycle now).cores[d]).items → i ∈ (x.cores[d]).items ∨ i.prio = 0 := by
  rw [x.cycle_cores]
  exact Sched.turns_reserved now d i (scanOrder (x.pointer now)) (x, none) hr

/-! ## The cores start what their slots hold (R203, R205) -/

/-- A core stays as it is, if it is not the one whose turn it is or has nothing to start; else the first item of its slots runs on it. -/
theorem State.startCore_cases (s : State) (c d : Fin 16) :
    ((s.startCore c).sched.cores[d] = s.sched.cores[d] ∧ (c = d → (s.sched.cores[d]).run.isSome = true ∨ (s.sched.cores[d]).slots = [])) ∨
    ∃ r rest, (s.sched.cores[d]).run = none ∧ (s.sched.cores[d]).slots = r.item :: rest ∧
      (s.startCore c).sched.cores[d] = { s.sched.cores[d] with run := some r, slots := rest } := by
  dsimp only [State.startCore]
  split
  · next i rest hr hs =>
    dsimp only [Sched.startItem]
    by_cases hc : c = d
    · subst hc
      rw [upd_get_same, upd_get_same]
      exact .inr ⟨_, rest, hr, hs, rfl⟩
    · rw [upd_get_other _ _ _ _ hc, upd_get_other _ _ _ _ hc]
      exact .inl ⟨rfl, fun e => absurd e hc⟩
  · next h =>
    refine .inl ⟨rfl, ?_⟩
    rintro rfl
    generalize (s.sched.cores[c]).run = run at h
    generalize (s.sched.cores[c]).slots = slots at h
    match run, slots with
    | some r, _ => exact .inl rfl
    | none, [] => exact .inr rfl
    | none, i :: rest => exact (h i rest rfl rfl).elim

theorem State.startCore_items (s : State) (c d : Fin 16) : ((s.startCore c).sched.cores[d]).items = (s.sched.cores[d]).items := by
  obtain ⟨e, -⟩ | ⟨r, rest, hr, hs, e⟩ := s.startCore_cases c d
  · rw [e]
  · simp only [e, SchedCore.items, hr, hs]
    rfl

theorem State.startCore_keeps_running (s : State) (c d : Fin 16) (h : (s.sched.cores[d]).run.isSome = true) :
    ((s.startCore c).sched.cores[d]).run.isSome = true := by
  obtain ⟨e, -⟩ | ⟨r, rest, -, -, e⟩ := s.startCore_cases c d
  · rwa [e]
  · rw [e]
    rfl

theorem State.startCore_runs (s : State) (c : Fin 16) (h : (s.sched.cores[c]).items ≠ []) :
    ((s.startCore c).sched.cores[c]).run.isSome = true := by
  obtain ⟨e, idle⟩ | ⟨r, rest, -, -, e⟩ := s.startCore_cases c c
  · rw [e]
    obtain run | empty := idle rfl
    · exact run
    · rw [SchedCore.items, empty, List.append_nil] at h
      cases hr : (s.sched.cores[c]).run with
      | none => exact absurd (by rw [hr]; rfl) h
      | some r => rfl
  · rw [e]
    rfl

/-- What the cores do once the turns of a cycle are over: each starts the first of its slots (R203). -/
def State.startCores (s : State) (l : List (Fin 16)) : State := l.foldl State.startCore s

@[simp] theorem State.startCores_items (s : State) (l : List (Fin 16)) (d : Fin 16) :
    ((s.startCores l).sched.cores[d]).items = (s.sched.cores[d]).items :=
  foldl_keeps (fun s : State => (s.sched.cores[d]).items) _ (fun s c => s.startCore_items c d) l s

theorem State.startCore_frame (s : State) (c : Fin 16) :
    (s.startCore c).now = s.now ∧ (s.startCore c).sched.queue = s.sched.queue ∧ (s.startCore c).sched.ptr = s.sched.ptr := by
  dsimp only [State.startCore]
  split <;> exact ⟨rfl, rfl, rfl⟩

theorem State.startCores_frame (s : State) (l : List (Fin 16)) :
    (s.startCores l).now = s.now ∧ (s.startCores l).sched.queue = s.sched.queue ∧ (s.startCores l).sched.ptr = s.sched.ptr := by
  induction l generalizing s with
  | nil => exact ⟨rfl, rfl, rfl⟩
  | cons c l ih =>
    obtain ⟨now, queue, ptr⟩ := s.startCore_frame c
    obtain ⟨now', queue', ptr'⟩ := ih (s.startCore c)
    exact ⟨now'.trans now, queue'.trans queue, ptr'.trans ptr⟩

theorem State.startCores_keeps_running (s : State) (l : List (Fin 16)) (d : Fin 16) (h : (s.sched.cores[d]).run.isSome = true) :
    ((s.startCores l).sched.cores[d]).run.isSome = true := by
  induction l generalizing s with
  | nil => exact h
  | cons c l ih => exact ih _ (s.startCore_keeps_running c d h)

/-- Of the cores that have had their turn, those that hold an item run one. -/
theorem State.startCores_runs (s : State) (l : List (Fin 16)) (d : Fin 16) (hd : d ∈ l) :
    ((s.startCores l).sched.cores[d]).run.isSome = !(s.sched.cores[d]).items.isEmpty := by
  cases h : (s.sched.cores[d]).items with
  | nil =>
    have : ((s.startCores l).sched.cores[d]).items = [] := by rw [State.startCores_items, h]
    simp only [SchedCore.items, List.append_eq_nil_iff] at this
    simpa using this.1
  | cons i rest =>
    obtain ⟨pre, post, rfl⟩ := List.append_of_mem hd
    simp only [State.startCores, List.foldl_append, List.foldl_cons]
    refine State.startCores_keeps_running _ _ _ (State.startCore_runs _ _ ?_)
    rw [← State.startCores, State.startCores_items, h]
    exact List.cons_ne_nil _ _

/-! ## One item that waits, and idle cores -/

/-- One item waits, nothing of its flow is in service or has been, and the cores are idle. -/
structure Sched.Lone (x : Sched) (i : Item) : Prop where
  queue : x.queue = [i]
  cores : x.cores = Vector.replicate 16 {}
  inService : (x.flow i.flow).inService = false
  lastCore : (x.flow i.flow).lastCore = none

/-- R194: whether core `c` takes items of the priority of `i`. -/
def Sched.takes (x : Sched) (i : Item) (c : Fin 16) : Bool := i.prio = 0 || !x.reserve.getLsbD c.val

section
variable {x : Sched} {i : Item}

theorem Sched.Lone.core (h : x.Lone i) (c : Fin 16) : x.cores[c] = {} := by
  simp only [h.cores, Fin.getElem_fin, Vector.getElem_replicate]

theorem Sched.Lone.eligible (h : x.Lone i) (now : Nat) (c : Fin 16) : x.eligible now c i = true := by
  simp only [Sched.eligible, h.inService, h.lastCore, h.core]
  rfl

theorem Sched.Lone.firstEligible (h : x.Lone i) (now : Nat) (c : Fin 16) :
    x.firstEligible now c = if x.takes i c then some i else none := by
  cases hr : x.reserve.getLsbD c.val with
  | true =>
    rw [x.firstEligible_reserved now c hr, Sched.takes, h.queue, List.find?_singleton, h.eligible, hr]
    simp
  | false =>
    have r : List.range 4 = [0, 1, 2, 3] := rfl
    have p : i.prio.val = 0 ∨ i.prio.val = 1 ∨ i.prio.val = 2 ∨ i.prio.val = 3 := by omega
    simp only [Sched.firstEligible, Sched.takes, r, h.queue, h.eligible, hr, List.findSome?_cons, List.findSome?_nil, List.find?_singleton]
    obtain p | p | p | p := p <;> simp [p]

theorem Sched.Lone.grant (h : x.Lone i) (now : Nat) (c : Fin 16) :
    x.grant now c = if x.takes i c then (x.give c i, true) else (x, false) := by
  have free : ¬ 2 ≤ (x.cores[c]).slots.length := by
    rw [h.core]
    decide
  rw [Sched.grant, if_neg free, h.firstEligible]
  cases x.takes i c <;> rfl

theorem Sched.Lone.give_queue (h : x.Lone i) (c : Fin 16) : (x.give c i).queue = [] := by
  simp [Sched.give, h.queue]

theorem Sched.Lone.give_items (h : x.Lone i) (c d : Fin 16) : ((x.give c i).cores[d]).items = if c = d then [i] else [] := by
  rw [Sched.give, upd_get, h.core, h.core]
  split <;> rfl

end

/-- With no item waiting the turns of a cycle change nothing. -/
theorem Sched.turns_empty (now : Nat) (l : List (Fin 16)) (acc : Sched × Option (Fin 16)) (h : acc.1.queue = []) :
    l.foldl (Sched.turn now) acc = acc := by
  induction l with
  | nil => rfl
  | cons c l ih =>
    have same : Sched.turn now acc c = acc := by
      obtain e | ⟨i, fe, -⟩ := acc.1.grant_cases now c
      · rw [Sched.turn, e]
        rfl
      · have nothing : acc.1.firstEligible now c = none := by simp [Sched.firstEligible, h, List.findSome?_eq_none_iff]
        cases nothing.symm.trans fe
    rw [List.foldl_cons, same, ih]

/-- A lone item goes to the first core of the turns that takes items of its priority. -/
theorem Sched.Lone.turns {x : Sched} {i : Item} (h : x.Lone i) (now : Nat) (l : List (Fin 16)) :
    x.turns now l = ((l.find? (x.takes i)).elim x fun c => x.give c i, l.find? (x.takes i)) := by
  rw [Sched.turns]
  induction l with
  | nil => rfl
  | cons c l ih =>
    rw [List.foldl_cons, Sched.turn, h.grant]
    cases takes : x.takes i c with
    | true =>
      rw [List.find?_cons_of_pos takes]
      exact Sched.turns_empty now l _ (h.give_queue c)
    | false =>
      rw [List.find?_cons_of_neg (by rw [takes]; decide)]
      exact ih

theorem Sched.Lone.pointerAfter {x : Sched} {i : Item} (h : x.Lone i) (c : Fin 16) : x.pointerAfter (some c) = c + 1 := by
  have asking : ((List.finRange 16).filter fun c => (x.cores[c]).slots.length < 2) = List.finRange 16 := by
    rw [List.filter_eq_self]
    intro c _
    rw [h.core]
    rfl
  rw [Sched.pointerAfter, asking]
  rfl

/-! ## ITEM_DISPATCH -/

/-- The state in which a dispatch runs its cycle: the cycle's instant has come, and so have the posts before it (R191, R203). -/
def State.atCycle (s : State) : State := (s.advance s.nextCycle).settleCycle

/-- A state's scheduler cycle, and the cores that start what they got. -/
def State.dispatch (s : State) : State := State.startCores { s with sched := s.sched.cycle s.now } (List.finRange 16)

theorem State.dispatch_frame (s : State) :
    s.dispatch.now = s.now ∧ s.dispatch.sched.queue = (s.sched.cycle s.now).queue ∧ s.dispatch.sched.ptr = (s.sched.cycle s.now).ptr := by
  unfold State.dispatch
  exact State.startCores_frame { s with sched := s.sched.cycle s.now } _

theorem exec_itemDispatch (s : State) :
    exec .itemDispatch s = .next (if !s.isReady || s.flt.device then s else s.atCycle.dispatch) := by
  change execItemDispatch s = _
  unfold execItemDispatch
  split <;> rfl

theorem State.atCycle_coreView (s : State) : s.atCycle.sched.coreView = s.sched.coreView :=
  (State.settleCycle_coreView _).trans (s.advance_coreView _)

/-- R194: what a reserved core newly holds after a dispatch has priority 0. -/
theorem State.dispatch_reserved (s : State) (c : Fin 16) (i : Item) (hr : s.sched.reserve.getLsbD c.val = true) :
    i ∈ (s.dispatch.sched.cores[c]).items → i ∈ (s.sched.cores[c]).items ∨ i.prio = 0 := by
  rw [State.dispatch, State.startCores_items]
  exact s.sched.cycle_reserved s.now c i hr

/-- The scheduler holds a lone item, its cycle in hand has not run, and nothing is under way. -/
structure State.Waits (s : State) (i : Item) : Prop where
  ready : s.pwr.phase = .ready
  works : s.flt.device = false
  lone : s.sched.Lone i
  cycle : s.sched.cycleAt ≠ some (s.now / nsUnits)
  due : s.sched.due = []

section
variable {s : State} {i : Item}

theorem State.Waits.atCycle (h : s.Waits i) : s.atCycle = s := by
  have now : s.nextCycle = s.now := by simp only [State.nextCycle, h.lone.queue, h.cycle, if_false]
  have still : s.advance s.nextCycle = s := by rw [now, State.advance, if_pos (Nat.le_refl _)]
  simp only [State.atCycle, still, State.settleCycle, State.settlePosts, h.due, List.filter_nil, List.isEmpty_nil, if_true]

theorem State.Waits.exec (h : s.Waits i) : exec .itemDispatch s = .next s.dispatch := by
  have runs : (!s.isReady || s.flt.device) = false := by simp [State.isReady, h.ready, h.works]
  rw [exec_itemDispatch, runs, h.atCycle]
  rfl

/-- The core a lone item goes to: the first from the pointer that takes items of its priority (R194, R203). -/
def State.goesTo (s : State) (i : Item) : Option (Fin 16) := (scanOrder (s.sched.pointer s.now)).find? (s.sched.takes i)

theorem State.Waits.cycle_eq (h : s.Waits i) :
    s.sched.cycle s.now = { (s.goesTo i).elim s.sched fun c => s.sched.give c i with
      cycleAt := some (s.now / nsUnits), ptr := s.sched.pointerAfter (s.goesTo i) } := by
  rw [Sched.cycle_eq, h.lone.turns]
  rfl

/-- What core `d` holds after the cycle of a lone item. -/
theorem State.Waits.dispatch_items (h : s.Waits i) (d : Fin 16) :
    (s.dispatch.sched.cores[d]).items = if s.goesTo i = some d then [i] else [] := by
  rw [State.dispatch, State.startCores_items, h.cycle_eq]
  cases s.goesTo i with
  | none =>
    dsimp only [Option.elim]
    rw [h.lone.core]
    rfl
  | some c => simpa using h.lone.give_items c d

theorem State.Waits.dispatch_runs (h : s.Waits i) (d : Fin 16) :
    (s.dispatch.sched.cores[d]).run.isSome = decide (s.goesTo i = some d) := by
  have items := h.dispatch_items d
  rw [State.dispatch, State.startCores_items] at items
  rw [State.dispatch, State.startCores_runs _ _ _ (List.mem_finRange d), items]
  split <;> simp [*]

theorem State.Waits.dispatch_frame (h : s.Waits i) :
    s.dispatch.now = s.now ∧ s.dispatch.sched.queue = (if (s.goesTo i).isSome then [] else [i]) ∧
      s.dispatch.sched.ptr = s.sched.pointerAfter (s.goesTo i) := by
  obtain ⟨now, queue, ptr⟩ := s.dispatch_frame
  rw [now, queue, ptr, h.cycle_eq]
  refine ⟨rfl, ?_, rfl⟩
  cases s.goesTo i with
  | none => exact h.lone.queue
  | some c => exact h.lone.give_queue c

/-- The only core that runs an item after the cycle of a lone item. -/
theorem State.Waits.taker (h : s.Waits i) :
    ((List.finRange 16).find? fun c => (s.dispatch.sched.cores[c]).run.isSome) = s.goesTo i := by
  simp only [h.dispatch_runs]
  generalize s.goesTo i = c
  revert c
  decide

/-- A lone item goes to the core that is first to take it (R194, R203). -/
theorem State.Waits.taken (h : s.Waits i) (c : Fin 16) (goes : s.goesTo i = some c) :
    ((List.finRange 16).find? fun c => (s.dispatch.sched.cores[c]).run.isSome) = some c ∧ i ∈ (s.dispatch.sched.cores[c]).items ∧
      s.dispatch.sched.queue = [] ∧ s.dispatch.sched.ptr = c + 1 ∧ s.dispatch.now = s.now := by
  obtain ⟨now, queue, ptr⟩ := h.dispatch_frame
  rw [goes] at queue ptr
  refine ⟨h.taker.trans goes, ?_, queue, ptr.trans (h.lone.pointerAfter c), now⟩
  rw [h.dispatch_items, if_pos goes]
  exact List.mem_singleton.2 rfl

end

/-- The core `n` places from the pointer is the first to take an item, if those before it are reserved and it takes the item. -/
theorem State.goesTo_eq_some (s : State) (i : Item) (n : Fin 16) (before : ∀ m < n, s.sched.takes i (m + s.sched.pointer s.now) = false)
    (takes : s.sched.takes i (n + s.sched.pointer s.now) = true) : s.goesTo i = some (n + s.sched.pointer s.now) := by
  have first : (List.finRange 16).find? (s.sched.takes i ∘ (· + s.sched.pointer s.now)) = some n := by
    rw [List.find?_eq_some_iff_getElem]
    refine ⟨takes, n.val, by simp, by simp, fun j hj => ?_⟩
    simpa using before ⟨j, by omega⟩ hj
  rw [State.goesTo, scanOrder, List.find?_map, first]
  rfl

end Sys2Proof.Machine

namespace Sys2Proof.Claims
open Sys2Proof.Machine

/-- Settles O20: a reserved core looks for priority 0 alone, so each turn of a cycle gives it such an item or none, and nothing else of a dispatch
brings a core an item; a lone item goes to the first core from the pointer that takes its priority. -/
theorem reservedCoreTakesPriorityZero : Obligations.ReservedCoreTakesPriorityZero := by
  unfold Obligations.ReservedCoreTakesPriorityZero
  intro holds waits taker
  have holds_iff (s : State) (c : Fin 16) (i : Item) : holds s c i ↔ i ∈ (s.sched.cores[c]).items := ((s.sched.cores[c]).mem_items i).symm
  have waits_of (s : State) (i : Item) (h : waits s i) : s.Waits i := by
    obtain ⟨ready, works, queue, cycle, cores, inService, lastCore, due, -⟩ := h
    exact ⟨ready, works, ⟨queue, cores, inService, lastCore⟩, cycle, due⟩
  have reaches (s : State) (i : Item) (c : Fin 16) (h : waits s i) (goes : s.goesTo i = some c) :
      Completes .itemDispatch s fun t => taker t = some c ∧ holds t c i ∧ t.sched.queue = [] ∧ t.sched.ptr = c + 1 ∧ t.now = s.now := by
    obtain ⟨first, held, rest⟩ := (waits_of s i h).taken c goes
    exact ⟨s.dispatch, (waits_of s i h).exec, first, (holds_iff _ c i).2 held, rest⟩
  refine ⟨?newly, ?priorityZero, ?past, ?allReserved, ?look, ?reset⟩
  case newly =>
    intro s t c i step reserved held
    rw [holds_iff] at held ⊢
    rw [exec_itemDispatch, Host.Outcome.next.injEq] at step
    subst step
    split at held
    · exact .inl held
    · have view := s.atCycle_coreView
      simp only [Sched.coreView, Prod.mk.injEq] at view
      obtain ⟨cores, reserve⟩ := view
      rw [← cores]
      exact s.atCycle.dispatch_reserved c i (by rw [reserve]; exact reserved) held
  case priorityZero =>
    intro s i p h _ zero
    have goes := s.goesTo_eq_some i 0 (fun m hm => absurd hm (by simp)) (by simp [Sched.takes, zero])
    rw [zero_add] at goes
    exact reaches s i p h goes
  case past =>
    intro s i n p h other before free
    refine reaches s i (n + p) h (s.goesTo_eq_some i n (fun m hm => ?_) ?_)
    · rw [Sched.takes, before m hm]
      simpa using other
    · rw [Sched.takes, free]
      exact Bool.or_true _
  case allReserved =>
    intro s i h other all
    have reservedByAll (c : Fin 16) : (-1 : BitVec 16).getLsbD c.val = true := by
      revert c
      decide
    have nowhere : s.goesTo i = none := by
      rw [State.goesTo, List.find?_eq_none]
      intro c _
      rw [Sched.takes, all, reservedByAll c]
      simpa using other
    obtain ⟨-, queue, ptr⟩ := (waits_of s i h).dispatch_frame
    rw [nowhere] at queue ptr
    exact ⟨s.dispatch, (waits_of s i h).exec, (waits_of s i h).taker.trans nowhere, queue, ptr⟩
  case look => exact fun x now c i => x.firstEligible_reserved_prio now c i
  case reset => decide

end Sys2Proof.Claims

namespace Sys2Proof.Machine

/-! ## A flag within a status word (R232) -/

theorem bitAt_eq_two_pow_mul (b : Bool) (i : Nat) : bitAt b i = 2 ^ i * b.toNat := by
  cases b
  · rfl
  · exact (Nat.mul_one _).symm

/-- A flag's weight is a multiple of each power of two up to it. -/
theorem two_pow_dvd_bitAt (b : Bool) (i j : Nat) : 2 ^ i ∣ bitAt b (j + i) := by
  rw [bitAt_eq_two_pow_mul]
  exact Dvd.dvd.mul_right (pow_dvd_pow 2 (Nat.le_add_left i j)) _

/-- A flag is read back at its own bit, whatever stands below it and above it. -/
theorem testBit_add_bitAt_add (b : Bool) {i lo hi : Nat} (below : lo < 2 ^ i) (above : 2 ^ (i + 1) ∣ hi) :
    (lo + bitAt b i + hi).testBit i = b := by
  obtain ⟨k, rfl⟩ := above
  have parts : lo + bitAt b i + 2 ^ (i + 1) * k = 2 ^ i * (2 * k + b.toNat) + lo := by
    rw [bitAt_eq_two_pow_mul]
    ring
  rw [parts, Nat.testBit_two_pow_mul_add _ below, if_neg (Nat.lt_irrefl i), Nat.sub_self, Nat.testBit_zero]
  cases b <;> simp

/-! ## The DEVICE-class fault (R348) -/

/-- CLASS 3 is the DEVICE class (R347). -/
theorem FaultClass.code_eq_three_iff (c : FaultClass) : c.code = 3 ↔ c = .device := by
  cases c <;> decide

theorem State.devFault_iff (s : State) : s.devFault = true ↔ ∃ r, s.flt.first = some r ∧ r.cls = .device := by
  simp only [State.devFault, Option.any_eq_true, decide_eq_true_eq]

/-- Bit 1 of DEV_STATE is DEV_FAULT: READY stands below it, the other flags above it (R232). -/
theorem State.devState_bit_one (s : State) : s.devState.getLsbD 1 = s.devFault := by
  have below : bitAt s.isReady 0 < 2 ^ 1 := by
    cases s.isReady <;> decide
  have flag (b : Bool) (j : Nat) : 2 ^ (1 + 1) ∣ bitAt b (j + 2) := two_pow_dvd_bitAt b 2 j
  simp only [State.devState, BitVec.getLsbD_ofNat, Nat.add_assoc]
  rw [← Nat.add_assoc, testBit_add_bitAt_add _ below (by apply_rules [Nat.dvd_add, flag])]
  rfl

end Sys2Proof.Machine

namespace Sys2Proof.Claims
open Sys2Proof.Machine

/-- Settles O57: DEV_FAULT stands alone at bit 1 of DEV_STATE, and it is up for a held record of the DEVICE class, whose code is 3. -/
theorem devFaultReflectsTheRecord : Obligations.DevFaultReflectsTheRecord := by
  unfold Obligations.DevFaultReflectsTheRecord
  intro s
  rw [s.devState_bit_one, s.devFault_iff]
  simp only [FaultClass.code_eq_three_iff]

end Sys2Proof.Claims

section
/-! The proofs below are checked one after another: all at once they would hold too many threads. -/
set_option Elab.async false

namespace Sys2Proof.Claims
open Sys2Proof.Machine

/-! ## A small device for counterexamples -/

/-- A function with its rings enabled and work in its submission rings. -/
def benchFunc : HostFunc :=
  { sq := Vector.replicate 4 { en := true, base := 0x10000, log2 := 16, tail := 2000 },
    rq := { en := true, open_ := true, base := 0x20000, log2 := 16 }, busMaster := true, memSpace := true }

/-- A device that is ready and idle, every cluster the PF's, at 1 ms. -/
def bench : State :=
  { now := 1000 * nsUnits * 1000, present := -1,
    pwr := { phase := .ready, porst := false, perst := false, bootDone := true, tbWarm := false, hbm := 1, link := .l0,
             cl := Vector.replicate 12 { state := 1, chosen := 1, goal := 1 } },
    host := { fn := Vector.replicate 13 benchFunc, numVfs := 12 }, mem := { ready := true } }

/-- A packet of the PF on ring 0, its payload filled up with zeros. -/
def benchPacket (units : Nat) (target : BitVec 16) (payload : List Byte) : Packet :=
  { func := 0, ring := 0, flags := 0, tag := 7, length := BitVec.ofNat 16 units, target := target, expectGen := 0, reserved := 0,
    payload := payload ++ List.replicate (16 * units - 16 - payload.length) 0 }

theorem stateOf_exec {i : Instr} {s t : State} (h : exec i s = .next t) : stateOf s (exec i s) = t := by
  rw [h]
  rfl

end Sys2Proof.Claims

namespace Sys2Proof.Claims
open Sys2Proof.Machine

/-- Stream 0 of cluster 0 is between the FIRST and the LAST block of segment 9. -/
def loading : State := { bench with mem := { bench.mem with ins := upd bench.mem.ins 0 fun t => { t with isOpen := true, cur := some 9 } } }

/-- SEG_DECLARE of segment 9 on cluster 0. -/
def declareNine : Packet := benchPacket 2 1 (leBytes 4 9 ++ leBytes 4 8)

/-- Refutes O15: SEG_DECLARE on a segment that a LOAD stream is bringing in makes that stream expect a FIRST block again (R40), so that more than the
segments changes. -/
theorem not_segmentsDeclaredAndPinned : ¬ Obligations.SegmentsDeclaredAndPinned := by
  unfold Obligations.SegmentsDeclaredAndPinned
  rintro ⟨declare, -⟩
  obtain ⟨t, run, frame, -⟩ := declare loading declareNine [0] (by decide +kernel) (by decide +kernel) (by decide +kernel) (by decide +kernel)
    (by decide +kernel) (by decide +kernel) (by decide +kernel)
  have cut : ((stateOf loading (exec (.segDeclare declareNine) loading)).mem.ins[(0 : Fin 24)]).cur = none := by decide +kernel
  rw [stateOf_exec run, frame] at cut
  change ((loading.mem.ins)[(0 : Fin 24)]).cur = none at cut
  exact absurd cut (by decide +kernel)

end Sys2Proof.Claims

namespace Sys2Proof.Machine

/-! ## What the invariant reads: sites, generations, and the pending generations that arm points still see (R12, R243, R278) -/

/-- The part of the state the invariant speaks of. -/
def State.kept (s : State) : Vector Cluster 12 × Vector GenSlots 12 × Vector (Option (Generation × Bool)) 12 :=
  (s.siteOf, s.gens, s.recent.map (·.pend))

/-- A state with the sites, generations and notes of `s` keeps what the invariant reads of `s`. -/
@[simp] theorem State.kept_mk (s : State) (pending now netOff free sites reqWait seqs cl pairs gangs mem sched rope time cal pwr flt host cmd sec
    ids present rejoin lostPins) :
    (State.mk pending now netOff free sites reqWait s.gens seqs s.recent cl pairs s.siteOf gangs mem sched rope time cal pwr flt host cmd sec ids
      present rejoin lostPins).kept = s.kept := by
  rw [State.kept, State.kept]

@[simp] theorem State.kept_ite (c : Prop) [Decidable c] (s t : State) : (if c then s else t).kept = if c then s.kept else t.kept := by
  split <;> rfl

@[simp] theorem stateOf_next (s t : State) : stateOf s (.next t) = t := by
  rw [stateOf]

@[simp] theorem stateOf_ite (c : Prop) [Decidable c] (s : State) (x y : Host.Outcome State Fault Refusal) :
    stateOf s (if c then x else y) = if c then stateOf s x else stateOf s y := by
  split <;> rfl

@[simp] theorem State.kept_foldl {α : Type} (f : State → α → State) (l : List α) (s : State) (h : ∀ s a, (f s a).kept = s.kept) :
    (l.foldl f s).kept = s.kept :=
  foldl_keeps State.kept f h l s

/-- A note of what an instant of the datapath cycle still sees keeps the pending generation noted. -/
@[simp] theorem State.kept_recent (s : State) (k : Cluster) (f : Recent → Recent) (h : ∀ r, (f r).pend = r.pend) :
    ({ s with recent := upd s.recent k f } : State).kept = s.kept := by
  simp only [State.kept, Prod.mk.injEq, true_and]
  ext i hi : 1
  simp only [Vector.getElem_map, upd_getElem]
  split
  · rename_i e
    subst e
    exact h _
  · rfl

end Sys2Proof.Machine

namespace Sys2Proof.Machine

@[simp] theorem State.readRing_kept (s : State) (f : Func) (r : Fin 4) (n : Nat) : (s.readRing f r n).kept = s.kept := by
  simp [State.readRing]

@[simp] theorem State.movePtr_kept (s : State) (f : Func) (r : Fin 4) : (s.movePtr f r).kept = s.kept := by
  simp [State.movePtr]

@[simp] theorem State.updFn_kept (s : State) (f : Func) (g : HostFunc → HostFunc) : (s.updFn f g).kept = s.kept := by
  simp [State.updFn]

@[simp] theorem State.gather_kept (s : State) (p : Packet) : (s.gather p).kept = s.kept := by
  simp [State.gather]

@[simp] theorem State.badParam_kept (s : State) (dkind detail : Nat) : (s.badParam dkind detail).state.kept = s.kept := by
  simp [State.badParam]

@[simp] theorem State.busy_kept (s : State) : s.busy.state.kept = s.kept := by
  simp [State.busy]

@[simp] theorem State.stages_kept (s : State) (o : OpSpec) (p : Packet) (owns : Option Nat) (body : List Cluster → State → Ending)
    (hb : ∀ cl s, (body cl s).state.kept = s.kept) : (s.stages o p owns body).1.state.kept = s.kept := by
  dsimp only [State.stages]
  (repeat' split) <;> simp [hb]

@[simp] theorem State.fetch_kept (s : State) (op : Nat) (p : Packet) : (s.fetch op p).kept = s.kept := by
  unfold State.fetch
  split <;> simp

@[simp] theorem State.writeHost_kept (s : State) (addr : BitVec 64) (bytes : List Byte) : (s.writeHost addr bytes).kept = s.kept := by
  simp [State.writeHost]

@[simp] theorem State.endRoutine_kept (s : State) : s.endRoutine.kept = s.kept := by
  simp [State.endRoutine]

@[simp] theorem State.reply_kept (s : State) (f : Func) (r : Reply) : (s.reply f r).kept = s.kept := by
  simp [State.reply]

@[simp] theorem State.runPacket_kept (s : State) (o : OpSpec) (p : Packet) (owns : Option Nat) (body : List Cluster → State → Ending)
    (hb : ∀ cl s, (body cl s).state.kept = s.kept) : (s.runPacket o p owns body).kept = s.kept := by
  dsimp only [State.runPacket]
  split <;> simp [hb]

@[simp] theorem State.done_kept (s : State) : s.done.state.kept = s.kept := by
  simp [State.done]

@[simp] theorem execNop_kept (p : Packet) (s : State) : (stateOf s (execNop p s)).kept = s.kept := by
  simp [execNop]

@[simp] theorem execIdentify_kept (p : Packet) (s : State) : (stateOf s (execIdentify p s)).kept = s.kept := by
  simp [execIdentify]

@[simp] theorem State.accepted_kept (s : State) : s.accepted.state.kept = s.kept := by
  simp [State.accepted]

@[simp] theorem State.touchPaths_kept (s : State) (k : Cluster) : (s.touchPaths k).kept = s.kept := by
  unfold State.touchPaths
  split <;> simp

@[simp] theorem State.updSeq_kept (s : State) (k : Cluster) (f : Seqr → Seqr) : (s.updSeq k f).kept = s.kept := by
  simp [State.updSeq]

@[simp] theorem State.updSite_kept (s : State) (k : Cluster) (f : SiteRec → SiteRec) : (s.updSite k f).kept = s.kept := by
  simp [State.updSite]

@[simp] theorem State.accountDue_kept (s : State) (k : Cluster) : (s.accountDue k).kept = s.kept := by
  simp [State.accountDue]

@[simp] theorem State.setState_kept (s : State) (k : Cluster) (x : SiteState) : (s.setState k x).kept = s.kept := by
  simp [State.setState]

@[simp] theorem State.cancelStart_kept (s : State) (k : Cluster) : (s.cancelStart k).kept = s.kept := by
  simp [State.cancelStart]

@[simp] theorem State.abortNow_kept (s : State) (k : Cluster) : (s.abortNow k).kept = s.kept := by
  simp [State.abortNow]

@[simp] theorem State.latchReq_kept (s : State) (k : Cluster) (b : BitVec 8) : (s.latchReq k b).kept = s.kept := by
  have note (r : Recent) : (if s.sites[k].pends b then r else { r with reqAt := updN r.reqAt (reqIndex b) fun _ => s.now }).pend = r.pend := by
    split <;> rfl
  dsimp only [State.latchReq]
  split <;> exact s.kept_recent k _ note

@[simp] theorem State.latchAbort_kept (s : State) (k : Cluster) : (s.latchAbort k).kept = s.kept := by
  simp [State.latchAbort]

@[simp] theorem State.releaseHeads_kept (s : State) (k : Cluster) : (s.releaseHeads k).kept = s.kept := by
  simp [State.releaseHeads]

@[simp] theorem State.noteFront_kept (s : State) (k : Cluster) : (s.noteFront k).kept = s.kept := by
  refine s.kept_recent k _ fun r => ?_
  split <;> rfl

@[simp] theorem State.dropFront_kept (s : State) (k : Cluster) : (s.dropFront k).kept = s.kept := by
  simp [State.dropFront]

@[simp] theorem State.repick_kept (s : State) : s.repick.kept = s.kept := by
  simp [State.repick]

@[simp] theorem State.noteHbm_kept (s : State) : s.noteHbm.kept = s.kept := by
  simp [State.noteHbm]

@[simp] theorem State.dropInstances_kept (s : State) (i : Fin 24) : (s.dropInstances i).kept = s.kept := by
  simp [State.dropInstances]

@[simp] theorem State.closeIn_kept (s : State) (i : Fin 24) : (s.closeIn i).kept = s.kept := by
  simp [State.closeIn]

@[simp] theorem State.closeOut_kept (s : State) (i : Fin 24) : (s.closeOut i).kept = s.kept := by
  simp [State.closeOut]

@[simp] theorem State.updCl_kept (s : State) (c : Cluster) (f : ClusterEng → ClusterEng) : (s.updCl c f).kept = s.kept := by
  simp [State.updCl]

@[simp] theorem State.discardOut_kept (s : State) (i : Fin 24) : (s.discardOut i).kept = s.kept := by
  simp [State.discardOut]

@[simp] theorem State.closeShut_kept (s : State) : s.closeShut.kept = s.kept := by
  unfold State.closeShut
  rw [State.kept_foldl _ _ _ (by intros; split <;> simp), State.kept_foldl _ _ _ (by intros; split <;> simp)]

@[simp] theorem State.resetStreams_kept (s : State) (f : Func) : (s.resetStreams f).kept = s.kept := by
  rw [State.resetStreams, State.closeShut_kept, State.kept_mk]

@[simp] theorem State.resetFlows_kept (s : State) (f : Func) : (s.resetFlows f).kept = s.kept := by
  simp [State.resetFlows]

@[simp] theorem State.badField_kept (s : State) (off : Nat) : (s.badField off).state.kept = s.kept := by
  simp [State.badField]

@[simp] theorem State.parsed_kept {α : Type} (s : State) (r : Except Nat α) (k : α → Ending) (hk : ∀ a, (k a).state.kept = s.kept) :
    (s.parsed r k).state.kept = s.kept := by
  unfold State.parsed
  split
  · simp
  · exact hk _

@[simp] theorem execStatusMirrorSet_kept (p : Packet) (s : State) : (stateOf s (execStatusMirrorSet p s)).kept = s.kept := by
  simp [execStatusMirrorSet]

@[simp] theorem State.timRefuse_kept (s : State) (cl : List Cluster) (f : TimingFail) : (s.timRefuse cl f).kept = s.kept := by
  simp [State.timRefuse]

@[simp] theorem State.badTiming_kept (s : State) (cl : List Cluster) (f : TimingFail) : (s.badTiming cl f).state.kept = s.kept := by
  simp [State.badTiming]

theorem State.commitFault_kept (s : State) (cl : List Cluster) (e : Ending) (h : s.commitFault cl = some e) : e.state.kept = s.kept := by
  dsimp only [State.commitFault] at h
  split at h
  · obtain rfl := Option.some.inj h
    simp
  split at h
  · obtain rfl := Option.some.inj h
    simp
  split at h
  · obtain rfl := Option.some.inj h
    simp
  · obtain ⟨x, -, rfl⟩ := Option.map_eq_some_iff.1 h
    simp

@[simp] theorem State.noteAdmit_kept (s : State) (f : AdmitFail) : (s.noteAdmit f).kept = s.kept := by
  simp [State.noteAdmit]

theorem State.deepCheck_kept (s : State) (k : Cluster) (cfg : Cluster → ClusterConfig) (d : Descriptor) (e : Ending)
    (h : s.deepCheck k cfg d = .error e) : e.state.kept = s.kept := by
  dsimp only [State.deepCheck] at h
  (repeat' split at h) <;> cases h <;> simp

@[simp] theorem State.askHbm_kept (s : State) : s.askHbm.kept = s.kept := by
  simp [State.askHbm]

@[simp] theorem State.useHbm_kept (s : State) : s.useHbm.kept = s.kept := by
  simp [State.useHbm]

@[simp] theorem State.recheck_kept (s : State) (k : Cluster) : (s.recheck k).1.kept = s.kept := by
  unfold State.recheck
  split
  · rfl
  split
  · simp
  split
  · simp
  · next e h =>
    have := s.deepCheck_kept _ _ _ _ h
    dsimp only
    split <;> simp [this]

@[simp] theorem State.publishPend_kept (s : State) (k : Cluster) : (s.publishPend k).kept = s.kept := by
  simp [State.publishPend]

@[simp] theorem State.published_kept (s : State) (cl : List Cluster) : (s.published cl).state.kept = s.kept := by
  have each (l : List Cluster) (x : State × Nat) :
      (l.foldl (fun x k => (((x.1.publishPend k).recheck k).1, x.2 + bitAt ((x.1.publishPend k).recheck k).2 k.val)) x).1.kept
        = x.1.kept :=
    foldl_keeps (fun x : State × Nat => x.1.kept) _ (by simp) l x
  exact each _ (s, 0)

@[simp] theorem State.segDeclare_kept (s : State) (b : List Byte) (cl : List Cluster) : (s.segDeclare b cl).state.kept = s.kept := by
  dsimp only [State.segDeclare]
  split <;> simp

@[simp] theorem execSegDeclare_kept (p : Packet) (s : State) : (stateOf s (execSegDeclare p s)).kept = s.kept := by
  simp [execSegDeclare]

@[simp] theorem State.consumeReq_kept (s : State) (k : Cluster) (b : BitVec 8) : (s.consumeReq k b).kept = s.kept := by
  simp [State.consumeReq]

@[simp] theorem State.holdAges_kept (s : State) (n : Port) (d : Nat) : (s.holdAges n d).kept = s.kept := by
  simp [State.holdAges]

@[simp] theorem State.leaveIdle_kept (s : State) (n : Port) : (s.leaveIdle n).kept = s.kept := by
  dsimp only [State.leaveIdle]
  split
  · rfl
  · rw [State.kept_mk, State.holdAges_kept]

@[simp] theorem State.wakePaths_kept (s : State) (k : Cluster) : (s.wakePaths k).kept = s.kept := by
  simp [State.wakePaths]

@[simp] theorem State.noteStop_kept (s : State) (k : Cluster) : (s.noteStop k).kept = s.kept := by
  unfold State.noteStop
  split <;> simp

@[simp] theorem State.dropStart_kept (s : State) (k : Cluster) : (s.dropStart k).kept = s.kept := by
  simp [State.dropStart]

@[simp] theorem State.stopRequest_kept (s : State) (k : Cluster) : (s.stopRequest k).state.kept = s.kept := by
  unfold State.stopRequest
  (repeat' split) <;> simp

@[simp] theorem execBurstStop_kept (p : Packet) (s : State) : (stateOf s (execBurstStop p s)).kept = s.kept := by
  simp [execBurstStop]

@[simp] theorem State.noteLate_kept (s : State) (k : Cluster) (idx cl : Nat) : (s.noteLate k idx cl).kept = s.kept := by
  unfold State.noteLate
  (repeat' split) <;> simp

@[simp] theorem execJumpRequest_kept (p : Packet) (s : State) : (stateOf s (execJumpRequest p s)).kept = s.kept := by
  simp [execJumpRequest]

@[simp] theorem execResume_kept (p : Packet) (s : State) : (stateOf s (execResume p s)).kept = s.kept := by
  rw [execResume, stateOf_next]
  refine s.runPacket_kept _ _ _ _ fun cl s => ?_
  dsimp only
  split <;> simp

@[simp] theorem State.abortRequest_kept (s : State) (k : Cluster) : (s.abortRequest k).state.kept = s.kept := by
  unfold State.abortRequest
  (repeat' split) <;> simp

@[simp] theorem State.runAbort_kept (s : State) (p : Packet) : (s.runAbort p).kept = s.kept := by
  simp [State.runAbort]

@[simp] theorem State.freshSite_kept (s : State) (k : Cluster) : (s.freshSite k).kept = s.kept := by
  simp [State.freshSite]

@[simp] theorem State.streamOpen_kept (s : State) (b : List Byte) (c : Cluster) : (s.streamOpen b c).state.kept = s.kept := by
  simp only [State.streamOpen]
  (repeat' split) <;> simp

@[simp] theorem execStreamOpen_kept (p : Packet) (s : State) : (stateOf s (execStreamOpen p s)).kept = s.kept := by
  simp [execStreamOpen]

@[simp] theorem State.closeDrained_kept (s : State) (i : Fin 24) : (s.closeDrained i).kept = s.kept := by
  simp [State.closeDrained]

@[simp] theorem State.streamClose_kept (s : State) (b : List Byte) (c : Cluster) : (s.streamClose b c).state.kept = s.kept := by
  simp only [State.streamClose]
  (repeat' split) <;> simp

@[simp] theorem execStreamClose_kept (p : Packet) (s : State) : (stateOf s (execStreamClose p s)).kept = s.kept := by
  simp [execStreamClose]

@[simp] theorem State.reside_kept (s : State) (cl : List Cluster) (id : Word) (r : Residence) : (s.reside cl id r).kept = s.kept := by
  simp [State.reside]

@[simp] theorem State.segPin_kept (s : State) (b : List Byte) (cl : List Cluster) : (s.segPin b cl).state.kept = s.kept := by
  dsimp only [State.segPin]
  split <;> simp

@[simp] theorem execSegPin_kept (p : Packet) (s : State) : (stateOf s (execSegPin p s)).kept = s.kept := by
  simp [execSegPin]

@[simp] theorem State.segUnpin_kept (s : State) (b : List Byte) (cl : List Cluster) : (s.segUnpin b cl).state.kept = s.kept := by
  dsimp only [State.segUnpin]
  split <;> simp

@[simp] theorem execSegUnpin_kept (p : Packet) (s : State) : (stateOf s (execSegUnpin p s)).kept = s.kept := by
  simp [execSegUnpin]

@[simp] theorem State.clearStats_kept (s : State) (pairs : Bool) (n : Nat) : (s.clearStats pairs n).kept = s.kept := by
  simp [State.clearStats]

@[simp] theorem State.writeData_kept (s : State) (addr : BitVec 64) (bytes : List Byte) : (s.writeData addr bytes).kept = s.kept := by
  simp [State.writeData]

@[simp] theorem State.tdcStats_kept (s : State) (b : List Byte) : (s.tdcStats b).state.kept = s.kept := by
  simp only [State.tdcStats]
  (repeat' split) <;> simp

@[simp] theorem execTdcStats_kept (p : Packet) (s : State) : (stateOf s (execTdcStats p s)).kept = s.kept := by
  simp [execTdcStats]

@[simp] theorem State.ruleLoad_kept (s : State) (f : Func) (b : List Byte) : (s.ruleLoad f b).state.kept = s.kept := by
  refine s.parsed_kept _ _ fun a => ?_
  dsimp only
  split <;> simp

@[simp] theorem execRuleLoad_kept (p : Packet) (s : State) : (stateOf s (execRuleLoad p s)).kept = s.kept := by
  simp [execRuleLoad]

@[simp] theorem State.taintSites_kept (s : State) (m : BitVec 12) : (s.taintSites m).kept = s.kept := by
  simp [State.taintSites]

@[simp] theorem State.taintFor_kept (s : State) (e : CycleEvent) : (s.taintFor e).kept = s.kept := by
  simp [State.taintFor]

@[simp] theorem State.serve_kept (s : State) (c : FaultCycle) : (s.serve c).kept = s.kept := by
  simp [State.serve]

@[simp] theorem State.collectOne_kept (s : State) (e : FaultEvent × Bool) : (s.collectOne e).kept = s.kept := by
  simp [State.collectOne]

@[simp] theorem State.emit_kept (s : State) (ports : List Port) (ctype hops : Byte) (tick : BitVec 16) (src : BitVec 64) (body : Nat → List Byte) : (s.emit ports ctype hops tick src body).kept = s.kept := by
  simp [State.emit]

@[simp] theorem State.issue_kept (s : State) (ctype : Byte) (body : Nat → List Byte) : (s.issue ctype body).kept = s.kept := by
  simp [State.issue]

@[simp] theorem State.sendAbort_kept (s : State) (k : Cluster) (cause : Nat) : (s.sendAbort k cause).kept = s.kept := by
  simp [State.sendAbort]

@[simp] theorem State.haltSite_kept (s : State) (k : Cluster) : (s.haltSite k).kept = s.kept := by
  simp [State.haltSite]

@[simp] theorem State.react_kept (s : State) (r : Reaction) (m0 : BitVec 12) : (s.react r m0).kept = s.kept := by
  simp [State.react]

@[simp] theorem State.issueFaults_kept (s : State) : s.issueFaults.kept = s.kept := by
  unfold State.issueFaults
  split <;> simp

@[simp] theorem State.endCycle_kept (s : State) (t : Nat) : (s.endCycle t).kept = s.kept := by
  simp [State.endCycle]

@[simp] theorem State.collect_kept (s : State) (es : List (FaultEvent × Bool)) : (s.collect es).kept = s.kept := by
  simp [State.collect]

@[simp] theorem State.report_kept (s : State) (source : Nat) (mask : BitVec 12) (detail : Word) :
    (s.report source mask detail).kept = s.kept := by
  simp [State.report]

@[simp] theorem State.postNow_kept (s : State) (i : Item) : (s.postNow i).kept = s.kept := by
  simp only [State.postNow]
  (repeat' split) <;> simp

@[simp] theorem State.settlePosts_kept (s : State) (t : Nat) : (s.settlePosts t).kept = s.kept := by
  dsimp only [State.settlePosts]
  split
  · rfl
  · rw [State.kept_foldl, State.kept_mk]
    intro s i
    rw [State.kept_foldl _ _ _ State.postNow_kept, State.kept_mk]

@[simp] theorem State.settleBefore_kept (s : State) (i : Item) : (s.settleBefore i).kept = s.kept := by
  simp [State.settleBefore]

@[simp] theorem State.itemPost_kept (s : State) (b : List Byte) : (s.itemPost b).state.kept = s.kept := by
  dsimp only [State.itemPost]
  split <;> simp

@[simp] theorem execItemPost_kept (p : Packet) (s : State) : (stateOf s (execItemPost p s)).kept = s.kept := by
  simp [execItemPost]

@[simp] theorem State.flowConfig_kept (s : State) (b : List Byte) : (s.flowConfig b).state.kept = s.kept := by
  dsimp only [State.flowConfig]
  split <;> simp

@[simp] theorem execFlowConfig_kept (p : Packet) (s : State) : (stateOf s (execFlowConfig p s)).kept = s.kept := by
  simp [execFlowConfig]

@[simp] theorem State.updPort_kept (s : State) (n : Port) (f : RopePort → RopePort) : (s.updPort n f).kept = s.kept := by
  simp [State.updPort]

@[simp] theorem State.timeSource_kept (s : State) (b : List Byte) : (s.timeSource b).state.kept = s.kept := by
  simp [State.timeSource]

@[simp] theorem execTimeSource_kept (p : Packet) (s : State) : (stateOf s (execTimeSource p s)).kept = s.kept := by
  simp [execTimeSource]

@[simp] theorem State.fresh_kept (s : State) : s.fresh.1.kept = s.kept := by
  simp [State.fresh]

@[simp] theorem State.fill_kept (s : State) (i : Fin 24) (bs : List ClosedBlock) : (s.fill i bs).kept = s.kept := by
  simp [State.fill]

@[simp] theorem State.drain_kept (s : State) (c : Cluster) : (s.drain c).kept = s.kept := by
  simp [State.drain]

@[simp] theorem State.gapCairn_kept (s : State) (c : Cluster) (at_ : Int) : (s.gapCairn c at_).kept = s.kept := by
  dsimp only [State.gapCairn]
  split <;> simp

@[simp] theorem State.stepTime_kept (s : State) (d : Int) : (s.stepTime d).kept = s.kept := by
  dsimp only [State.stepTime]
  rw [State.kept_foldl, State.kept_mk]
  intros
  split <;> simp

@[simp] theorem State.timeAccept_kept (s : State) : s.timeAccept.state.kept = s.kept := by
  unfold State.timeAccept
  (repeat' split) <;> simp

@[simp] theorem execTimeAccept_kept (p : Packet) (s : State) : (stateOf s (execTimeAccept p s)).kept = s.kept := by
  simp [execTimeAccept]

@[simp] theorem execTimeThreshold_kept (p : Packet) (s : State) : (stateOf s (execTimeThreshold p s)).kept = s.kept := by
  simp [execTimeThreshold]

@[simp] theorem State.portTo_kept (s : State) (n : Port) (x : PortState) : (s.portTo n x).kept = s.kept := by
  simp [State.portTo]

@[simp] theorem State.endTest_kept (s : State) (n : Port) : (s.endTest n).kept = s.kept := by
  simp [State.endTest]

@[simp] theorem State.startTraining_kept (s : State) (n : Port) : (s.startTraining n).kept = s.kept := by
  simp [State.startTraining]

@[simp] theorem State.configPort_kept (s : State) (n : Port) (en fixed retrain : Bool) (levelMax : Nat) : (s.configPort n en fixed retrain levelMax).kept = s.kept := by
  simp [State.configPort]

@[simp] theorem State.ropeConfig_kept (s : State) (b : List Byte) : (s.ropeConfig b).state.kept = s.kept := by
  dsimp only [State.ropeConfig]
  split <;> simp

@[simp] theorem execRopeConfig_kept (p : Packet) (s : State) : (stateOf s (execRopeConfig p s)).kept = s.kept := by
  simp [execRopeConfig]

@[simp] theorem State.sendOn_kept (s : State) (n : Port) (ctype : Byte) (body : List Byte) : (s.sendOn n ctype body).kept = s.kept := by
  simp [State.sendOn]

@[simp] theorem State.askLoop_kept (s : State) (n : Port) : (s.askLoop n).kept = s.kept := by
  simp [State.askLoop]

@[simp] theorem State.startTest_kept (s : State) (n : Port) (loop prbs inject duration : Nat) : (s.startTest n loop prbs inject duration).kept = s.kept := by
  simp [State.startTest]

@[simp] theorem State.ropeTest_kept (s : State) (b : List Byte) : (s.ropeTest b).state.kept = s.kept := by
  dsimp only [State.ropeTest]
  split <;> simp

@[simp] theorem execRopeTest_kept (p : Packet) (s : State) : (stateOf s (execRopeTest p s)).kept = s.kept := by
  simp [execRopeTest]

@[simp] theorem State.tie_kept (s : State) (c : Cluster) : (s.tie c).kept = s.kept := by
  simp [State.tie]

@[simp] theorem State.startDensity_kept (s : State) (c : Cluster) : (s.startDensity c).kept = s.kept := by
  simp [State.startDensity]

@[simp] theorem State.calRun_kept (s : State) (b : List Byte) (cl : List Cluster) : (s.calRun b cl).state.kept = s.kept := by
  dsimp only [State.calRun]
  split <;> simp

@[simp] theorem execCalRun_kept (p : Packet) (s : State) : (stateOf s (execCalRun p s)).kept = s.kept := by
  simp [execCalRun]

@[simp] theorem State.integrity_kept (s : State) : s.integrity.state.kept = s.kept := by
  simp [State.integrity]

@[simp] theorem State.calStore_kept (s : State) (b : List Byte) (verified : Bool) : (s.calStore b verified).state.kept = s.kept := by
  simp only [State.calStore]
  (repeat' split) <;> simp

@[simp] theorem execCalStore_kept (p : Packet) (verified : Bool) (s : State) : (stateOf s (execCalStore p verified s)).kept = s.kept := by
  simp [execCalStore]

@[simp] theorem execCalRefDeclare_kept (p : Packet) (s : State) : (stateOf s (execCalRefDeclare p s)).kept = s.kept := by
  simp [execCalRefDeclare]

@[simp] theorem execFaultConfig_kept (p : Packet) (s : State) : (stateOf s (execFaultConfig p s)).kept = s.kept := by
  simp [execFaultConfig]

@[simp] theorem execFaultInject_kept (p : Packet) (s : State) : (stateOf s (execFaultInject p s)).kept = s.kept := by
  simp [execFaultInject]

@[simp] theorem State.handshakeStep_kept (s : State) : s.handshakeStep.kept = s.kept := by
  simp [State.handshakeStep]

@[simp] theorem State.handshakes_kept (n : Nat) (s : State) : (State.handshakes n s).kept = s.kept := by
  rw [State.handshakes_eq, State.kept_mk]

@[simp] theorem State.advance_kept (s : State) (t : Nat) : (s.advance t).kept = s.kept := by
  simp [State.advance]

@[simp] theorem State.idle_kept (s : State) : s.idle.kept = s.kept := by
  simp [State.idle]

@[simp] theorem State.faultAck_kept (s : State) : s.faultAck.kept = s.kept := by
  dsimp only [State.faultAck]
  split <;> simp

@[simp] theorem execFaultAck_kept (p : Packet) (s : State) : (stateOf s (execFaultAck p s)).kept = s.kept := by
  simp [execFaultAck]

@[simp] theorem execPowerTolerance_kept (p : Packet) (s : State) : (stateOf s (execPowerTolerance p s)).kept = s.kept := by
  simp [execPowerTolerance]

@[simp] theorem State.takeIndex_kept (s : State) : s.takeIndex.1.kept = s.kept := by
  simp [State.takeIndex]

@[simp] theorem State.reserveReport_kept (s : State) (p : Packet) : (s.reserveReport p).kept = s.kept := by
  simp [State.reserveReport]

@[simp] theorem State.attest_kept (s : State) (p : Packet) : (s.attest p).state.kept = s.kept := by
  simp only [State.attest]
  (repeat' split) <;> simp

@[simp] theorem execAttest_kept (p : Packet) (s : State) : (stateOf s (execAttest p s)).kept = s.kept := by
  simp [execAttest]

@[simp] theorem State.stageLast_kept (s : State) (old : Security) : (s.stageLast old).state.kept = s.kept := by
  dsimp only [State.stageLast]
  split <;> simp

@[simp] theorem State.fwStage_kept (s : State) (b : List Byte) : (s.fwStage b).state.kept = s.kept := by
  dsimp only [State.fwStage]
  split <;> simp

@[simp] theorem execFwStage_kept (p : Packet) (s : State) : (stateOf s (execFwStage p s)).kept = s.kept := by
  simp [execFwStage]

@[simp] theorem State.fwActivate_kept (s : State) (b : List Byte) : (s.fwActivate b).state.kept = s.kept := by
  refine s.parsed_kept _ _ fun a => ?_
  dsimp only
  split
  · simp
  · split <;> simp

@[simp] theorem execFwActivate_kept (p : Packet) (s : State) : (stateOf s (execFwActivate p s)).kept = s.kept := by
  simp [execFwActivate]

@[simp] theorem execBadOpcode_kept (p : Packet) (opcode : BitVec 16) (s : State) : (stateOf s (execBadOpcode p opcode s)).kept = s.kept := by
  simp [execBadOpcode]

@[simp] theorem State.residue_kept (s : State) (r : Routine) : (s.residue r).kept = s.kept := by
  simp only [State.residue]
  (repeat' split) <;> simp

@[simp] theorem State.abandon_kept (s : State) (r : Routine) : (s.abandon r).kept = s.kept := by
  simp [State.abandon]

@[simp] theorem execRingErr_kept (f : Func) (ring : Fin 4) (length : BitVec 16) (s : State) : (stateOf s (execRingErr f ring length s)).kept = s.kept := by
  simp [execRingErr]

@[simp] theorem State.endSearch_kept (s : State) (x : InternalCommand) : (s.endSearch x).kept = s.kept := by
  unfold State.endSearch
  (repeat' split) <;> simp

@[simp] theorem State.internalRefused_kept (s : State) (x : InternalCommand) (code : Nat) : (s.internalRefused x code).kept = s.kept := by
  simp [State.internalRefused]

@[simp] theorem State.countDb_kept (s : State) (f : Func) : (s.countDb f).kept = s.kept := by
  simp [State.countDb]

@[simp] theorem State.restPtrs_kept (s : State) : s.restPtrs.kept = s.kept := by
  simp [State.restPtrs]

@[simp] theorem execDoorbellRqHead_kept (f : Func) (value : Word) (single : Bool) (s : State) : (stateOf s (execDoorbellRqHead f value single s)).kept = s.kept := by
  simp [execDoorbellRqHead]

@[simp] theorem execDoorbellInTail_kept (f : Func) (stream : Fin 24) (value : Word) (single : Bool) (descs : List Byte) (s : State) : (stateOf s (execDoorbellInTail f stream value single descs s)).kept = s.kept := by
  simp [execDoorbellInTail]

@[simp] theorem execDoorbellOutTail_kept (f : Func) (stream : Fin 24) (value : Word) (single : Bool) (descs : List Byte) (s : State) : (stateOf s (execDoorbellOutTail f stream value single descs s)).kept = s.kept := by
  simp [execDoorbellOutTail]

@[simp] theorem State.countReg_kept (s : State) (f : Func) : (s.countReg f).kept = s.kept := by
  simp [State.countReg]

@[simp] theorem execRingEnable_kept (f : Func) (which : RingSel) (s : State) : (stateOf s (execRingEnable f which s)).kept = s.kept := by
  simp [execRingEnable]

@[simp] theorem execSqDisable_kept (f : Func) (ring : Fin 4) (s : State) : (stateOf s (execSqDisable f ring s)).kept = s.kept := by
  simp [execSqDisable]

@[simp] theorem execRqDisable_kept (f : Func) (s : State) : (stateOf s (execRqDisable f s)).kept = s.kept := by
  simp [execRqDisable]

@[simp] theorem execRqDisableDone_kept (f : Func) (s : State) : (stateOf s (execRqDisableDone f s)).kept = s.kept := by
  simp [execRqDisableDone]

@[simp] theorem State.clearEvents_kept (s : State) (k : Cluster) (m : Nat) : (s.clearEvents k m).kept = s.kept := by
  simp [State.clearEvents]

@[simp] theorem State.updMembers_kept (s : State) (k : Cluster) (f : Cluster → ClusterEng → ClusterEng) : (s.updMembers k f).kept = s.kept := by
  simp [State.updMembers]

@[simp] theorem State.playTo_kept (s : State) (k : Cluster) (t : Int) : (s.playTo k t).kept = s.kept := by
  simp only [State.playTo]
  (repeat' split) <;> simp

@[simp] theorem State.playAll_kept (s : State) : s.playAll.kept = s.kept := by
  simp [State.playAll]

@[simp] theorem execHstEvtClr_kept (f : Func) (value : Word) (s : State) : (stateOf s (execHstEvtClr f value s)).kept = s.kept := by
  simp [execHstEvtClr]

@[simp] theorem State.diagRead_kept (s : State) (ecc : ReadEcc) : (s.diagRead ecc).2.kept = s.kept := by
  simp only [State.diagRead]
  (repeat' split) <;> simp

@[simp] theorem State.readCl_kept (s : State) (c : Cluster) (r : ClReg) : (s.readCl c r).kept = s.kept := by
  unfold State.readCl
  split <;> simp

@[simp] theorem State.afterRead_kept (s : State) (r : Reg) : (s.afterRead r).kept = s.kept := by
  unfold State.afterRead
  split <;> simp

@[simp] theorem State.hostRead_kept (s : State) (f : Func) (bar2 : Bool) (addr : BitVec 24) (width : Fin 3) : (s.hostRead f bar2 addr width).kept = s.kept := by
  unfold State.hostRead
  (repeat' split) <;> simp

@[simp] theorem execRcRegisterRead_kept (f : Func) (addr : BitVec 24) (s : State) (bar2 : Bool) (width : Fin 3) : (stateOf s (execRcRegisterRead f addr s bar2 width)).kept = s.kept := by
  simp [execRcRegisterRead]

@[simp] theorem execLatchedPairRead_kept (f : Func) (addr : BitVec 24) (s : State) (width : Fin 3) : (stateOf s (execLatchedPairRead f addr s width)).kept = s.kept := by
  simp [execLatchedPairRead]

@[simp] theorem State.writePage_kept (s : State) (f : Func) (r : PageReg) (v : Word) : (s.writePage f r v).kept = s.kept := by
  unfold State.writePage
  split <;> simp

@[simp] theorem State.setPower_kept (s : State) (p : Power) : (s.setPower p).kept = s.kept := by
  simp [State.setPower]

@[simp] theorem State.writeCl_kept (s : State) (c : Cluster) (r : ClReg) (v : Word) : (s.writeCl c r v).kept = s.kept := by
  unfold State.writeCl
  split <;> simp

@[simp] theorem execDiagEnter_kept (key : BitVec 16) (s : State) : (stateOf s (execDiagEnter key s)).kept = s.kept := by
  simp [execDiagEnter]

@[simp] theorem execDiagExit_kept (key : BitVec 16) (s : State) : (stateOf s (execDiagExit key s)).kept = s.kept := by
  simp [execDiagExit]

@[simp] theorem execDiagWindowRead_kept (ecc : ReadEcc) (s : State) : (stateOf s (execDiagWindowRead ecc s)).kept = s.kept := by
  dsimp only [execDiagWindowRead]
  split <;> simp

@[simp] theorem execI3cTransferGo_kept (ctl : Word) (s : State) : (stateOf s (execI3cTransferGo ctl s)).kept = s.kept := by
  simp [execI3cTransferGo]

@[simp] theorem execI3cTransferDone_kept (nack : Bool) (data : List Byte) (s : State) : (stateOf s (execI3cTransferDone nack data s)).kept = s.kept := by
  simp [execI3cTransferDone]

@[simp] theorem State.latchGlobal_kept (s : State) (mask : Byte) : (s.latchGlobal mask).kept = s.kept := by
  simp [State.latchGlobal]

@[simp] theorem execGlobalEventWrite_kept (value : Word) (s : State) : (stateOf s (execGlobalEventWrite value s)).kept = s.kept := by
  simp [execGlobalEventWrite]

@[simp] theorem execTestInject_kept (n : Port) (value : Word) (s : State) : (stateOf s (execTestInject n value s)).kept = s.kept := by
  simp [execTestInject]

@[simp] theorem execTopoSelect_kept (value : Word) (s : State) : (stateOf s (execTopoSelect value s)).kept = s.kept := by
  simp [execTopoSelect]

@[simp] theorem execFltHistSelect_kept (value : Word) (s : State) : (stateOf s (execFltHistSelect value s)).kept = s.kept := by
  simp [execFltHistSelect]

@[simp] theorem execFltPlogSelect_kept (value : Word) (s : State) : (stateOf s (execFltPlogSelect value s)).kept = s.kept := by
  simp [execFltPlogSelect]

@[simp] theorem execMr7Extend_kept (value : Word) (s : State) : (stateOf s (execMr7Extend value s)).kept = s.kept := by
  simp [execMr7Extend]

@[simp] theorem execNbrAttestGo_kept (value : Word) (s : State) : (stateOf s (execNbrAttestGo value s)).kept = s.kept := by
  simp [execNbrAttestGo]

@[simp] theorem State.endNbr_kept (s : State) (x : NbrStatus) : (s.endNbr x).kept = s.kept := by
  simp [State.endNbr]

@[simp] theorem execNbrAttestTimeout_kept (s : State) : (stateOf s (execNbrAttestTimeout s)).kept = s.kept := by
  unfold execNbrAttestTimeout
  split <;> simp

@[simp] theorem State.powerLoss_kept (s : State) : s.powerLoss.kept = s.kept := by
  simp [State.powerLoss]

@[simp] theorem State.loadCal_kept (s : State) : s.loadCal.kept = s.kept := by
  unfold State.loadCal
  split <;> simp

@[simp] theorem State.boot_kept (s : State) (slot : Fin 2) (fromTry hbmOk : Bool) (chips : BitVec 96) : (s.boot slot fromTry hbmOk chips).kept = s.kept := by
  unfold State.boot
  split <;> simp

@[simp] theorem State.forceTargets_kept (s : State) : s.forceTargets.kept = s.kept := by
  unfold State.forceTargets
  exact State.kept_foldl _ _ _ fun _ _ => rfl

@[simp] theorem execBootComplete_kept (s : State) : (stateOf s (execBootComplete s)).kept = s.kept := by
  unfold execBootComplete
  split <;> simp

@[simp] theorem execRefclkReturn_kept (s : State) : (stateOf s (execRefclkReturn s)).kept = s.kept := by
  simp [execRefclkReturn]

@[simp] theorem State.latchEvt_kept (s : State) (c : Cluster) (line : Fin 2) : (s.latchEvt c line).kept = s.kept := by
  simp [State.latchEvt]

@[simp] theorem execEvtEdge_kept (c : Cluster) (line : Fin 2) (falling : Bool) (width : Nat) (s : State) : (stateOf s (execEvtEdge c line falling width s)).kept = s.kept := by
  simp [execEvtEdge]

@[simp] theorem State.noteLevel_kept (s : State) (k : Cluster) : (s.noteLevel k).kept = s.kept := by
  simp [State.noteLevel]

@[simp] theorem State.advanceNet_kept (s : State) (t : Int) : (s.advanceNet t).kept = s.kept := by
  simp [State.advanceNet]

@[simp] theorem State.sendVote_kept (s : State) (k : Cluster) (desc : BitVec 16) (ready levelDrop : Bool) (sched : Int) : (s.sendVote k desc ready levelDrop sched).kept = s.kept := by
  simp [State.sendVote]

@[simp] theorem State.schedulePost_kept (s : State) (i : Item) : (s.schedulePost i).kept = s.kept := by
  simp [State.schedulePost]

@[simp] theorem State.skipBurst_kept (s : State) (k : Cluster) (seq : BitVec 16) : (s.skipBurst k seq).kept = s.kept := by
  simp [State.skipBurst]

@[simp] theorem execVoteCount_kept (k : Cluster) (s : State) : (stateOf s (execVoteCount k s)).kept = s.kept := by
  unfold execVoteCount
  (repeat' split) <;> simp

@[simp] theorem State.startPlay_kept (s : State) (k : Cluster) (i : Nat) (t : Int) (va : Nat) (belay firstPlay : Bool) : (s.startPlay k i t va belay firstPlay).kept = s.kept := by
  unfold State.startPlay
  split <;> simp

@[simp] theorem State.noteUnderrun_kept (s : State) (k : Cluster) (a : Nat) (stream : Fin 24) : (s.noteUnderrun k a stream).kept = s.kept := by
  simp [State.noteUnderrun]

@[simp] theorem State.startBurst_kept (s : State) (k : Cluster) (a : Armed) (i : Nat) : (s.startBurst k a i).kept = s.kept := by
  simp only [State.startBurst]
  (repeat' split) <;> simp

@[simp] theorem execFirstVector_kept (k : Cluster) (s : State) : (stateOf s (execFirstVector k s)).kept = s.kept := by
  unfold execFirstVector
  (repeat' split) <;> simp

@[simp] theorem State.unstage_kept (s : State) (c : Cluster) (id : Word) (n : Nat) : (s.unstage c id n).kept = s.kept := by
  unfold State.unstage
  split <;> simp

@[simp] theorem State.consumeInst_kept (s : State) (k : Cluster) (i : Nat) : (s.consumeInst k i).kept = s.kept := by
  unfold State.consumeInst
  split <;> simp

@[simp] theorem State.markNext_kept (s : State) (k : Cluster) (bit : Nat) : (s.markNext k bit).kept = s.kept := by
  simp [State.markNext]

@[simp] theorem execSegmentStart_kept (k : Cluster) (s : State) : (stateOf s (execSegmentStart k s)).kept = s.kept := by
  simp only [execSegmentStart]
  (repeat' split) <;> simp

@[simp] theorem execTrigPulseEnd_kept (c : Cluster) (output : Fin 2) (s : State) : (stateOf s (execTrigPulseEnd c output s)).kept = s.kept := by
  dsimp only [execTrigPulseEnd]
  split <;> simp

@[simp] theorem State.stopHere_kept (s : State) (k : Cluster) (d : Int) : (s.stopHere k d).1.kept = s.kept := by
  unfold State.stopHere
  split <;> simp

@[simp] theorem State.fix_kept (s : State) (k : Cluster) (x : Succ) : (s.fix k x).kept = s.kept := by
  simp [State.fix]

@[simp] theorem State.belayDecision_kept (s : State) (k : Cluster) (b : Belay) (d : Int) : (s.belayDecision k b d).kept = s.kept := by
  simp [State.belayDecision]

@[simp] theorem State.consume_kept (s : State) (k : Cluster) (c : Cond) (par : Nat) (d : Int) : (s.consume k c par d).kept = s.kept := by
  unfold State.consume
  split <;> simp

@[simp] theorem State.signal_kept (s : State) (k : Cluster) (p : Play) (e : Entry) (vaddr : Nat) : (s.signal k p e vaddr).kept = s.kept := by
  simp [State.signal]

@[simp] theorem State.sendCond_kept (s : State) (k : Cluster) (entry : Nat) (v : Bool) : (s.sendCond k entry v).kept = s.kept := by
  simp [State.sendCond]

@[simp] theorem State.underrun_kept (s : State) (k : Cluster) (p : Play) (j : Nat) (d : Int) : (s.underrun k p j d).kept = s.kept := by
  simp [State.underrun]

@[simp] theorem State.settleDecision_kept (s : State) (k : Cluster) (p : Play) (e : Entry) (v halt : Bool) (d : Int) : (s.settleDecision k p e v halt d).kept = s.kept := by
  dsimp only [State.settleDecision]
  split <;> simp

@[simp] theorem State.decideAt_kept (s : State) (k : Cluster) (p : Play) (e : Entry) (d : Int) (vaddr : Nat) : (s.decideAt k p e d vaddr).kept = s.kept := by
  simp [State.decideAt]

@[simp] theorem execDecisionPoint_kept (k : Cluster) (s : State) : (stateOf s (execDecisionPoint k s)).kept = s.kept := by
  simp only [execDecisionPoint]
  (repeat' split) <;> simp

@[simp] theorem execSiteCondResolve_kept (k : Cluster) (s : State) : (stateOf s (execSiteCondResolve k s)).kept = s.kept := by
  unfold execSiteCondResolve
  (repeat' split) <;> simp

@[simp] theorem execAbortBoundary_kept (k : Cluster) (s : State) : (stateOf s (execAbortBoundary k s)).kept = s.kept := by
  simp only [execAbortBoundary]
  (repeat' split) <;> simp

@[simp] theorem execSelectionRead_kept (k : Cluster) (s : State) : (stateOf s (execSelectionRead k s)).kept = s.kept := by
  simp only [execSelectionRead]
  (repeat' split) <;> simp

@[simp] theorem State.rechainFrom_kept (s : State) (k : Cluster) : (s.rechainFrom k).kept = s.kept := by
  simp [State.rechainFrom]

@[simp] theorem execChainedStart_kept (k : Cluster) (s : State) : (stateOf s (execChainedStart k s)).kept = s.kept := by
  unfold execChainedStart
  (repeat' split) <;> simp

@[simp] theorem execChainTimeout_kept (k : Cluster) (s : State) : (stateOf s (execChainTimeout k s)).kept = s.kept := by
  unfold execChainTimeout
  split <;> simp

@[simp] theorem State.settleStall_kept (s : State) (k : Cluster) (t : Int) : (s.settleStall k t).kept = s.kept := by
  unfold State.settleStall
  split <;> simp

@[simp] theorem execStallExit_kept (k : Cluster) (s : State) : (stateOf s (execStallExit k s)).kept = s.kept := by
  dsimp only [execStallExit]
  split <;> simp

@[simp] theorem execStreamTimeout_kept (k : Cluster) (s : State) : (stateOf s (execStreamTimeout k s)).kept = s.kept := by
  dsimp only [execStreamTimeout]
  split <;> simp

@[simp] theorem State.playThrough_kept (s : State) (k : Cluster) (vaddr : Nat) : (s.playThrough k vaddr).kept = s.kept := by
  unfold State.playThrough
  split <;> simp

@[simp] theorem State.afterCap_kept (s : State) (c : Cluster) (f : Capture → Capture) : (s.afterCap c f).kept = s.kept := by
  simp [State.afterCap]

@[simp] theorem execCompareComplete_kept (c : Cluster) (vaddr : Nat) (pins : Byte) (waves : Vector PortWave 8) (s : State) : (stateOf s (execCompareComplete c vaddr pins waves s)).kept = s.kept := by
  dsimp only [execCompareComplete]
  split <;> simp

@[simp] theorem execDropEnd_kept (c : Cluster) (s : State) : (stateOf s (execDropEnd c s)).kept = s.kept := by
  simp [execDropEnd]

@[simp] theorem execPeriodicCairn_kept (c : Cluster) (s : State) : (stateOf s (execPeriodicCairn c s)).kept = s.kept := by
  simp [execPeriodicCairn]

@[simp] theorem execCaptureBlockClose_kept (c : Cluster) (s : State) : (stateOf s (execCaptureBlockClose c s)).kept = s.kept := by
  unfold execCaptureBlockClose
  split <;> simp

@[simp] theorem State.peek_kept (s : State) (k : Cluster) (t : Int) : (s.peek k t).kept = s.kept := by
  dsimp only [State.peek]
  split <;> simp

@[simp] theorem State.acqEvent_kept (s : State) (c : Cluster) (event : AcqEvent) : (s.acqEvent c event).kept = s.kept := by
  simp only [State.acqEvent]
  (repeat' split) <;> simp

@[simp] theorem execAcqTrigger_kept (c : Cluster) (event : AcqEvent) (s : State) : (stateOf s (execAcqTrigger c event s)).kept = s.kept := by
  simp [execAcqTrigger]

@[simp] theorem execAcqAutoExpire_kept (c : Cluster) (s : State) : (stateOf s (execAcqAutoExpire c s)).kept = s.kept := by
  simp only [execAcqAutoExpire]
  (repeat' split) <;> simp

@[simp] theorem execAcqComplete_kept (c : Cluster) (s : State) : (stateOf s (execAcqComplete c s)).kept = s.kept := by
  dsimp only [execAcqComplete]
  split <;> simp

@[simp] theorem State.updChan_kept (s : State) (c : Cluster) (k : Lane) (f : TdcChan → TdcChan) : (s.updChan c k f).kept = s.kept := by
  simp [State.updChan]

@[simp] theorem State.pairStamp_kept (s : State) (pin : Nat) (t : Int) : (s.pairStamp pin t).kept = s.kept := by
  simp [State.pairStamp]

@[simp] theorem State.stampEdge_kept (s : State) (c : Cluster) (k : Lane) (falling bnd : Bool) (by_ : Nat) (t : Int) : (s.stampEdge c k falling bnd by_ t).kept = s.kept := by
  simp [State.stampEdge]

@[simp] theorem execTdcEdge_kept (pin : Pin) (tick : Int) (code : Fin 65) (falling : Bool) (s : State) : (stateOf s (execTdcEdge pin tick code falling s)).kept = s.kept := by
  simp only [execTdcEdge]
  (repeat' split) <;> simp

@[simp] theorem execTdcLossResume_kept (pin : Pin) (s : State) : (stateOf s (execTdcLossResume pin s)).kept = s.kept := by
  simp [execTdcLossResume]

@[simp] theorem execStampBlockClose_kept (c : Cluster) (s : State) : (stateOf s (execStampBlockClose c s)).kept = s.kept := by
  unfold execStampBlockClose
  split <;> simp

@[simp] theorem execGapCairn_kept (c : Cluster) (s : State) : (stateOf s (execGapCairn c s)).kept = s.kept := by
  simp [execGapCairn]

@[simp] theorem State.stageSet_kept (s : State) (c : Cluster) (t : Coeffs) : (s.stageSet c t).kept = s.kept := by
  simp [State.stageSet]

@[simp] theorem State.retarget_kept (s : State) (c : Cluster) (commanded : Bool) : (s.retarget c commanded).kept = s.kept := by
  simp [State.retarget]

@[simp] theorem State.rejectCal_kept (s : State) (c : Cluster) (cause : BitVec 10) : (s.rejectCal c cause).kept = s.kept := by
  simp [State.rejectCal]

@[simp] theorem execCodeDensityDone_kept (c : Cluster) (route : Fin 12) (hits : List Nat) (s : State) : (stateOf s (execCodeDensityDone c route hits s)).kept = s.kept := by
  simp [execCodeDensityDone]

@[simp] theorem State.railsTo_kept (s : State) (c : Cluster) (t : Int) : (s.railsTo c t).kept = s.kept := by
  simp [State.railsTo]

@[simp] theorem execSlewMove_kept (c : Cluster) (r : Lane) (s : State) : (stateOf s (execSlewMove c r s)).kept = s.kept := by
  dsimp only [execSlewMove]
  split <;> simp

@[simp] theorem execRangeSwitchDone_kept (c : Cluster) (r : Lane) (s : State) : (stateOf s (execRangeSwitchDone c r s)).kept = s.kept := by
  unfold execRangeSwitchDone
  split <;> simp

@[simp] theorem State.updRail_kept (s : State) (c : Cluster) (r : Lane) (f : Rail → Rail) : (s.updRail c r f).kept = s.kept := by
  simp [State.updRail]

@[simp] theorem State.portGrant_kept (s : State) (r : PortReq) : (s.portGrant r).kept = s.kept := by
  simp [State.portGrant]

@[simp] theorem State.updIn_kept (s : State) (i : Fin 24) (f : InStream → InStream) : (s.updIn i f).kept = s.kept := by
  simp [State.updIn]

@[simp] theorem State.rejectBlock_kept (s : State) (owner : Cluster) (h : BlkHdr) (check : Nat) : (s.rejectBlock owner h check).kept = s.kept := by
  unfold State.rejectBlock
  split <;> simp

@[simp] theorem State.acceptBlock_kept (s : State) (i : Fin 24) (h : BlkHdr) (b : Body) : (s.acceptBlock i h b).kept = s.kept := by
  simp [State.acceptBlock]

@[simp] theorem State.completeDesc_kept (s : State) (base : BitVec 64) (slot done status : Nat) : (s.completeDesc base slot done status).kept = s.kept := by
  simp [State.completeDesc]

@[simp] theorem State.completeIn_kept (s : State) (i : Fin 24) : (s.completeIn i).kept = s.kept := by
  dsimp only [State.completeIn]
  split <;> simp

@[simp] theorem execBlockEntry_kept (i : Fin 24) (b : List Byte) (s : State) : (stateOf s (execBlockEntry i b s)).kept = s.kept := by
  simp only [execBlockEntry]
  (repeat' split) <;> simp

@[simp] theorem State.afterOut_kept (s : State) (i : Fin 24) : (s.afterOut i).kept = s.kept := by
  simp [State.afterOut]

@[simp] theorem State.updOut_kept (s : State) (i : Fin 24) (f : OutStream → OutStream) : (s.updOut i f).kept = s.kept := by
  simp [State.updOut]

@[simp] theorem State.reclaimed_kept (s : State) (i : Fin 24) (inHand : Nat) : (s.reclaimed i inHand).kept = s.kept := by
  simp [State.reclaimed]

@[simp] theorem State.completeOut_kept (s : State) (i : Fin 24) : (s.completeOut i).kept = s.kept := by
  dsimp only [State.completeOut]
  split <;> simp

@[simp] theorem execOutboundBlockWrite_kept (i : Fin 24) (own : Bool) (gen : BitVec 16) (ownAfter : Bool) (genAfter : BitVec 16) (s : State) : (stateOf s (execOutboundBlockWrite i own gen ownAfter genAfter s)).kept = s.kept := by
  dsimp only [execOutboundBlockWrite]
  split <;> simp

@[simp] theorem execOutboundPartialTimeout_kept (i : Fin 24) (ownAfter : Bool) (genAfter : BitVec 16) (s : State) : (stateOf s (execOutboundPartialTimeout i ownAfter genAfter s)).kept = s.kept := by
  unfold execOutboundPartialTimeout
  split <;> simp

@[simp] theorem execEccCe_kept (word : Word) (s : State) : (stateOf s (execEccCe word s)).kept = s.kept := by
  simp [execEccCe]

@[simp] theorem State.abortDamaged_kept (s : State) (k : Cluster) : (s.abortDamaged k).kept = s.kept := by
  simp [State.abortDamaged]

@[simp] theorem execEccUe_kept (word : Word) (t : UeTarget) (s : State) : (stateOf s (execEccUe word t s)).kept = s.kept := by
  unfold execEccUe
  (repeat' split) <;> simp

@[simp] theorem execHbmScrub_kept (s : State) : (stateOf s (execHbmScrub s)).kept = s.kept := by
  simp [execHbmScrub]

@[simp] theorem execHbmSrEntry_kept (s : State) : (stateOf s (execHbmSrEntry s)).kept = s.kept := by
  simp [execHbmSrEntry]

@[simp] theorem State.settleCycle_kept (s : State) : s.settleCycle.kept = s.kept := by
  simp [State.settleCycle]

@[simp] theorem State.startCore_kept (s : State) (c : Fin 16) : (s.startCore c).kept = s.kept := by
  dsimp only [State.startCore]
  split <;> simp

@[simp] theorem execItemDispatch_kept (s : State) : (stateOf s (execItemDispatch s)).kept = s.kept := by
  simp [execItemDispatch]

@[simp] theorem State.setProc_kept (s : State) (n : Nat) (p : Option Proc) : (s.setProc n p).kept = s.kept := by
  simp [State.setProc]

@[simp] theorem State.searchStep_kept (s : State) (r : Running) (p : Search) : (s.searchStep r p).1.kept = s.kept := by
  simp only [State.searchStep]
  (repeat' split) <;> simp

@[simp] theorem State.runSearch_kept (s : State) (r : Running) : (s.runSearch r).1.kept = s.kept := by
  simp only [State.runSearch]
  (repeat' split) <;> simp

@[simp] theorem State.measure_kept (s : State) (p : Trim) (i : Item) : (s.measure p i).2.kept = s.kept := by
  unfold State.measure
  split <;> simp

@[simp] theorem State.runTrim_kept (s : State) (r : Running) : (s.runTrim r).1.kept = s.kept := by
  simp only [State.runTrim]
  (repeat' split) <;> simp

@[simp] theorem State.writeReduced_kept (s : State) (p : Reduce) (out : List Byte) : (s.writeReduced p out).kept = s.kept := by
  simp [State.writeReduced]

@[simp] theorem State.runReduce_kept (s : State) (r : Running) : (s.runReduce r).1.kept = s.kept := by
  simp only [State.runReduce]
  (repeat' split) <;> simp

@[simp] theorem State.evaluate_kept (s : State) (r : Running) (env : RuleEnv) : (s.evaluate r env).1.kept = s.kept := by
  simp only [State.evaluate]
  (repeat' split) <;> simp

@[simp] theorem State.freeCore_kept (s : State) (c : Fin 16) (r : Running) : (s.freeCore c r).kept = s.kept := by
  simp [State.freeCore]

@[simp] theorem State.writeFlags_kept (s : State) (k : Cluster) (i : Item) (sc : BitVec 32) (sel : Option (Fin 4)) : (s.writeFlags k i sc sel).kept = s.kept := by
  unfold State.writeFlags
  split <;> simp

@[simp] theorem State.sendActions_kept (s : State) (r : Running) (w : Work) : (s.sendActions r w).kept = s.kept := by
  simp [State.sendActions]

@[simp] theorem State.applyEnd_kept (s : State) (r : Running) (e : ItemEnd) : (s.applyEnd r e).kept = s.kept := by
  simp only [State.applyEnd]
  (repeat' split) <;> simp

@[simp] theorem execItemComplete_kept (c : Fin 16) (s : State) : (stateOf s (execItemComplete c s)).kept = s.kept := by
  unfold execItemComplete
  split <;> simp

@[simp] theorem execWatchdog_kept (c : Fin 16) (s : State) : (stateOf s (execWatchdog c s)).kept = s.kept := by
  unfold execWatchdog
  split <;> simp

@[simp] theorem State.endWindow_kept (s : State) : s.endWindow.kept = s.kept := by
  simp [State.endWindow]

@[simp] theorem execSchedSample_kept (window : Bool) (s : State) : (stateOf s (execSchedSample window s)).kept = s.kept := by
  simp [execSchedSample]

@[simp] theorem State.rewrite_kept (s : State) (f : Func) : (s.rewrite f).kept = s.kept := by
  simp [State.rewrite]

@[simp] theorem execMirrorRewrite_kept (f : Func) (s : State) : (stateOf s (execMirrorRewrite f s)).kept = s.kept := by
  simp [execMirrorRewrite]

@[simp] theorem State.receive_kept (s : State) (n : Port) (ctype : Byte) (fr : Frame) (f : State → State) (hf : ∀ s, (f s).kept = s.kept) :
    (s.receive n ctype fr f).kept = s.kept := by
  simp [State.receive, hf]

@[simp] theorem execTimeReq_kept (n : Port) (fr : Frame) (turn : BitVec 24) (s : State) : (stateOf s (execTimeReq n fr turn s)).kept = s.kept := by
  simp [execTimeReq]

@[simp] theorem State.estimate_kept (s : State) (theta : Int) : (s.estimate theta).kept = s.kept := by
  simp [State.estimate]

@[simp] theorem State.exchange_kept (s : State) (twice : Int) : (s.exchange twice).kept = s.kept := by
  simp [State.exchange]

@[simp] theorem execTimeResp_kept (n : Port) (fr : Frame) (elapsed : Nat) (s : State) : (stateOf s (execTimeResp n fr elapsed s)).kept = s.kept := by
  unfold execTimeResp
  split <;> simp

@[simp] theorem execTimeReqTimer_kept (s : State) : (stateOf s (execTimeReqTimer s)).kept = s.kept := by
  simp only [execTimeReqTimer]
  (repeat' split) <;> simp

@[simp] theorem execTimeRespTimeout_kept (s : State) : (stateOf s (execTimeRespTimeout s)).kept = s.kept := by
  unfold execTimeRespTimeout
  split <;> simp

@[simp] theorem execPtmDialog_kept (t1 t4 master delay : Int) (s : State) : (stateOf s (execPtmDialog t1 t4 master delay s)).kept = s.kept := by
  simp [execPtmDialog]

@[simp] theorem execTimeSlewStep_kept (s : State) : (stateOf s (execTimeSlewStep s)).kept = s.kept := by
  simp [execTimeSlewStep]

@[simp] theorem execTimeHoldover_kept (s : State) : (stateOf s (execTimeHoldover s)).kept = s.kept := by
  simp only [execTimeHoldover]
  (repeat' split) <;> simp

theorem State.takeMsg_kept (s : State) (n : Port) (ctype : Byte) (fr : Frame) (m : InMsg) (t : State) (h : s.takeMsg n ctype fr = some (m, t)) :
    t.kept = s.kept := by
  obtain ⟨x, -, e⟩ := Option.map_eq_some_iff.1 h
  obtain ⟨-, rfl⟩ := Prod.mk.inj e
  exact s.kept_mk ..

@[simp] theorem State.onMsg_kept (s : State) (n : Port) (ctype : Byte) (fr : Frame) (f : InMsg → State → State)
    (hf : ∀ m s, (f m s).kept = s.kept) : (s.onMsg n ctype fr f).kept = s.kept := by
  unfold State.onMsg
  split
  · rfl
  · next h => rw [hf, s.takeMsg_kept _ _ _ _ _ h]

@[simp] theorem execSiteCond_kept (n : Port) (fr : Frame) (s : State) : (stateOf s (execSiteCond n fr s)).kept = s.kept := by
  simp [execSiteCond]

@[simp] theorem execSiteVote_kept (n : Port) (fr : Frame) (s : State) : (stateOf s (execSiteVote n fr s)).kept = s.kept := by
  simp [execSiteVote]

@[simp] theorem execSiteAbort_kept (n : Port) (fr : Frame) (s : State) : (stateOf s (execSiteAbort n fr s)).kept = s.kept := by
  simp [execSiteAbort]

@[simp] theorem execTrig_kept (n : Port) (fr : Frame) (s : State) : (stateOf s (execTrig n fr s)).kept = s.kept := by
  simp [execTrig]

@[simp] theorem execGevt_kept (n : Port) (fr : Frame) (s : State) : (stateOf s (execGevt n fr s)).kept = s.kept := by
  simp [execGevt]

@[simp] theorem State.deliver_kept (s : State) (n : Port) (ctype : Byte) (fr : Frame) : (s.deliver n ctype fr).kept = s.kept := by
  simp [State.deliver]

@[simp] theorem execFrameDelivery_kept (n : Port) (ctype : Byte) (fr : Frame) (atTick : Int) (s : State) : (stateOf s (execFrameDelivery n ctype fr atTick s)).kept = s.kept := by
  simp [execFrameDelivery]

@[simp] theorem State.rise_kept (s : State) (n : Port) (was : PortState) : (s.rise n was).kept = s.kept := by
  simp [State.rise]

@[simp] theorem State.meet_kept (s : State) (n : Port) (fr : Frame) : (s.meet n fr).kept = s.kept := by
  simp [State.meet]

@[simp] theorem execIdent_kept (n : Port) (fr : Frame) (s : State) : (stateOf s (execIdent n fr s)).kept = s.kept := by
  simp [execIdent]

@[simp] theorem State.sendIdent_kept (s : State) (n : Port) : (s.sendIdent n).kept = s.kept := by
  simp [State.sendIdent]

@[simp] theorem execIdentTimer_kept (n : Port) (s : State) : (stateOf s (execIdentTimer n s)).kept = s.kept := by
  simp [execIdentTimer]

@[simp] theorem execTrainReq_kept (n : Port) (fr : Frame) (s : State) : (stateOf s (execTrainReq n fr s)).kept = s.kept := by
  simp [execTrainReq]

@[simp] theorem execTrainSts_kept (n : Port) (fr : Frame) (s : State) : (stateOf s (execTrainSts n fr s)).kept = s.kept := by
  simp [execTrainSts]

@[simp] theorem State.askBest_kept (s : State) (n : Port) (t : Training) : (s.askBest n t).kept = s.kept := by
  simp [State.askBest]

@[simp] theorem State.probe_kept (s : State) (n : Port) : (s.probe n).kept = s.kept := by
  simp [State.probe]

@[simp] theorem execTrainEnd_kept (n : Port) (temp : BitVec 8) (asym : Word) (s : State) : (stateOf s (execTrainEnd n temp asym s)).kept = s.kept := by
  unfold execTrainEnd
  split <;> simp

@[simp] theorem execTrainFailRetry_kept (n : Port) (s : State) : (stateOf s (execTrainFailRetry n s)).kept = s.kept := by
  unfold execTrainFailRetry
  split <;> simp

@[simp] theorem execAlignProbe_kept (n : Port) (fr : Frame) (turn : BitVec 64) (s : State) : (stateOf s (execAlignProbe n fr turn s)).kept = s.kept := by
  simp [execAlignProbe]

@[simp] theorem execAlignEcho_kept (n : Port) (fr : Frame) (roundTrip : Nat) (s : State) : (stateOf s (execAlignEcho n fr roundTrip s)).kept = s.kept := by
  simp [execAlignEcho]

@[simp] theorem execLinkDetect_kept (n : Port) (s : State) : (stateOf s (execLinkDetect n s)).kept = s.kept := by
  simp [execLinkDetect]

@[simp] theorem execLossOfLock_kept (n : Port) (s : State) : (stateOf s (execLossOfLock n s)).kept = s.kept := by
  simp [execLossOfLock]

@[simp] theorem State.enterIdle_kept (s : State) (n : Port) : (s.enterIdle n).kept = s.kept := by
  simp [State.enterIdle]

@[simp] theorem execIdleEntry_kept (n : Port) (s : State) : (stateOf s (execIdleEntry n s)).kept = s.kept := by
  simp [execIdleEntry]

@[simp] theorem execIdleNotice_kept (n : Port) (fr : Frame) (s : State) : (stateOf s (execIdleNotice n fr s)).kept = s.kept := by
  simp [execIdleNotice]

@[simp] theorem execIdleExit_kept (n : Port) (s : State) : (stateOf s (execIdleExit n s)).kept = s.kept := by
  simp [execIdleExit]

@[simp] theorem execTopoAgeOut_kept (i : Fin 64) (s : State) : (stateOf s (execTopoAgeOut i s)).kept = s.kept := by
  unfold execTopoAgeOut
  (repeat' split) <;> simp

@[simp] theorem execLoopReq_kept (n : Port) (fr : Frame) (s : State) : (stateOf s (execLoopReq n fr s)).kept = s.kept := by
  simp [execLoopReq]

@[simp] theorem execLoopAck_kept (n : Port) (fr : Frame) (s : State) : (stateOf s (execLoopAck n fr s)).kept = s.kept := by
  simp [execLoopAck]

@[simp] theorem execTestEnd_kept (n : Port) (s : State) : (stateOf s (execTestEnd n s)).kept = s.kept := by
  unfold execTestEnd
  split <;> simp

@[simp] theorem execAttNonceLo_kept (n : Port) (fr : Frame) (s : State) : (stateOf s (execAttNonceLo n fr s)).kept = s.kept := by
  simp [execAttNonceLo]

@[simp] theorem State.sendChunks_kept (s : State) (n : Port) (report : List Byte) (ks : List Nat) : (s.sendChunks n report ks).kept = s.kept := by
  simp [State.sendChunks]

@[simp] theorem State.answerNbr_kept (s : State) (n : Port) (nonce : List Byte) : (s.answerNbr n nonce).kept = s.kept := by
  simp [State.answerNbr]

@[simp] theorem execAttNonceHi_kept (n : Port) (fr : Frame) (s : State) : (stateOf s (execAttNonceHi n fr s)).kept = s.kept := by
  rw [execAttNonceHi, stateOf_next]
  refine s.receive_kept _ _ _ _ fun s => ?_
  split <;> simp

@[simp] theorem State.judgeNbr_kept (s : State) (q : NbrRequest) : (s.judgeNbr q).kept = s.kept := by
  simp [State.judgeNbr]

@[simp] theorem State.pursueNbr_kept (s : State) (q : NbrRequest) : (s.pursueNbr q).kept = s.kept := by
  dsimp only [State.pursueNbr]
  split
  · exact s.judgeNbr_kept q
  · split
    · exact s.endNbr_kept _
    · rw [State.sendOn_kept, State.kept_mk]

@[simp] theorem execAttData_kept (n : Port) (fr : Frame) (s : State) : (stateOf s (execAttData n fr s)).kept = s.kept := by
  rw [execAttData, stateOf_next]
  refine s.receive_kept _ _ _ _ fun s => ?_
  split
  · rfl
  · simp

@[simp] theorem execAttEnd_kept (n : Port) (fr : Frame) (s : State) : (stateOf s (execAttEnd n fr s)).kept = s.kept := by
  rw [execAttEnd, stateOf_next]
  refine s.receive_kept _ _ _ _ fun s => ?_
  split
  · rfl
  · simp

@[simp] theorem execAttResend_kept (n : Port) (fr : Frame) (s : State) : (stateOf s (execAttResend n fr s)).kept = s.kept := by
  simp [execAttResend]

@[simp] theorem State.startTdc_kept (s : State) (c : Cluster) (i : Lane) : (s.startTdc c i).kept = s.kept := by
  dsimp only [State.startTdc]
  split <;> simp

@[simp] theorem State.startRun_kept (s : State) (c : Cluster) (k : CalKind) : (s.startRun c k).kept = s.kept := by
  simp [State.startRun]

@[simp] theorem execCalBackgroundRun_kept (c : Cluster) (k : CalKind) (s : State) : (stateOf s (execCalBackgroundRun c k s)).kept = s.kept := by
  simp [execCalBackgroundRun]

@[simp] theorem State.beginKind_kept (s : State) (c : Cluster) : (s.beginKind c).kept = s.kept := by
  simp [State.beginKind]

@[simp] theorem State.acceptRun_kept (s : State) (c : Cluster) (k : CalKind) (v d : Coeffs) : (s.acceptRun c k v d).kept = s.kept := by
  simp [State.acceptRun]

@[simp] theorem State.endCommanded_kept (s : State) (c : Cluster) (k : CalKind) (r : CalResult) : (s.endCommanded c k r).kept = s.kept := by
  cases k <;> dsimp only [State.endCommanded] <;> split <;> (try split) <;> simp

@[simp] theorem State.endBackground_kept (s : State) (c : Cluster) (k : CalKind) (r : CalResult) : (s.endBackground c k r).kept = s.kept := by
  simp [State.endBackground]

@[simp] theorem execCalRunComplete_kept (c : Cluster) (k : CalKind) (commanded : Bool) (r : CalResult) (s : State) : (stateOf s (execCalRunComplete c k commanded r s)).kept = s.kept := by
  simp [execCalRunComplete]

@[simp] theorem execCalTargetRecompute_kept (c : Cluster) (s : State) : (stateOf s (execCalTargetRecompute c s)).kept = s.kept := by
  simp [execCalTargetRecompute]

@[simp] theorem execCalStale_kept (c : Cluster) (s : State) : (stateOf s (execCalStale c s)).kept = s.kept := by
  simp [execCalStale]

@[simp] theorem execCalTinEdge_kept (gap : Nat) (s : State) : (stateOf s (execCalTinEdge gap s)).kept = s.kept := by
  simp [execCalTinEdge]

@[simp] theorem execCalTinLoss_kept (s : State) : (stateOf s (execCalTinLoss s)).kept = s.kept := by
  simp [execCalTinLoss]

@[simp] theorem State.pastCycle_kept (s : State) : s.pastCycle.kept = s.kept := by
  simp [State.pastCycle]

@[simp] theorem execPlogWrite_kept (s : State) : (stateOf s (execPlogWrite s)).kept = s.kept := by
  dsimp only [execPlogWrite]
  split <;> simp

@[simp] theorem State.updPwr_kept (s : State) (c : Cluster) (f : PwrCl → PwrCl) : (s.updPwr c f).kept = s.kept := by
  simp [State.updPwr]

@[simp] theorem State.dropRuns_kept (s : State) (c : Cluster) : (s.dropRuns c).kept = s.kept := by
  simp [State.dropRuns]

@[simp] theorem execPowerStateEntry_kept (c : Cluster) (s : State) : (stateOf s (execPowerStateEntry c s)).kept = s.kept := by
  simp [execPowerStateEntry]

@[simp] theorem State.beginExit_kept (s : State) (c : Cluster) (goal : Nat) : (s.beginExit c goal).kept = s.kept := by
  simp [State.beginExit]

@[simp] theorem State.entered_kept (s : State) (c : Cluster) : (s.entered c).kept = s.kept := by
  simp [State.entered]

@[simp] theorem execPowerStateExit_kept (c : Cluster) (s : State) : (stateOf s (execPowerStateExit c s)).kept = s.kept := by
  simp [execPowerStateExit]

@[simp] theorem State.wake_kept (s : State) (c : Cluster) (was : Nat) : (s.wake c was).kept = s.kept := by
  simp [State.wake]

@[simp] theorem State.leaveL12_kept (s : State) : s.leaveL12.kept = s.kept := by
  simp [State.leaveL12]

@[simp] theorem State.enterL1_kept (s : State) (x : LinkState) : (s.enterL1 x).kept = s.kept := by
  simp [State.enterL1]

@[simp] theorem execLinkL1Entry_kept (l12 : Bool) (s : State) : (stateOf s (execLinkL1Entry l12 s)).kept = s.kept := by
  simp [execLinkL1Entry]

@[simp] theorem execTreeGenerated_kept (s : State) : (stateOf s (execTreeGenerated s)).kept = s.kept := by
  unfold execTreeGenerated
  split <;> simp

@[simp] theorem execAliveToggle_kept (s : State) : (stateOf s (execAliveToggle s)).kept = s.kept := by
  simp [execAliveToggle]

@[simp] theorem execPtmDialogStart_kept (s : State) : (stateOf s (execPtmDialogStart s)).kept = s.kept := by
  simp [execPtmDialogStart]

@[simp] theorem execTrainReqTimer_kept (n : Port) (pre main post : Fin 4) (metric : Byte) (s : State) : (stateOf s (execTrainReqTimer n pre main post metric s)).kept = s.kept := by
  unfold execTrainReqTimer
  split <;> simp

@[simp] theorem execCheckerLock_kept (n : Port) (s : State) (received : List Bool) : (stateOf s (execCheckerLock n s received)).kept = s.kept := by
  simp [execCheckerLock]

@[simp] theorem execCheckerLockLoss_kept (n : Port) (bits errs : Nat) (s : State) : (stateOf s (execCheckerLockLoss n bits errs s)).kept = s.kept := by
  simp [execCheckerLockLoss]

@[simp] theorem execTestFirstInjection_kept (n : Port) (s : State) : (stateOf s (execTestFirstInjection n s)).kept = s.kept := by
  unfold execTestFirstInjection
  split <;> simp

@[simp] theorem execBlockHbmRelease_kept (c : Cluster) (s : State) : (stateOf s (execBlockHbmRelease c s)).kept = s.kept := by
  dsimp only [execBlockHbmRelease]
  split <;> simp

@[simp] theorem execSupplyInRange_kept (rail : Byte) (s : State) : (stateOf s (execSupplyInRange rail s)).kept = s.kept := by
  simp [execSupplyInRange]

@[simp] theorem execThermTripClear_kept (c : Cluster) (s : State) : (stateOf s (execThermTripClear c s)).kept = s.kept := by
  simp [execThermTripClear]

@[simp] theorem execCurrentLimitRelease_kept (c : Cluster) (r : Lane) (s : State) : (stateOf s (execCurrentLimitRelease c r s)).kept = s.kept := by
  simp [execCurrentLimitRelease]

@[simp] theorem execPcieErr_kept (f : Func) (status : BitVec 16) (s : State) : (stateOf s (execPcieErr f status s)).kept = s.kept := by
  simp [execPcieErr]

@[simp] theorem execPorstDeassert_kept (straps : BitVec 4) (s : State) : (stateOf s (execPorstDeassert straps s)).kept = s.kept := by
  simp [execPorstDeassert]

@[simp] theorem execConfigSpaceWrite_kept (w : ConfigWrite) (s : State) : (stateOf s (execConfigSpaceWrite w s)).kept = s.kept := by
  unfold execConfigSpaceWrite
  (repeat' split) <;> simp

@[simp] theorem execPcieLinkChange_kept (state : LinkState) (speed width : BitVec 4) (flit : Bool) (s : State) : (stateOf s (execPcieLinkChange state speed width flit s)).kept = s.kept := by
  unfold execPcieLinkChange
  (repeat' split) <;> simp

@[simp] theorem execTargetDynamicAddressAssign_kept (address : BitVec 7) (s : State) : (stateOf s (execTargetDynamicAddressAssign address s)).kept = s.kept := by
  simp [execTargetDynamicAddressAssign]

@[simp] theorem execTdcTwindowBoundary_kept (pin : Pin) (s : State) : (stateOf s (execTdcTwindowBoundary pin s)).kept = s.kept := by
  simp [execTdcTwindowBoundary]

@[simp] theorem execPowerEntryDone_kept (c : Cluster) (s : State) : (stateOf s (execPowerEntryDone c s)).kept = s.kept := by
  simp [execPowerEntryDone]

@[simp] theorem execHbmSrExitDone_kept (s : State) : (stateOf s (execHbmSrExitDone s)).kept = s.kept := by
  unfold execHbmSrExitDone
  split <;> simp

end Sys2Proof.Machine

namespace Sys2Proof.Claims
open Sys2Proof.Machine

/-- The HBM is in self-refresh, and a closed capture block of cluster 0 waits for it, when the time unit refuses an estimate. -/
def refreshing : State :=
  { bench with
    time := { bench.time with state := .refused }
    mem := { bench.mem with selfRef := true, outs := upd bench.mem.outs 0 fun o => { o with isOpen := true, areaMib := 1 } }
    cl := upd bench.cl 0 fun e => { e with cap := { e.cap with fifo := [{ blk := { since := 0 }, seq := 0 }] } } }

/-- Refutes O21: the gap cairn of TIME_ACCEPT looks at the cluster's closed blocks, and one that waits for the HBM in self-refresh begins its exit
(R368), which the statement's frame leaves out. -/
theorem not_timeCommands : ¬ Obligations.TimeCommands := by
  unfold Obligations.TimeCommands
  rintro ⟨-, accept, -⟩
  obtain ⟨t, run, frame, -⟩ := (accept refreshing (benchPacket 1 0 []) (by decide +kernel)).1 (by decide +kernel) (by decide +kernel)
  have begun : (stateOf refreshing (exec (.timeAccept (benchPacket 1 0 [])) refreshing)).mem.srExit.isSome = true := by decide +kernel
  rw [stateOf_exec run, frame] at begun
  change refreshing.mem.srExit.isSome = true at begun
  exact absurd begun (by decide +kernel)

end Sys2Proof.Claims

namespace Sys2Proof.Machine

@[simp] theorem execHotJoin_kept (bus : Fin 2) (p : Pin) (qualifies : Bool) (s : State) (id : BitVec 12) (contract : Byte) :
    (stateOf s (execHotJoin bus p qualifies s id contract)).kept = s.kept := by
  simp [execHotJoin]

/-! ## The invariant -/

/-- Every cluster's site contains its index cluster (R12), and every configuration slot, and every pending one an arm point still sees (R243),
carries a number from 1 to 0xFFFF (R278). -/
structure State.Sound (s : State) : Prop where
  sites : ∀ c : Cluster, s.siteOf[s.siteOf[c]] = s.siteOf[c]
  gens : ∀ c : Cluster, (s.gens[c]).numbered
  recent : ∀ c : Cluster, (s.recent[c]).numbered

section
variable {s t : State}

/-- What keeps the sites and the numbered generations keeps the invariant. -/
theorem State.Sound.of_kept (h : s.Sound) (e : t.kept = s.kept) : t.Sound := by
  simp only [State.kept, Prod.mk.injEq] at e
  obtain ⟨sites, gens, recent⟩ := e
  have closed (v : Vector Cluster 12) (e : v = s.siteOf) (c : Cluster) : v[v[c]] = v[c] := by
    subst e
    exact h.sites c
  refine ⟨closed _ sites, by rw [gens]; exact h.gens, fun c p hp => ?_⟩
  have pend : (t.recent[c]).pend = (s.recent[c]).pend := by
    simpa using congrArg (fun v : Vector (Option (Generation × Bool)) 12 => v[c]) recent
  exact h.recent c p (pend ▸ hp)

theorem State.Sound.foldl {α : Type} {f : State → α → State} (h : s.Sound) (hf : ∀ s a, s.Sound → (f s a).Sound) (l : List α) :
    (l.foldl f s).Sound := by
  induction l generalizing s with
  | nil => exact h
  | cons a l ih => exact ih (hf s a h)

theorem State.Sound.ite {c : Prop} [Decidable c] (hs : s.Sound) (ht : t.Sound) : (if c then s else t).Sound := by
  split
  · exact hs
  · exact ht

/-! ### Generations (R278 to R280) -/

theorem nextNumber_ne_zero (n : BitVec 16) : nextNumber n ≠ 0 := by
  unfold nextNumber
  split
  · decide
  · bv_omega

section
variable {g : GenSlots}

theorem GenSlots.numbered.newest (h : g.numbered) : g.newest.number ≠ 0 := by
  obtain ⟨cur, -, pend, -⟩ := h
  unfold GenSlots.newest
  cases e : g.pend with
  | none => exact cur
  | some p => exact pend p e

theorem GenSlots.numbered.commit (h : g.numbered) : g.commit.numbered := by
  obtain ⟨cur, shadow, -, prev⟩ := h
  refine ⟨cur, nextNumber_ne_zero _, fun p hp => ?_, prev⟩
  obtain rfl := Option.some.inj hp
  exact shadow

theorem GenSlots.numbered.revert (h : g.numbered) : g.revert.numbered := by
  obtain ⟨cur, shadow, -, prev⟩ := id h
  unfold GenSlots.revert
  split
  · exact h
  · next p hp =>
    refine ⟨cur, nextNumber_ne_zero _, fun q hq => ?_, nofun⟩
    obtain rfl := Option.some.inj hq
    exact prev p hp

theorem GenSlots.numbered.discard (h : g.numbered) : g.discard.numbered := by
  obtain ⟨cur, shadow, pend, prev⟩ := h
  exact ⟨cur, nextNumber_ne_zero _, pend, prev⟩

theorem GenSlots.numbered.swap (h : g.numbered) : g.swap.numbered := by
  obtain ⟨cur, shadow, pend, prev⟩ := id h
  unfold GenSlots.swap
  split
  · exact h
  · next p hp =>
    refine ⟨pend p hp, shadow, nofun, fun q hq => ?_⟩
    split at hq
    · cases hq
    · obtain rfl := Option.some.inj hq
      exact cur

/-- Slots whose pending generation is replaced by another that carries a number. -/
theorem GenSlots.numbered.setPend (h : g.numbered) (p : Option Generation) (r : Bool) (hp : ∀ q, p = some q → q.number ≠ 0) :
    { g with pend := p, pendRevert := r }.numbered := by
  obtain ⟨cur, shadow, -, prev⟩ := h
  exact ⟨cur, shadow, hp, prev⟩

end

theorem State.Sound.updGen (h : s.Sound) (c : Cluster) (f : GenSlots → GenSlots) (hf : (s.gens[c]).numbered → (f s.gens[c]).numbered) :
    (s.updGen c f).Sound := by
  refine ⟨h.sites, fun d => ?_, h.recent⟩
  rw [State.updGen_gens, upd_get]
  split
  · exact hf (h.gens c)
  · exact h.gens d

theorem State.Sound.writeShadow (h : s.Sound) (cl : List Cluster) (f : ClusterConfig → ClusterConfig) : (s.writeShadow cl f).Sound :=
  h.foldl (fun _ c h => h.updGen c _ id) cl

theorem State.Sound.shadowWritten (h : s.Sound) (cl : List Cluster) (f : ClusterConfig → ClusterConfig) : (s.writeShadow cl f).done.state.Sound :=
  h.writeShadow cl f

theorem State.Sound.noteCommit (h : s.Sound) (cl : List Cluster) : (s.noteCommit cl).Sound := by
  -- only the notes change; what is noted is a pending generation of `s`
  refine State.Sound.foldl h (fun t c ht => ?_) cl
  refine ⟨ht.sites, ht.gens, fun d p hp => ?_⟩
  rw [upd_get] at hp
  split at hp
  · dsimp only at hp
    split at hp
    · obtain ⟨g, hg, rfl⟩ := Option.map_eq_some_iff.1 hp
      exact (h.gens c).2.2.1 g hg
    · exact ht.recent c p hp
  · exact ht.recent d p hp

theorem State.Sound.commitAll (h : s.Sound) (cl : List Cluster) (f : GenSlots → GenSlots) (hf : ∀ g, g.numbered → (f g).numbered) :
    (s.commitAll cl f).Sound :=
  (h.noteCommit cl).foldl (fun _ c h => h.updGen c f (hf _)) cl

/-! ### Endings of packets -/

theorem State.Sound.parsed {α : Type} (h : s.Sound) (r : Except Nat α) (k : α → Ending) (hk : ∀ a, (k a).state.Sound) :
    (s.parsed r k).state.Sound := by
  unfold State.parsed
  split
  · exact h
  · exact hk _

theorem State.Sound.genCommit (h : s.Sound) (cl : List Cluster) : (s.genCommit cl).state.Sound := by
  unfold State.genCommit
  split
  · next e => exact h.of_kept (s.commitFault_kept cl _ e)
  · exact (h.commitAll cl _ fun _ => GenSlots.numbered.commit).of_kept (State.published_kept _ _)

theorem State.Sound.genRevert (h : s.Sound) (cl : List Cluster) : (s.genRevert cl).state.Sound := by
  unfold State.genRevert
  split
  · exact h
  · exact (h.commitAll cl _ fun _ => GenSlots.numbered.revert).of_kept (State.published_kept _ _)

theorem State.Sound.timingSetWrite (h : s.Sound) (b : List Byte) (cl : List Cluster) : (s.timingSetWrite b cl).state.Sound := by
  refine h.parsed _ _ fun _ => ?_
  split
  · exact h.of_kept (by simp)
  · exact h.shadowWritten cl _

theorem State.Sound.levelSetWrite (h : s.Sound) (b : List Byte) (cl : List Cluster) : (s.levelSetWrite b cl).state.Sound := by
  refine h.parsed _ _ fun _ => ?_
  split
  · exact h.parsed _ _ fun _ => h.shadowWritten cl _
  · exact h.parsed _ _ fun _ => h.shadowWritten cl _

theorem State.Sound.clockPinSet (h : s.Sound) (b : List Byte) (cl : List Cluster) : (s.clockPinSet b cl).state.Sound := by
  dsimp only [State.clockPinSet]
  split
  · exact h
  split
  · exact h.of_kept (by simp)
  · exact h.parsed _ _ fun _ => h.shadowWritten cl _

theorem State.Sound.seqLoad (h : s.Sound) (b : List Byte) (cl : List Cluster) : (s.seqLoad b cl).state.Sound := by
  refine h.parsed _ _ fun _ => ?_
  dsimp only
  split
  · exact h
  · exact h
  · refine h.foldl (fun s r h => ?_) _
    split
    · exact h.writeShadow _ _
    · exact h

theorem State.Sound.acqWrite (h : s.Sound) (b : List Byte) (force : Bool) (cl : List Cluster) : (s.acqWrite b force cl).state.Sound :=
  h.parsed _ _ fun _ => h.parsed _ _ fun _ => h.shadowWritten cl _

theorem State.Sound.tdcConfig (h : s.Sound) (b : List Byte) (cl : List Cluster) : (s.tdcConfig b cl).state.Sound := by
  dsimp only [State.tdcConfig]
  split
  · exact h.parsed _ _ fun _ => h.parsed _ _ fun _ => h.shadowWritten cl _
  · exact h.parsed _ _ fun _ => h.parsed _ _ fun _ => h.of_kept (by simp)

/-! ### Arming (R10, R66, R243) -/

theorem State.Sound.doArm (h : s.Sound) (k : Cluster) (a : Armed) (seq : Descriptor) : (s.doArm k a seq).Sound := by
  unfold State.doArm
  extract_lets t s1 first s2 g hops ready s3 s4 rope s5
  have h2 : s2.Sound := by
    refine (h.of_kept (s.accountDue_kept k)).foldl (fun s c hs => ?_) _
    exact (hs.updGen c _ GenSlots.numbered.swap).of_kept rfl
  have h5 : s5.Sound := h2.of_kept (by simp [s5, s4, s3, rope])
  split
  · exact h5.of_kept (by simp)
  · exact h5

theorem State.Sound.tryLate (h : s.Sound) (k : Cluster) : (s.tryLate k).Sound := by
  unfold State.tryLate
  split
  · split
    · exact (h.doArm k _ _).of_kept (State.updSeq_kept ..)
    · exact h
  · exact h

theorem State.Sound.holdBack (h : s.Sound) (k : Cluster) (t : Int) : (s.holdBack k t).Sound := by
  unfold State.holdBack
  refine State.Sound.foldl ?_ (fun s c hs => ?_) _
  · exact h.ite (h.of_kept (by simp))
  · refine hs.ite (hs.updGen c _ fun hg => hg.setPend _ _ fun q hq => ?_)
    obtain ⟨p, hp, rfl⟩ := Option.map_eq_some_iff.1 hq
    exact hs.recent c p hp

theorem State.Sound.giveBack (h : s.Sound) (h0 : t.Sound) (k : Cluster) (d : Int) : (s.giveBack t k d).Sound := by
  unfold State.giveBack
  refine State.Sound.of_kept (s := List.foldl _ _ _) (State.Sound.foldl ?_ (fun s c hs => ?_) _) (State.updSite_kept ..)
  · exact h.ite (h.of_kept (by simp))
  · exact hs.ite (hs.updGen c _ fun hg => hg.setPend _ _ (h0.gens c).2.2.1)

theorem State.Sound.armSingle (h : s.Sound) (k : Cluster) (st : Start) (t : Int) : (s.armSingle k st t).Sound := by
  have hb : (if st.mode = .asap then s else s.holdBack k t).Sound := h.ite (h.holdBack k t)
  unfold State.armSingle
  extract_lets b
  split
  · split
    · exact (hb.doArm k _ _).ite ((hb.doArm k _ _).giveBack h k t)
    · exact (h.of_kept (by simp)).tryLate k
  · exact h.of_kept (by simp)

theorem State.Sound.armMulti (h : s.Sound) (k : Cluster) (st : Start) (sched : Int) : (s.armMulti k st sched).Sound := by
  unfold State.armMulti
  extract_lets b late
  have hl : late.Sound := h.of_kept (by simp [late])
  split
  · extract_lets drop first t ready
    split
    · have ht : t.Sound := ((h.holdBack k s.net).doArm k _ _).giveBack h k s.net
      exact ht.of_kept (by simp)
    · exact hl.of_kept (by simp)
  · exact hl.of_kept (by simp)

/-! ### Starts (R65 to R67, R256) -/

theorem State.Sound.makePending (h : s.Sound) (k : Cluster) (seq : BitVec 16) (mode : StartMode) (sched : Option Int) :
    (s.makePending k seq mode sched).Sound := by
  have h1 : (s.updSite k fun r => { r with taint := false }).Sound := h.of_kept (by simp)
  unfold State.makePending
  extract_lets t st s1
  cases mode with
  | asap => exact h1.armSingle k _ _
  | chained => exact (h1.armSingle k _ _).ite (h1.of_kept (State.updSeq_kept ..))
  | atTime => exact (h1.armSingle k _ _).ite (h1.of_kept (State.updSeq_kept ..))

theorem State.Sound.burstStart (h : s.Sound) (k : Cluster) (seq : BitVec 16) (mode : StartMode) (time : Int) :
    (s.burstStart k seq mode time).Sound := by
  unfold State.burstStart
  split <;> exact h.makePending k _ _ _

theorem State.Sound.startPacket (h : s.Sound) (b : List Byte) (k : Cluster) : (s.startPacket b k).state.Sound := by
  refine h.parsed _ _ fun x => ?_
  dsimp only
  split
  · exact h
  split
  · exact h
  · exact (h.burstStart k x.1 x.2.1 (timeOf x.2.2)).of_kept (by simp)

theorem State.Sound.burstCommit (h : s.Sound) (b : List Byte) (k : Cluster) : (s.burstCommit b k).state.Sound := by
  refine h.parsed _ _ fun x => ?_
  dsimp only
  split
  · next e hf =>
    split at hf
    · exact h.of_kept (s.commitFault_kept _ _ hf)
    · cases hf
  split
  · next hd => exact h.of_kept (s.deepCheck_kept _ _ _ _ hd)
  · next m _ =>
    have placed : ({ s with mem := m } : State).useHbm.Sound := h.of_kept (by simp)
    have committed := (placed.commitAll (s.members k) _ fun _ => GenSlots.numbered.commit).of_kept (State.publishPend_kept _ k)
    refine State.Sound.tryLate (State.Sound.of_kept ?_
      ((State.releaseHeads_kept ..).trans ((State.updSeq_kept ..).trans (State.noteFront_kept ..)))) k
    exact committed.ite placed

/-! ### Sites (R72, R258) -/

/-- The clusters of the sites that some clusters belong to. -/
def State.touched (s : State) (cl : List Cluster) : List Cluster := (s.sitesFor cl).flatMap s.members

theorem State.mem_members (s : State) (k c : Cluster) : c ∈ s.members k ↔ s.siteOf[c] = k := by
  simp [State.members]

theorem State.mem_siteIdxs (s : State) (k : Cluster) : k ∈ s.siteIdxs ↔ s.siteOf[k] = k := by
  simp [State.siteIdxs, State.isSite]

theorem State.mem_sitesFor (s : State) (cl : List Cluster) (k : Cluster) : k ∈ s.sitesFor cl ↔ s.siteOf[k] = k ∧ ∃ c ∈ cl, s.siteOf[c] = k := by
  simp only [State.sitesFor, List.mem_filter, State.mem_siteIdxs, List.any_eq_true, decide_eq_true_eq]
  rfl

/-- A cluster is touched when its site holds one of the clusters named. -/
theorem State.Sound.mem_touched (h : s.Sound) (cl : List Cluster) (c : Cluster) : c ∈ s.touched cl ↔ ∃ d ∈ cl, s.siteOf[d] = s.siteOf[c] := by
  simp only [State.touched, List.mem_flatMap, State.mem_sitesFor, State.mem_members]
  constructor
  · rintro ⟨k, ⟨-, d, hd, e⟩, rfl⟩
    exact ⟨d, hd, e⟩
  · rintro ⟨d, hd, e⟩
    exact ⟨s.siteOf[c], ⟨h.sites c, d, hd, e⟩, rfl⟩

/-- Each of some elements takes its new value, and the others keep theirs. -/
theorem foldl_set_get {α : Type} {n : Nat} (l : List (Fin n)) (f : Fin n → α) (v : Vector α n) (j : Fin n) :
    (l.foldl (fun v c => v.set c.val (f c) c.isLt) v)[j] = if j ∈ l then f j else v[j] := by
  induction l generalizing v with
  | nil => rfl
  | cons c l ih =>
    rw [List.foldl_cons, ih]
    by_cases hl : j ∈ l
    · rw [if_pos hl, if_pos (List.mem_cons_of_mem _ hl)]
    · rw [if_neg hl]
      by_cases e : j = c
      · subst e
        simp
      · rw [if_neg (by simp [e, hl])]
        simp only [Fin.getElem_fin, Vector.getElem_set]
        exact if_neg fun h => e (Fin.ext h.symm)

/-- A site is formed: its clusters follow `k`, and what is left of the sites they leave falls into single clusters (R258). -/
theorem State.Sound.regrouped (h : s.Sound) (cl : List Cluster) (k : Cluster) (hk : cl ≠ [] → k ∈ cl) (c : Cluster) :
    let v := (s.touched cl).foldl (fun v c => v.set c.val (if cl.contains c then k else c) c.isLt) s.siteOf
    v[v[c]] = v[c] := by
  intro v
  have read (c : Cluster) : v[c] = if c ∈ s.touched cl then if cl.contains c then k else c else s.siteOf[c] := foldl_set_get _ _ _ c
  suffices ∀ i, v[c] = i → v[i] = i from this _ rfl
  intro i hi
  rw [read] at hi ⊢
  split at hi
  · next hc =>
    split at hi
    · next hcl =>
      subst hi
      have kl : k ∈ cl := hk (List.ne_nil_of_mem (List.contains_iff_mem.1 hcl))
      rw [if_pos ((h.mem_touched cl k).2 ⟨k, kl, rfl⟩), if_pos (List.contains_iff_mem.2 kl)]
    · next hcl =>
      subst hi
      rw [if_pos hc, if_neg hcl]
  · next hc =>
    subst hi
    rw [if_neg, h.sites c]
    rw [h.mem_touched] at hc ⊢
    rwa [h.sites c]

theorem State.Sound.formSite (h : s.Sound) (cl : List Cluster) (gang : Option Gang) : (s.formSite cl gang).Sound := by
  have hk : cl ≠ [] → cl.headD 0 ∈ cl := by
    cases cl <;> simp
  unfold State.formSite
  extract_lets k touched s1 heads s2
  have h1 : s1.Sound := ⟨h.regrouped cl k hk, h.gens, h.recent⟩
  exact h1.of_kept (by simp [s2])

theorem State.Sound.siteGang (h : s.Sound) (b : List Byte) (cl : List Cluster) : (s.siteGang b cl).state.Sound := by
  unfold State.siteGang
  split
  · exact h
  · exact h.parsed _ _ fun g => h.formSite cl g

/-! ### Function reset, internal commands, rechaining (R195, R200, R247) -/

theorem State.Sound.resetFunction (h : s.Sound) (f : Func) : (s.resetFunction f).Sound := by
  unfold State.resetFunction
  extract_lets s1 s2
  have h1 : s1.Sound := h.of_kept (by simp [s1])
  have h2 : s2.Sound := h1.foldl (fun s c h => h.updGen c _ GenSlots.numbered.discard) _
  exact h2.of_kept (by simp)

theorem State.Sound.writeActions (h : s.Sound) (x : InternalCommand) : (s.writeActions x).Sound := by
  unfold State.writeActions
  extract_lets put s1
  have h1 : s1.Sound := h.foldl (fun s c h => h.writeShadow _ _) _
  exact h1.foldl (fun s c h => h.writeShadow _ _) _

theorem State.Sound.restart (h : s.Sound) (k : Cluster) (seq : BitVec 16) : (s.restart k seq).Sound :=
  State.Sound.of_kept ((h.of_kept (s.cancelStart_kept k)).burstStart k seq .asap 0) (State.repick_kept _)

/-- The state an internal command leaves, carried out or refused. -/
def stateOfInternal : Except (Nat × State) State → State
  | .ok t => t
  | .error e => e.2

theorem State.Sound.internal (h : s.Sound) (x : InternalCommand) : (stateOfInternal (s.internal x)).Sound := by
  have ht := h.writeActions x
  have stop {u : State} (hu : u.Sound) (k : Cluster) : (if x.stop then (u.stopRequest k).state else u).Sound :=
    (hu.of_kept (State.stopRequest_kept ..)).ite hu
  unfold State.internal
  split
  · exact h
  extract_lets site t edgeBad u
  have hu : u.Sound := (ht.commitAll _ _ fun _ => GenSlots.numbered.commit).of_kept (State.published_kept ..)
  clear_value edgeBad
  split
  · exact h.of_kept (by simp [stateOfInternal])
  · split
    · split
      · exact h.of_kept rfl
      · exact stop (hu.restart _ _) _
    · exact stop ht _
    · exact ht

theorem State.Sound.internal_ok (h : s.Sound) {x : InternalCommand} (e : s.internal x = .ok t) : t.Sound := by
  have := h.internal x
  rwa [e] at this

theorem State.Sound.internal_error (h : s.Sound) {x : InternalCommand} {c : Nat} (e : s.internal x = .error (c, t)) : t.Sound := by
  have := h.internal x
  rwa [e] at this

theorem State.Sound.runInternal (h : s.Sound) : s.runInternal.Sound := by
  unfold State.runInternal
  split
  · exact h
  split
  · exact h
  extract_lets s1 _ s2
  have h2 : s2.Sound := h.of_kept (by simp [s2, s1])
  split
  · next e => exact h2.internal_ok e
  · next e => exact (h2.internal_error e).of_kept (State.internalRefused_kept ..)

theorem State.Sound.runRechain (h : s.Sound) (k : Cluster) : (s.runRechain k).Sound := by
  unfold State.runRechain
  extract_lets f s1 _ s2
  have h2 : s2.Sound := h.of_kept (by simp [s2, s1])
  split
  · exact h2
  split
  · exact h2.of_kept (by simp)
  · exact (h2.burstStart k f.rechainDesc .chained 0).of_kept (by simp)

/-! ### Packets (R241, R242) -/

theorem State.Sound.stages (h : s.Sound) (o : OpSpec) (p : Packet) (owns : Option Nat) (body : List Cluster → State → Ending)
    (hb : ∀ cl s, s.Sound → (body cl s).state.Sound) : (s.stages o p owns body).1.state.Sound := by
  unfold State.stages
  split
  · exact h
  extract_lets cl
  split
  · exact h
  split
  · exact h
  split
  · exact h
  · exact hb _ _ h

theorem State.Sound.runPacket (h : s.Sound) (o : OpSpec) (p : Packet) (owns : Option Nat) (body : List Cluster → State → Ending)
    (hb : ∀ cl s, s.Sound → (body cl s).state.Sound) : (s.runPacket o p owns body).Sound := by
  unfold State.runPacket
  split
  · exact h.of_kept (s.gather_kept p)
  · exact State.Sound.of_kept ((h.of_kept (s.fetch_kept _ _)).stages o p owns body hb) (State.reply_kept ..)

/-- The outcome of a command is a sound state. -/
def SoundOutcome (o : Host.Outcome State Fault Refusal) : Prop := ∀ t, o = .next t → t.Sound

theorem State.Sound.next (h : s.Sound) : SoundOutcome (.next s) := by
  intro t e
  cases e
  exact h

theorem SoundOutcome.stateOf {o : Host.Outcome State Fault Refusal} (ho : SoundOutcome o) (h : s.Sound) : (stateOf s o).Sound := by
  cases o with
  | next t => exact ho t rfl
  | fault r => exact h
  | refused r => exact h

/-- A command that keeps what the invariant reads answers a sound state. -/
theorem State.Sound.outcome (h : s.Sound) {o : Host.Outcome State Fault Refusal} (e : (Machine.stateOf s o).kept = s.kept) : SoundOutcome o := by
  intro t ht
  subst ht
  exact h.of_kept e

theorem State.Sound.execResetFunction (h : s.Sound) (p : Packet) : SoundOutcome (execResetFunction p s) := by
  unfold Machine.execResetFunction
  extract_lets f
  refine State.Sound.next (h.runPacket _ _ _ _ fun _ s hs => ?_)
  change (s.resetFunction f).Sound
  exact hs.resetFunction f

theorem State.Sound.execTimingSetWrite (h : s.Sound) (p : Packet) : SoundOutcome (execTimingSetWrite p s) :=
  (h.runPacket _ _ _ _ fun cl _ h => h.timingSetWrite _ cl).next

theorem State.Sound.execLevelSetWrite (h : s.Sound) (p : Packet) : SoundOutcome (execLevelSetWrite p s) :=
  (h.runPacket _ _ _ _ fun cl _ h => h.levelSetWrite _ cl).next

theorem State.Sound.execPinFormatWrite (h : s.Sound) (p : Packet) : SoundOutcome (execPinFormatWrite p s) :=
  (h.runPacket _ _ _ _ fun cl _ h => h.parsed _ _ fun _ => h.shadowWritten cl _).next

theorem State.Sound.execClockPinSet (h : s.Sound) (p : Packet) : SoundOutcome (execClockPinSet p s) :=
  (h.runPacket _ _ _ _ fun cl _ h => h.clockPinSet _ cl).next

theorem State.Sound.execGenCommit (h : s.Sound) (p : Packet) : SoundOutcome (execGenCommit p s) :=
  (h.runPacket _ _ _ _ fun cl _ h => h.genCommit cl).next

theorem State.Sound.execGenRevert (h : s.Sound) (p : Packet) : SoundOutcome (execGenRevert p s) :=
  (h.runPacket _ _ _ _ fun cl _ h => h.genRevert cl).next

theorem State.Sound.execGenDiscard (h : s.Sound) (p : Packet) : SoundOutcome (execGenDiscard p s) :=
  (h.runPacket _ _ _ _ fun cl _ h => h.foldl (fun _ c h => h.updGen c _ GenSlots.numbered.discard) cl).next

theorem State.Sound.execSeqLoad (h : s.Sound) (p : Packet) : SoundOutcome (execSeqLoad p s) :=
  (h.runPacket _ _ _ _ fun cl _ h => h.seqLoad _ cl).next

theorem State.Sound.execBurstCommit (h : s.Sound) (p : Packet) : SoundOutcome (execBurstCommit p s) :=
  (h.runPacket _ _ _ _ fun _ _ h => h.burstCommit _ _).next

theorem State.Sound.execBurstStart (h : s.Sound) (p : Packet) : SoundOutcome (execBurstStart p s) :=
  (h.runPacket _ _ _ _ fun _ _ h => h.startPacket _ _).next

theorem State.Sound.execSiteGang (h : s.Sound) (p : Packet) : SoundOutcome (execSiteGang p s) :=
  (h.runPacket _ _ _ _ fun cl _ h => h.siteGang _ cl).next

theorem State.Sound.execCaptureConfig (h : s.Sound) (p : Packet) : SoundOutcome (execCaptureConfig p s) :=
  (h.runPacket _ _ _ _ fun cl _ h => h.parsed _ _ fun _ => h.shadowWritten cl _).next

theorem State.Sound.execAcqArm (h : s.Sound) (p : Packet) : SoundOutcome (execAcqArm p s) :=
  (h.runPacket _ _ _ _ fun cl _ h => h.acqWrite _ _ cl).next

theorem State.Sound.execAcqForce (h : s.Sound) (p : Packet) : SoundOutcome (execAcqForce p s) :=
  (h.runPacket _ _ _ _ fun cl _ h => h.acqWrite _ _ cl).next

theorem State.Sound.execTdcConfig (h : s.Sound) (p : Packet) : SoundOutcome (execTdcConfig p s) :=
  (h.runPacket _ _ _ _ fun cl _ h => h.tdcConfig _ cl).next

/-! ### Routines that run to their END, and interrupts (R244, R273) -/

theorem State.Sound.performPattern (h : s.Sound) (op : Nat) (p : Packet) {o} (e : s.performPattern op p = some o) : SoundOutcome o := by
  unfold State.performPattern at e
  split at e <;> simp only [Option.some.injEq, reduceCtorEq] at e <;> subst e
  · exact h.outcome (execNop_kept p s)
  · exact h.outcome (execIdentify_kept p s)
  · exact h.execResetFunction p
  · exact h.outcome (execStatusMirrorSet_kept p s)
  · exact h.execTimingSetWrite p
  · exact h.execLevelSetWrite p
  · exact h.execPinFormatWrite p
  · exact h.execClockPinSet p
  · exact h.execGenCommit p
  · exact h.execGenRevert p
  · exact h.execGenDiscard p
  · exact h.execSeqLoad p
  · exact h.outcome (execSegDeclare_kept p s)
  · exact h.execBurstCommit p
  · exact h.execBurstStart p
  · exact h.outcome (execBurstStop_kept p s)
  · exact h.outcome (execJumpRequest_kept p s)
  · exact h.outcome (execResume_kept p s)
  · exact (h.of_kept (s.runAbort_kept p)).next
  · exact h.execSiteGang p

theorem State.Sound.performStream (h : s.Sound) (op : Nat) (p : Packet) {o} (e : s.performStream op p = some o) : SoundOutcome o := by
  unfold State.performStream at e
  split at e <;> simp only [Option.some.injEq, reduceCtorEq] at e <;> subst e
  · exact h.outcome (execStreamOpen_kept p s)
  · exact h.outcome (execStreamClose_kept p s)
  · exact h.outcome (execSegPin_kept p s)
  · exact h.outcome (execSegUnpin_kept p s)
  · exact h.execCaptureConfig p
  · exact h.execAcqArm p
  · exact h.execAcqForce p
  · exact h.execTdcConfig p
  · exact h.outcome (execTdcStats_kept p s)
  · exact h.outcome (execRuleLoad_kept p s)
  · exact h.outcome (execItemPost_kept p s)
  · exact h.outcome (execFlowConfig_kept p s)

theorem State.Sound.performManage (h : s.Sound) (op : Nat) (p : Packet) {o} (e : s.performManage op p = some o) : SoundOutcome o := by
  unfold State.performManage at e
  split at e <;> simp only [Option.some.injEq, reduceCtorEq] at e <;> subst e
  · exact h.outcome (execTimeSource_kept p s)
  · exact h.outcome (execTimeAccept_kept p s)
  · exact h.outcome (execTimeThreshold_kept p s)
  · exact h.outcome (execRopeConfig_kept p s)
  · exact h.outcome (execRopeTest_kept p s)
  · exact h.outcome (execCalRun_kept p s)
  · exact (h.of_kept s.fresh_kept).outcome (execCalStore_kept p _ _)
  · exact h.outcome (execCalRefDeclare_kept p s)
  · exact h.outcome (execFaultConfig_kept p s)
  · exact h.outcome (execFaultInject_kept p s)
  · exact h.outcome (execFaultAck_kept p s)
  · exact h.outcome (execPowerTolerance_kept p s)
  · exact h.outcome (execAttest_kept p s)
  · exact h.outcome (execFwStage_kept p s)
  · exact h.outcome (execFwActivate_kept p s)

theorem State.Sound.perform (h : s.Sound) (r : Routine) : (s.perform r).Sound := by
  unfold State.perform
  extract_lets op _ t u
  have ht : t.Sound := h.of_kept (by simp [t])
  have hu : u.Sound := by
    refine SoundOutcome.stateOf ?_ ht
    cases e : ((t.performPattern op r.packet).or (t.performStream op r.packet)).or (t.performManage op r.packet) with
    | none => exact ht.outcome (execBadOpcode_kept _ _ _)
    | some o =>
      rw [Option.or_eq_some_iff, Option.or_eq_some_iff] at e
      obtain (e | ⟨-, e⟩) | ⟨-, e⟩ := e
      · exact ht.performPattern _ _ e
      · exact ht.performStream _ _ e
      · exact ht.performManage _ _ e
  exact hu.ite (hu.of_kept u.endRoutine_kept)

theorem State.Sound.preempt (h : s.Sound) (running : Option Routine) (i : Interrupt) : (s.preempt running i).Sound := by
  unfold State.preempt
  split
  · exact State.Sound.ite (h.of_kept (s.abandon_kept _)) ((h.perform _).ite h)
  · exact h

theorem State.Sound.collectOver (h : s.Sound) (running : Option Routine) (es : List FaultEvent) : (s.collectOver running es).Sound := by
  refine State.Sound.of_kept (s := s.faultInterrupt running _) ?_ (State.collect_kept _ _)
  unfold State.faultInterrupt
  split
  · exact h.preempt _ _
  · exact h.preempt _ _
  · exact h
  · exact h

/-! ### The other commands that touch sites and generations -/

theorem State.Sound.execAbort (h : s.Sound) (p : Packet) (running : Option Routine) : SoundOutcome (execAbort p running s) := by
  unfold Machine.execAbort
  split
  · exact (h.of_kept (s.runAbort_kept p)).next
  · exact ((h.preempt running .abort).perform _).next

theorem State.Sound.execScInternalCommand (h : s.Sound) (running : Option Routine) : SoundOutcome (execScInternalCommand running s) := by
  have hp := h.preempt running .internal
  unfold Machine.execScInternalCommand
  split
  · exact h.next
  extract_lets t
  split
  · exact hp.next
  · exact hp.runInternal.next

theorem State.Sound.execRechain (h : s.Sound) (site : Cluster) (running : Option Routine) : SoundOutcome (execRechain site s running) := by
  have hp := h.preempt running .internal
  unfold Machine.execRechain
  split
  · exact h.next
  extract_lets t
  split
  · exact hp.next
  · exact (hp.runRechain site).next

theorem State.Sound.execMachineCheck (h : s.Sound) (postCrux stack half : Bool) (uaddr : BitVec 14) (lost : Option Routine) :
    SoundOutcome (execMachineCheck postCrux stack half uaddr lost s) := by
  unfold Machine.execMachineCheck
  split
  · exact h.next
  extract_lets m s0 _ s1 s2 at_ cmd
  have h1 : s1.Sound := h.of_kept (by simp [s1])
  have h2 : s2.Sound := by
    cases lost with
    | none => exact h1
    | some r => exact h1.ite ((h1.perform r).ite (h1.of_kept (by simp)))
  exact (h2.of_kept (by simp)).next

theorem State.Sound.execDoorbellSqTail (h : s.Sound) (f : Func) (ring : Fin 4) (value : Word) (single : Bool) (running : Option Routine) :
    SoundOutcome (execDoorbellSqTail f ring value single running s) := by
  unfold Machine.execDoorbellSqTail
  extract_lets q s1 _ s2
  split
  · exact h.next
  split
  · exact (h.of_kept (by simp)).next
  · have h2 : s2.Sound := h.of_kept (by simp [s2, s1])
    exact (State.Sound.ite (h2.preempt _ _) h2).next

theorem State.Sound.execHstOwnerWrite (h : s.Sound) (index : Fin 2) (value : Word) : SoundOutcome (execHstOwnerWrite index value s) := by
  unfold Machine.execHstOwnerWrite
  split
  · exact h.next
  split
  next changes refused _ =>
  extract_lets s1 owner _ s2
  have h1 : s1.Sound := h.foldl (fun s x h => h.formSite _ _) _
  have h2 : s2.Sound := h1.of_kept (by simp [s2])
  exact (h2.of_kept (by simp)).next

theorem State.Sound.retryLate (h : s.Sound) : s.retryLate.Sound := h.foldl (fun _ k h => h.tryLate k) _

theorem State.Sound.writeReg (h : s.Sound) (r : Reg) (v : Word) : (s.writeReg r v).Sound := by
  by_cases hr : r = .pwrCtl
  · subst hr
    exact (h.of_kept (s.setPower_kept _)).retryLate
  · refine h.of_kept ?_
    unfold State.writeReg
    split <;> simp at hr ⊢

theorem State.Sound.execRegisterWrite (h : s.Sound) (f : Func) (addr : BitVec 24) (value : Word) (whole bar2 : Bool) :
    SoundOutcome (execRegisterWrite f addr value whole s bar2) := by
  unfold Machine.execRegisterWrite
  split
  · exact h.next
  refine State.Sound.next ?_
  split
  · exact h
  · exact h.of_kept (by simp)
  · exact h.of_kept (by simp)
  · split
    · exact h.of_kept (by simp)
    split
    · exact h.of_kept (by simp)
    · exact State.Sound.writeReg (h.of_kept s.playAll_kept) _ _

theorem State.reset_sound : State.reset.Sound := by
  refine ⟨by decide, ?_, ?_⟩
  · intro c
    simp [State.reset, GenSlots.numbered]
  · intro c
    simp [State.reset, Recent.numbered]

/-- A reset leaves the sites, the generations and the notes as they are after power-on (R370). -/
theorem State.cleared_sound (s : State) (k : ResetKind) : (s.cleared k).Sound := State.reset_sound.of_kept rfl

theorem State.Sound.execWarmReset (h : s.Sound) (value : Word) : SoundOutcome (execWarmReset value s) := by
  unfold Machine.execWarmReset
  split
  · exact h.next
  · have hc := s.cleared_sound .warm
    exact (State.Sound.ite (hc.of_kept (State.report_kept ..)) hc).next

theorem State.Sound.execPorstAssert (h : s.Sound) : SoundOutcome (execPorstAssert s) := by
  unfold Machine.execPorstAssert
  split
  · exact h.next
  · exact ((s.powerLoss.cleared_sound .porst).of_kept (by simp)).next

theorem State.Sound.execPerstAssert (h : s.Sound) : SoundOutcome (execPerstAssert s) := by
  unfold Machine.execPerstAssert
  split
  · exact h.next
  split
  · exact (h.of_kept (by simp)).next
  · exact ((s.cleared_sound .perst).of_kept (by simp)).next

theorem State.Sound.execBootStart (h : s.Sound) (hbmOk : Bool) (chips : BitVec 96) (others : List Chip) :
    SoundOutcome (execBootStart hbmOk chips s others) := by
  refine h.outcome ?_
  simp [Machine.execBootStart]

theorem State.Sound.execTryBootTimeout (h : s.Sound) (hbmOk : Bool) (chips : BitVec 96) (others : List Chip) :
    SoundOutcome (execTryBootTimeout hbmOk chips s others) := by
  unfold Machine.execTryBootTimeout
  split
  · extract_lets s1 slot c s2 _ _ s3
    have h2 : s2.Sound := s1.cleared_sound _
    have h3 : s3.Sound := h2.of_kept (by simp [s3])
    exact (State.Sound.ite (h3.of_kept (State.boot_kept ..)) h3).next
  · exact h.next

theorem State.Sound.execFunctionLevelReset (h : s.Sound) (f : Func) : SoundOutcome (execFunctionLevelReset f s) := by
  unfold Machine.execFunctionLevelReset
  split
  · exact h.next
  · exact (h.resetFunction f).next

theorem State.Sound.execOcxoReadyChange (h : s.Sound) (level : Bool) : SoundOutcome (execOcxoReadyChange level s) := by
  unfold Machine.execOcxoReadyChange
  split
  · exact h.next
  · exact (h.of_kept (s.setPower_kept _)).retryLate.next

theorem State.Sound.execArmPoint (h : s.Sound) (k : Cluster) : SoundOutcome (execArmPoint k s) := by
  unfold Machine.execArmPoint
  split
  · exact h.next
  split
  · exact (h.ite ((h.tryLate k).of_kept (by simp))).next
  split
  · extract_lets s1 s2
    have h1 : s1.Sound := h.of_kept (by simp [s1])
    have h2 : s2.Sound := (h1.armMulti k _ _).ite (h1.armSingle k _ _)
    exact (h2.of_kept (by simp)).next
  · exact h.next

theorem State.Sound.afterHalt (h : s.Sound) (k : Cluster) (t : Int) : (s.afterHalt k t).Sound := by
  unfold State.afterHalt
  split
  · exact h
  split
  · exact (h.armSingle k _ t).of_kept (State.noteLevel_kept _ _)
  · exact ((((h.holdBack k t).tryLate k).giveBack h k t).tryLate k).of_kept (State.noteLevel_kept _ _)

theorem State.Sound.execBurstEnd (h : s.Sound) (k : Cluster) : SoundOutcome (execBurstEnd k s) := by
  unfold Machine.execBurstEnd
  split
  · exact h.next
  refine State.Sound.next (State.Sound.of_kept (State.Sound.afterHalt (State.Sound.of_kept h ?_) k _) (State.repick_kept _))
  split <;> simp

theorem State.Sound.judgeHeat (h : s.Sound) : s.judgeHeat.Sound := by
  unfold State.judgeHeat
  extract_lets hot _ s1
  split
  · exact h.of_kept (by simp [s1])
  split
  · exact (State.Sound.retryLate (h.of_kept (s.setPower_kept _))).of_kept (State.repick_kept _)
  · exact h

theorem State.Sound.execThermalRead (h : s.Sound) (c : Cluster) (temp : Int) : SoundOutcome (execThermalRead c temp s) := by
  unfold Machine.execThermalRead
  split
  · exact h.next
  · exact (State.Sound.judgeHeat (h.of_kept (State.kept_mk ..))).next

theorem State.Sound.execPowerExitDone (h : s.Sound) (c : Cluster) : SoundOutcome (execPowerExitDone c s) := by
  unfold Machine.execPowerExitDone
  extract_lets p s1 s2 what s3 s4
  split
  · exact h.next
  · have h4 : s4.Sound := h.of_kept (by simp [s4, s3, s2, s1])
    exact ((State.Sound.tryLate (h4.of_kept s4.leaveL12_kept) _).of_kept (State.repick_kept _)).next

/-! ### Faults of blocks, which interrupt a routine (R273) -/

theorem State.Sound.execRefclkLoss (h : s.Sound) (running : Option Routine) : SoundOutcome (execRefclkLoss s running) := by
  unfold Machine.execRefclkLoss
  split
  · exact h.next
  · have ht := h.of_kept (t := { s with pwr := { s.pwr with refclkOk := false, bcIntosc := true, pllLost := s.pwr.pllLost || s.pwr.phase ≠ .held } })
      (State.kept_mk ..)
    exact (State.Sound.ite (ht.collectOver _ _) ht).next

theorem State.Sound.execLvlScDetect (h : s.Sound) (c : Cluster) (r : Lane) (running : Option Routine) :
    SoundOutcome (execLvlScDetect c r s running) := by
  unfold Machine.execLvlScDetect
  extract_lets x s1 s2
  split
  · exact h.next
  · have h2 : s2.Sound := h.of_kept (by simp [s2, s1])
    exact (h2.ite (h2.collectOver _ _)).next

theorem State.Sound.execThermTrip (h : s.Sound) (c : Cluster) (running : Option Routine) : SoundOutcome (execThermTrip c s running) := by
  unfold Machine.execThermTrip
  split
  · exact h.next
  · exact (State.Sound.collectOver (h.of_kept (State.kept_mk ..)) _ _).next

theorem State.Sound.execFaultReport (h : s.Sound) (events : List FaultEvent) (running : Option Routine) :
    SoundOutcome (execFaultReport events running s) := by
  unfold Machine.execFaultReport
  extract_lets es
  split
  · exact h.next
  · exact (h.collectOver _ _).next

theorem State.Sound.losePin (h : s.Sound) (p : Pin) (running : Option Routine) : (s.losePin p running).Sound := by
  unfold State.losePin
  extract_lets c off _ s1
  have h1 : s1.Sound := h.of_kept (by simp [s1])
  exact State.Sound.collectOver (h1.of_kept (State.updCl_kept ..)) _ _

theorem State.Sound.execCompanionPoll (h : s.Sound) (p : Pin) (answered : Bool) (running : Option Routine) :
    SoundOutcome (execCompanionPoll p answered s running) := by
  unfold Machine.execCompanionPoll
  split
  · exact h.next
  extract_lets s1 n _ s2
  have h2 : s2.Sound := h.of_kept (by simp [s2, s1])
  split
  · exact (h2.losePin p running).next
  · exact (h2.of_kept (by simp)).next

theorem State.Sound.execSupplyOutOfRange (h : s.Sound) (rail : Byte) (mv : BitVec 16) (running : Option Routine) :
    SoundOutcome (execSupplyOutOfRange rail mv s running) := by
  unfold Machine.execSupplyOutOfRange
  extract_lets known _ s1
  have h1 : s1.Sound := h.of_kept (by simp [s1])
  exact (h1.ite (h1.collectOver _ _)).next

theorem State.Sound.execPllUnlock (h : s.Sound) (p : Pll) (running : Option Routine) : SoundOutcome (execPllUnlock p s running) := by
  unfold Machine.execPllUnlock
  split
  · exact h.next
  · exact (h.collectOver _ _).next

theorem State.Sound.execHbmFail (h : s.Sound) (running : Option Routine) : SoundOutcome (execHbmFail s running) := by
  unfold Machine.execHbmFail
  split
  · exact h.next
  · exact (State.Sound.collectOver (h.of_kept (State.kept_mk ..)) _ _).next

theorem State.Sound.execCfgParity (h : s.Sound) (c : Cluster) (kind : Fin 4) (running : Option Routine) :
    SoundOutcome (execCfgParity c kind s running) := by
  unfold Machine.execCfgParity
  split
  · exact h.next
  · exact (h.collectOver _ _).next

/-! ### Every command, and every step -/

theorem State.Sound.exec (h : s.Sound) (i : Instr) : SoundOutcome (exec i s) := by
  cases i with
  | resetFunction p => exact h.execResetFunction p
  | timingSetWrite p => exact h.execTimingSetWrite p
  | levelSetWrite p => exact h.execLevelSetWrite p
  | pinFormatWrite p => exact h.execPinFormatWrite p
  | clockPinSet p => exact h.execClockPinSet p
  | genCommit p => exact h.execGenCommit p
  | genRevert p => exact h.execGenRevert p
  | genDiscard p => exact h.execGenDiscard p
  | seqLoad p => exact h.execSeqLoad p
  | burstCommit p => exact h.execBurstCommit p
  | burstStart p => exact h.execBurstStart p
  | siteGang p => exact h.execSiteGang p
  | captureConfig p => exact h.execCaptureConfig p
  | acqArm p => exact h.execAcqArm p
  | acqForce p => exact h.execAcqForce p
  | tdcConfig p => exact h.execTdcConfig p
  | abort p r => exact h.execAbort p r
  | scInternalCommand r => exact h.execScInternalCommand r
  | rechain k r => exact h.execRechain k r
  | machineCheck a b c u l => exact h.execMachineCheck a b c u l
  | doorbellSqTail f r v w x => exact h.execDoorbellSqTail f r v w x
  | hstOwnerWrite i v => exact h.execHstOwnerWrite i v
  | registerWrite f a v w b => exact h.execRegisterWrite f a v w b
  | warmReset v => exact h.execWarmReset v
  | porstAssert => exact h.execPorstAssert
  | perstAssert => exact h.execPerstAssert
  | bootStart b c o => exact h.execBootStart b c o
  | tryBootTimeout b c o => exact h.execTryBootTimeout b c o
  | functionLevelReset f => exact h.execFunctionLevelReset f
  | refclkLoss r => exact h.execRefclkLoss r
  | ocxoReadyChange l => exact h.execOcxoReadyChange l
  | armPoint k => exact h.execArmPoint k
  | burstEnd k => exact h.execBurstEnd k
  | lvlScDetect c r x => exact h.execLvlScDetect c r x
  | thermalRead c t => exact h.execThermalRead c t
  | thermTrip c r => exact h.execThermTrip c r
  | faultReport es r => exact h.execFaultReport es r
  | powerExitDone c => exact h.execPowerExitDone c
  | companionPoll p a r => exact h.execCompanionPoll p a r
  | supplyOutOfRange r m x => exact h.execSupplyOutOfRange r m x
  | pllUnlock p r => exact h.execPllUnlock p r
  | hbmFail r => exact h.execHbmFail r
  | cfgParity c k r => exact h.execCfgParity c k r
  | _ => exact h.outcome (by simp [Machine.exec])

theorem State.Sound.step (h : s.Sound) (e : step s = .next t) : t.Sound := by
  unfold Machine.step at e
  split at e
  · exact State.Sound.exec (h.of_kept (State.kept_mk ..)) _ t e
  · cases e
    exact h.of_kept s.idle_kept

end
end Sys2Proof.Machine

namespace Sys2Proof.Claims
open Sys2Proof.Machine

/-- Settles O1: the two branches of `step`. -/
theorem stepRunsFrontOfQueue : Obligations.StepRunsFrontOfQueue := by
  unfold Obligations.StepRunsFrontOfQueue
  refine ⟨fun c rest s => rfl, fun s h => ?_⟩
  rw [step, h]

/-- Settles O59: after power-on each cluster is a site of its own, and the slots carry the numbers 1 and 2. -/
theorem resetKeepsTheInvariant : Obligations.ResetKeepsTheInvariant := by
  unfold Obligations.ResetKeepsTheInvariant
  obtain ⟨sites, gens, recent⟩ := State.reset_sound
  exact ⟨sites, gens, recent⟩

/-- Settles O60: each command keeps what the invariant reads, or touches it by an operation that keeps sites and numbers. -/
theorem everyStepKeepsTheInvariant : Obligations.EveryStepKeepsTheInvariant := by
  unfold Obligations.EveryStepKeepsTheInvariant
  intro s t sites gens recent e
  obtain ⟨sites', gens', recent'⟩ := State.Sound.step ⟨sites, gens, recent⟩ e
  exact ⟨sites', gens', recent'⟩

end Sys2Proof.Claims

namespace Sys2Proof.Claims
open Sys2Proof.Machine

/-- Refutes O22: a port that is the first one enabled starts the rope PLL's lock time (R376), which the statement's frame leaves out. -/
theorem not_ropeConfigAndTest : ¬ Obligations.RopeConfigAndTest := by
  unfold Obligations.RopeConfigAndTest
  rintro ⟨config, -⟩
  obtain ⟨t, run, frame, -⟩ := (config bench (benchPacket 2 0 [0, 1, 2]) 0 (by decide +kernel) (by decide +kernel) (by decide +kernel)
    (by decide +kernel) (by decide +kernel)).2 (by decide +kernel) (by decide +kernel)
  have clock : (stateOf bench (exec (.ropeConfig (benchPacket 2 0 [0, 1, 2])) bench)).rope.clockAt ≠ 0 := by decide +kernel
  rw [stateOf_exec run, frame] at clock
  exact clock rfl

end Sys2Proof.Claims

namespace Sys2Proof.Machine

/-! ## Fields and checks of a payload (R240) -/

theorem leNat_lt (l : List Byte) : leNat l < 256 ^ l.length := by
  induction l with
  | nil => simp [leNat]
  | cons b l ih =>
    have hb := b.isLt
    simp only [leNat, List.length_cons, pow_succ] at ih ⊢
    omega

theorem fieldAt_lt (b : List Byte) (off n : Nat) : fieldAt b off n < 256 ^ n :=
  (leNat_lt _).trans_le (Nat.pow_le_pow_right (by decide) (List.length_take_le _ _))

theorem leNat_eq_zero (l : List Byte) (h : ∀ b ∈ l, b = 0) : leNat l = 0 := by
  induction l with
  | nil => rfl
  | cons b l ih =>
    obtain ⟨hb, hl⟩ := List.forall_mem_cons.1 h
    rw [leNat, hb, ih hl]
    rfl

/-- Bytes within reserved bytes that are 0 are 0. -/
theorem zeroAt_mono {b : List Byte} {n : Nat} (h : zeroAt b 0 n = true) (off m : Nat) (hm : off + m ≤ n) : zeroAt b off m = true := by
  simp only [zeroAt, List.drop_zero, List.all_eq_true, beq_iff_eq] at h ⊢
  intro x hx
  refine h x ?_
  have : (b.drop off).take m = ((b.take n).drop off).take m := by
    rw [List.drop_take, List.take_take, Nat.min_eq_left (by omega)]
  rw [this] at hx
  exact List.mem_of_mem_drop (List.mem_of_mem_take hx)

theorem fieldAt_zero_of_zeroAt {b : List Byte} {n : Nat} (h : zeroAt b 0 n = true) (off m : Nat) (hm : off + m ≤ n) : fieldAt b off m = 0 := by
  have := zeroAt_mono h off m hm
  simp only [zeroAt, List.all_eq_true, beq_iff_eq] at this
  exact leNat_eq_zero _ this

/-- The fields of a list of checks go through when each of them does. -/
theorem checked_eq_ok_iff {α : Type} (l : List (Nat × Bool)) (v a : α) : checked l v = .ok a ↔ (∀ x ∈ l, x.2 = true) ∧ v = a := by
  have bad : firstBad l = none ↔ ∀ x ∈ l, x.2 = true := by simp [firstBad]
  unfold checked
  rw [← bad]
  cases firstBad l <;> simp

theorem State.parsed_ok {α : Type} (s : State) (r : Except Nat α) (a : α) (k : α → Ending) (h : r = .ok a) : s.parsed r k = k a := by
  rw [h, State.parsed]

theorem State.parsed_checked {α : Type} (s : State) (l : List (Nat × Bool)) (v : α) (k : α → Ending) (h : ∀ x ∈ l, x.2 = true) :
    s.parsed (checked l v) k = k v :=
  s.parsed_ok _ _ _ ((checked_eq_ok_iff l v v).2 ⟨h, rfl⟩)

/-! ## Replies while no machine check holds (R226, R271, R277) -/

/-- The reply posted, as it is while no machine check holds. -/
def State.posted (s : State) (f : Func) (r : Reply) : State :=
  let q := (s.host.fn[f]).rq
  (s.endRoutine.writeHost (q.base + BitVec.ofNat 64 (32 * q.tail)) r.bytes).updFn f fun h =>
    { h with replies := h.replies ++ [r], rq := { h.rq with tail := (h.rq.tail + 1) % h.rq.entries } }

theorem State.reply_eq_posted (s : State) (f : Func) (r : Reply) (h : s.cmd.mcheck = none) : s.reply f r = s.posted f r := by
  simp [State.reply, State.posted, h]

/-! ## The clusters a TARGET names -/

theorem maskClusters_nodup (m : BitVec 16) : (maskClusters m).Nodup := (List.nodup_finRange 12).filter _

theorem State.members_nodup (s : State) (k : Cluster) : (s.members k).Nodup := (List.nodup_finRange 12).filter _

theorem State.target_nodup (s : State) (form : Form) (t : BitVec 16) (cl : List Cluster) (h : s.target form t = some cl) : cl.Nodup := by
  unfold State.target at h
  cases form <;> dsimp only at h
  case none => split at h <;> simp_all
  case func => split at h <;> simp_all
  case site =>
    split at h
    · split at h
      · cases h
        exact s.members_nodup _
      · cases h
    · cases h
  all_goals
    split at h
    · cases h
      exact maskClusters_nodup t
    · cases h

/-- An update of each cluster of a list that names none twice. -/
theorem State.foldl_updGen_get (s : State) (cl : List Cluster) (f : GenSlots → GenSlots) (hn : cl.Nodup) (c : Cluster) :
    (cl.foldl (fun s c => s.updGen c f) s).gens[c] = if c ∈ cl then f s.gens[c] else s.gens[c] := by
  induction cl generalizing s with
  | nil => rfl
  | cons d cl ih =>
    obtain ⟨hd, hn⟩ := List.nodup_cons.1 hn
    rw [List.foldl_cons, ih _ hn, State.updGen_gens, upd_get]
    by_cases e : d = c
    · subst e
      simp [hd]
    · simp [e, Ne.symm e]

theorem State.foldl_updGen_eq (s : State) (cl : List Cluster) (f : GenSlots → GenSlots) :
    cl.foldl (fun s c => s.updGen c f) s = { s with gens := (cl.foldl (fun s c => s.updGen c f) s).gens } := by
  induction cl generalizing s with
  | nil => rfl
  | cons d cl ih => exact ih (s.updGen d f)

/-- The slots of a cluster with its shadow's configuration rewritten (R249). -/
def GenSlots.rewrite (f : ClusterConfig → ClusterConfig) (g : GenSlots) : GenSlots := { g with shadow := { g.shadow with config := f g.shadow.config } }

theorem State.writeShadow_eq (s : State) (cl : List Cluster) (f : ClusterConfig → ClusterConfig) :
    s.writeShadow cl f = { s with gens := (s.writeShadow cl f).gens } :=
  s.foldl_updGen_eq cl (GenSlots.rewrite f)

theorem State.writeShadow_get (s : State) (cl : List Cluster) (f : ClusterConfig → ClusterConfig) (hn : cl.Nodup) (c : Cluster) :
    (s.writeShadow cl f).gens[c] = if c ∈ cl then (s.gens[c]).rewrite f else s.gens[c] :=
  s.foldl_updGen_get cl (GenSlots.rewrite f) hn c

end Sys2Proof.Machine

namespace Sys2Proof.Claims
open Sys2Proof.Machine

variable {s : State} {o : OpSpec} {p : Packet} {cl : List Cluster} {owns : Option Nat} {body : List Cluster → State → Ending} {i : Instr}
  {P : State → Prop}

/-- A packet the stages let through completes with its body's verdict. -/
theorem Completes.packet (hp : PassesOwner s o p cl owns) (hi : exec i s = .next (s.runPacket o p owns body)) (e : Ending)
    (he : body cl (s.fetch o.opcode p) = e) (hP : P (e.state.reply p.func (e.reply o p cl))) : Completes i s P := by
  obtain ⟨hf, -, hfr, ht, hr, hg, hb⟩ := hp
  exact ⟨_, by rw [hi, s.runPacket_passes o p cl owns body hf hfr ht hr hg hb, he], hP⟩

theorem served_eq_posted (hm : s.cmd.mcheck = none) (op : Nat) (r : Reply) : served s op p r = (s.fetch op p).posted p.func r :=
  State.reply_eq_posted _ _ _ (by rw [State.fetch_mcheck, hm])

theorem genField_shadow (s : State) (cl : List Cluster) : s.genField .shadow cl = shadowOf s cl := by
  cases cl <;> rfl

/-- A packet whose body leaves the state as it is changes nothing but its reply. -/
theorem Completes.replies (hp : PassesOwner s o p cl owns) (hi : exec i s = .next (s.runPacket o p owns body)) (e : Ending)
    (he : body cl (s.fetch o.opcode p) = e) (hs : e.state = s.fetch o.opcode p) :
    Completes i s fun t => t = served s o.opcode p
      { tag := p.tag, opcode := BitVec.ofNat 16 o.opcode, code := BitVec.ofNat 8 e.code, ring := p.ring, gen := e.gen.getD (s.genField o.gen cl),
        dkind := BitVec.ofNat 8 e.dkind, detail := BitVec.ofNat 32 e.detail, data := data16 e.data } := by
  refine Completes.packet hp hi e he ?_
  rw [Ending.reply, hs, State.fetch_genField, served]

/-- A packet whose body writes records into the shadow of the clusters it names (R249). -/
theorem Completes.shadowWritten (hp : PassesOwner s o p cl owns) (hi : exec i s = .next (s.runPacket o p owns body))
    (f : ClusterConfig → ClusterConfig) (hgen : o.gen = .shadow) (he : body cl (s.fetch o.opcode p) = ((s.fetch o.opcode p).writeShadow cl f).done) :
    Completes i s fun t => ShadowWritten s t o.opcode p cl f := by
  have hn := s.target_nodup _ _ _ hp.2.2.2.1
  have hm : s.cmd.mcheck = none := hp.2.1
  refine Completes.packet hp hi _ he ?_
  have shadow : ((s.fetch o.opcode p).writeShadow cl f).genField o.gen cl = shadowOf s cl := by
    rw [hgen]
    cases cl with
    | nil => rfl
    | cons c cl =>
      simp only [State.genField, shadowOf, State.writeShadow_get _ _ _ hn, List.mem_cons_self, if_true, State.fetch_gens]
      rfl
  have hr : (((s.fetch o.opcode p).writeShadow cl f).done).reply o p cl = answer p o.opcode 0x00 (shadowOf s cl) [] := by
    rw [← shadow]
    rfl
  rw [hr]
  have he := (s.fetch o.opcode p).writeShadow_eq cl f
  change ShadowWritten s (((s.fetch o.opcode p).writeShadow cl f).reply p.func _) o.opcode p cl f
  rw [State.reply_eq_posted _ _ _ (by rw [he]; simpa using hm)]
  refine ⟨?_, fun c => ?_⟩
  · rw [served_eq_posted hm, he]
    rfl
  · change ((s.fetch o.opcode p).writeShadow cl f).gens[c] = _
    rw [State.writeShadow_get _ _ _ hn, State.fetch_gens]
    rfl

end Sys2Proof.Claims

namespace Sys2Proof.Claims
open Sys2Proof.Machine

section
variable {s : State} {p : Packet} {cl : List Cluster}

/-- Settles O4: each parser accepts its record, and the crux point writes it into the shadow of the clusters named. -/
theorem shadowRecordsWritten : Obligations.ShadowRecordsWritten := by
  unfold Obligations.ShadowRecordsWritten
  refine ⟨?timing, ?levels, ?format, ?clock⟩
  case timing =>
    intro s p cl ts hp hset hzero hts
    refine Completes.shadowWritten (o := { opcode := 0x0100, form := .clusters, units := 31, gen := .shadow }) hp rfl _ rfl ?_
    rw [State.timingSetWrite, State.parsed_checked _ _ _ _ (by simp [below, isZero, hset, hzero])]
    simp only [hts]
  case levels =>
    intro s p cl l hp hset hzero hl
    have ne : fieldAt p.payload 0 1 ≠ 0xFF := by omega
    refine Completes.shadowWritten (o := { opcode := 0x0101, form := .clusters, units := 6, gen := .shadow })
      (body := fun cl s => s.levelSetWrite p.payload cl) hp ?_ _ rfl ?_
    · change execLevelSetWrite p s = _
      simp [execLevelSetWrite, ne, hset]
    · simp only [State.levelSetWrite]
      rw [State.parsed_checked _ _ _ _ (by simp [isZero, hzero]), if_neg ne, State.parsed_ok _ _ _ _ hl]
  case format =>
    intro s p cl hp hset hzero
    refine Completes.shadowWritten (o := { opcode := 0x0102, form := .clusters, units := 2, gen := .shadow }) hp rfl _ rfl ?_
    rw [State.parsed_checked _ _ _ _ (by simp [below, isZero, hset, hzero])]
  case clock =>
    intro s p cl j c hp hc hfw
    refine Completes.shadowWritten (o := { opcode := 0x0103, form := .clusters, units := 2, gen := .shadow }) hp rfl _ rfl ?_
    obtain ⟨checks, e⟩ := (checked_eq_ok_iff _ _ _).1 hc
    have word : (BitVec.ofNat 48 (fieldAt p.payload 4 6)).toNat = fieldAt p.payload 4 6 := Nat.mod_eq_of_lt (fieldAt_lt _ 4 6)
    simp only [List.forall_mem_cons, below, isZero, decide_eq_true_eq, Bool.or_eq_true] at checks
    obtain ⟨pin, enable, -, -, zero, -⟩ := checks
    cases e
    simp only [ClockPin.fwOk, word, Bool.or_eq_true, Bool.not_eq_true', Bool.and_eq_true, decide_eq_true_eq] at hfw
    dsimp only [State.clockPinSet]
    rw [if_neg (by simp; omega), if_neg, State.parsed_ok _ _ _ _ hc]
    simp only [zero, Bool.or_eq_true, Bool.and_eq_true, decide_eq_true_eq, Bool.not_true, Bool.false_eq_true, or_false, not_or, not_and]
    refine ⟨fun on => ?_, by omega⟩
    rw [on] at hfw
    simp only [Bool.true_eq_false, false_or] at hfw
    omega

end

/-- Settles O5: RAIL_EN is byte 0 of the record, and a reserved byte that is not 0 is refused at its offset. -/
theorem railControlRecord : Obligations.RailControlRecord := by
  unfold Obligations.RailControlRecord
  refine ⟨?written, ?refused⟩
  case written =>
    intro s p cl hp hset hzero hrest
    refine Completes.shadowWritten (o := { opcode := 0x0101, form := .clusters, units := 3, gen := .shadow })
      (body := fun cl s => s.levelSetWrite p.payload cl) hp ?_ _ rfl ?_
    · change execLevelSetWrite p s = _
      simp [execLevelSetWrite, hset]
    · simp only [State.levelSetWrite]
      rw [State.parsed_checked _ _ _ _ (by simp [isZero, hzero]), if_pos hset, State.parsed_checked _ _ _ _ (by simp [isZero, hrest])]
  case refused =>
    intro s p cl hp hset hzero hrest
    rw [← genField_shadow]
    refine Completes.replies (o := { opcode := 0x0101, form := .clusters, units := 3, gen := .shadow })
      (body := fun cl s => s.levelSetWrite p.payload cl) hp ?_ ((s.fetch 0x0101 p).badField 17) ?_ rfl
    · change execLevelSetWrite p s = _
      simp [execLevelSetWrite, hset]
    · simp only [State.levelSetWrite]
      rw [State.parsed_checked _ _ _ _ (by simp [isZero, hzero]), if_pos hset]
      simp [State.parsed, checked, firstBad, isZero, hrest]

/-- Settles O6: each parser accepts its record; a pair entry goes into the pair table alone. -/
theorem captureAndProgramRecordsWritten : Obligations.CaptureAndProgramRecordsWritten := by
  unfold Obligations.CaptureAndProgramRecordsWritten
  refine ⟨?capture, ?arm, ?force, ?tdc, ?pair⟩
  case capture =>
    intro s p cl c hp hc
    refine Completes.shadowWritten (o := { opcode := 0x0400, form := .clusters, units := 2, gen := .shadow }) hp rfl _ rfl ?_
    rw [State.parsed_ok _ _ _ _ hc]
  case arm =>
    intro s p cl a hp ha hzero
    refine Completes.shadowWritten (o := { opcode := 0x0401, form := .clusters, units := 4, gen := .shadow }) hp rfl _ rfl ?_
    rw [State.acqWrite, State.parsed_ok _ _ _ _ ha, State.parsed_checked _ _ _ _ (by simp [isZero, hzero])]
  case force =>
    intro s p cl a hp ha hzero
    refine Completes.shadowWritten (o := { opcode := 0x0402, form := .clusters, units := 4, gen := .shadow }) hp rfl _ rfl ?_
    rw [State.acqWrite, State.parsed_ok _ _ _ _ ha, State.parsed_checked _ _ _ _ (by simp [isZero, hzero])]
  case tdc =>
    intro s p cl x hp hzero hx
    have kind : fieldAt p.payload 0 1 = 0 := fieldAt_zero_of_zeroAt hzero 0 1 (by decide)
    refine Completes.shadowWritten (o := { opcode := 0x0500, form := .clusters, units := 22, gen := .shadow })
      (body := fun cl s => s.tdcConfig p.payload cl) hp ?_ _ rfl ?_
    · change execTdcConfig p s = _
      simp [execTdcConfig, kind]
    · have rest (off n : Nat) (h : off + n ≤ 16) : zeroAt p.payload off n = true := zeroAt_mono hzero off n h
      dsimp only [State.tdcConfig]
      rw [if_pos kind, State.parsed_checked _ _ _ _ (by simp [isZero, rest]), State.parsed_ok _ _ _ _ hx]
  case pair =>
    intro s p e hp hkind hn hfirst hzero he
    have noKind : fieldAt p.payload 0 1 ≠ 0 := by omega
    have noMcheck : s.cmd.mcheck = none := hp.2.1
    refine Completes.packet (o := { opcode := 0x0500, form := .none, units := 3, gen := .shadow })
      (body := fun cl s => s.tdcConfig p.payload cl) hp ?_
      { s.fetch 0x0500 p with pairs := updN s.pairs (fieldAt p.payload 1 1) fun _ => e }.done ?_ ?_
    · change execTdcConfig p s = _
      simp [execTdcConfig, hkind, hn]
    · dsimp only [State.tdcConfig]
      rw [if_neg noKind, State.parsed_checked _ _ _ _ (by simp [below, isZero, hfirst, hzero, hn]), hn]
      simp [State.parsed, he]
    · rw [State.done, State.reply_eq_posted _ _ _ (by simpa using noMcheck), served_eq_posted noMcheck]
      refine ⟨rfl, fun n => ?_⟩
      change (updN s.pairs (fieldAt p.payload 1 1) fun _ => e)[n] = _
      rw [updN_get]
      simp only [eq_comm]

end Sys2Proof.Claims

namespace Sys2Proof.Claims
open Sys2Proof.Machine

/-- A BURST_DONE of site 0 is due, and the collector's cycle in hand has HALT_CLUSTER for cluster 0 to issue, where a start is pending. -/
def halting : State :=
  { bench with
    sched := { bench.sched with due := [{ type := .burstDone, prio := 0, flow := 0, site := some 0, source := 0 }] }
    seqs := upd bench.seqs 0 fun q => { q with start := some { mode := .asap, seq := 0, sched := none } }
    flt := { bench.flt with taking := some ⟨bench.collectorCycle.1, true, none, [], 0, [],
      [{ event := ⟨8, 1, 0⟩, injected := false, rc := .haltCluster, stamp := 0, issued := true }]⟩ } }

/-- Refutes O41: the nanosecond in which a BURST_DONE reaches the scheduler may end a cycle of the collector, whose reaction cancels a pending start
(R345). -/
theorem not_burstsEnd : ¬ Obligations.BurstsEnd := by
  unfold Obligations.BurstsEnd
  rintro ⟨-, -, -, posted⟩
  have cancelled : (halting.idle.seqs[(0 : Cluster)]).start = none := by decide +kernel
  obtain ⟨t, run, -, -, -, -, -, seqs⟩ := posted halting _ 0 (by decide +kernel) rfl (by decide +kernel) (by decide +kernel) (by decide +kernel)
    (by decide +kernel) (by decide +kernel) (by decide +kernel) (by decide +kernel) (by decide +kernel)
  rw [Host.Outcome.next.inj ((stepRunsFrontOfQueue.2 halting rfl).symm.trans run), seqs] at cancelled
  exact absurd cancelled (by decide +kernel)

end Sys2Proof.Claims

namespace Sys2Proof.Machine

/-! ## An update of each place of a list that names none twice -/

theorem foldl_upd_get {α : Type} {n : Nat} (l : List (Fin n)) (f : Fin n → α → α) (v : Vector α n) (hn : l.Nodup) (i : Fin n) :
    (l.foldl (fun v i => upd v i (f i)) v)[i] = if i ∈ l then f i v[i] else v[i] := by
  induction l generalizing v with
  | nil => rfl
  | cons d l ih =>
    obtain ⟨hd, hn⟩ := List.nodup_cons.1 hn
    rw [List.foldl_cons, ih _ hn, upd_get]
    by_cases e : d = i
    · subst e
      simp [hd]
    · simp [e, Ne.symm e]

theorem State.foldl_updCl (s : State) (l : List Cluster) (f : Cluster → ClusterEng → ClusterEng) :
    l.foldl (fun s c => s.updCl c (f c)) s = { s with cl := l.foldl (fun v c => upd v c (f c)) s.cl } := by
  induction l generalizing s with
  | nil => rfl
  | cons d l ih => exact ih (s.updCl d (f d))

/-! ## Fetching and posting, field by field (R223, R226) -/

/-- The microwords a routine draws hang on the store and the working registers alone. -/
theorem CmdEngine.wordsFrom_congr {e e' : CmdEngine} (h : e.stored = e'.stored) (stop : Option (BitVec 14)) (n : Nat) (m : Micro) :
    e.wordsFrom stop n m = e'.wordsFrom stop n m := by
  induction n generalizing m with
  | zero => rfl
  | succ n ih => simp only [CmdEngine.wordsFrom, h, ih]

theorem CmdEngine.words_congr {e e' : CmdEngine} (h : e.store = e'.store) (hs : e.struck = e'.struck) (hm : e.micro = e'.micro) (op : BitVec 16)
    (stop : Option (BitVec 14)) : e.words op stop = e'.words op stop := by
  have stored : e.stored = e'.stored := by
    funext a
    simp only [CmdEngine.stored, h, hs]
  rw [CmdEngine.words, CmdEngine.words, CmdEngine.wordsFrom_congr stored, hm]

/-- Fetching a packet from its ring moves the ring's head and its pointer. -/
theorem State.fetch_of_ring (s : State) (op : Nat) (p : Packet) (h : s.restartOf op p = none) :
    s.fetch op p =
      let n := pktLen p - ((s.host.fn[p.func]).sq[p.ring]).part
      let t := ((s.movePtr p.func p.ring).readRing p.func p.ring n).updFn p.func fun h => { h with sq := upd h.sq p.ring fun r => r.consume (pktLen p) }
      { t with cmd := { t.cmd with opcode := BitVec.ofNat 16 op, run := 0, running := true, deferAll := false,
                                   micro := s.cmd.words (BitVec.ofNat 16 op) none } } := by
  have words := CmdEngine.words_congr (e := (s.movePtr p.func p.ring).cmd) (e' := s.cmd) rfl rfl rfl (BitVec.ofNat 16 op) none
  unfold State.fetch
  rw [h, ← words]
  rfl

/-- Fetching a packet from the restart slot touches no ring. -/
theorem State.fetch_of_slot (s : State) (op : Nat) (p : Packet) (x : Routine) (n : Nat) (h : s.restartOf op p = some (x, n)) :
    s.fetch op p =
      { s with cmd := { s.cmd with opcode := BitVec.ofNat 16 op, run := BitVec.ofNat 2 (min n 3), running := true, deferAll := decide (3 ≤ n),
                                   slot := s.cmd.slot.tail, micro := s.cmd.words (BitVec.ofNat 16 op) none } } := by
  unfold State.fetch
  rw [h]

@[simp] theorem State.updFn_get (s : State) (f g : Func) (u : HostFunc → HostFunc) :
    (s.updFn f u).host.fn[g] = if f = g then u s.host.fn[g] else s.host.fn[g] := by
  refine (upd_get _ _ _ _).trans ?_
  split
  next e => rw [e]
  next => rfl

/-- What a fetch from its ring leaves of the device: the rings, the requests for the packet, and the engine's state. -/
theorem State.fetch_of_ring_eq (s : State) (op : Nat) (p : Packet) (h : s.restartOf op p = none) :
    s.fetch op p =
      let q := (s.host.fn[p.func]).sq[p.ring]
      let n := pktLen p - q.part
      { s with
        host := { s.host with fn := (s.fetch op p).host.fn, reads := s.host.reads ++ q.requests (128 * 2 ^ s.host.mrrs.val) n q.head n }
        pwr := { s.pwr with quiet := s.now }
        cmd := { s.cmd with
          ptr := upd s.cmd.ptr p.ring fun _ => if 2 ≤ (s.requesters p.ring).length then p.func.val + 1 else 0
          opcode := BitVec.ofNat 16 op
          run := 0
          running := true
          deferAll := false
          micro := s.cmd.words (BitVec.ofNat 16 op) none } } := by
  rw [State.fetch_of_ring _ _ _ h]
  rfl

theorem State.fetch_of_ring_fn (s : State) (op : Nat) (p : Packet) (h : s.restartOf op p = none) (f : Func) :
    (s.fetch op p).host.fn[f] =
      if p.func = f then { s.host.fn[f] with sq := upd (s.host.fn[f]).sq p.ring fun r => r.consume (pktLen p) } else s.host.fn[f] := by
  rw [State.fetch_of_ring _ _ _ h]
  exact State.updFn_get ..

/-- A function's rings with a reply posted at the tail of its reply ring (R226). -/
def HostFunc.answered (h : HostFunc) (r : Reply) : HostFunc :=
  { h with replies := h.replies ++ [r], rq := { h.rq with tail := (h.rq.tail + 1) % h.rq.entries } }

theorem State.posted_fn (s : State) (f g : Func) (r : Reply) :
    (s.posted f r).host.fn[g] = if f = g then (s.host.fn[g]).answered r else s.host.fn[g] :=
  State.updFn_get ..

/-- A packet stage 4 refuses changes nothing but its reply (R240, R241). -/
theorem State.runPacket_generation (s : State) (o : OpSpec) (p : Packet) (owns : Option Nat) (body : List Cluster → State → Ending)
    (cl : List Cluster) (c : Cluster) (hf : s.fetchable o.opcode p = true) (hfr : s.frameFault o p = none)
    (ht : s.target o.form p.target = some cl) (hr : s.roleFault o p cl owns = none) (hg : genCheck p = true)
    (hc : ((maskClusters p.target).find? fun c => (s.gens[c]).shadow.number ≠ p.expectGen) = some c) :
    s.runPacket o p owns body
      = (s.fetch o.opcode p).reply p.func
          (({ code := 0x14, dkind := 5, detail := c.val, state := s.fetch o.opcode p } : Ending).reply o p cl) := by
  simp only [State.runPacket, hf, State.stages, State.fetch_frameFault, hfr, State.fetch_target, ht, Option.getD_some,
    State.fetch_roleFault, hr, State.fetch_gens, hg, if_true, hc]
  rfl

/-- One unit is one request (R223). -/
theorem SubRing.requests_one (q : SubRing) (most at_ : Nat) (h : 128 ≤ most) :
    q.requests most 1 at_ 1 = [⟨q.base + BitVec.ofNat 64 (16 * (at_ % q.units)), 16⟩] := by
  have room : at_ % q.units < q.units := Nat.mod_lt _ (Nat.two_pow_pos _)
  have one : min (min 1 (most / 16)) (q.units - at_ % q.units) = 1 := by omega
  simp [SubRing.requests, one]

/-! ## What IDENTIFY returns (R247) -/

theorem State.fetch_identity (s : State) (op : Nat) (p : Packet) (f : Func) : (s.fetch op p).identity f = s.identity f := by
  simp only [State.identity, State.fwVersion, State.ropeLevel, State.ownedMask, State.fetch_sec, State.fetch_owns]

theorem State.identity_eq (s : State) (f : Func) :
    s.identity f = leBytes 8 Config.serial.toNat ++ leBytes 4 (u32At s.sec.header 4).toNat ++ [0xB0] ++ leBytes 1 s.ropeLevel
      ++ leBytes 2 ((List.finRange 12).map fun (c : Fin 12) => if s.host.owner[c] = f then 2 ^ c.val else 0).sum := by
  have one : leBytes 1 0xB0 = [0xB0] := by decide
  simp only [State.identity, State.fwVersion, State.ownedMask, bitAt, State.owns, decide_eq_true_eq, one]

end Sys2Proof.Machine

namespace Sys2Proof.Claims
open Sys2Proof.Machine

/-- Settles O9: the parser's failure goes to the status of each named cluster, whose shadow stays. -/
theorem refusedTimingSetChangesNothing : Obligations.RefusedTimingSetChangesNothing := by
  unfold Obligations.RefusedTimingSetChangesNothing
  intro s p cl f hp hset hzero hf
  have hn := s.target_nodup _ _ _ hp.2.2.2.1
  have noMcheck : s.cmd.mcheck = none := hp.2.1
  refine Completes.packet (o := { opcode := 0x0100, form := .clusters, units := 31, gen := .shadow }) hp rfl ((s.fetch 0x0100 p).badTiming cl f) ?_ ?_
  · rw [State.timingSetWrite, State.parsed_checked _ _ _ _ (by simp [below, isZero, hset, hzero])]
    simp only [hf]
  · have e := (s.fetch 0x0100 p).foldl_updCl cl fun _ (x : ClusterEng) =>
      { x with tim := { x.tim with lastCheck := BitVec.ofNat 4 f.check, lastTset := BitVec.ofNat 6 f.tset,
                                   lastTo := BitVec.ofNat 6 f.dst, lastPin := BitVec.ofNat 3 f.pin } }
    rw [State.badTiming, Ending.reply, State.badParam, State.timRefuse, e, State.reply_eq_posted _ _ _ (by simpa using noMcheck),
      served_eq_posted noMcheck, refusal, ← genField_shadow, ← State.fetch_genField s 0x0100 p]
    refine ⟨rfl, fun c => ?_⟩
    refine (foldl_upd_get cl _ _ hn c).trans ?_
    rw [State.fetch_cl]

/-- Settles O2: the bodies leave the state alone; fetching and posting, field by field. -/
theorem nopAndIdentifyReply : Obligations.NopAndIdentifyReply := by
  unfold Obligations.NopAndIdentifyReply
  refine ⟨?nop, ?identify, ?ring, ?slot⟩
  case nop =>
    intro s p hp
    have h := Completes.replies (i := .nop p) (body := fun _ s => s.done) hp rfl (s.fetch 0x0001 p).done rfl rfl
    exact h
  case identify =>
    intro s p hp
    have h := Completes.replies (i := .identify p) (body := fun _ s => { s.done with data := s.identity p.func }) hp rfl { (s.fetch 0x0002 p).done with data := (s.fetch 0x0002 p).identity p.func } rfl rfl
    rw [State.fetch_identity, State.identity_eq] at h
    exact h
  case ring =>
    intro s p op r hr hm
    have own : ((served s op p r).host.fn[p.func]) =
        { s.host.fn[p.func] with sq := upd (s.host.fn[p.func]).sq p.ring fun r => r.consume (pktLen p) }.answered r := by
      rw [served_eq_posted hm, State.posted_fn, if_pos rfl, State.fetch_of_ring_fn _ _ _ hr, if_pos rfl]
    have rq : ((s.fetch op p).host.fn[p.func]).rq = (s.host.fn[p.func]).rq := by
      rw [State.fetch_of_ring_fn _ _ _ hr, if_pos rfl]
    dsimp only
    rw [own]
    refine ⟨rfl, rfl, upd_get_same _ _ _, fun x hx => upd_get_other _ _ _ _ (Ne.symm hx), fun f hf => ?_, ?_⟩
    · rw [served_eq_posted hm, State.posted_fn, if_neg (Ne.symm hf), State.fetch_of_ring_fn _ _ _ hr, if_neg (Ne.symm hf)]
    rw [served_eq_posted hm, State.posted, rq, State.fetch_of_ring_eq _ _ _ hr]
    refine ⟨rfl, rfl, rfl, rfl, fun x => ?_, rfl⟩
    refine (upd_get _ _ _ _).trans ?_
    by_cases e : p.ring = x
    · rw [if_pos e, if_pos e.symm, e]
    · rw [if_neg e, if_neg (Ne.symm e)]
  case slot =>
    intro s p op r x n hr hm
    dsimp only
    rw [served_eq_posted hm, State.fetch_of_slot _ _ _ _ _ hr]
    refine ⟨?_, fun f hf => ?_, rfl, rfl⟩
    · rw [State.posted_fn, if_pos rfl]
      rfl
    · rw [State.posted_fn, if_neg (Ne.symm hf)]


/-- Settles O3: each stage's verdict is the reply to the packet fetched; the ring's error is the arbiter's grant of its first unit alone. -/
theorem stagesRefuseInOrder : Obligations.StagesRefuseInOrder := by
  unfold Obligations.StagesRefuseInOrder
  refine ⟨?opcode, ?frame, ?role, ?generation, ?length⟩
  case opcode =>
    intro s p op hop hf hm
    refine ⟨_, ?_, rfl⟩
    change execBadOpcode p op s = _
    have known : opcodes.contains op.toNat = false := by simpa using hop
    simp only [execBadOpcode, known, hf, Bool.not_true, Bool.or_self, Bool.false_eq_true, if_false]
    rfl
  case frame =>
    intro s o p owns body off hf hfr
    rw [s.runPacket_frame o p owns body off hf hfr, ← s.fetch_genField o.opcode p]
    rfl
  case role =>
    intro s o p owns body cl off hf hfr ht hr
    rw [s.runPacket_role o p owns body cl off hf hfr ht hr, ← s.fetch_genField o.opcode p]
    rfl
  case generation =>
    intro s o p owns body cl c hf hfr ht hr hg hc
    rw [s.runPacket_generation o p owns body cl c hf hfr ht hr hg hc, ← s.fetch_genField o.opcode p]
    rfl
  case length =>
    intro s f r n hopen hg hpart hheld hn
    have bad : (n = 0 || decide (((s.host.fn[f]).sq[r]).units < n.toNat)) = true := by
      rw [Bool.or_eq_true, decide_eq_true_eq, decide_eq_true_eq]
      exact hn
    have run : exec (.ringErr f r n) s
        = .next (((s.movePtr f r).readRing f r 1).updFn f fun h => { h with sq := upd h.sq r fun r => { r with err := true } }) := by
      change execRingErr f r n s = _
      simp only [execRingErr, hopen, hg, hpart, bad, decide_true, Bool.and_self, if_true]
    refine ⟨_, run, ?_⟩
    refine ⟨?_, fun x hx => ?_, fun g hg => ?_, ?_, rfl, fun x => ?_, ?_⟩
    · rw [State.updFn_get, if_pos rfl]
      exact upd_get_same _ _ _
    · rw [State.updFn_get, if_pos rfl]
      exact upd_get_other _ _ _ _ (Ne.symm hx)
    · rw [State.updFn_get, if_neg (Ne.symm hg)]
      rfl
    · rw [State.updFn_get, if_pos rfl]
      rfl
    · refine (upd_get _ _ _ _).trans ?_
      by_cases e : r = x
      · rw [if_pos e, if_pos e.symm, e]
      · rw [if_neg e, if_neg (Ne.symm e)]
    · exact congrArg (s.host.reads ++ ·) (SubRing.requests_one _ _ _ (Nat.le_mul_of_pos_right _ (by positivity)))

end Sys2Proof.Claims

namespace Sys2Proof.Claims
open Sys2Proof.Machine

/-- A report of this very nanosecond is in hand, and the record held before it is of source 35, while the collector shows none. -/
def reporting : State :=
  { bench with flt := { bench.flt with taking := some ⟨bench.collectorCycle.1, true, some ⟨0, 35, 0, 0, .advisory, false, false, .log, 0, 0, 0⟩,
      [], 0, [], []⟩ } }

/-- Refutes O24: FAULT_ACK looks at the record held before the collector's cycle in hand, not at the one the collector shows. -/
theorem not_faultCommands : ¬ Obligations.FaultCommands := by
  unfold Obligations.FaultCommands
  rintro ⟨-, -, ack⟩
  have none : reporting.flt.first = none := by decide +kernel
  obtain ⟨t, run, frame⟩ := (ack reporting (benchPacket 2 0 [35]) (by decide +kernel) (by decide +kernel)).2 (by rw [none]; simp)
  have done : ((stateOf reporting (exec (.faultAck (benchPacket 2 0 [35])) reporting)).host.fn[(0 : Func)]).replies.map (·.code) = [0x00] := by
    decide +kernel
  rw [stateOf_exec run, frame] at done
  exact absurd done (by decide +kernel)

end Sys2Proof.Claims

namespace Sys2Proof.Machine
variable (s : State) (k : Cluster)

/-! ## Site records and sequencers, place by place -/

theorem State.updSite_get (f : SiteRec → SiteRec) (j : Cluster) : (s.updSite k f).sites[j] = if j = k then f s.sites[j] else s.sites[j] := by
  refine (upd_get _ _ _ _).trans ?_
  by_cases e : k = j
  · rw [if_pos e, if_pos e.symm, e]
  · rw [if_neg e, if_neg (Ne.symm e)]

theorem State.updSeq_get (f : Seqr → Seqr) (j : Cluster) : (s.updSeq k f).seqs[j] = if j = k then f s.seqs[j] else s.seqs[j] := by
  refine (upd_get _ _ _ _).trans ?_
  by_cases e : k = j
  · rw [if_pos e, if_pos e.symm, e]
  · rw [if_neg e, if_neg (Ne.symm e)]

@[simp] theorem State.fetch_site (op : Nat) (p : Packet) (c : Cluster) : (s.fetch op p).site c = s.site c := by
  simp only [State.site, State.fetch_siteOf]

@[simp] theorem State.fetch_siteState (op : Nat) (p : Packet) : (s.fetch op p).siteState k = s.siteState k := by
  simp only [State.siteState, State.fetch_sites]

@[simp] theorem State.fetch_net (op : Nat) (p : Packet) : (s.fetch op p).net = s.net := by
  simp only [State.net, State.fetch_now, State.fetch_netOff]

/-! ## Requests (R441) -/

variable (b : BitVec 8)

theorem State.latchReq_eq : s.latchReq k b = { s with sites := (s.latchReq k b).sites, reqWait := (s.latchReq k b).reqWait,
                                                      recent := (s.latchReq k b).recent } := by
  unfold State.latchReq
  dsimp only
  split <;> rfl

/-- A request sets its bit of REQ while its REQ_ACK bit is 0, and no other record changes. -/
theorem State.latchReq_sites (j : Cluster) :
    (s.latchReq k b).sites[j] = if j = k ∧ (s.sites[j]).reqAck &&& b = 0 then { s.sites[j] with req := (s.sites[j]).req ||| b } else s.sites[j] := by
  unfold State.latchReq
  dsimp only
  split
  next h =>
    rw [State.updSite_get]
    by_cases e : j = k
    · subst e
      exact (if_pos rfl).trans (if_pos ⟨rfl, h⟩).symm
    · exact (if_neg e).trans (if_neg fun x => e x.1).symm
  next h => exact (if_neg (by rintro ⟨rfl, x⟩; exact h x)).symm

/-- A request whose REQ_ACK bit is 1 waits (R441). -/
theorem State.latchReq_reqWait (j : Cluster) :
    (s.latchReq k b).reqWait[j] = if j = k ∧ (s.sites[j]).reqAck &&& b ≠ 0 then s.reqWait[j] ||| b else s.reqWait[j] := by
  unfold State.latchReq
  dsimp only
  split
  next h => exact (if_neg (by rintro ⟨rfl, x⟩; exact x h)).symm
  next h =>
    refine (upd_get _ _ _ _).trans ?_
    by_cases e : k = j
    · subst e
      exact (if_pos rfl).trans (if_pos ⟨rfl, h⟩).symm
    · exact (if_neg e).trans (if_neg fun x => e x.1.symm).symm

theorem State.latchReq_recent (j : Cluster) (h : j ≠ k) : (s.latchReq k b).recent[j] = s.recent[j] := by
  unfold State.latchReq
  dsimp only
  split <;> exact upd_get_other _ _ _ _ (Ne.symm h)

@[simp] theorem State.latchReq_seqs : (s.latchReq k b).seqs = s.seqs := by rw [State.latchReq_eq]

/-! ## Late latches (R58, R74) -/

theorem State.noteLate_cases (i c : Nat) : s.noteLate k i c = s ∨ s.noteLate k i c = s.updSeq k fun q => q.countLate i := by
  unfold State.noteLate
  split
  · exact .inl rfl
  split
  · exact .inl rfl
  extract_lets d after
  split
  · exact .inr rfl
  · exact .inl rfl

theorem State.noteLate_eq (i c : Nat) : s.noteLate k i c = { s with seqs := (s.noteLate k i c).seqs } := by
  obtain h | h := s.noteLate_cases k i c
  · rw [h]
  · rw [h]
    rfl

/-- A late latch counts, and nothing else of a sequencer changes. -/
theorem State.noteLate_seqs (i c : Nat) (j : Cluster) :
    (s.noteLate k i c).seqs[j] = { s.seqs[j] with late := ((s.noteLate k i c).seqs[j]).late, lateFlag := ((s.noteLate k i c).seqs[j]).lateFlag } := by
  obtain h | h := s.noteLate_cases k i c
  · rw [h]
  rw [h]
  rw [State.updSeq_get]
  split <;> rfl

end Sys2Proof.Machine

namespace Sys2Proof.Claims
open Sys2Proof.Machine

section
variable {s : State} {p : Packet} {cl : List Cluster}

/-- A SITE target names a site's clusters, so at least one. -/
theorem target_site_ne_nil {t : BitVec 16} (h : s.target .site t = some cl) : cl ≠ [] := by
  unfold State.target at h
  dsimp only at h
  split at h
  · split at h
    next hk =>
      cases h
      exact List.ne_nil_of_mem ((s.mem_members _ _).2 (by simpa [State.isSite] using (Bool.and_eq_true_iff.1 hk).2))
    · cases h
  · cases h

theorem genField_pend (h : cl ≠ []) : s.genField .pend cl = (s.sites[siteIn s cl]).pendGen := by
  cases cl with
  | nil => exact absurd rfl h
  | cons c cl => rfl

/-- A request latched by a command that is then ACCEPTED: the words of the statements on run control. -/
def LatchedReq (s t : State) (n : Nat) (p : Packet) (k : Cluster) (b : BitVec 8) : Prop :=
  t = { served s n p (answer p n 0x01 (s.sites[k]).pendGen []) with sites := t.sites, reqWait := t.reqWait, seqs := t.seqs, recent := t.recent } ∧
  OnlyRecent s t k ∧ (∀ j : Cluster, t.sites[j] = if j = k ∧
    (s.sites[j]).reqAck &&& b = 0 then { s.sites[j] with req := (s.sites[j]).req ||| b } else s.sites[j]) ∧
  (∀ j : Cluster, t.reqWait[j] = if j = k ∧ (s.sites[j]).reqAck &&& b ≠ 0 then s.reqWait[j] ||| b else s.reqWait[j])

theorem latchedReq_reply (n : Nat) (b : BitVec 8) (v : Vector Seqr 12) (hm : s.cmd.mcheck = none) (hc : cl ≠ []) :
    let u : State := { (s.fetch n p).latchReq (siteIn s cl) b with seqs := v }
    LatchedReq s (u.reply p.func (u.accepted.reply { opcode := n, form := .site, units := 1, gen := .pend } p cl)) n p (siteIn s cl) b := by
  have e := (s.fetch n p).latchReq_eq (siteIn s cl) b
  have sites := (s.fetch n p).latchReq_sites (siteIn s cl) b
  have wait := (s.fetch n p).latchReq_reqWait (siteIn s cl) b
  have recent := (s.fetch n p).latchReq_recent (siteIn s cl) b
  generalize (s.fetch n p).latchReq (siteIn s cl) b = w at e sites wait recent ⊢
  intro u
  have site (c : Cluster) : u.site c = s.site c := by
    have : u.siteOf = (s.fetch n p).siteOf := (congrArg State.siteOf e).trans rfl
    rw [State.site, this, State.fetch_siteOf, State.site]
  have gen : u.genField .pend cl = (s.sites[siteIn s cl]).pendGen := by
    have : siteIn u cl = siteIn s cl := site _
    simp only [genField_pend hc, this]
    refine (congrArg SiteRec.pendGen (sites _)).trans ?_
    rw [State.fetch_sites]
    split <;> rfl
  have umc : u.cmd.mcheck = none := by
    have : u.cmd = (s.fetch n p).cmd := (congrArg State.cmd e).trans rfl
    rw [this, State.fetch_mcheck, hm]
  rw [Ending.reply, State.accepted, gen, State.reply_eq_posted _ _ _ umc]
  rw [State.fetch_sites] at sites
  rw [State.fetch_sites, State.fetch_reqWait] at wait
  rw [State.fetch_recent] at recent
  refine ⟨?_, recent, sites, wait⟩
  rw [served_eq_posted hm]
  change State.posted { w with seqs := v } _ _ = _
  rw [e]
  rfl
end

/-- Settles O13: both requests are latched at the crux point; a JUMP_REQUEST too late for the play in hand is counted beside. -/
theorem jumpAndResumeBySiteState : Obligations.JumpAndResumeBySiteState := by
  unfold Obligations.JumpAndResumeBySiteState
  refine ⟨?jump, ?resume⟩
  case jump =>
    intro s p cl hp
    have hm : s.cmd.mcheck = none := hp.2.1
    have hc := target_site_ne_nil hp.2.2.2.1
    refine Completes.packet hp rfl (((s.fetch 0x0213 p).latchReq (siteIn s cl) reqJump).noteLate (siteIn s cl) 10 12).accepted ?_ ?_
    · simp only [State.fetch_site, siteIn]
    · have late := ((s.fetch 0x0213 p).latchReq (siteIn s cl) reqJump).noteLate_seqs (siteIn s cl) 10 12
      rw [State.noteLate_eq]
      refine ⟨latchedReq_reply 0x0213 reqJump _ hm hc, fun j => ?_⟩
      rw [State.latchReq_seqs, State.fetch_seqs] at late
      simp only [State.reply_seqs]
      exact late j
  case resume =>
    intro s p cl hp
    have hm : s.cmd.mcheck = none := hp.2.1
    have hc := target_site_ne_nil hp.2.2.2.1
    refine ⟨fun h => ?_, fun h => ?_⟩
    · have stalled : (s.fetch 0x0214 p).siteState (siteIn s cl) = .stalled := by rwa [State.fetch_siteState]
      refine Completes.packet hp rfl ((s.fetch 0x0214 p).latchReq (siteIn s cl) reqResume).accepted ?_ ?_
      · simp only [State.fetch_site]
        exact if_pos stalled
      · refine ⟨latchedReq_reply 0x0214 reqResume ((s.fetch 0x0214 p).latchReq (siteIn s cl) reqResume).seqs hm hc, ?_⟩
        rw [State.reply_seqs]
        exact (State.latchReq_seqs ..).trans (State.fetch_seqs ..)
    · have other : (s.fetch 0x0214 p).siteState (siteIn s cl) ≠ .stalled := by rwa [State.fetch_siteState]
      rw [← genField_pend hc]
      refine Completes.replies hp rfl ((s.fetch 0x0214 p).badParam 0 0) ?_ rfl
      simp only [State.fetch_site]
      exact if_neg other

end Sys2Proof.Claims

namespace Sys2Proof.Machine
variable (s : State) (k : Cluster)

/-! ## Folds that touch one part of the state -/

/-- A fold of updates that each leave a state's frame leaves it. -/
theorem foldl_frame {α : Type} (l : List α) (f : State → α → State) (frame : State → State → Prop) (refl : ∀ s, frame s s)
    (trans : ∀ a b c, frame a b → frame b c → frame a c) (h : ∀ s a, frame s (f s a)) : frame s (l.foldl f s) := by
  induction l generalizing s with
  | nil => exact refl s
  | cons a l ih => exact trans _ _ _ (h s a) (ih (f s a))

/-- Fetching marks the last device request in the power manager, and nothing else of it. -/
theorem State.fetch_pwr (op : Nat) (p : Packet) : (s.fetch op p).pwr = { s.pwr with quiet := (s.fetch op p).pwr.quiet } := by
  unfold State.fetch
  split <;> rfl

/-! ## The state of a site (R18, R336) -/

theorem State.accountDue_eq : s.accountDue k = { s with cal := { s.cal with due := (s.accountDue k).cal.due, dueFrom := (s.accountDue k).cal.dueFrom } } := by
  unfold State.accountDue
  extract_lets active
  refine foldl_frame s _ _ (fun s t : State => t = { s with cal := { s.cal with due := t.cal.due, dueFrom := t.cal.dueFrom } })
    (fun _ => rfl) (fun a b c hb hc => ?_) fun _ _ => rfl
  rw [hc, hb]

theorem State.touchPaths_eq : s.touchPaths k = { s with rope := (s.touchPaths k).rope } := by
  unfold State.touchPaths
  split <;> rfl

theorem State.setState_eq (x : SiteState) :
    s.setState k x = { s with sites := upd s.sites k fun r => { r with state := x }, rope := (s.setState k x).rope,
                              cal := { s.cal with due := (s.setState k x).cal.due, dueFrom := (s.setState k x).cal.dueFrom } } := by
  unfold State.setState
  extract_lets t
  have ht : t = { s with sites := upd s.sites k fun r => { r with state := x },
                         cal := { s.cal with due := t.cal.due, dueFrom := t.cal.dueFrom } } := by
    change (s.accountDue k).updSite k _ = _
    rw [State.accountDue_eq]
    rfl
  split
  · rw [State.touchPaths_eq, ht]
  · rw [ht]

/-- A cancelled start leaves the sequencer, the site's STATE, and what hangs on it (R60, R292, R336). -/
theorem State.cancelStart_eq :
    s.cancelStart k = { s with
      seqs := upd s.seqs k fun q => { q with start := none, armed := none }
      sites := if s.siteState k = .armed then upd s.sites k fun r => { r with state := .idle } else s.sites
      rope := (s.cancelStart k).rope
      cal := { s.cal with due := (s.cancelStart k).cal.due, dueFrom := (s.cancelStart k).cal.dueFrom } } := by
  unfold State.cancelStart
  extract_lets t
  have ht : t = { s with seqs := upd s.seqs k fun q => { q with start := none, armed := none }, rope := t.rope } := by
    change (s.updSeq k _).touchPaths k = _
    rw [State.touchPaths_eq]
    rfl
  have state : t.siteState k = s.siteState k := by rw [ht]; rfl
  rw [state]
  split
  · rw [State.setState_eq, ht]
  · rw [ht]

theorem State.releaseHeads_eq : s.releaseHeads k = { s with mem := { s.mem with segs := (s.releaseHeads k).mem.segs } } := by
  unfold State.releaseHeads
  extract_lets kept
  refine foldl_frame s _ _ (fun s t : State => t = { s with mem := { s.mem with segs := t.mem.segs } })
    (fun _ => rfl) (fun a b c hb hc => ?_) fun _ _ => rfl
  rw [hc, hb]

theorem State.repick_eq : s.repick = { s with pwr := { s.pwr with cl := s.repick.pwr.cl } } := rfl

/-- What a start that is cancelled leaves (R60, R168, R257). -/
theorem State.dropStart_eq :
    s.dropStart k = { s with
      seqs := upd s.seqs k fun q => { q with start := none, armed := none }
      sites := if s.siteState k = .armed then upd s.sites k fun r => { r with state := .idle } else s.sites
      rope := (s.dropStart k).rope
      cal := { s.cal with due := (s.dropStart k).cal.due, dueFrom := (s.dropStart k).cal.dueFrom }
      mem := { s.mem with segs := (s.dropStart k).mem.segs }
      pwr := { s.pwr with cl := (s.dropStart k).pwr.cl } } := by
  unfold State.dropStart
  rw [State.repick_eq, State.releaseHeads_eq, State.cancelStart_eq]

/-- A request leaves STATE. -/
theorem State.latchReq_siteState (b : BitVec 8) (j : Cluster) : (s.latchReq k b).siteState j = s.siteState j := by
  rw [State.siteState, State.latchReq_sites]
  split <;> rfl

theorem State.latchReq_net (b : BitVec 8) : (s.latchReq k b).net = s.net := by
  rw [State.latchReq_eq]
  rfl

/-! ## Late stops and aborts (R60) -/

theorem State.noteStop_cases : s.noteStop k = s ∨ s.noteStop k = s.updSeq k fun q => q.countLate 11 := by
  unfold State.noteStop
  split
  · split
    · exact .inr rfl
    · exact .inl rfl
  · exact .inl rfl

theorem State.noteStop_eq : s.noteStop k = { s with seqs := (s.noteStop k).seqs } := by
  obtain h | h := s.noteStop_cases k
  · rw [h]
  · rw [h]
    rfl

/-- A late stop counts on its own site, and nothing else of the sequencer changes. -/
theorem State.noteStop_seqs :
    (s.noteStop k).seqs[k] = { s.seqs[k] with late := ((s.noteStop k).seqs[k]).late, lateFlag := ((s.noteStop k).seqs[k]).lateFlag } := by
  obtain h | h := s.noteStop_cases k
  · rw [h]
  · rw [h, State.updSeq_get, if_pos rfl]
    rfl

theorem State.noteStop_others (j : Cluster) (hj : j ≠ k) : (s.noteStop k).seqs[j] = s.seqs[j] := by
  obtain h | h := s.noteStop_cases k
  · rw [h]
  · rw [h, State.updSeq_get, if_neg hj]

/-- An ABORT of a site that is not ARMED fixes the boundary its sequencer ends at. -/
theorem State.abortNow_eq (h : s.siteState k ≠ .armed) : s.abortNow k = { s with seqs := (s.abortNow k).seqs } := by
  unfold State.abortNow
  rw [if_neg h]
  rfl

theorem State.abortNow_others (h : s.siteState k ≠ .armed) (j : Cluster) (hj : j ≠ k) : (s.abortNow k).seqs[j] = s.seqs[j] := by
  unfold State.abortNow
  rw [if_neg h, State.updSeq_get, if_neg hj]

theorem State.abortNow_play (h : s.siteState k ≠ .armed) (p : Play) (hp : (s.seqs[k]).play = some p) (hs : (s.seqs[k]).stall = none) :
    (s.abortNow k).seqs[k] =
      { s.seqs[k] with abortAt := some (min ((s.seqs[k]).abortAt.getD p.len) (min p.len (boundaryAfter p.start p.step s.net))) } := by
  have e : (s.seqs[k]).enterStall s.net = s.seqs[k] := by
    unfold Seqr.enterStall
    rw [hs]
  unfold State.abortNow
  rw [if_neg h, State.updSeq_get, if_pos rfl]
  simp only [e, hp]

theorem State.abortNow_cmd : (s.abortNow k).cmd = s.cmd := by
  unfold State.abortNow
  split
  · rw [State.cancelStart_eq]
  · rfl

/-! ## The routine of an ABORT packet (R257, R271) -/

theorem State.abortRequest_cmd : (s.abortRequest k).state.cmd = s.cmd := by
  unfold State.abortRequest
  split
  · change ((s.latchReq k reqAbort).abortNow k).cmd = _
    rw [State.abortNow_cmd, State.latchReq_eq]
  split
  · change (s.dropStart k).cmd = _
    rw [State.dropStart_eq]
  · rfl

theorem State.endRoutine_of_ended (h : s.cmd.running = false) (h' : s.cmd.deferAll = false) : s.endRoutine = s := by
  obtain ⟨⟩ := s
  rename_i cmd _ _ _ _ _
  obtain ⟨⟩ := cmd
  subst h h'
  rfl

end Sys2Proof.Machine

namespace Sys2Proof.Claims
open Sys2Proof.Machine

section
variable {s : State} {p : Packet} {cl : List Cluster}

/-- A start cancelled by a command that is then DONE: the words of the statements on run control. -/
def CancelledStart (s t : State) (n : Nat) (p : Packet) (k : Cluster) : Prop :=
  t = { served s n p (answer p n 0x00 (s.sites[k]).pendGen []) with
          sites := t.sites, seqs := t.seqs, cal := { s.cal with due := t.cal.due, dueFrom := t.cal.dueFrom }, rope := t.rope,
          mem := { s.mem with segs := t.mem.segs }, pwr := { s.pwr with quiet := s.now, cl := t.pwr.cl } } ∧
  (∀ j : Cluster, t.seqs[j] = if j = k then { s.seqs[j] with start := none, armed := none } else s.seqs[j]) ∧
  (∀ j : Cluster, t.sites[j] = if j = k ∧ (s.sites[j]).state = .armed then { s.sites[j] with state := .idle } else s.sites[j])

theorem cancelledStart_reply (n : Nat) (hm : s.cmd.mcheck = none) (hc : cl ≠ []) :
    let u := (s.fetch n p).dropStart (siteIn s cl)
    CancelledStart s (u.reply p.func (u.done.reply { opcode := n, form := .site, units := 1, gen := .pend } p cl)) n p (siteIn s cl) := by
  have e := (s.fetch n p).dropStart_eq (siteIn s cl)
  generalize (s.fetch n p).dropStart (siteIn s cl) = u at e ⊢
  have seqs : u.seqs = ((s.fetch n p).updSeq (siteIn s cl) _).seqs := (congrArg State.seqs e).trans rfl
  have sites (j : Cluster) : u.sites[j] = if j = siteIn s cl ∧ (s.sites[j]).state = .armed then { s.sites[j] with state := .idle } else s.sites[j] := by
    have all : u.sites = _ := (congrArg State.sites e).trans rfl
    rw [all, State.fetch_siteState, State.siteState, State.fetch_sites]
    by_cases h : (s.sites[siteIn s cl]).state = .armed
    · rw [if_pos h]
      refine (s.updSite_get (siteIn s cl) _ j).trans ?_
      by_cases hj : j = siteIn s cl
      · subst hj
        rw [if_pos rfl, if_pos ⟨rfl, h⟩]
      · rw [if_neg hj, if_neg fun x => hj x.1]
    · rw [if_neg h, if_neg]
      rintro ⟨rfl, x⟩
      exact h x
  have gen : u.genField .pend cl = (s.sites[siteIn s cl]).pendGen := by
    have : siteIn u cl = siteIn s cl := by
      have : u.siteOf = (s.fetch n p).siteOf := (congrArg State.siteOf e).trans rfl
      rw [siteIn, State.site, this, State.fetch_siteOf, siteIn, State.site]
    simp only [genField_pend hc, this]
    refine (congrArg SiteRec.pendGen (sites _)).trans ?_
    split <;> rfl
  have umc : u.cmd.mcheck = none := by
    have : u.cmd = (s.fetch n p).cmd := (congrArg State.cmd e).trans rfl
    rw [this, State.fetch_mcheck, hm]
  intro u
  rw [Ending.reply, State.done, gen, State.reply_eq_posted _ _ _ umc]
  refine ⟨?_, fun j => ?_, sites⟩
  · have pwr := s.fetch_pwr n p
    have now := s.fetch_now n p
    rw [served_eq_posted hm, ← s.fetch_cal n p, ← s.fetch_mem n p, e]
    simp only [State.posted, State.updFn, State.writeHost, State.endRoutine]
    rw [pwr, now]
    rfl
  · change u.seqs[j] = _
    rw [seqs, State.updSeq_get, State.fetch_seqs]
end

end Sys2Proof.Claims

namespace Sys2Proof.Claims
open Sys2Proof.Machine

section
variable {s : State} {o : OpSpec} {p : Packet} {cl : List Cluster} {owns : Option Nat} {body : List Cluster → State → Ending}

/-- What a packet the stages let through comes to. -/
theorem runPacket_of_passes (hp : PassesOwner s o p cl owns) :
    s.runPacket o p owns body = (body cl (s.fetch o.opcode p)).state.reply p.func ((body cl (s.fetch o.opcode p)).reply o p cl) := by
  obtain ⟨hf, -, hfr, ht, hr, hg, hb⟩ := hp
  exact s.runPacket_passes o p cl owns body hf hfr ht hr hg hb

theorem runAbort_ended (hp : Passes s abortSpec p cl) : (s.runAbort p).endRoutine = s.runAbort p ∧ (s.runAbort p).cmd.mcheck = none := by
  have hm : s.cmd.mcheck = none := hp.2.1
  rw [State.runAbort, runPacket_of_passes hp]
  have body : (((s.fetch abortSpec.opcode p).abortRequest ((s.fetch abortSpec.opcode p).site (cl.headD 0))).state).cmd.mcheck = none := by
    rw [State.abortRequest_cmd, State.fetch_mcheck, hm]
  refine ⟨State.endRoutine_of_ended _ ?_ ?_, ?_⟩ <;> rw [State.reply_cmd, body]
  · rfl
  · rfl
  · exact body

/-- An ABORT packet the stages let through, with whatever it interrupts out of its way, runs its routine (R273). -/
theorem exec_abort (s₀ : State) (p : Packet) (running : Option Routine) (hp : Passes (beforeAbort s₀ p running) abortSpec p cl) :
    exec (.abort p running) s₀ = .next ((beforeAbort s₀ p running).runAbort p) := by
  change execAbort p running s₀ = _
  unfold execAbort
  unfold beforeAbort at hp ⊢
  split
  · rfl
  next h =>
    rw [if_neg h] at hp
    obtain ⟨ended, quiet⟩ := runAbort_ended hp
    change Host.Outcome.next (if (State.runAbort _ p).cmd.mcheck.isSome then State.runAbort _ p else (State.runAbort _ p).endRoutine) = _
    rw [if_neg (by rw [quiet]; decide), ended]

/-- A stop or an abort of a burst in progress, from the sequencers it leaves. -/
theorem requested_run (n : Nat) (b : BitVec 8) (w : Cluster → State → Ending) (v : Vector Seqr 12)
    (hp : Passes s { opcode := n, form := .site, units := 1, gen := .pend } p cl)
    (he : w (siteIn s cl) (s.fetch n p) = State.accepted { (s.fetch n p).latchReq (siteIn s cl) b with seqs := v }) :
    let t := s.runPacket { opcode := n, form := .site, units := 1, gen := .pend } p none fun cl s => w (s.site (cl.headD 0)) s
    LatchedReq s t n p (siteIn s cl) b ∧ t.seqs = v := by
  intro t
  have ht : t = _ := runPacket_of_passes hp
  dsimp only at ht
  rw [State.fetch_site, show s.site (cl.headD 0) = siteIn s cl from rfl, he] at ht
  rw [ht]
  exact ⟨latchedReq_reply n b v hp.2.1 (target_site_ne_nil hp.2.2.2.1), State.reply_seqs _ _ _⟩

/-- A start cancelled by a packet. -/
theorem cancelled_run (n : Nat) (w : Cluster → State → Ending)
    (hp : Passes s { opcode := n, form := .site, units := 1, gen := .pend } p cl)
    (he : w (siteIn s cl) (s.fetch n p) = ((s.fetch n p).dropStart (siteIn s cl)).done) :
    CancelledStart s (s.runPacket { opcode := n, form := .site, units := 1, gen := .pend } p none fun cl s => w (s.site (cl.headD 0)) s)
      n p (siteIn s cl) := by
  rw [runPacket_of_passes hp]
  dsimp only
  rw [State.fetch_site, show s.site (cl.headD 0) = siteIn s cl from rfl, he]
  exact cancelledStart_reply n hp.2.1 (target_site_ne_nil hp.2.2.2.1)

/-- A request that finds nothing to stop. -/
theorem idle_run (n : Nat) (w : Cluster → State → Ending)
    (hp : Passes s { opcode := n, form := .site, units := 1, gen := .pend } p cl)
    (he : w (siteIn s cl) (s.fetch n p) = (s.fetch n p).done) :
    s.runPacket { opcode := n, form := .site, units := 1, gen := .pend } p none (fun cl s => w (s.site (cl.headD 0)) s)
      = served s n p (answer p n 0x00 (s.sites[siteIn s cl]).pendGen []) := by
  rw [runPacket_of_passes hp]
  dsimp only
  rw [State.fetch_site, show s.site (cl.headD 0) = siteIn s cl from rfl, he, Ending.reply, State.done]
  dsimp only
  rw [State.fetch_genField, genField_pend (target_site_ne_nil hp.2.2.2.1)]
  rfl

theorem rests_not_busy {x : SiteState} (h : x.rests = true) : x.busy = false := by
  revert h
  cases x <;> decide

theorem rests_not_armed {x : SiteState} (h : x.rests = true) : x ≠ .armed := by
  rintro rfl
  cases h

theorem playing_fetch (n : Nat) (k : Cluster) : (s.fetch n p).playing k = (s.sites[k]).state.busy := by
  rw [State.playing, State.fetch_siteState, State.siteState]

theorem startHeld_fetch (n : Nat) (k : Cluster) :
    (s.fetch n p).startHeld k = ((s.seqs[k]).start.isSome || decide ((s.sites[k]).state = .armed)) := by
  rw [State.startHeld, State.startPending, State.fetch_siteState, State.fetch_seqs, State.siteState]

theorem not_playing_fetch (n : Nat) {k : Cluster} (h : (s.sites[k]).state.busy = false) : ¬(s.fetch n p).playing k = true := by
  rw [playing_fetch, h]
  decide

theorem not_startHeld_fetch (n : Nat) {k : Cluster} (h : (s.seqs[k]).start = none) (h' : (s.sites[k]).state.rests = true) :
    ¬(s.fetch n p).startHeld k = true := by
  rw [startHeld_fetch, h, decide_eq_false (rests_not_armed h')]
  decide

end

/-- Settles O12: a burst in progress takes the request, a start is cancelled, and a site at rest does nothing. -/
theorem stopAndAbortBySiteState : Obligations.StopAndAbortBySiteState := by
  unfold Obligations.StopAndAbortBySiteState
  refine ⟨?stop, ?abort⟩
  case stop =>
    intro s p cl hp
    dsimp only at hp ⊢
    refine ⟨fun h => ?_, fun h h' => ?_, fun h h' => ?_⟩
    · obtain ⟨latched, seqs⟩ := requested_run 0x0212 reqStop (fun k s => s.stopRequest k)
        (((s.fetch 0x0212 p).latchReq (siteIn s cl) reqStop).noteStop (siteIn s cl)).seqs hp (by
          rw [State.stopRequest, playing_fetch, if_pos h, ← State.noteStop_eq])
      have late := ((s.fetch 0x0212 p).latchReq (siteIn s cl) reqStop).noteStop_seqs (siteIn s cl)
      have others := ((s.fetch 0x0212 p).latchReq (siteIn s cl) reqStop).noteStop_others (siteIn s cl)
      rw [← seqs, State.latchReq_seqs, State.fetch_seqs] at late others
      obtain ⟨frame, recent, sites, wait⟩ := latched
      exact ⟨_, rfl, ⟨frame, recent, sites, wait, others⟩, late⟩
    · have held : (s.fetch 0x0212 p).startHeld (siteIn s cl) = true := by
        rw [startHeld_fetch, Bool.or_eq_true, decide_eq_true_eq]
        exact h'
      exact ⟨_, rfl, cancelled_run 0x0212 (fun k s => s.stopRequest k) hp (by
        rw [State.stopRequest, if_neg (not_playing_fetch _ h), if_pos held])⟩
    · refine ⟨_, rfl, idle_run 0x0212 (fun k s => s.stopRequest k) hp (by
        rw [State.stopRequest, if_neg (not_playing_fetch _ (rests_not_busy h)), if_neg (not_startHeld_fetch _ h' h)])⟩
  case abort =>
    intro s₀ p running cl s hp
    dsimp only at hp ⊢
    have run := exec_abort s₀ p running hp
    refine ⟨fun h => ?_, fun h h' => ?_, fun h h' => ?_⟩
    · have unarmed : ((s.fetch 0x0215 p).latchReq (siteIn s cl) reqAbort).siteState (siteIn s cl) ≠ .armed := by
        rw [State.latchReq_siteState, State.fetch_siteState]
        exact fun x => by rw [show (s.sites[siteIn s cl]).state = .armed from x] at h; cases h
      obtain ⟨latched, seqs⟩ := requested_run 0x0215 reqAbort (fun k s => s.abortRequest k)
        (((s.fetch 0x0215 p).latchReq (siteIn s cl) reqAbort).abortNow (siteIn s cl)).seqs hp (by
          rw [State.abortRequest, playing_fetch, if_pos h, State.latchAbort, State.abortNow_eq _ _ unarmed])
      have play := ((s.fetch 0x0215 p).latchReq (siteIn s cl) reqAbort).abortNow_play (siteIn s cl) unarmed
      have others := ((s.fetch 0x0215 p).latchReq (siteIn s cl) reqAbort).abortNow_others (siteIn s cl) unarmed
      rw [← seqs, State.latchReq_seqs, State.fetch_seqs, State.latchReq_net, State.fetch_net] at play
      rw [← seqs, State.latchReq_seqs, State.fetch_seqs] at others
      obtain ⟨frame, recent, sites, wait⟩ := latched
      exact ⟨_, run, ⟨frame, recent, sites, wait, others⟩, play⟩
    · have held : (s.fetch 0x0215 p).startHeld (siteIn s cl) = true := by
        rw [startHeld_fetch, Bool.or_eq_true, decide_eq_true_eq]
        exact h'
      exact ⟨_, run, cancelled_run 0x0215 (fun k s => s.abortRequest k) hp (by
        rw [State.abortRequest, if_neg (not_playing_fetch _ h), if_pos held])⟩
    · refine ⟨_, run, idle_run 0x0215 (fun k s => s.abortRequest k) hp (by
        rw [State.abortRequest, if_neg (not_playing_fetch _ (rests_not_busy h)), if_neg (not_startHeld_fetch _ h' h)])⟩

end Sys2Proof.Claims

namespace Sys2Proof.Claims
open Sys2Proof.Machine

/-- Refutes O31: a full read of a closed BAR at an address that is no multiple of 4 returns the bytes left of its word, not all ones. -/
theorem not_readsClearLatchAndWindow : ¬ Obligations.ReadsClearLatchAndWindow := by
  unfold Obligations.ReadsClearLatchAndWindow
  rintro ⟨-, -, -, -, -, closed, -⟩
  obtain ⟨t, run, frame⟩ := closed {} 0 false 1 (.inl (by decide +kernel))
  have short : (stateOf {} (exec (.rcRegisterRead 0 1 false) {})).host.busRead = some 0x00FFFFFF := by decide +kernel
  rw [stateOf_exec run, frame] at short
  exact absurd short (by decide +kernel)

end Sys2Proof.Claims

namespace Sys2Proof.Machine

theorem bitOf_zero_eq {n : Nat} (h : n < 2) : bitOf n 0 = decide (n = 1) := by
  obtain rfl | rfl : n = 0 ∨ n = 1 := by omega
  · rfl
  · rfl

/-! ## Flow records (R192) -/

/-- A flow's record as a FLOW_CONFIG packet gives it (R193). -/
def Flow.ofRecord (b : List Byte) (n : Nat) (f : Flow) : Flow :=
  { f with prio := Fin.ofNat 4 (fieldAt b 2 1), rechain := bitOf (fieldAt b 3 1) 0, bdTable := u16At b 4, maxPending := fieldAt b 6 2,
           owner := if n < 12 then f.owner else Fin.ofNat 13 (fieldAt b 8 1), rechainDesc := u16At b 10, vars := Vector.replicate 8 0, bursts := 0 }

theorem Sched.updFlow_same (s : Sched) (n : Nat) (f : Flow → Flow) : (s.updFlow n f).flow n = f (s.flow n) := by
  simp [Sched.updFlow, Sched.setFlow, Sched.flow]

theorem Sched.updFlow_other (s : Sched) (n m : Nat) (f : Flow → Flow) (h : m ≠ n) : (s.updFlow n f).flow m = s.flow m := by
  have find : ((s.flows.filter fun p => p.1 ≠ n).find? fun p => p.1 = m) = s.flows.find? fun p => p.1 = m := by
    rw [List.find?_filter]
    congr 1
    funext x
    by_cases e : x.1 = m
    · simp [e, h]
    · simp [e]
  rw [Sched.updFlow, Sched.setFlow, Sched.flow, List.find?_cons_of_neg (by simpa using Ne.symm h), find]
  rfl

/-! ## The choice of power states (R365, R366) -/

/-- What looking at the choice again makes of a cluster's record. -/
theorem State.repick_cl (s : State) (c : Cluster) :
    s.repick.pwr.cl[c] = { s.pwr.cl[c] with
      chosen := s.choose c, since := if (s.chosenBefore c).1 = s.choose c then (s.chosenBefore c).2 else s.now,
      bare := s.chooseBare c, fed := s.limFifo c && !(s.cl[c]).holdsBlocks } := by
  simp only [State.repick, Fin.getElem_fin, Vector.getElem_ofFn]

theorem State.repick_choose (s : State) (c : Cluster) : s.repick.choose c = s.choose c := by
  have tol : (s.repick.pwr.cl[c]).tolerated = (s.pwr.cl[c]).tolerated := by
    rw [State.repick_cl, PwrCl.tolerated, PwrCl.tolerated]
  unfold State.choose State.chooseBare
  rw [tol]
  rfl

theorem State.posted_choose (s : State) (f : Func) (r : Reply) (c : Cluster) : (s.posted f r).choose c = s.choose c := by
  unfold State.choose State.chooseBare
  rfl

/-- A choice not fed by a FIFO stands as it was recorded. -/
theorem State.chosenBefore_of_not_fed (s : State) (c : Cluster) (h : (s.pwr.cl[c]).fed = false) :
    s.chosenBefore c = ((s.pwr.cl[c]).chosen, (s.pwr.cl[c]).since) := by
  unfold State.chosenBefore
  dsimp only
  rw [if_neg (by rw [h]; simp)]

/-! ## Posts on their way (R188, R191) -/

/-- Where every post still to come falls into a later cycle, none goes before a post of this one. -/
theorem State.settleBefore_of_later (s : State) (i : Item) (h : ∀ x ∈ s.sched.due, s.now / nsUnits < x.queuedAt / nsUnits) :
    s.settleBefore i = s := by
  have none : ∀ x ∈ s.sched.due,
      ¬(decide (x.queuedAt / nsUnits < s.now / nsUnits) || (decide (x.queuedAt / nsUnits = s.now / nsUnits) && decide (s.postRank x ≤ s.postRank i))) = true := by
    intro x hx
    have := h x hx
    simp only [Bool.or_eq_true, Bool.and_eq_true, decide_eq_true_eq]
    omega
  unfold State.settleBefore
  dsimp only
  rw [List.partition_eq_filter_filter]
  dsimp only
  rw [List.filter_eq_nil_iff.2 none, List.filter_eq_self.2 (fun x hx => by simpa [imp_iff_not_or] using none x hx)]
  rfl

/-- The item a host's ITEM_POST puts into the queue (R188, R262). -/
def State.hostPost (s : State) (ty : ItemType) (b : List Byte) : Item :=
  let n := fieldAt b 2 2
  { type := ty, prio := 0, flow := n, site := s.flowSite n, source := 1,
    burstId := ((s.flowSite n).map fun k => (s.sites[k]).burstId).getD 0, postTime := postTime s.net,
    payload := (b.drop 24).take 40, queuedAt := s.now }

theorem State.fetch_hostPost (s : State) (op : Nat) (p : Packet) (ty : ItemType) (b : List Byte) : (s.fetch op p).hostPost ty b = s.hostPost ty b := by
  have site (n : Nat) : (s.fetch op p).flowSite n = s.flowSite n := by
    unfold State.flowSite State.isSite
    rw [State.fetch_siteOf]
  unfold State.hostPost
  simp only [site, State.fetch_sites, State.fetch_net, State.fetch_now]

/-- ITEM_POST on a payload whose fields pass, with no earlier post to come in its cycle. -/
theorem State.itemPost_eq (s : State) (b : List Byte) (ty : ItemType) (hty : ItemType.ofCode (fieldAt b 0 1) = some ty)
    (hb : ∀ x ∈ [(0, (some ty).any ItemType.posted), isZero b 1 1, (2, decide (fieldAt b 2 2 < 4080)), isZero b 4 20,
      (24, itemReservedOk ((some ty).getD .hostItem) ((b.drop 24).take 40))], x.2 = true)
    (hdue : ∀ x ∈ s.sched.due, s.now / nsUnits < x.queuedAt / nsUnits) :
    s.itemPost b = if (s.sched.flow (fieldAt b 2 2)).maxPending ≤ s.sched.pendingOf (fieldAt b 2 2) || s.sched.free ≤ 1024 then s.busy
      else { ({ s with sched := s.sched.post (s.hostPost ty b) } : State).done with data := leBytes 4 s.sched.seqno.toNat } := by
  unfold State.itemPost
  dsimp only
  rw [hty, State.parsed_checked _ _ _ _ hb, State.settleBefore_of_later _ _ hdue]
  rfl

end Sys2Proof.Machine

namespace Sys2Proof.Claims
open Sys2Proof.Machine

section
variable {s : State} {o : OpSpec} {p : Packet} {cl : List Cluster} {owns : Option Nat} {body : List Cluster → State → Ending} {i : Instr}
  {P : State → Prop}

theorem genField_zero (s : State) (cl : List Cluster) : s.genField .zero cl = 0 := by
  cases cl <;> rfl

/-- A packet whose reply carries no generation completes with its body's verdict, posted. -/
theorem Completes.answers (hp : PassesOwner s o p cl owns) (hi : exec i s = .next (s.runPacket o p owns body)) (hz : o.gen = .zero) (e : Ending)
    (he : body cl (s.fetch o.opcode p) = e) (hg : e.gen = none) (hm : e.state.cmd.mcheck = none)
    (hP : P (e.state.posted p.func
      { tag := p.tag, opcode := BitVec.ofNat 16 o.opcode, code := BitVec.ofNat 8 e.code, ring := p.ring, gen := 0, dkind := BitVec.ofNat 8 e.dkind,
        detail := BitVec.ofNat 32 e.detail, data := data16 e.data })) : Completes i s P := by
  refine Completes.packet hp hi e he ?_
  rw [Ending.reply, hg, hz, genField_zero, State.reply_eq_posted _ _ _ hm]
  exact hP

/-- A packet that changes the state and is DONE. -/
theorem Completes.done (hp : PassesOwner s o p cl owns) (hi : exec i s = .next (s.runPacket o p owns body)) (hz : o.gen = .zero) (u : State)
    (he : body cl (s.fetch o.opcode p) = u.done) (hc : u.cmd = (s.fetch o.opcode p).cmd)
    (hP : P (u.posted p.func (answer p o.opcode 0x00 0 []))) : Completes i s P :=
  Completes.answers hp hi hz u.done he rfl (by
    have hm : s.cmd.mcheck = none := hp.2.1
    rw [State.done, hc, State.fetch_mcheck, hm]) hP

/-- A packet that changes the state and is ACCEPTED. -/
theorem Completes.accepted (hp : PassesOwner s o p cl owns) (hi : exec i s = .next (s.runPacket o p owns body)) (hz : o.gen = .zero) (u : State)
    (he : body cl (s.fetch o.opcode p) = u.accepted) (hc : u.cmd = (s.fetch o.opcode p).cmd)
    (hP : P (u.posted p.func (answer p o.opcode 0x01 0 []))) : Completes i s P :=
  Completes.answers hp hi hz u.accepted he rfl (by
    have hm : s.cmd.mcheck = none := hp.2.1
    rw [State.accepted, hc, State.fetch_mcheck, hm]) hP

/-- A packet whose verdict leaves the state, and whose reply carries no generation. -/
theorem Completes.replyOnly (hp : PassesOwner s o p cl owns) (hi : exec i s = .next (s.runPacket o p owns body)) (hz : o.gen = .zero) (e : Ending)
    (he : body cl (s.fetch o.opcode p) = e) (hs : e.state = s.fetch o.opcode p) (hg : e.gen = none) :
    Completes i s fun t => t = served s o.opcode p
      { tag := p.tag, opcode := BitVec.ofNat 16 o.opcode, code := BitVec.ofNat 8 e.code, ring := p.ring, gen := 0,
        dkind := BitVec.ofNat 8 e.dkind, detail := BitVec.ofNat 32 e.detail, data := data16 e.data } := by
  have h := Completes.replies hp hi e he hs
  rw [hg, hz, genField_zero] at h
  exact h

end

/-- Settles O19: the record is written field by field, or the reserve mask. -/
theorem flowConfigWritesRecord : Obligations.FlowConfigWritesRecord := by
  unfold Obligations.FlowConfigWritesRecord
  refine ⟨?record, ?reserve⟩
  case record =>
    intro s p b n hp hn hprio hre hmax howner hz9 hz12
    have hm : s.cmd.mcheck = none := hp.2.1
    have one : n ≠ 0xFFFF := by omega
    refine Completes.done hp rfl rfl _ ((if_neg one).trans (State.parsed_checked _ _ _ _ ?_)) rfl ?_
    · simp only [List.forall_mem_cons, below, isZero, decide_eq_true_eq, Bool.or_eq_true, Bool.not_eq_true']
      exact ⟨hn, hprio, hre, hmax, howner, hz9, hz12, by simp⟩
    · rw [served_eq_posted hm, ← s.fetch_sched 0x0602 p]
      refine ⟨rfl, ?_, fun m h => ?_, ?_⟩
      · change (if n < 12 then _ else _) = _
        rfl
      · exact Sched.updFlow_other _ n m (Flow.ofRecord b n) h
      · refine (Sched.updFlow_same _ n (Flow.ofRecord b n)).trans ?_
        rw [Flow.ofRecord, bitOf_zero_eq hre]
  case reserve =>
    intro s p b hp hn hprio hre hz9 hz12
    have hm : s.cmd.mcheck = none := hp.2.1
    refine Completes.done hp rfl rfl _ ((if_pos hn).trans (State.parsed_checked _ _ _ _ ?_)) rfl ?_
    · simp [below, isZero, hprio, hre, hz9, hz12, b]
    · rw [served_eq_posted hm, ← s.fetch_sched 0x0602 p]
      rfl


/-- Settles O25: the tolerance is written, and the choice of every cluster looked at again. -/
theorem powerToleranceSet : Obligations.PowerToleranceSet := by
  unfold Obligations.PowerToleranceSet
  intro s p cl hp hz
  have hm : s.cmd.mcheck = none := hp.2.1
  have hn := s.target_nodup _ _ _ hp.2.2.2.1
  refine Completes.done hp rfl rfl _ (State.parsed_checked _ _ _ _ (by simp [isZero, hz])) rfl ?_
  generalize hw : ({ s.fetch 0x0B00 p with pwr := { (s.fetch 0x0B00 p).pwr with
    cl := cl.foldl (fun v c => upd v c fun x => { x with tol := u32At p.payload 0 }) (s.fetch 0x0B00 p).pwr.cl } } : State) = w
  refine ⟨?_, fun c => ?_⟩
  · have pwr := s.fetch_pwr 0x0B00 p
    have now := s.fetch_now 0x0B00 p
    rw [served_eq_posted hm, ← hw]
    simp only [State.posted, State.updFn, State.writeHost, State.endRoutine, State.repick, now]
    rw [pwr]
  · have base : w.pwr.cl[c] = { s.pwr.cl[c] with tol := if c ∈ cl then u32At p.payload 0 else (s.pwr.cl[c]).tol } := by
      rw [← hw]
      refine (foldl_upd_get cl (fun _ (x : PwrCl) => { x with tol := u32At p.payload 0 }) _ hn c).trans ?_
      rw [s.fetch_pwr]
      split <;> rfl
    have choose : (w.repick.posted p.func (answer p 0x0B00 0x00 0 [])).choose c = w.choose c := (State.posted_choose ..).trans (w.repick_choose c)
    have now : w.now = s.now := by rw [← hw, ← s.fetch_now 0x0B00 p]
    dsimp only
    rw [choose, show (w.repick.posted p.func (answer p 0x0B00 0x00 0 [])).pwr.cl[c] = w.repick.pwr.cl[c] from rfl, State.repick_cl, base]
    refine ⟨rfl, fun h => ?_⟩
    rw [w.chosenBefore_of_not_fed c (by rw [base]; exact h), base, now]

/-- Settles O18: a table takes the place of its like; the item is posted behind whatever its cycle has before it. -/
theorem rulesLoadedAndItemsPosted : Obligations.RulesLoadedAndItemsPosted := by
  unfold Obligations.RulesLoadedAndItemsPosted
  refine ⟨?load, ?post⟩
  case load =>
    intro s p num rules hp h1 h2 hr
    have hm : s.cmd.mcheck = none := hp.2.1
    have sel : (fieldAt p.payload 2 2 = 0 || decide (256 < fieldAt p.payload 2 2)) = false := by simp; omega
    have run : exec (.ruleLoad p) s = .next (s.runPacket { opcode := 0x0600, form := .none, units := 2 + 2 * fieldAt p.payload 2 2 } p none
        fun _ s => s.ruleLoad p.func p.payload) := by
      change execRuleLoad p s = _
      simp only [execRuleLoad, sel, Bool.false_eq_true, if_false]
    refine ⟨fun h => ?_, fun h => ?_⟩
    · refine Completes.done hp run rfl
        { s.fetch 0x0600 p with sched := { s.sched with tables := ⟨p.func, num, rules⟩ :: s.sched.tables.filter fun t => !(t.owner = p.func && t.num = num) } } ?_ rfl ?_
      · rw [State.ruleLoad, State.parsed_ok _ _ _ _ hr]
        dsimp only
        rw [State.fetch_sched, if_neg (by omega)]
      · rw [served_eq_posted hm]
        rfl
    · refine Completes.replyOnly hp run rfl (s.fetch 0x0600 p).busy ?_ rfl rfl
      rw [State.ruleLoad, State.parsed_ok _ _ _ _ hr]
      dsimp only
      rw [State.fetch_sched, if_pos h]
  case post =>
    intro s p ty b n hp hty hposted hz1 hn howner hz4 hres hdue
    have hm : s.cmd.mcheck = none := hp.2.1
    have role : (if 4080 ≤ n || s.flowOwner n = p.func then none else some 18) = (none : Option Nat) := by simp [howner]
    have run : exec (.itemPost p) s = .next (s.runPacket { opcode := 0x0601, form := .none, units := 5 } p none fun _ s => s.itemPost p.payload) := by
      change execItemPost p s = _
      rw [execItemPost, role]
    have body : (s.fetch 0x0601 p).itemPost p.payload =
        if (s.sched.flow n).maxPending ≤ s.sched.pendingOf n || s.sched.free ≤ 1024 then (s.fetch 0x0601 p).busy
        else { ({ s.fetch 0x0601 p with sched := s.sched.post (s.hostPost ty b) } : State).done with data := leBytes 4 s.sched.seqno.toNat } := by
      rw [State.itemPost_eq _ b ty hty (by simp [isZero, hposted, hz1, n, b, hn, hz4, hres]) (by simpa using hdue), State.fetch_hostPost,
        State.fetch_sched]
    refine ⟨fun h h' => ?_, fun h => ?_⟩
    · rw [if_neg (by simp; omega)] at body
      refine Completes.answers hp run rfl _ body rfl ((State.fetch_mcheck ..).trans hm) ?_
      rw [served_eq_posted hm]
      rfl
    · rw [if_pos (by simpa using h)] at body
      exact Completes.replyOnly hp run rfl (s.fetch 0x0601 p).busy body rfl rfl

end Sys2Proof.Claims

namespace Sys2Proof.Claims
open Sys2Proof.Machine

/-- Cluster 0 owes a commanded TDC run (R322), and its channel 0, armed by the pattern, does not measure yet. -/
def owing : State :=
  { bench with
    cal := { bench.cal with cl := upd bench.cal.cl 0 fun y => { y with what := 0x4 } }
    gens := upd bench.gens 0 fun g => { g with cur := { g.cur with config := { g.cur.config with tdc := upd g.cur.config.tdc 0 fun x => { x with arm := .symbol } } } } }

/-- Refutes O45: a table ends a code-density run only on a channel that runs; one whose cluster merely owes a commanded run keeps what it has. -/
theorem not_edgesStampsAndTables : ¬ Obligations.EdgesStampsAndTables := by
  unfold Obligations.EdgesStampsAndTables
  rintro ⟨-, -, -, -, -, table, -⟩
  obtain ⟨t, run, made, -⟩ := table owing 0 0 (List.replicate 64 16384) (by decide +kernel) (by decide +kernel) (by decide +kernel) (by decide +kernel)
    (by decide +kernel) (by decide +kernel) (by decide +kernel)
  have kept : (((stateOf owing (exec (.codeDensityDone 0 0 (List.replicate 64 16384)) owing)).cal.cl[(0 : Cluster)]).tables[(0 : Fin 12)]).isNone = true := by
    decide +kernel
  rw [stateOf_exec run, made] at kept
  exact absurd kept (by decide +kernel)

end Sys2Proof.Claims

namespace Sys2Proof.Machine

/-! ## Reading words and bytes -/

/-- A field of a word, as a number. -/
theorem bitsOf_toNat {w : Nat} (v : BitVec w) (lo n : Nat) : bitsOf v.toNat lo n = (v.extractLsb' lo n).toNat := by
  simp only [bitsOf, BitVec.extractLsb'_toNat, Nat.shiftRight_eq_div_pow]

theorem padTo_length (b : List Byte) : padTo b.length b = b := by
  simp only [padTo, List.take_left']

end Sys2Proof.Machine

namespace Sys2Proof.Claims
open Sys2Proof.Machine

/-! ## Diagnostic mode and I3C (R429, R437) -/

theorem diagCtl_place : placeAt 0 false 0x20 = .reg .idDiagCtl := by decide +kernel

/-- A write of a whole word by the PF to a register that is on no function's page. -/
theorem exec_registerWrite {s : State} {a : BitVec 24} {r : Reg} {v : Word} (op : s.barOpen 0 = true) (place : placeAt 0 false a = .reg r)
    (al : a.toNat % 4 = 0) (page : ∀ g x, r ≠ .page g x) : exec (.registerWrite 0 a v true) s = .next (s.playAll.writeReg r v) := by
  change execRegisterWrite 0 a v true s = _
  simp only [execRegisterWrite, op, place, al]
  cases r with
  | page g x => exact absurd rfl (page g x)
  | _ => rfl

/-- Settles O33: each access writes its own field of the identity block, or is refused by a bit of it. -/
theorem diagnosticModeAndI3c : Obligations.DiagnosticModeAndI3c := by
  unfold Obligations.DiagnosticModeAndI3c
  refine ⟨?enter, ?refused, ?exit, ?key, ?go, ?overrun, ?bad, ?done, ?nack, ?ctl⟩
  case enter =>
    intro s op quiet
    exact ⟨_, (if_neg (by simp [op])).trans (if_pos quiet), rfl⟩
  case refused =>
    intro s op quiet
    exact ⟨_, (if_neg (by simp [op])).trans (if_neg (by simp [quiet])), rfl⟩
  case exit =>
    intro s op
    exact ⟨_, if_neg (by simp [op]), rfl⟩
  case key =>
    intro s k hk
    exact ⟨⟨s, if_pos (by simpa using .inl hk), rfl⟩, s, if_pos (by simpa using .inl hk), rfl⟩
  case go =>
    intro s ctl n pin op idle hpin h1 h16 present
    refine ⟨_, (if_neg (by simp [op])).trans <| (if_neg (by simp [idle])).trans <| (if_neg ?_).trans (if_neg ?_), ?_⟩
    · simp only [bitsOf_toNat, Bool.or_eq_true, decide_eq_true_eq]
      omega
    · rw [bitsOf_toNat, present, Bool.not_true]
      exact Bool.false_ne_true
    · simp only [bitsOf_toNat]
      rfl
  case overrun =>
    intro s ctl op busy
    exact ⟨_, (if_neg (by simp [op])).trans (if_pos busy), rfl⟩
  case bad =>
    intro s ctl op idle wrong
    refine ⟨_, (if_neg (by simp [op])).trans <| (if_neg (by simp [idle])).trans (if_pos ?_), rfl, idle, rfl⟩
    simpa only [bitsOf_toNat, Bool.or_eq_true, decide_eq_true_eq, or_assoc] using wrong
  case done =>
    intro s data busy dir len h16
    refine ⟨_, if_neg (by simp [busy]), ?_, fun i => ?_⟩
    · simp only [Bool.or_false]
    · have read : (s.ids.i3c.dir && !false) = true := by rw [dir]; rfl
      simp only [read, if_true, Fin.getElem_fin, Vector.getElem_ofFn, len, padTo_length]
      rfl
  case nack =>
    intro s data busy
    refine ⟨_, if_neg (by simp [busy]), ?_⟩
    simp only [Bool.or_true, Bool.not_true, Bool.and_false, Bool.false_eq_true, if_false]
  case ctl =>
    intro s v op
    refine ⟨_, exec_registerWrite op diagCtl_place rfl (by simp), ?_⟩
    beta_reduce
    intro d
    split
    next h => exact if_neg (by simp [h.1, show s.playAll.ids.diag.active = true from h.2])
    next h => exact if_pos (by simpa [Decidable.or_iff_not_not_and_not] using h)

/-! ## Writes of registers (R425, R433, R436) -/

theorem seqCtl_place (c : Cluster) : placeAt 0 false (BitVec.ofNat 24 (0x100000 + 0x10000 * c.val + 0x40)) = .reg (.cluster c .seqCtl) := by
  revert c
  decide +kernel

theorem seqStatus_place (c : Cluster) : placeAt 0 false (BitVec.ofNat 24 (0x100000 + 0x10000 * c.val + 0x44)) = .reg (.cluster c .seqStatus) := by
  revert c
  decide +kernel

theorem cluster_aligned (c : Cluster) (o : Fin 2) : (BitVec.ofNat 24 (0x100000 + 0x10000 * c.val + 0x40 + 4 * o.val)).toNat % 4 = 0 := by
  rw [BitVec.toNat_ofNat]
  omega

/-- SQ_BASE_LO of a ring on a function's own page. -/
abbrev sqBase (f : Func) (r : Fin 4) : BitVec 24 := BitVec.ofNat 24 ((if f = 0 then 0x11010 else 0x1010) + 8 * r.val)

theorem sqBase_place (f : Func) (r : Fin 4) : placeAt f false (sqBase f r) = .reg (.page f (.sqBaseLo r)) := by
  revert f r
  decide +kernel

theorem sqBase_aligned (f : Func) (r : Fin 4) : (sqBase f r).toNat % 4 = 0 := by
  rw [BitVec.toNat_ofNat]
  split <;> omega

/-- A write of a whole word to a function's own page. -/
theorem exec_pageWrite {s : State} {f : Func} {a : BitVec 24} {x : PageReg} {v : Word} (op : s.barOpen f = true)
    (place : placeAt f false a = .reg (.page f x)) (al : a.toNat % 4 = 0) : exec (.registerWrite f a v true) s = .next (s.writePage f x v) := by
  change execRegisterWrite f a v true s = _
  simp only [execRegisterWrite, op, place, al]
  rfl

/-- An access of the PF below its BAR0's end meets a register or a reserved offset. -/
theorem placeAt_pf (a : BitVec 24) : placeAt 0 false a = match regAt 0 a with
    | some r => .reg r
    | none => .reserved := by
  have beyond : ¬ (2 ^ 24 ≤ a.toNat) := Nat.not_le.2 a.isLt
  unfold placeAt
  refine (if_neg ?_).trans ((if_neg ?_).trans (if_neg ?_))
  · simpa [barSize] using beyond
  all_goals simp

/-- The doorbell pages: BAR2 of the PF, and the first page of a VF's BAR0 (R219, R220). -/
theorem placeAt_doorbells (f : Func) (b : Bool) (a : BitVec 24) (page : b = decide (f = 0)) (low : a.toNat < 0x1000) :
    placeAt f b a = .doorbells := by
  unfold placeAt
  refine (if_neg ?_).trans (if_pos ?_)
  · by_cases h : f = 0 <;> simp [barSize, page, h] <;> omega
  · by_cases h : f = 0 <;> simp [page, h, low]

theorem ofNat_toNat_mod {w : Nat} (v : BitVec w) (n : Nat) : BitVec.ofNat n (v.toNat % 2 ^ n) = v.setWidth n :=
  BitVec.eq_of_toNat_eq (by simp)

/-- A count of a function leaves everything else. -/
theorem counted_updFn (s : State) (f : Func) (g : HostFunc → HostFunc) : Counted s (s.updFn f g) f g :=
  ⟨⟨rfl, fun _ hh => upd_get_other _ _ _ _ (Ne.symm hh)⟩, upd_get_same _ _ _⟩

theorem State.playAll_siteOf (s : State) : s.playAll.siteOf = s.siteOf := congrArg Prod.fst s.playAll_kept

/-- Settles O32: the address decode names the register, and its write sets one field; a write of part of a word or to a locked ring counts. -/
theorem registerWritesAndSelections : Obligations.RegisterWritesAndSelections := by
  unfold Obligations.RegisterWritesAndSelections
  refine ⟨?scratch, ?ctl, ?status, ?locked, ?base, ?part, ?doorbell, ?topo, ?hist, ?plog, ?mr7⟩
  case scratch =>
    intro s v op
    exact ⟨_, exec_registerWrite op (r := .idScratch) (by decide +kernel) rfl (by simp), rfl⟩
  case ctl =>
    intro s c v op
    refine ⟨_, exec_registerWrite op (seqCtl_place c) (cluster_aligned c 0) (by simp), rfl, fun d => ?_⟩
    refine (upd_get _ _ _ _).trans ?_
    by_cases e : c = d
    · rw [if_pos e, if_pos e.symm, e]
    · rw [if_neg e, if_neg (Ne.symm e)]
  case status =>
    intro s c v op
    refine ⟨_, exec_registerWrite op (seqStatus_place c) (cluster_aligned c 1) (by simp), rfl, fun d => ?_⟩
    have site : s.playAll.site c = s.siteOf[c] := congrArg (fun v : Vector Cluster 12 => v[c]) (State.playAll_siteOf s)
    refine (State.updSeq_get _ _ _ d).trans ?_
    rw [site]
    rfl
  case locked =>
    intro s f r v op en
    exact ⟨_, exec_pageWrite op (sqBase_place f r) (sqBase_aligned f r), by
      rw [show s.writePage f (.sqBaseLo r) v = s.countReg f from if_pos en]
      exact counted_updFn ..⟩
  case base =>
    intro s f r v op en
    refine ⟨_, exec_pageWrite op (sqBase_place f r) (sqBase_aligned f r), ?_⟩
    rw [show s.writePage f (.sqBaseLo r) v = s.updFn f _ from if_neg (by rw [en]; exact Bool.false_ne_true)]
    obtain ⟨only, here⟩ := counted_updFn s f fun h => { h with sq := upd h.sq r fun q => { q with base := q.base.extractLsb' 32 32 ++ (v &&& 0xFFFFF000) } }
    refine ⟨only, ?_, fun x => ?_⟩
    · rw [here]
    · rw [here]
      refine (upd_get _ _ _ _).trans ?_
      by_cases e : r = x
      · rw [if_pos e, if_pos e.symm]
      · rw [if_neg e, if_neg (Ne.symm e)]
  case part =>
    intro s a v op
    have here : exec (.registerWrite 0 a v false) s = .next (s.countReg 0) := by
      change execRegisterWrite 0 a v false s = _
      simp only [execRegisterWrite, op, placeAt_pf]
      cases regAt 0 a <;> rfl
    exact ⟨_, here, counted_updFn ..⟩
  case doorbell =>
    intro s f b a v whole op page low wrong
    have place : placeAt f b a = .doorbells := placeAt_doorbells f b a page low
    have bad : (isDoorbell a.toNat && decide (a.toNat % 4 = 0) && whole) = false := by
      obtain h | h := wrong
      · rw [h, Bool.and_false]
      · have : isDoorbell a.toNat = false := by
          simp only [isDoorbell, Bool.or_eq_false_iff, Bool.and_eq_false_iff, decide_eq_false_iff_not]
          omega
        rw [this, Bool.false_and, Bool.false_and]
    have here : exec (.registerWrite f a v whole b) s = .next (s.countDb f) := by
      change execRegisterWrite f a v whole s b = _
      simp only [execRegisterWrite, op, place, bad]
      rfl
    exact ⟨_, here, counted_updFn ..⟩
  case topo =>
    intro s v op
    refine ⟨_, if_neg (by simp [op]), ?_⟩
    rw [show BitVec.ofNat 6 (v.toNat % 64) = v.setWidth 6 from ofNat_toNat_mod v 6]
    rfl
  case hist =>
    intro s v op
    refine ⟨_, if_neg (by simp [op]), ?_⟩
    rw [show BitVec.ofNat 5 (v.toNat % 32) = v.setWidth 5 from ofNat_toNat_mod v 5]
  case plog =>
    intro s v op
    refine ⟨_, if_neg (by simp [op]), ?_⟩
    rw [show BitVec.ofNat 6 (v.toNat % 64) = v.setWidth 6 from ofNat_toNat_mod v 6]
  case mr7 =>
    intro s v op go
    refine ⟨_, if_neg (by simp [op, go]), rfl, fun i hi => upd_get_other _ _ _ _ (Ne.symm hi), ?_⟩
    refine (upd_get_same _ _ _).trans ?_
    simp only [BitVec.toNat_ofNat]

end Sys2Proof.Claims

namespace Sys2Proof.Claims
open Sys2Proof.Machine

/-- Rail 0 of cluster 0 changes its range while a commanded DAC run has it at code 0 (R328). -/
def tiedRail : State :=
  { bench with cl := upd bench.cl 0 fun e => { e with lvl := { e.lvl with rails := upd e.lvl.rails 0 fun x =>
      { x with phase := .switching (1001 * nsUnits * 1000), upCode := 1, step := 10, tied := true } } } }

/-- Refutes O46: a rail that a DAC run has tied to the park switch does not take its code up with the new range. -/
theorem not_railsMoveSwitchAndShort : ¬ Obligations.RailsMoveSwitchAndShort := by
  unfold Obligations.RailsMoveSwitchAndShort
  rintro ⟨-, switch, -⟩
  have zero : (((stateOf tiedRail (exec (.rangeSwitchDone 0 0) tiedRail)).cl[(0 : Cluster)]).lvl.rails[(0 : Lane)]).target = 0 := by decide +kernel
  obtain ⟨t, run, -, -, target, -⟩ := switch tiedRail 0 0 (1001 * nsUnits * 1000) (by decide +kernel) (by decide +kernel) (by decide +kernel)
    (by decide +kernel)
  rw [stateOf_exec run, target] at zero
  exact absurd zero (by decide +kernel)

end Sys2Proof.Claims

namespace Sys2Proof.Machine
variable (s : State)

/-! ## Rewriting a mirror page (R228) -/

/-- Several writes to host memory: the writes are recorded in their order, and a device request is noted. -/
theorem State.foldl_writeHost {α : Type} (l : List α) (a : α → BitVec 64) (b : α → List Byte) :
    l.foldl (fun s x => s.writeHost (a x) (b x)) s
      = { s with host := { s.host with writes := s.host.writes ++ l.map fun x => ⟨a x, b x⟩ }
                 pwr := { s.pwr with quiet := if l = [] then s.pwr.quiet else s.now } } := by
  induction l generalizing s with
  | nil => simp
  | cons x l ih =>
    rw [List.foldl_cons, ih]
    by_cases h : l = [] <;> simp [State.writeHost, h]

/-- One rewrite of a mirror page: SEQ odd, the changed lines, SEQ even. -/
theorem State.rewrite_eq (f : Func) : let h := s.host.fn[f]
    s.rewrite f = { s with
      host := { s.host with
        writes := s.host.writes ++ [⟨h.mirrorAddr, leBytes 4 (h.mirrorSeq + 1).toNat⟩]
          ++ ((changedLines h.page (s.mirrorPage f (h.mirrorSeq + 1))).map fun l => ⟨h.mirrorAddr + BitVec.ofNat 64 l.1, l.2⟩)
          ++ [⟨h.mirrorAddr, leBytes 4 (h.mirrorSeq + 1 + 1).toNat⟩]
        fn := upd s.host.fn f fun x => { x with mirrorSeq := h.mirrorSeq + 1 + 1,
                                                page := leBytes 4 (h.mirrorSeq + 1 + 1).toNat ++ (s.mirrorPage f (h.mirrorSeq + 1)).drop 4 } }
      pwr := { s.pwr with quiet := s.now } } := by
  intro h
  unfold State.rewrite
  extract_lets h odd new at_ a b c
  have hb : b = { a with host := { a.host with writes := a.host.writes ++ (changedLines h.page new).map fun l => ⟨at_ l.1, l.2⟩ }
                         pwr := { a.pwr with quiet := if changedLines h.page new = [] then a.pwr.quiet else a.now } } :=
    State.foldl_writeHost ..
  change (b.writeHost h.mirrorAddr (leBytes 4 (odd + 1).toNat)).updFn f _ = _
  rw [hb]
  rfl

theorem mem_changedLines {old new : List Byte} {l : Nat × List Byte} (h : l ∈ changedLines old new) : l.1 < 4096 := by
  obtain ⟨i, hi, e⟩ := List.mem_filterMap.1 h
  have := List.mem_range.1 hi
  dsimp only at e
  split at e
  · cases e
  · cases e
    dsimp only
    omega

end Sys2Proof.Machine

namespace Sys2Proof.Claims
open Sys2Proof.Machine

/-- Time goes on to an instant that is not past, with nothing under way: the handshakes move, and nothing else (R60, R188, R23). -/
theorem advance_to {s : State} {t : Nat} (calm : Calm s) (later : s.now ≤ t) :
    s.advance t = { s with now := t, sites := (s.advance t).sites, reqWait := (s.advance t).reqWait } := by
  by_cases h : t ≤ s.now
  · obtain rfl : t = s.now := Nat.le_antisymm h later
    have same : s.advance s.now = s := if_pos (Nat.le_refl _)
    rw [same]
  · exact (State.advance_calm s t calm.1 calm.2).trans (if_neg h)

/-- An address of a page is not below its start, unless the page passes the end of the address space. -/
theorem le_add_ofNat {a : BitVec 64} {o : Nat} (h : o < 4096) : a ≤ a + BitVec.ofNat 64 o ∨ 2 ^ 64 < a.toNat + 4096 := by
  by_cases wrap : 2 ^ 64 < a.toNat + 4096
  · exact .inr wrap
  · refine .inl ?_
    have : o % 2 ^ 64 = o := Nat.mod_eq_of_lt (by omega)
    rw [BitVec.le_def, BitVec.toNat_add, BitVec.toNat_ofNat, this, Nat.mod_eq_of_lt (by omega)]
    omega

theorem isReady_of {s : State} (h : s.pwr.phase = .ready) : s.isReady = true := by simp [State.isReady, h]

theorem configOpen_of {s : State} (h : s.pwr.phase = .ready) (f : Func) : s.configOpen f = decide (f.val ≤ s.host.numVfs.val) := by
  rw [State.configOpen, isReady_of h, Bool.true_and]

/-- Settles O37: each configuration write sets its field; the link and the mirror follow the rules that let them move. -/
theorem configurationLinkAndMirror : Obligations.ConfigurationLinkAndMirror := by
  unfold Obligations.ConfigurationLinkAndMirror
  refine ⟨?master, ?space, ?beyond, ?bar, ?sizes, ?caps, ?barred, ?deeper, ?updown, ?l1, ?mirror⟩
  case master =>
    intro s f b ready here
    have open_ : s.configOpen f = true := by rw [configOpen_of ready]; exact decide_eq_true here
    refine ⟨s.restPtrs.updFn f fun h => { h with busMaster := b }, ?_, ⟨rfl, fun g hg => upd_get_other _ _ _ _ (Ne.symm hg)⟩, upd_get_same _ _ _, fun x => ?_⟩
    · refine (if_neg ?_).trans (congrArg _ (if_pos open_))
      simp [isReady_of ready]
    · simp [State.restPtrs]
  case space =>
    intro s f b ready here
    have open_ : s.configOpen f = true := by rw [configOpen_of ready]; exact decide_eq_true here
    refine ⟨s.updFn f fun h => { h with memSpace := b }, ?_, counted_updFn s f _⟩
    refine (if_neg ?_).trans (congrArg _ (if_pos open_))
    simp [isReady_of ready]
  case beyond =>
    intro s f b ready here
    have shut : ¬ s.configOpen f = true := by rw [configOpen_of ready]; simpa using here
    refine ⟨⟨s, (if_neg ?_).trans (congrArg _ (if_neg shut)), rfl⟩, s, (if_neg ?_).trans (congrArg _ (if_neg shut)), rfl⟩
    all_goals simp [isReady_of ready]
  case bar =>
    intro s f a ready
    refine ⟨s.updFn f fun h => { h with bar0 := BitVec.ofNat 64 (a.toNat - a.toNat % barSize f false) }, if_neg ?_, ?_⟩
    · simp [isReady_of ready]
    · obtain ⟨only, here⟩ := counted_updFn s f fun h => { h with bar0 := BitVec.ofNat 64 (a.toNat - a.toNat % barSize f false) }
      refine ⟨only, here.trans ?_⟩
      by_cases h : f = 0 <;> simp [barSize, h]
  case sizes =>
    intro s m n ready
    refine ⟨⟨_, if_neg ?_, rfl⟩, _, if_neg ?_, rfl⟩ <;> simp [isReady_of ready]
  case caps =>
    intro s n b ready
    refine ⟨⟨_, if_neg ?_, rfl⟩, ⟨_, if_neg ?_, rfl⟩, _, if_neg ?_, rfl⟩ <;> simp [isReady_of ready]
  case barred =>
    intro s x sp w flit porst perst may down l0
    refine ⟨s, (if_neg (by simp [porst, perst])).trans ?_, rfl⟩
    cases x with
    | down => exact absurd rfl down
    | l0 => exact absurd rfl l0
    | l1 | l11 | l12 => exact congrArg _ (if_neg (by rw [may]; exact Bool.false_ne_true))
  case deeper =>
    intro s x sp w flit porst perst may below down l0
    have here : s.enterL1 x = { s with pwr := { s.pwr with link := x } } := by
      unfold State.enterL1
      rw [if_neg below]
    cases x with
    | down => exact absurd rfl down
    | l0 => exact absurd rfl l0
    | l1 | l11 | l12 =>
      refine ⟨_, (if_neg (by simp [porst, perst])).trans (congrArg _ (if_pos may)), ?_⟩
      simp only [here, Bool.and_eq_true, decide_eq_true_eq]
      rfl
  case updown =>
    rintro s x sp w flit porst perst (rfl | rfl)
    all_goals
      refine ⟨_, if_neg (by simp [porst, perst]), ?_⟩
      simp
  case l1 =>
    intro s l12 ready aspm link fetched deep by_ calm
    have may : s.mayL1 l12 = true := by
      have : (!l12 || s.allDeep) = true := by cases l12 <;> simp_all
      simp [State.mayL1, isReady_of ready, aspm, link, fetched, this]
    refine ⟨_, if_neg (by simp [link, may]), ?_⟩
    have later := advance_to calm by_
    rw [State.enterL1, if_pos link, show s.advance (s.pwr.quiet + 10 * usUnits) = _ from later]
    exact ⟨rfl, rfl, rfl, rfl, rfl, rfl⟩
  case mirror =>
    intro s f h u turn
    refine ⟨_, if_neg (by simp [turn]), ?_⟩
    have two (x : Word) : x + 1 + 1 = x + 2 := by bv_omega
    have page : ({ s.portGrant (.mirror f) with pwr := { s.pwr with link := .l0 } } : State).mirrorPage f (h.mirrorSeq + 1)
        = u.mirrorPage f (h.mirrorSeq + 1) := rfl
    rw [State.rewrite_eq]
    refine ⟨(congrArg HostFunc.mirrorSeq (upd_get_same _ _ _)).trans (two _), rfl, (congrArg HostFunc.page (upd_get_same _ _ _)).trans ?_, ?_, ?_, ?_,
      ?_, fun g hg => upd_get_other _ _ _ _ (Ne.symm hg), rfl, rfl⟩
    · rw [← two, ← page]
      rfl
    · simp only [List.append_assoc]
      exact List.take_left
    · simp only [List.append_assoc]
      exact (List.getElem?_append_right (Nat.le_refl _)).trans (by rw [Nat.sub_self]; rfl)
    · rw [← two]
      exact List.getLast?_concat
    · simp only [List.append_assoc]
      rw [show (s.portGrant (.mirror f)).host.writes = s.host.writes from rfl, List.drop_left]
      intro w hw
      simp only [List.mem_append, List.mem_singleton, List.mem_map] at hw
      obtain rfl | ⟨l, hl, rfl⟩ | rfl := hw
      · exact .inl (BitVec.le_refl _)
      · exact le_add_ofNat (mem_changedLines hl)
      · exact .inl (BitVec.le_refl _)

end Sys2Proof.Claims

namespace Sys2Proof.Claims
open Sys2Proof.Machine

/-- No sector of the journal can take a record, and the block of signature indices is used up (R389). -/
def dry : State :=
  { bench with
    sec := { bench.sec with journal := { sectors := [], at_ := 0 }, trees := [0], next := 0, end_ := 0 }
    rope := { bench.rope with ports := upd bench.rope.ports 0 fun p => { p with state := .up, level := 2, nonceLo := some (List.replicate 16 0) } } }

/-- The second half of a nonce, from the neighbour on port 0. -/
def nonceHigh : Frame :=
  let bare : Frame := ⟨0, 0, 0, List.replicate 16 0, 0⟩
  { bare with crc := crc32c (frameBytes 0x64 bare) }

/-- Refutes O54: a neighbour's request is not signed where the journal shows no END beyond the next index (R389), though a signature is available in
the sense of R391. -/
theorem not_attestationOverRope : ¬ Obligations.AttestationOverRope := by
  unfold Obligations.AttestationOverRope
  rintro ⟨-, -, -, signs, -⟩
  have kept : (stateOf dry (exec (.attNonceHi 0 nonceHigh) dry)).sec.next = 0 := by decide +kernel
  obtain ⟨t, run, next, -⟩ := signs dry 0 nonceHigh (List.replicate 16 0) (by decide +kernel) (by decide +kernel) (by decide +kernel)
  rw [stateOf_exec run, next] at kept
  exact absurd kept (by decide +kernel)

end Sys2Proof.Claims

namespace Sys2Proof.Machine
variable (s : State)

/-! ## Forming a site (R72, R258) -/

/-- `t` is `s` but for the records, the requests that wait, the sequencers, the segments and the snapshots of sites. -/
def SiteFrame (s t : State) : Prop :=
  t = { s with sites := t.sites, reqWait := t.reqWait, seqs := t.seqs, mem := { s.mem with segs := t.mem.segs }
               sched := { s.sched with snaps := t.sched.snaps } }

theorem SiteFrame.refl : SiteFrame s s := rfl

theorem SiteFrame.trans {s t u : State} (a : SiteFrame s t) (b : SiteFrame t u) : SiteFrame s u := by
  unfold SiteFrame at a b ⊢
  rw [b, a]

/-- A site begins anew: nothing sampled for it, its records as a fresh site has them, and no head page held for a start. -/
def State.beginSite (j : Cluster) : State :=
  (({ s with sched := { s.sched with snaps := upd s.sched.snaps j fun _ => [] } } : State).freshSite j).releaseHeads j

theorem State.beginSite_frame (j : Cluster) : SiteFrame s (s.beginSite j) := by
  unfold SiteFrame State.beginSite
  rw [State.releaseHeads_eq]
  rfl

theorem State.beginSite_sites (j k : Cluster) : (s.beginSite j).sites[k] =
    if k = j then { curGen := (s.gens[j]).cur.number, pendGen := (s.gens[j]).newest.number } else s.sites[k] := by
  unfold State.beginSite
  rw [State.releaseHeads_eq]
  exact State.updSite_get s j _ k

theorem State.beginSite_reqWait (j k : Cluster) : (s.beginSite j).reqWait[k] = if k = j then 0 else s.reqWait[k] := by
  unfold State.beginSite
  rw [State.releaseHeads_eq]
  refine (upd_get s.reqWait j k _).trans ?_
  simp only [eq_comm]

theorem State.beginSite_seqs (j k : Cluster) : (s.beginSite j).seqs[k] =
    if k = j then { s.seqs[k] with front := none, start := none, armed := none, desc := none, haltAt := none, selTaken := false } else s.seqs[k] := by
  unfold State.beginSite
  rw [State.releaseHeads_eq]
  exact State.updSeq_get s j _ k

/-- Several sites begin anew. -/
def State.beginSites (l : List Cluster) : State := l.foldl State.beginSite s

theorem State.beginSites_frame (l : List Cluster) : SiteFrame s (s.beginSites l) :=
  foldl_frame s l State.beginSite SiteFrame SiteFrame.refl (fun _ _ _ => SiteFrame.trans) State.beginSite_frame

theorem State.beginSite_gens (j : Cluster) : (s.beginSite j).gens = s.gens := (congrArg State.gens (s.beginSite_frame j)).trans rfl

theorem State.beginSites_sites (l : List Cluster) (k : Cluster) : (s.beginSites l).sites[k] =
    if k ∈ l then { curGen := (s.gens[k]).cur.number, pendGen := (s.gens[k]).newest.number } else s.sites[k] := by
  induction l generalizing s with
  | nil => rfl
  | cons j l ih =>
    rw [State.beginSites, List.foldl_cons, ← State.beginSites, ih, State.beginSite_gens, State.beginSite_sites]
    by_cases e : k = j
    · subst e
      simp
    · simp [e]

theorem State.beginSites_reqWait (l : List Cluster) (k : Cluster) : (s.beginSites l).reqWait[k] = if k ∈ l then 0 else s.reqWait[k] := by
  induction l generalizing s with
  | nil => rfl
  | cons j l ih =>
    rw [State.beginSites, List.foldl_cons, ← State.beginSites, ih, State.beginSite_reqWait]
    by_cases e : k = j
    · subst e
      simp
    · simp [e]

theorem State.beginSites_front (l : List Cluster) (k : Cluster) (h : k ∈ l ∨ (s.seqs[k]).front = none) : ((s.beginSites l).seqs[k]).front = none := by
  induction l generalizing s with
  | nil => exact h.resolve_left (List.not_mem_nil)
  | cons j l ih =>
    refine ih (s.beginSite j) ?_
    rw [State.beginSite_seqs]
    by_cases e : k = j
    · exact .inr (by rw [if_pos e])
    · rw [if_neg e]
      exact h.imp_left fun m => (List.mem_cons.1 m).resolve_left e

/-- Several sequencers clear their flags. -/
theorem State.clearAll_eq (l : List Cluster) :
    l.foldl (fun s c => s.updSeq c Seqr.clearFlags) s = { s with seqs := (l.foldl (fun s c => s.updSeq c Seqr.clearFlags) s).seqs } := by
  induction l generalizing s with
  | nil => rfl
  | cons c l ih => exact ih (s.updSeq c Seqr.clearFlags)

theorem State.clearAll_seqs (l : List Cluster) (k : Cluster) :
    (l.foldl (fun s c => s.updSeq c Seqr.clearFlags) s).seqs[k] = if k ∈ l then (s.seqs[k]).clearFlags else s.seqs[k] := by
  induction l generalizing s with
  | nil => rfl
  | cons c l ih =>
    rw [List.foldl_cons, ih, State.updSeq_get]
    by_cases e : k = c
    · subst e
      simp [Seqr.clearFlags]
    · simp [e]

/-- The state with the clusters regrouped and nothing begun yet. -/
def State.regroup (cl : List Cluster) (gang : Option Gang) : State :=
  let k := cl.headD 0
  { s with siteOf := (s.touched cl).foldl (fun v c => v.set c.val (if cl.contains c then k else c) c.isLt) s.siteOf,
           gangs := (s.touched cl).foldl (fun v c => v.set c.val (if c = k then gang else none) c.isLt) s.gangs }

/-- The index clusters of the sites that are new: the one formed, and the clusters left over. -/
def State.newSites (cl : List Cluster) : List Cluster := cl.headD 0 :: (s.touched cl).filter fun c => !cl.contains c

theorem State.formSite_eq (cl : List Cluster) (gang : Option Gang) :
    s.formSite cl gang = (s.touched cl).foldl (fun s c => s.updSeq c Seqr.clearFlags) ((s.regroup cl gang).beginSites (s.newSites cl)) := rfl

theorem State.formSite_frame (cl : List Cluster) (gang : Option Gang) : SiteFrame (s.regroup cl gang) (s.formSite cl gang) := by
  refine SiteFrame.trans (State.beginSites_frame _ (s.newSites cl)) ?_
  rw [State.formSite_eq, State.clearAll_eq]
  rfl

theorem State.formSite_only (cl : List Cluster) (gang : Option Gang) : s.formSite cl gang =
    { s with siteOf := (s.formSite cl gang).siteOf, gangs := (s.formSite cl gang).gangs, sites := (s.formSite cl gang).sites
             reqWait := (s.formSite cl gang).reqWait, seqs := (s.formSite cl gang).seqs
             mem := { s.mem with segs := (s.formSite cl gang).mem.segs }, sched := { s.sched with snaps := (s.formSite cl gang).sched.snaps } } := by
  have frame := s.formSite_frame cl gang
  generalize s.formSite cl gang = w at frame ⊢
  rw [show w = _ from frame]
  rfl

theorem State.formSite_siteOf (cl : List Cluster) (gang : Option Gang) : (s.formSite cl gang).siteOf = (s.regroup cl gang).siteOf :=
  (congrArg State.siteOf (s.formSite_frame cl gang)).trans rfl

theorem State.formSite_gangs (cl : List Cluster) (gang : Option Gang) : (s.formSite cl gang).gangs = (s.regroup cl gang).gangs :=
  (congrArg State.gangs (s.formSite_frame cl gang)).trans rfl

theorem State.regroup_siteOf (cl : List Cluster) (gang : Option Gang) (c : Cluster) : (s.regroup cl gang).siteOf[c] =
    if c ∈ s.touched cl then if cl.contains c then cl.headD 0 else c else s.siteOf[c] := foldl_set_get ..

theorem State.regroup_gangs (cl : List Cluster) (gang : Option Gang) (c : Cluster) : (s.regroup cl gang).gangs[c] =
    if c ∈ s.touched cl then if c = cl.headD 0 then gang else none else s.gangs[c] := foldl_set_get ..

theorem State.formSite_sites (cl : List Cluster) (gang : Option Gang) (k : Cluster) : (s.formSite cl gang).sites[k] =
    if k ∈ s.newSites cl then { curGen := (s.gens[k]).cur.number, pendGen := (s.gens[k]).newest.number } else s.sites[k] := by
  rw [State.formSite_eq, State.clearAll_eq]
  exact State.beginSites_sites ..

theorem State.formSite_reqWait (cl : List Cluster) (gang : Option Gang) (k : Cluster) : (s.formSite cl gang).reqWait[k] =
    if k ∈ s.newSites cl then 0 else s.reqWait[k] := by
  rw [State.formSite_eq, State.clearAll_eq]
  exact State.beginSites_reqWait ..

theorem State.formSite_seqs (cl : List Cluster) (gang : Option Gang) (k : Cluster) : (s.formSite cl gang).seqs[k] =
    let q := ((s.regroup cl gang).beginSites (s.newSites cl)).seqs[k]
    if k ∈ s.touched cl then q.clearFlags else q := by
  rw [State.formSite_eq, State.clearAll_seqs]

theorem State.formSite_front (cl : List Cluster) (gang : Option Gang) (k : Cluster) (h : k ∈ s.newSites cl) :
    ((s.formSite cl gang).seqs[k]).front = none := by
  have := State.beginSites_front (s.regroup cl gang) _ k (.inl h)
  rw [State.formSite_seqs]
  dsimp only
  split <;> exact this

theorem State.mem_newSites (cl : List Cluster) (k : Cluster) : k ∈ s.newSites cl ↔ k = cl.headD 0 ∨ k ∈ s.touched cl ∧ k ∉ cl := by
  simp [State.newSites]

/-- The clusters named are among those touched, where each cluster's site is one (R12). -/
theorem State.subset_touched (h : ∀ c : Cluster, s.siteOf[s.siteOf[c]] = s.siteOf[c]) {cl : List Cluster} {c : Cluster} (hc : c ∈ cl) :
    c ∈ s.touched cl :=
  List.mem_flatMap.2 ⟨s.siteOf[c], (s.mem_sitesFor cl _).2 ⟨h c, c, hc, rfl⟩, (s.mem_members _ _).2 rfl⟩

end Sys2Proof.Machine

namespace Sys2Proof.Claims
open Sys2Proof.Machine

theorem fetch_sitesFor (s : State) (op : Nat) (p : Packet) (cl : List Cluster) : (s.fetch op p).sitesFor cl = s.sitesFor cl := by
  simp only [State.sitesFor, State.siteIdxs, State.isSite, State.fetch_siteOf, State.fetch_site]

theorem fetch_touched (s : State) (op : Nat) (p : Packet) (cl : List Cluster) : (s.fetch op p).touched cl = s.touched cl := by
  have members : (s.fetch op p).members = s.members := by
    funext k
    simp only [State.members, State.fetch_siteOf]
  rw [State.touched, State.touched, members, fetch_sitesFor]

/-- Settles O14: the clusters named make one site, what is left over falls into single clusters, and each new site begins anew. -/
theorem siteGangFormsSites : Obligations.SiteGangFormsSites := by
  unfold Obligations.SiteGangFormsSites
  intro s p cl g rooted hp few quiet cal parse
  have hm : s.cmd.mcheck = none := hp.2.1
  have run : exec (.siteGang p) s = .next (s.runPacket { opcode := 0x0220, form := .clusters, units := 2 + fieldAt p.payload 0 1, notInDiag := true }
      p none fun cl s => s.siteGang p.payload cl) := by
    change execSiteGang p s = _
    simp only [execSiteGang, few, if_true]
  have nonempty : cl ≠ [] := by
    have target := hp.2.2.2.1
    simp only [State.target] at target
    split at target
    · cases target
      simp_all
    · cases target
  have headed : cl.headD 0 ∈ cl := by
    cases cl with
    | nil => exact absurd rfl nonempty
    | cons c cl => exact List.mem_cons_self
  set u := s.fetch 0x0220 p with hu
  have gens : u.gens = s.gens := s.fetch_gens ..
  have touched : u.touched cl = s.touched cl := fetch_touched ..
  have sub {c : Cluster} (hc : c ∈ cl) : c ∈ s.touched cl := s.subset_touched rooted hc
  have body : u.siteGang p.payload cl = (u.formSite cl g).done := by
    have free : (!(u.sitesFor cl).all u.quietSite || cl.any u.limCal) = false := by
      have sites : u.sitesFor cl = s.sitesFor cl := fetch_sitesFor ..
      have quiet' : u.quietSite = s.quietSite := by
        funext k
        simp only [State.quietSite, State.startPending, hu, State.fetch_siteState, State.fetch_seqs]
      have cal' : u.limCal = s.limCal := by
        funext c
        simp only [State.limCal, hu, State.fetch_cal]
      rw [sites, quiet', cal', List.all_eq_true.2 quiet, Bool.not_true, Bool.false_or, List.any_eq_false]
      exact fun c hc => by rw [cal c hc]; exact Bool.false_ne_true
    have parse' : u.parseGang p.payload = .ok g := by
      rw [← parse]
      simp only [State.parseGang, hu, State.fetch_rope]
    rw [State.siteGang, free, parse']
    rfl
  have frame := u.formSite_only cl g
  have cmd : (u.formSite cl g).cmd = u.cmd := (congrArg State.cmd frame).trans rfl
  refine Completes.done hp run rfl _ body cmd ?_
  clear_value u
  have siteOf (c : Cluster) : (u.formSite cl g).siteOf[c] = if c ∈ cl then cl.headD 0 else if c ∈ s.touched cl then c else s.siteOf[c] := by
    rw [State.formSite_siteOf, State.regroup_siteOf, touched, hu, State.fetch_siteOf]
    by_cases hc : c ∈ cl
    · rw [if_pos (sub hc), if_pos (List.contains_iff_mem.2 hc), if_pos hc]
    · rw [if_neg hc, if_neg (mt List.contains_iff_mem.1 hc)]
  have gangs (c : Cluster) : (u.formSite cl g).gangs[c] = if c = cl.headD 0 then g else if c ∈ s.touched cl then none else s.gangs[c] := by
    rw [State.formSite_gangs, State.regroup_gangs, touched, hu, State.fetch_gangs]
    by_cases hc : c = cl.headD 0
    · rw [if_pos (hc ▸ sub headed), if_pos hc, if_pos hc]
    · rw [if_neg hc, if_neg hc]
  have new (j : Cluster) : j ∈ u.newSites cl ↔ j = cl.headD 0 ∨ j ∈ s.touched cl ∧ j ∉ cl := touched ▸ u.mem_newSites cl j
  have sites := u.formSite_sites cl g
  have wait := u.formSite_reqWait cl g
  have front := u.formSite_front cl g
  have cleared (c : Cluster) (hc : c ∈ s.touched cl) : (u.formSite cl g).seqs[c] = ((u.formSite cl g).seqs[c]).clearFlags := by
    have : (u.formSite cl g).seqs[c] = (((u.regroup cl g).beginSites (u.newSites cl)).seqs[c]).clearFlags :=
      (u.formSite_seqs cl g c).trans (if_pos (touched ▸ hc))
    rw [this]
    rfl
  generalize u.formSite cl g = w at frame siteOf gangs sites wait front cleared ⊢
  refine ⟨?_, siteOf, gangs, fun j hj => ⟨?_, (wait j).trans (if_pos ((new j).2 hj)), front j ((new j).2 hj)⟩, fun j hk hj => ?_, cleared⟩
  · have mem : s.mem = u.mem := by rw [hu, State.fetch_mem]
    have sched : s.sched = u.sched := by rw [hu, State.fetch_sched]
    rw [served_eq_posted hm, ← hu, frame, mem, sched]
    rfl
  · rw [← gens]
    exact (sites j).trans (if_pos ((new j).2 hj))
  · refine (sites j).trans ((if_neg ?_).trans (by rw [hu, State.fetch_sites]))
    rw [new]
    rintro (h | ⟨h, n⟩)
    · exact hk h
    · exact hj.elim (fun x => x h) (fun x => n x)

end Sys2Proof.Claims

namespace Sys2Proof.Claims
open Sys2Proof.Machine

/-- ATTEST with a zero nonce and a buffer that holds the report. -/
def attestPacket : Packet := benchPacket 4 0 (List.replicate 40 0 ++ leBytes 4 9420)

/-- Refutes O26: ATTEST is BUSY where the journal shows no END beyond the next index (R389), though a signature is available in the sense of R391. -/
theorem not_securityCommands : ¬ Obligations.SecurityCommands := by
  unfold Obligations.SecurityCommands
  rintro ⟨attest, -⟩
  have kept : (stateOf dry (exec (.attest attestPacket) dry)).sec.next = 0 := by decide +kernel
  obtain ⟨t, run, -, -, next, -⟩ := (attest dry attestPacket (by decide +kernel) (by decide +kernel) (by decide +kernel) (by decide +kernel)).1 (by decide +kernel)
    (by decide +kernel)
  rw [stateOf_exec run, next] at kept
  exact absurd kept (by decide +kernel)

end Sys2Proof.Claims

namespace Sys2Proof.Machine

/-- One place of an updated vector, with the place read on the left. -/
theorem upd_at {α : Type} {n : Nat} (v : Vector α n) (i j : Fin n) (f : α → α) : (upd v i f)[j] = if j = i then f v[i] else v[j] := by
  refine (upd_get v i j f).trans ?_
  by_cases e : i = j
  · rw [if_pos e, if_pos e.symm]
  · rw [if_neg e, if_neg (Ne.symm e)]

theorem upd_apply {α : Type} {n : Nat} (v : Vector α n) (i j : Fin n) (f : α → α) : (upd v i f)[j] = if j = i then f v[j] else v[j] := by
  rw [upd_at]
  by_cases e : j = i
  · rw [e]
  · rw [if_neg e, if_neg e]

/-- A list without repetition in which one element alone has a property. -/
theorem filter_eq_singleton {α : Type} [DecidableEq α] {l : List α} (hn : l.Nodup) {p : α → Bool} {a : α} (ha : a ∈ l) (h : ∀ b ∈ l, p b = decide (b = a)) :
    l.filter p = [a] := by
  rw [List.filter_congr h, List.filter_eq, List.count_eq_one_of_mem hn ha]
  rfl

end Sys2Proof.Machine

namespace Sys2Proof.Claims
open Sys2Proof.Machine

section
variable (s : State) (f : Func)

/-- A function's record changes, and nothing else. -/
theorem onlyFn_updFn (g : HostFunc → HostFunc) : OnlyFn s (s.updFn f g) f ∧ (s.updFn f g).host.fn[f] = g s.host.fn[f] := counted_updFn s f g

/-- A submission ring of a function changes, and nothing else. -/
theorem onlyFn_ring (r : Fin 4) (g : HostFunc → HostFunc) (k : SubRing → SubRing)
    (hg : g s.host.fn[f] = { s.host.fn[f] with sq := upd (s.host.fn[f]).sq r k }) : let t := s.updFn f g
    OnlyFn s t f ∧ t.host.fn[f] = { s.host.fn[f] with sq := (t.host.fn[f]).sq } ∧
      ∀ x : Fin 4, (t.host.fn[f]).sq[x] = if x = r then k (s.host.fn[f]).sq[r] else (s.host.fn[f]).sq[x] := by
  intro t
  obtain ⟨only, here⟩ := onlyFn_updFn s f g
  rw [hg] at here
  refine ⟨only, by rw [here], fun x => ?_⟩
  rw [here]
  exact upd_at ..

end

/-! ## Owners and ring enables (R217, R431, R433) -/

/-- One field of an ownership write differs from what stands. -/
theorem ownerFields_one {s : State} {i : Fin 2} {v : Word} {c : Cluster} {x : Nat} (block : c.val / 8 = i.val)
    (here : bitsOf v.toNat (4 * (c.val % 8)) 4 = x) (differs : (s.host.owner[c]).val ≠ x)
    (same : ∀ d : Cluster, d.val / 8 = i.val → d ≠ c → bitsOf v.toNat (4 * (d.val % 8)) 4 = (s.host.owner[d]).val) :
    s.ownerFields i v = if x ≤ s.host.numVfs.val && s.ownerFree c then ([(c, Fin.ofNat 13 x)], false) else ([], true) := by
  have only : (((List.finRange 12).filter fun d => d.val / 8 = i.val).map fun d => (d, bitsOf v.toNat (4 * (d.val % 8)) 4)).filter
      (fun y => (s.host.owner[y.1]).val ≠ y.2) = [(c, x)] := by
    rw [List.filter_map, List.filter_filter, filter_eq_singleton (List.nodup_finRange 12) (List.mem_finRange c) fun d _ => ?_]
    · rw [List.map_singleton, here]
    · by_cases e : d = c
      · subst e
        change (decide ((s.host.owner[d]).val ≠ bitsOf v.toNat (4 * (d.val % 8)) 4) && decide (d.val / 8 = i.val)) = decide (d = d)
        rw [here, decide_eq_true differs, decide_eq_true block, decide_eq_true rfl]
        rfl
      · by_cases hb : d.val / 8 = i.val
        · simp [e, hb, same d hb e]
        · simp [e, hb]
  unfold State.ownerFields
  extract_lets fields differ ok
  have hd : differ = [(c, x)] := only
  have ho : ok = if x ≤ s.host.numVfs.val && s.ownerFree c then [(c, x)] else [] := by
    change differ.filter _ = _
    rw [hd, List.filter_singleton]
    simp
  rw [ho, hd]
  split <;> simp

/-- An ownership write that repeats what stands. -/
theorem ownerFields_none {s : State} {i : Fin 2} {v : Word}
    (same : ∀ d : Cluster, d.val / 8 = i.val → bitsOf v.toNat (4 * (d.val % 8)) 4 = (s.host.owner[d]).val) : s.ownerFields i v = ([], false) := by
  have none : (((List.finRange 12).filter fun d => d.val / 8 = i.val).map fun d => (d, bitsOf v.toNat (4 * (d.val % 8)) 4)).filter
      (fun y => (s.host.owner[y.1]).val ≠ y.2) = [] := by
    refine List.filter_eq_nil_iff.2 fun y hy => ?_
    obtain ⟨d, hd, rfl⟩ := List.mem_map.1 hy
    have := same d (of_decide_eq_true (List.mem_filter.1 hd).2)
    simpa using this.symm
  unfold State.ownerFields
  extract_lets fields differ ok
  have hd : differ = [] := none
  have ho : ok = [] := by
    change differ.filter _ = _
    rw [hd, List.filter_nil]
  rw [ho, hd]
  rfl

/-- The state a write of HST_OWNER makes of its changes. -/
def State.withOwners (s : State) (changes : List (Cluster × Func)) (refused : Bool) : State :=
  let u := changes.foldl (fun s x => s.formSite [x.1] none) s
  { u with host := { u.host with owner := changes.foldl (fun v x => v.set x.1.val x.2 x.1.isLt) u.host.owner
                                 ownRefused := u.host.ownRefused || refused } }

theorem exec_hstOwnerWrite {s : State} {i : Fin 2} {v : Word} {changes : List (Cluster × Func)} {refused : Bool} (op : s.barOpen 0 = true)
    (h : s.ownerFields i v = (changes, refused)) : exec (.hstOwnerWrite i v) s =
      .next (if refused then (State.withOwners s changes refused).countReg 0 else State.withOwners s changes refused).repick := by
  change execHstOwnerWrite i v s = _
  simp only [execHstOwnerWrite, op, h]
  rfl

/-- Settles O29: the fields of an ownership write that differ decide what it does; an enable or a disable writes its ring. -/
theorem ownersAndRingEnables : Obligations.OwnersAndRingEnables := by
  unfold Obligations.OwnersAndRingEnables
  refine ⟨?owner, ?sq, ?rq, ?sqOff, ?rqOff, ?done, ?refused⟩
  case sq =>
    intro s f r op en
    have enable := onlyFn_ring s f r
      (fun h => if (h.sq[r]).en then h else { h with sq := upd h.sq r fun q => { q with en := true, head := 0, tail := 0, err := false, part := 0 } })
      (fun q => { q with en := true, head := 0, tail := 0, err := false, part := 0 }) (if_neg (by rw [en]; exact Bool.false_ne_true))
    exact ⟨_, if_neg (by simp [op]), enable⟩
  case rq =>
    intro s f op en
    obtain ⟨only, here⟩ := onlyFn_updFn s f fun h => if h.rq.en then h else { h with rq := { h.rq with en := true, open_ := true, head := 0, tail := 0 } }
    exact ⟨_, if_neg (by simp [op]), only, here.trans (if_neg (by rw [en]; exact Bool.false_ne_true))⟩
  case sqOff =>
    intro s f r op
    have disable := onlyFn_ring s f r (fun h => { h with sq := upd h.sq r fun q => { q with en := false, part := 0 } })
      (fun q => { q with en := false, part := 0 }) rfl
    exact ⟨_, if_neg (by simp [op]), disable⟩
  case rqOff =>
    intro s f op
    exact ⟨_, if_neg (by simp [op]), onlyFn_updFn s f _⟩
  case done =>
    intro s f en idle
    exact ⟨_, if_neg (by simpa [idle] using en), onlyFn_updFn s f _⟩
  case refused =>
    intro s c i v f op block differs wrong same
    have fields : s.ownerFields i v = ([], true) := by
      refine (ownerFields_one block rfl (Ne.symm differs) same).trans (if_neg ?_)
      obtain h | h := wrong
      · simp [f] at h ⊢
        omega
      · simp [h]
    refine ⟨_, exec_hstOwnerWrite op fields, ?_, fun g => upd_apply _ 0 g _, rfl, rfl⟩
    exact congrArg (fun b => { s.host with fn := (s.countReg 0).host.fn, ownRefused := b }) (Bool.or_true s.host.ownRefused)
  case owner =>
    intro s c f v op block there free fields
    have low (d : Cluster) (hd : d.val / 8 = 0) : d.val % 8 = d.val := by omega
    by_cases e : s.host.owner[c] = f
    · have none : s.ownerFields 0 v = ([], false) := by
        refine ownerFields_none fun d hd => ?_
        rw [low d hd, fields d hd]
        split
        · next h => rw [h, e]
        · rfl
      refine ⟨_, exec_hstOwnerWrite op none, e, fun _ _ => rfl, ?_, rfl, rfl, rfl⟩
      change { s.host with ownRefused := s.host.ownRefused || false } = _
      rw [Bool.or_false]
      rfl
    · have one : s.ownerFields 0 v = ([(c, f)], false) := by
        refine (ownerFields_one (x := f.val) block ?_ (fun h => e (Fin.ext h)) fun d hd hc => ?_).trans ((if_pos ?_).trans ?_)
        · rw [low c block, fields c block, if_pos rfl]
        · rw [low d hd, fields d hd, if_neg hc]
        · rw [free, decide_eq_true there]
          rfl
        · rw [Fin.ofNat_val_eq_self]
      have frame := s.formSite_only [c] none
      refine ⟨_, exec_hstOwnerWrite op one, ?_⟩
      change let t := ({ s.formSite [c] none with host := { (s.formSite [c] none).host with
        owner := (s.formSite [c] none).host.owner.set c.val f c.isLt, ownRefused := (s.formSite [c] none).host.ownRefused || false } } : State).repick
        t.host.owner[c] = f ∧ (∀ d : Cluster, d ≠ c → t.host.owner[d] = s.host.owner[d]) ∧ t.host = { s.host with owner := t.host.owner } ∧
        t.gens = s.gens ∧ t.mem = { s.mem with segs := t.mem.segs } ∧ t.cmd = s.cmd
      generalize s.formSite [c] none = w at frame ⊢
      rw [frame, Bool.or_false]
      exact ⟨Vector.getElem_set_self _, fun d hd => Vector.getElem_set_ne c.isLt d.isLt fun h => hd (Fin.ext h.symm), rfl, rfl, rfl, rfl⟩

/-! ## HST_EVT_CLR (R434) -/

theorem bitOf_eq_testBit (n i : Nat) : bitOf n i = n.testBit i := by
  rw [Nat.testBit_eq_decide_div_mod_eq]
  rfl

/-- A bit of a field of a word. -/
theorem bitOf_bitsOf {w : Nat} (v : BitVec w) (lo n i : Nat) (hi : i < n) : bitOf (bitsOf v.toNat lo n) i = v.getLsbD (lo + i) := by
  rw [bitOf_eq_testBit, bitsOf, Nat.testBit_mod_two_pow, Nat.testBit_div_two_pow, decide_eq_true hi, Bool.true_and, BitVec.getLsbD, Nat.add_comm]

section
variable (s : State) (m : Nat)

/-- The EVENTS bits of one cluster clear at their sources. -/
def State.clearEventsOf (c : Cluster) : State :=
  let s := (s.updSeq c fun q => q.clearEvents m).updCl c fun e => e.clearEvents m
  { s with mem := { s.mem with perCl := upd s.mem.perCl c fun x => { x with underrun := x.underrun && !bitOf m 7 } } }

/-- What a list of clusters that names none twice clears: the frame, and each cluster by itself. -/
theorem clearEventsOf_foldl (l : List Cluster) (hn : l.Nodup) : let t := l.foldl (fun s c => State.clearEventsOf s m c) s
    t = { s with seqs := t.seqs, cl := t.cl, mem := { s.mem with perCl := t.mem.perCl } } ∧ ∀ c : Cluster,
      t.seqs[c] = (if c ∈ l then (s.seqs[c]).clearEvents m else s.seqs[c]) ∧
      t.cl[c] = (if c ∈ l then (s.cl[c]).clearEvents m else s.cl[c]) ∧
      t.mem.perCl[c] = (if c ∈ l then { s.mem.perCl[c] with underrun := (s.mem.perCl[c]).underrun && !bitOf m 7 } else s.mem.perCl[c]) := by
  induction l generalizing s with
  | nil => exact ⟨rfl, fun _ => ⟨rfl, rfl, rfl⟩⟩
  | cons d l ih =>
    obtain ⟨hd, hn⟩ := List.nodup_cons.1 hn
    obtain ⟨frame, here⟩ := ih (State.clearEventsOf s m d) hn
    refine ⟨?_, fun c => ?_⟩
    · rw [List.foldl_cons, frame]
      rfl
    · obtain ⟨seq, cl, mem⟩ := here c
      rw [List.foldl_cons, seq, cl, mem]
      have seq0 : (State.clearEventsOf s m d).seqs[c] = if c = d then (s.seqs[c]).clearEvents m else s.seqs[c] := upd_apply ..
      have cl0 : (State.clearEventsOf s m d).cl[c] = if c = d then (s.cl[c]).clearEvents m else s.cl[c] := upd_apply ..
      have mem0 : (State.clearEventsOf s m d).mem.perCl[c] =
        if c = d then { s.mem.perCl[c] with underrun := (s.mem.perCl[c]).underrun && !bitOf m 7 } else s.mem.perCl[c] := upd_apply ..
      rw [seq0, cl0, mem0]
      by_cases e : c = d
      · subst e
        simp [hd]
      · simp [e]

end

/-- Settles O30: the clusters of the site clear the masked bits, each at its source; what the function does not own counts. -/
theorem eventClearReachesItsSources : Obligations.EventClearReachesItsSources := by
  unfold Obligations.EventClearReachesItsSources
  refine ⟨?clears, ?counts⟩
  case counts =>
    intro s f v op wrong
    refine ⟨_, (if_neg (by simp [op])).trans (if_pos ?_), counted_updFn s f _⟩
    simpa [or_assoc] using wrong
  case clears =>
    intro s f v k op index site owns
    have k12 : ¬ 12 ≤ bitsOf v.toNat 0 4 := by have := k.isLt; omega
    have hk : (Fin.ofNat 12 (bitsOf v.toNat 0 4) : Cluster) = k := by rw [index, Fin.ofNat_val_eq_self]
    have known : (12 ≤ bitsOf v.toNat 0 4 || !s.isSite k || !s.owns f k) = false := by
      simp only [k12, State.isSite, site, owns, decide_true, decide_false, Bool.not_true, Bool.or_false]
    have here : exec (.hstEvtClr f v) s = .next (s.playAll.clearEvents k (bitsOf v.toNat 16 12)) := by
      refine (if_neg (by simp [op])).trans ((if_neg ?_).trans (by rw [hk]))
      rw [hk, known]
      exact Bool.false_ne_true
    have members : s.playAll.members k = s.members k := by
      simp only [State.members, State.playAll_siteOf]
    obtain ⟨frame, each⟩ := clearEventsOf_foldl s.playAll (bitsOf v.toNat 16 12) (s.members k) (s.members_nodup k)
    have cleared : s.playAll.clearEvents k (bitsOf v.toNat 16 12)
        = (s.members k).foldl (fun s c => State.clearEventsOf s (bitsOf v.toNat 16 12) c) s.playAll := by
      rw [← members]
      rfl
    refine ⟨_, here, ?_⟩
    rw [cleared]
    generalize (s.members k).foldl (fun s c => State.clearEventsOf s (bitsOf v.toNat 16 12) c) s.playAll = t at frame each ⊢
    refine ⟨frame, fun c hc => ?_, fun c hc => ?_⟩
    · obtain ⟨seq, cl, mem⟩ := each c
      have out : c ∉ s.members k := mt (s.mem_members k c).1 hc
      exact ⟨seq.trans (if_neg out), cl.trans (if_neg out), mem.trans (if_neg out)⟩
    · obtain ⟨seq, cl, mem⟩ := each c
      rw [if_pos ((s.mem_members k c).2 hc)] at seq cl mem
      have bit (i : Nat) (hi : i < 12) : bitOf (bitsOf v.toNat 16 12) i = v.getLsbD (16 + i) := bitOf_bitsOf v 16 12 i hi
      rw [seq, cl, mem]
      simp only [Seqr.clearEvents, ClusterEng.clearEvents, bit _ (by decide : 0 < 12), bit _ (by decide : 1 < 12), bit _ (by decide : 2 < 12),
        bit _ (by decide : 3 < 12), bit _ (by decide : 4 < 12), bit _ (by decide : 5 < 12), bit _ (by decide : 6 < 12), bit _ (by decide : 7 < 12),
        bit _ (by decide : 8 < 12), bit _ (by decide : 9 < 12), bit _ (by decide : 10 < 12)]
      refine ⟨trivial, trivial, trivial, fun i => ?_⟩
      simp only [Fin.getElem_fin, Vector.getElem_map]

end Sys2Proof.Claims

namespace Sys2Proof.Claims
open Sys2Proof.Machine

/-- A triggered acquisition of cluster 0 has one vector left to record, for which the history buffer has no room, when a drop of one vector ends. -/
def dropping : State :=
  { bench with cl := upd bench.cl 0 fun e => { e with cap := { e.cap with
      dropping := some 0, dropped := 1, lostFrom := 262145, open_ := some {}
      acq := { e.cap.acq with trig := some 262145, written := 262144, history := [⟨262144, 0, 0, 0, false, 0, ⟨0, 0, 0, 0, 0, 0, 0, 0⟩⟩] } } } }

/-- Refutes O43: what an acquisition recorded before a drop is written when the drop ends, and where it finds no room the next drop begins (R138). -/
theorem not_comparesDropsAndBlocks : ¬ Obligations.ComparesDropsAndBlocks := by
  unfold Obligations.ComparesDropsAndBlocks
  rintro ⟨-, ends, -⟩
  have again : ((stateOf dropping (exec (.dropEnd 0) dropping)).cl[(0 : Cluster)]).cap.dropping.isSome = true := by decide +kernel
  obtain ⟨t, run, none, -⟩ := ends dropping 0 0 (by decide +kernel) (by decide +kernel) (by decide +kernel) (by decide +kernel) (by decide +kernel)
    (by decide +kernel) (by decide +kernel) (by decide +kernel) (by decide +kernel) (by decide +kernel)
  rw [stateOf_exec run, none] at again
  exact absurd again (by decide +kernel)

end Sys2Proof.Claims

namespace Sys2Proof.Machine
variable (s : State)

/-! ## What an abandoned routine leaves behind (R272) -/

theorem State.reserveReport_only (p : Packet) : s.reserveReport p = { s with sec := (s.reserveReport p).sec } := by
  unfold State.reserveReport
  split
  · rfl
  · rfl

/-- `t` is `s` but for the security unit, the free values drawn, the writes to host memory, and the calibration store. -/
def ResidueFrame (s t : State) : Prop :=
  t = { s with sec := t.sec, free := t.free, host := { s.host with writes := t.host.writes }, pwr := { s.pwr with quiet := t.pwr.quiet }
               cal := { s.cal with flash := t.cal.flash } }

theorem State.residue_frame (r : Routine) : ResidueFrame s (s.residue r) := by
  unfold ResidueFrame State.residue
  dsimp only
  split
  · have h := s.reserveReport_only r.packet
    generalize s.reserveReport r.packet = t at h ⊢
    rw [h]
    split
    · rfl
    · split <;> rfl
  · split
    · rfl
    · split <;> rfl
  · split <;> rfl
  · rfl

end Sys2Proof.Machine

namespace Sys2Proof.Claims
open Sys2Proof.Machine

/-- A descriptor read from a slot of the bytes a doorbell brings. -/
theorem posted_eq (descs : List Byte) (n : Nat) : Machine.posted descs n =
    (List.range n).map fun j => ⟨u64At descs (16 * j), fieldAt descs (16 * j + 8) 2, u16At descs (16 * j + 10)⟩ := by
  refine List.map_congr_left fun j _ => ?_
  simp only [Desc.ofBytes, u64At, u16At, fieldAt, List.drop_drop, Nat.add_zero]

theorem restPtrs_ptr (s : State) (x : Fin 4) : s.restPtrs.cmd.ptr[x] = if s.requesters x = [] then 0 else s.cmd.ptr[x] := by
  simp [State.restPtrs]

/-- The state an accepted doorbell of a submission ring makes. -/
def State.rungSq (s : State) (f : Func) (r : Fin 4) (v : Word) : State :=
  let u := s.restPtrs.updFn f fun h => { h with sq := upd h.sq r fun q => { q with tail := v.toNat % q.units } }
  { u with pwr := { u.pwr with quiet := u.now } }

theorem exec_doorbellSqTail {s : State} {f : Func} {r : Fin 4} {v : Word} {run : Option Routine} (op : s.barOpen f = true)
    (takes : ((s.host.fn[f]).sq[r]).takes v.toNat = true) : exec (.doorbellSqTail f r v true run) s =
      .next (if r = 0 && (State.rungSq s f r v).ringOpen f 0 && 0 < ((((State.rungSq s f r v).host.fn[f]).sq[r]).held)
        then (State.rungSq s f r v).preempt run .doorbell else State.rungSq s f r v) := by
  refine (if_neg (by simp [op])).trans ((if_neg ?_).trans rfl)
  rw [takes]
  exact Bool.false_ne_true

theorem State.couldRun_congr {s u : State} {n : Nat} {p : Packet} (restart : u.restartOf n p = s.restartOf n p) (ready : u.isReady = s.isReady)
    (halted : u.cmd.halted = s.cmd.halted) (master : (u.host.fn[p.func]).busMaster = (s.host.fn[p.func]).busMaster)
    (rings : (u.host.fn[p.func]).sq[p.ring] = (s.host.fn[p.func]).sq[p.ring]) (opens : u.ringOpen p.func p.ring = s.ringOpen p.func p.ring) :
    u.couldRun n p = s.couldRun n p := by
  simp only [State.couldRun, State.restartable, restart, ready, halted, master, rings, opens]

/-- A tail the ring takes, other than its head, leaves entries in the ring. -/
theorem held_pos (q : SubRing) (n : Nat) (tail : n % 2 ^ (q.log2 - 4) ≠ q.head) (head : q.head < 2 ^ (q.log2 - 4)) :
    0 < ({ q with tail := n % q.units } : SubRing).held := by
  have below : n % q.units < q.units := Nat.mod_lt _ (Nat.two_pow_pos _)
  change n % q.units ≠ q.head at tail
  change q.head < q.units at head
  change 0 < (n % q.units + q.units - q.head) % q.units
  generalize n % q.units = m at *
  obtain h | h := Nat.lt_or_gt_of_ne tail
  · rw [Nat.mod_eq_of_lt (by omega)]
    omega
  · rw [show m + q.units - q.head = m - q.head + q.units by omega, Nat.add_mod_right, Nat.mod_eq_of_lt (by omega)]
    omega

/-- What an abandoned routine leaves: its packet in the restart slot, its entries consumed from its ring, and no reply (R272, R273). -/
theorem State.abandon_eq {u : State} {r : Routine} (restart : u.restartOf r.opcode.toNat r.packet = none) :
    let t := u.abandon r
    t.cmd.slot = (r, 1) :: u.cmd.slot ∧ t.cmd.abandons = satInc u.cmd.abandons ∧ t.gens = u.gens ∧ t.seqs = u.seqs ∧ t.sites = u.sites ∧
      t.mem = u.mem ∧ t.host.fn[r.packet.func] = { u.host.fn[r.packet.func] with
        sq := upd (u.host.fn[r.packet.func]).sq r.packet.ring fun q => q.consume (pktLen r.packet) } := by
  have frame := (u.fetch r.opcode.toNat r.packet).endRoutine.residue_frame r
  have fn := State.fetch_of_ring_fn u r.opcode.toNat r.packet restart r.packet.func
  rw [if_pos rfl] at fn
  have fetched := State.fetch_of_ring_eq u r.opcode.toNat r.packet restart
  have runs : u.runsOf r = 0 := by rw [State.runsOf, restart]; rfl
  unfold State.abandon
  dsimp only
  unfold ResidueFrame at frame
  generalize u.fetch r.opcode.toNat r.packet = w at fn fetched frame ⊢
  generalize w.endRoutine.residue r = x at frame ⊢
  rw [runs, ← fn]
  have mid : x.cmd.slot = u.cmd.slot ∧ x.cmd.abandons = u.cmd.abandons ∧ x.gens = u.gens ∧ x.seqs = u.seqs ∧ x.sites = u.sites ∧ x.mem = u.mem ∧
      x.host.fn = w.host.fn := by
    rw [frame, fetched]
    exact ⟨rfl, rfl, rfl, rfl, rfl, rfl, rfl⟩
  obtain ⟨slot, count, gens, seqs, sites, mem, fns⟩ := mid
  rw [slot, count, gens, seqs, sites, mem, fns]
  exact ⟨rfl, rfl, rfl, rfl, rfl, rfl, rfl⟩

/-- Settles O28: the doorbells that are taken move their index, those that are not count, and one of ring 0 makes the running routine abandon
its packet to the restart slot. -/
theorem doorbellsSetTheirIndex : Obligations.DoorbellsSetTheirIndex := by
  unfold Obligations.DoorbellsSetTheirIndex
  refine ⟨?sq, ?rq, ?ins, ?outs, ?badSq, ?badIn, ?abandons⟩
  case sq =>
    intro s f r v op takes
    refine ⟨State.rungSq s f r v, ?_, ?_⟩
    · rw [exec_doorbellSqTail op takes]
      exact congrArg _ (ite_self _)
    · obtain ⟨⟨frame, others⟩, here, each⟩ := onlyFn_ring s.restPtrs f r (fun h => { h with sq := upd h.sq r fun q => { q with tail := v.toNat % q.units } })
        (fun q => { q with tail := v.toNat % q.units }) rfl
      exact ⟨⟨rfl, others⟩, restPtrs_ptr s, here, each⟩
  case rq =>
    intro s f v op en le
    refine ⟨_, (if_neg (by simp [op])).trans (if_neg ?_), ?_⟩
    · rw [en]
      simpa using le
    · obtain ⟨⟨frame, others⟩, here⟩ := onlyFn_updFn s.restPtrs f (fun h => { h with rq := { h.rq with head := v.toNat % h.rq.entries } })
      exact ⟨⟨rfl, others⟩, restPtrs_ptr s, here⟩
  case ins =>
    intro s f i v descs op isOpen owner n room
    refine ⟨_, (if_neg (by simp [op])).trans (if_neg ?_), rfl, fun x => ?_⟩
    · rw [isOpen, show s.owns f (streamCluster i.val) = true from decide_eq_true owner]
      simpa [n] using room
    · rw [← posted_eq]
      exact upd_at ..
  case outs =>
    intro s f i v descs op isOpen owner n room
    refine ⟨_, (if_neg (by simp [op])).trans (if_neg ?_), rfl, fun x => ?_⟩
    · rw [isOpen, show s.owns f (streamCluster i.val) = true from decide_eq_true owner]
      simpa [n] using room
    · rw [← posted_eq]
      exact upd_at ..
  case badSq =>
    intro s f r v single run op wrong
    refine ⟨_, (if_neg (by simp [op])).trans (if_pos ?_), counted_updFn s f _⟩
    obtain h | h := wrong
    · rw [h]
      rfl
    · rw [SubRing.takes, h, Bool.false_and, Bool.not_false, Bool.or_true]
  case badIn =>
    intro s f i v single descs op wrong
    refine ⟨_, (if_neg (by simp [op])).trans (if_pos ?_), counted_updFn s f _⟩
    obtain h | h | h := wrong
    · rw [h]
      rfl
    · rw [h, Bool.not_false, Bool.or_true, Bool.true_or, Bool.true_or]
    · rw [show s.owns f (streamCluster i.val) = false from decide_eq_false h, Bool.not_false, Bool.or_true, Bool.true_or]
  case abandons =>
    intro s v r op takes func ring restart could open_ tail head
    obtain ⟨-, here, each⟩ := onlyFn_ring s.restPtrs 0 0 (fun h => { h with sq := upd h.sq 0 fun q => { q with tail := v.toNat % q.units } })
      (fun q => { q with tail := v.toNat % q.units }) rfl
    set u := State.rungSq s 0 0 v with hu
    have fn0 : u.host.fn[(0 : Func)] = { s.host.fn[(0 : Func)] with sq := (u.host.fn[(0 : Func)]).sq } := here
    have sq0 : (u.host.fn[(0 : Func)]).sq[(0 : Fin 4)] = { (s.host.fn[(0 : Func)]).sq[(0 : Fin 4)] with
      tail := v.toNat % ((s.host.fn[(0 : Func)]).sq[(0 : Fin 4)]).units } := (each 0).trans (if_pos rfl)
    have sqr : (u.host.fn[(0 : Func)]).sq[r.packet.ring] = (s.host.fn[(0 : Func)]).sq[r.packet.ring] := (each r.packet.ring).trans (if_neg ring)
    have restart' : u.restartOf r.opcode.toNat r.packet = none := restart
    have runs : u.runsOf r = 0 := by rw [State.runsOf, restart']; rfl
    have opens (x : Fin 4) (h : ((u.host.fn[(0 : Func)]).sq[x]).en = ((s.host.fn[(0 : Func)]).sq[x]).en)
        (h' : ((u.host.fn[(0 : Func)]).sq[x]).err = ((s.host.fn[(0 : Func)]).sq[x]).err) : u.ringOpen 0 x = s.ringOpen 0 x := by
      unfold State.ringOpen
      dsimp only
      rw [h, h', fn0]
      rfl
    have open0 : u.ringOpen 0 0 = true := by rw [opens 0 (by rw [sq0]) (by rw [sq0]), open_]
    have held : 0 < ((u.host.fn[(0 : Func)]).sq[(0 : Fin 4)]).held := by
      rw [sq0]
      exact held_pos _ _ tail head
    have could' : u.couldRun r.opcode.toNat r.packet = true := by
      have same : u.ringOpen 0 r.packet.ring = s.ringOpen 0 r.packet.ring := opens r.packet.ring (by rw [sqr]) (by rw [sqr])
      refine (State.couldRun_congr (restart'.trans restart.symm) rfl rfl ?_ ?_ ?_).trans could
      · simp only [func]
        rw [fn0]
      · simpa only [func] using sqr
      · simpa only [func] using same
    have abandons : u.abandons r .doorbell = true := by
      rw [State.abandons, could', runs]
      simpa using ring
    have rung : exec (.doorbellSqTail 0 0 v true (some r)) s = .next (u.abandon r) := by
      rw [exec_doorbellSqTail op takes, ← hu, if_pos (by simp only [open0, held, decide_true, Bool.and_self])]
      exact congrArg _ (if_pos abandons)
    obtain ⟨slot, count, gens, seqs, sites, mem, fn⟩ := State.abandon_eq restart'
    simp only [func] at fn
    refine ⟨_, rung, slot, count, ?_, ?_, gens, seqs, sites, mem⟩
    · rw [fn]
      refine (congrArg SubRing.head ((upd_at ..).trans (if_pos rfl))).trans ?_
      rw [sqr]
      rfl
    · rw [fn, fn0]

end Sys2Proof.Claims

namespace Sys2Proof.Claims
open Sys2Proof.Machine

/-- Cluster 0 is listed under cluster 1, which belongs to another site, and plays there towards a stream's segment that holds nothing. -/
def orphan : State :=
  { bench with
    siteOf := upd (upd bench.siteOf 0 fun _ => 1) 1 fun _ => 2
    seqs := upd bench.seqs 1 fun q => { q with play := some { entry := 0, start := bench.net, vaddr := 0, len := 640000, period := 640, tset := 0, lset := 0 } }
    gens := upd bench.gens 1 fun g => { g with cur := { g.cur with config := { g.cur.config with program :=
      { g.cur.config.program with total := 2, entries := [(0, { op := .next }), (1, { segment := 9 })] } } } }
    mem := { bench.mem with segs := upd bench.mem.segs 0 fun _ => [{ id := 9, len := 64, idleSafe := false, stream := true }] } }

/-- Refutes O40: an underrun taints the sites that hold the clusters; a cluster that is listed under one which leads no site is in none of them (the
invariant of O60 rules that out, the statement does not). -/
theorem not_decisionsFixTheSuccessor : ¬ Obligations.DecisionsFixTheSuccessor := by
  unfold Obligations.DecisionsFixTheSuccessor
  rintro ⟨-, -, -, -, -, -, -, -, -, -, -, -, -, -, -, -, -, stall, -⟩
  have clean : ((stateOf orphan (exec (.decisionPoint 1) orphan)).sites[(1 : Cluster)]).taint = false := by decide +kernel
  obtain ⟨t, run, -, -, -, -, -, -, taint⟩ := stall orphan 1 0 _ { op := .next } ⟨rfl, by decide +kernel⟩ (by decide +kernel) (by decide +kernel) (by decide +kernel)
    (by decide +kernel) (by decide +kernel)
  rw [stateOf_exec run, taint (by decide +kernel)] at clean
  exact absurd clean (by decide +kernel)

end Sys2Proof.Claims

namespace Sys2Proof.Machine
variable (s : State)

theorem State.fetch_reaches (op : Nat) (p : Packet) (c : Cluster) (id : Word) : (s.fetch op p).reaches c id = s.reaches c id := by
  rw [State.fetch_eq]
  rfl

theorem State.fetch_quietSite (op : Nat) (p : Packet) (k : Cluster) : (s.fetch op p).quietSite k = s.quietSite k := by
  rw [State.fetch_eq]
  rfl

theorem State.fetch_members (op : Nat) (p : Packet) (k : Cluster) : (s.fetch op p).members k = s.members k := by
  rw [State.members, State.members, State.fetch_siteOf]

theorem State.fetch_replies (op : Nat) (p : Packet) (f : Func) : ((s.fetch op p).host.fn[f]).replies = (s.host.fn[f]).replies := by
  cases h : s.restartOf op p with
  | none =>
    rw [State.fetch_of_ring_fn s op p h]
    split <;> rfl
  | some x => rw [State.fetch_of_slot s op p x.1 x.2 h]

theorem State.fetch_openFields (op : Nat) (p : Packet) (b : List Byte) (c : Cluster) : (s.fetch op p).openFields b c = s.openFields b c := by
  unfold State.openFields State.boundBeside
  rw [State.fetch_mem]

/-- Dropping a stream's instances changes the segments alone. -/
theorem State.dropInstances_only (i : Fin 24) : ∃ v, s.dropInstances i = { s with mem := { s.mem with segs := v } } := by
  unfold State.dropInstances
  dsimp only
  split
  · refine List.foldlRecOn (motive := fun t : State => ∃ v, t = { s with mem := { s.mem with segs := v } }) _ _ ⟨s.mem.segs, rfl⟩
      fun t ⟨v, h⟩ c _ => by subst h; exact ⟨_, rfl⟩
  · exact ⟨s.mem.segs, rfl⟩

theorem State.dropInstances_load (i : Fin 24) (load : (s.mem.ins[i]).play = false) : s.dropInstances i = s := by
  unfold State.dropInstances
  exact if_neg (by rw [load]; exact Bool.false_ne_true)

/-- An inbound stream, closed (R171). -/
def InStream.closed (x : InStream) : InStream :=
  { x with isOpen := false, shut := false, descs := [], staged := 0, fetched := 0, good := 0, bad := false, cur := none }

theorem State.closeIn_only (i : Fin 24) : ∃ v, ((s.mem.ins[i]).play = false → v = s.mem.segs) ∧
    s.closeIn i = { s with mem := { s.mem with segs := v, ins := upd s.mem.ins i InStream.closed }, pwr := { s.pwr with hbmIdle := s.now } } := by
  obtain ⟨v, dropped⟩ := s.dropInstances_only i
  refine ⟨v, fun load => ?_, ?_⟩
  · have same := (s.dropInstances_load i load).symm.trans dropped
    exact (congrArg (fun t => t.mem.segs) same).symm
  · unfold State.closeIn
    rw [dropped]
    rfl

/-- An outbound stream, closed (R171). -/
def OutStream.closed (x : OutStream) : OutStream :=
  { x with isOpen := false, shut := false, closing := false, descs := [], area := [], buf := none }

theorem State.closeOut_eq (i : Fin 24) :
    s.closeOut i = { s with mem := { s.mem with outs := upd s.mem.outs i OutStream.closed }, pwr := { s.pwr with hbmIdle := s.now } } := rfl

theorem State.closeDrained_outs (i j : Fin 24) : (s.closeDrained i).mem.outs[j] =
    if j = i ∧ (s.mem.outs[i]).closing = true ∧ (s.mem.outs[i]).area = [] ∧ (s.mem.outs[i]).buf = none then (s.mem.outs[i]).closed else s.mem.outs[j] := by
  unfold State.closeDrained
  dsimp only
  by_cases drained : (s.mem.outs[i]).closing = true ∧ (s.mem.outs[i]).area = [] ∧ (s.mem.outs[i]).buf = none
  · rw [if_pos (by simpa [and_assoc] using drained), State.closeOut_eq]
    simp only [drained, and_self, and_true]
    exact upd_at ..
  · rw [if_neg (by simpa [and_assoc] using drained), if_neg fun h => drained h.2]

theorem State.closeDrained_host (i : Fin 24) : (s.closeDrained i).host = s.host ∧ (s.closeDrained i).cmd = s.cmd := by
  unfold State.closeDrained
  dsimp only
  split <;> exact ⟨rfl, rfl⟩

end Sys2Proof.Machine

namespace Sys2Proof.Claims
open Sys2Proof.Machine

theorem fin_ofNat_val {n : Nat} [NeZero n] (i : Fin n) {m : Nat} (h : m = i.val) : Fin.ofNat n m = i := by
  rw [h]
  exact Fin.ext (Nat.mod_eq_of_lt i.isLt)

/-- Settles O16: opening writes a fresh record, closing an inbound stream empties it, and an outbound one closes at once only when drained. -/
theorem streamsOpenAndClose : Obligations.StreamsOpenAndClose := by
  unfold Obligations.StreamsOpenAndClose
  refine ⟨fun s p c i hp => ?_, fun s p c i hp => ?_⟩
  · intro b
    subst b
    intro fields num room
    have hm : s.cmd.mcheck = none := hp.2.1
    have index := fin_ofNat_val i num
    have mem := s.fetch_mem 0x0300 p
    have ok : firstBad ((s.fetch 0x0300 p).openFields p.payload c) = none := by rw [State.fetch_openFields, fields]
    have space : decide (s.mem.freeBytes < fieldAt p.payload 0x10 2 * 2 ^ 20) = false := decide_eq_false (by omega)
    have parse (k : Unit → Ending) : (s.fetch 0x0300 p).parsed (checked ((s.fetch 0x0300 p).openFields p.payload c) ()) k = k () :=
      State.parsed_ok _ _ _ _ (by unfold checked; rw [ok])
    refine ⟨fun inbound closed => ?_, fun outbound closed => ?_⟩
    · refine Completes.done hp rfl rfl _ ((parse _).trans ((if_neg ?_).trans (if_pos inbound))) rfl ?_
      · simp only [if_pos inbound, index, mem, closed, space]
        exact Bool.false_ne_true
      · rw [served_eq_posted hm, index, mem]
        have default : bitOf (fieldAt p.payload 3 1) 0 = decide (fieldAt p.payload 3 1 % 2 = 1) := by
          rw [bitOf, bitsOf]
          simp [Bool.beq_eq_decide_eq]
        refine ⟨rfl, fun j ne => (upd_at ..).trans (if_neg ne), ?_⟩
        intro x
        have opened : x = _ := (upd_at ..).trans (if_pos rfl)
        clear_value x
        subst opened
        refine ⟨rfl, rfl, rfl, rfl, rfl, rfl, ?_, fun play => if_pos play, rfl, rfl, rfl, rfl⟩
        simp only [default, decide_eq_true_eq]
    · have leaves : ¬ fieldAt p.payload 1 1 = 0 := by omega
      refine Completes.done hp rfl rfl _ ((parse _).trans ((if_neg ?_).trans (if_neg leaves))) rfl ?_
      · simp only [if_neg leaves, index, mem, closed, space]
        exact Bool.false_ne_true
      · rw [served_eq_posted hm, index, mem]
        refine ⟨rfl, fun j ne => (upd_at ..).trans (if_neg ne), ?_, ?_, ?_⟩
        · intro x
          have opened : x = _ := (upd_at ..).trans (if_pos rfl)
          clear_value x
          subst opened
          exact ⟨rfl, rfl, rfl, rfl, rfl, rfl, rfl, rfl, rfl⟩
        · intro d ne
          refine (upd_at ..).trans ((if_neg ne).trans ?_)
          rw [s.fetch_cl]
        · rw [← s.fetch_cl 0x0300 p]
          split
          next even => exact upd_get_same ..
          next odd => exact upd_get_same ..
  · intro b
    subst b
    intro num mine zero
    have hm : s.cmd.mcheck = none := hp.2.1
    have index := fin_ofNat_val i num
    have mem := s.fetch_mem 0x0301 p
    have i24 := i.isLt
    have fields (op : Bool) (side : fieldAt p.payload 1 1 < 2) : ∀ x ∈ [(0, decide (fieldAt p.payload 0 1 < 24)
        && fieldAt p.payload 0 1 / 2 == c.val && (decide (1 < fieldAt p.payload 1 1) || op)), below p.payload 1 1 2, isZero p.payload 2 14],
        op = true → x.2 = true := by
      simp [below, isZero, zero, num, mine, side]
      exact Or.inr
    refine ⟨fun inbound isOpen unreached => ?_, fun outbound isOpen quiet => ?_⟩
    · obtain ⟨v, load, closed⟩ := (s.fetch 0x0301 p).closeIn_only i
      have stays : ¬ (((s.mem.ins[i]).play && (s.members (s.site c)).any fun d => s.reaches d (s.mem.ins[i]).bound) = true) := by
        simpa using unreached
      refine Completes.done hp rfl rfl ((s.fetch 0x0301 p).closeIn i) ?_ (by rw [closed]) ?_
      · refine (State.parsed_checked _ _ _ _ fun x hx => fields _ (by omega) x hx ?_).trans ((if_pos inbound).trans ?_)
        · rw [if_pos inbound]
          simpa only [index, mem] using isOpen
        · simp only [index, mem, State.fetch_reaches, State.fetch_members, State.fetch_site, List.headD_cons]
          exact if_neg stays
      · have pwr := s.fetch_pwr 0x0301 p
        rw [served_eq_posted hm, closed, mem, ← State.fetch_now s 0x0301 p, pwr]
        rw [mem] at load
        exact ⟨congrArg InStream.isOpen (upd_get_same ..), congrArg InStream.descs (upd_get_same ..), congrArg InStream.staged (upd_get_same ..),
          fun j ne => (upd_at ..).trans (if_neg ne), rfl, load⟩
    · have leaves : ¬ fieldAt p.payload 1 1 = 0 := by omega
      set u : State := { s.fetch 0x0301 p with mem := { (s.fetch 0x0301 p).mem with
        outs := upd (s.fetch 0x0301 p).mem.outs i fun t => { t with closing := true } } } with hu
      obtain ⟨host, cmd⟩ := u.closeDrained_host i
      have outs := fun j => u.closeDrained_outs i j
      refine Completes.accepted hp rfl rfl (u.closeDrained i) ?_ cmd ?_
      · refine (State.parsed_checked _ _ _ _ fun x hx => fields _ (by omega) x hx ?_).trans ((if_neg leaves).trans ((if_neg ?_).trans ?_))
        · rw [if_neg leaves]
          simpa only [index, mem] using isOpen
        · simp only [State.fetch_quietSite, State.fetch_site, List.headD_cons, quiet, Bool.not_true, Bool.false_eq_true, not_false_eq_true]
        · rw [hu]
          simp only [index]
      · have stream (j : Fin 24) (ne : j ≠ i) : u.mem.outs[j] = s.mem.outs[j] := by
          rw [← mem]
          exact (upd_at ..).trans (if_neg ne)
        have closing : u.mem.outs[i] = { s.mem.outs[i] with closing := true } := by
          rw [← mem]
          exact upd_get_same ..
        refine ⟨?_, fun j ne => ?_, ?_⟩
        · rw [State.posted_fn, if_pos rfl, host, HostFunc.answered, ← State.fetch_replies s 0x0301 p]
        · exact (outs j).trans ((if_neg fun h => ne h.1).trans (stream j ne))
        · have here := outs i
          rw [closing] at here
          split
          next drained =>
            rw [if_pos ⟨rfl, rfl, drained⟩] at here
            exact congrArg OutStream.isOpen here
          next filled =>
            rw [if_neg fun h => filled h.2.2] at here
            exact here

end Sys2Proof.Claims

namespace Sys2Proof.Machine
variable (s : State)

/-! ## Commanded calibration runs (R265) -/

theorem bitOf_eq_one (n i : Nat) : bitOf n i = decide (n / 2 ^ i % 2 = 1) := by
  simp [bitOf, bitsOf, Bool.beq_eq_decide_eq]

/-- Tying the rails of clusters changes their engines alone. -/
theorem State.tie_foldl (l : List Cluster) : ∃ v, l.foldl State.tie s = { s with cl := v } :=
  List.foldlRecOn l _ (motive := fun t : State => ∃ v, t = { s with cl := v }) ⟨s.cl, rfl⟩ fun t ⟨v, h⟩ c _ => by
    subst h
    exact ⟨_, rfl⟩

/-- A cluster's calibration record with the kinds of WHAT to run (R265, R337). -/
def CalCluster.owe (x : CalCluster) (what : Nat) (tin : Bool) (net : Int) : CalCluster :=
  { x with what := x.what ||| BitVec.ofNat 4 what, tinRun := if x.what = 0 then tin else x.tinRun, kindFrom := if x.what = 0 then net else x.kindFrom }

/-- The state after CAL_RUN has tied the rails of the clusters that are on and marked what every cluster named owes (R265, R323). -/
def State.marked (what : Nat) (cl : List Cluster) : State :=
  let t := if bitOf what 0 then (cl.filter s.calOn).foldl State.tie s else s
  { t with cal := { t.cal with cl := cl.foldl (fun v c => upd v c fun x => x.owe what s.cal.tin s.net) t.cal.cl } }

theorem State.marked_frame (what : Nat) (cl : List Cluster) :
    s.marked what cl = { s with cl := (s.marked what cl).cl, cal := { s.cal with cl := (s.marked what cl).cal.cl } } := by
  obtain ⟨v, tied⟩ := State.tie_foldl s (cl.filter s.calOn)
  unfold State.marked
  rw [tied]
  by_cases dac : bitOf what 0 = true
  · simp only [if_pos dac]
  · simp only [if_neg dac]

/-- `t` is `s` but for the engines of the clusters, and the routes accepted of those of `l`. -/
def DensityFrame (l : List Cluster) (s t : State) : Prop :=
  t = { s with cl := t.cl, cal := { s.cal with cl := t.cal.cl } } ∧
  ∀ d : Cluster, t.cal.cl[d] = { s.cal.cl[d] with fresh := (t.cal.cl[d]).fresh } ∧ (d ∉ l → t.cal.cl[d] = s.cal.cl[d])

theorem DensityFrame.refl (l : List Cluster) : DensityFrame l s s := ⟨rfl, fun _ => ⟨rfl, fun _ => rfl⟩⟩

theorem State.startDensity_frame (l : List Cluster) (c : Cluster) (mem : c ∈ l) : DensityFrame l s (s.startDensity c) := by
  unfold State.startDensity
  split
  · exact DensityFrame.refl s l
  · refine ⟨rfl, fun d => ?_⟩
    have at_ : (upd s.cal.cl c fun x => { x with fresh := 0 })[d] = _ := upd_apply ..
    dsimp only [State.updCl]
    rw [at_]
    by_cases here : d = c
    · rw [if_pos here]
      exact ⟨rfl, fun out => absurd (here ▸ mem) out⟩
    · rw [if_neg here]
      exact ⟨rfl, fun _ => rfl⟩

theorem DensityFrame.trans {l : List Cluster} {s t u : State} (h : DensityFrame l s t) (h' : DensityFrame l t u) : DensityFrame l s u := by
  obtain ⟨frame, each⟩ := h
  obtain ⟨frame', each'⟩ := h'
  refine ⟨?_, fun d => ⟨?_, fun out => ?_⟩⟩
  · rw [frame', frame]
  · rw [(each' d).1, (each d).1]
  · rw [(each' d).2 out, (each d).2 out]

theorem State.startDensity_foldl (l m : List Cluster) (sub : ∀ c ∈ l, c ∈ m) : DensityFrame m s (l.foldl State.startDensity s) :=
  List.foldlRecOn l _ (motive := DensityFrame m s) (DensityFrame.refl s m) fun t h c mem => h.trans (t.startDensity_frame m c (sub c mem))

/-- The clusters whose code-density runs a CAL_RUN packet begins (R265, R329). -/
def State.densityStarts (cl : List Cluster) : List Cluster := (cl.filter s.calOn).filter fun c => !(s.cal.cl[c]).next .tdc

/-- The state a CAL_RUN packet leaves before its reply. -/
def State.runs (what : Nat) (cl : List Cluster) : State := (s.densityStarts cl).foldl State.startDensity (s.marked what cl)

theorem State.densityStarts_sub (cl : List Cluster) : ∀ c ∈ s.densityStarts cl, c ∈ cl := fun _ h =>
  (List.mem_filter.1 (List.mem_filter.1 h).1).1

theorem State.runs_frame (what : Nat) (cl : List Cluster) :
    s.runs what cl = { s with cl := (s.runs what cl).cl, cal := { s.cal with cl := (s.runs what cl).cal.cl } } := by
  have joined (t u : State) (h : t = { s with cl := t.cl, cal := { s.cal with cl := t.cal.cl } })
      (h' : u = { t with cl := u.cl, cal := { t.cal with cl := u.cal.cl } }) : u = { s with cl := u.cl, cal := { s.cal with cl := u.cal.cl } } := by
    rw [h', h]
  exact joined _ _ (s.marked_frame what cl) ((s.marked what cl).startDensity_foldl _ _ (s.densityStarts_sub cl)).1

theorem State.marked_cal (what : Nat) (cl : List Cluster) (hn : cl.Nodup) (c : Cluster) :
    (s.marked what cl).cal.cl[c] = if c ∈ cl then (s.cal.cl[c]).owe what s.cal.tin s.net else s.cal.cl[c] := by
  obtain ⟨v, tied⟩ := State.tie_foldl s (cl.filter s.calOn)
  unfold State.marked
  rw [tied]
  dsimp only
  have same : (if bitOf what 0 = true then { s with cl := v } else s).cal.cl = s.cal.cl := by split <;> rfl
  rw [same]
  exact foldl_upd_get cl (fun _ (x : CalCluster) => x.owe what s.cal.tin s.net) _ hn c

theorem State.runs_cal (what : Nat) (cl : List Cluster) (hn : cl.Nodup) (c : Cluster) : (s.runs what cl).cal.cl[c] =
    if c ∈ cl then { s.cal.cl[c] with
      what := (s.cal.cl[c]).what ||| BitVec.ofNat 4 what
      tinRun := if (s.cal.cl[c]).what = 0 then s.cal.tin else (s.cal.cl[c]).tinRun
      kindFrom := if (s.cal.cl[c]).what = 0 then s.net else (s.cal.cl[c]).kindFrom
      fresh := ((s.runs what cl).cal.cl[c]).fresh }
    else s.cal.cl[c] := by
  obtain ⟨same, out⟩ := ((s.marked what cl).startDensity_foldl _ _ (s.densityStarts_sub cl)).2 c
  have marked := s.marked_cal what cl hn c
  split
  next mem =>
    rw [if_pos mem] at marked
    rw [marked] at same
    exact same
  next nmem =>
    rw [if_neg nmem] at marked
    exact (out nmem).trans marked

/-- Without a DAC or a code-density kind and with no run in hand, CAL_RUN touches no engine and no route. -/
theorem State.runs_light (what : Nat) (cl : List Cluster) (dac : bitOf what 0 = false) (tdc : bitOf what 2 = false)
    (hn : cl.Nodup) (idle : ∀ c ∈ cl, (s.cal.cl[c]).what = 0) :
    (s.runs what cl).cl = s.cl ∧ ∀ c : Cluster, ((s.runs what cl).cal.cl[c]).fresh = (s.cal.cl[c]).fresh := by
  have marked (c : Cluster) := s.marked_cal what cl hn c
  have still : s.runs what cl = s.marked what cl := by
    refine List.foldlRecOn (motive := fun t => t = s.marked what cl) _ _ rfl fun t h c mem => ?_
    have here := s.densityStarts_sub cl c mem
    rw [h]
    refine if_pos ?_
    have owes := marked c
    rw [if_pos here] at owes
    rw [owes, CalCluster.next, CalCluster.owe, idle c here]
    have bit : (BitVec.ofNat 4 what).getLsbD 2 = false := by
      rw [BitVec.getLsbD_ofNat, Nat.testBit_eq_decide_div_mod_eq, ← bitOf_eq_one, tdc]
      rfl
    have owed : (0 ||| BitVec.ofNat 4 what).getLsbD (kindNum .tdc) = false := by
      simpa [kindNum] using bit
    simp only [owed, Bool.false_and, Bool.not_false]
  refine ⟨?_, fun c => ?_⟩
  · rw [still, State.marked, if_neg (by rw [dac]; exact Bool.false_ne_true)]
  · rw [still, marked]
    split <;> rfl

theorem State.calRun_eq (b : List Byte) (cl : List Cluster)
    (fields : ∀ x ∈ [(0, decide (0 < fieldAt b 0 1) && decide (fieldAt b 0 1 < 16)), isZero b 1 15], x.2 = true) :
    s.calRun b cl =
      if (!cl.all (fun c => s.quietSite (s.site c)) || ((bitOf (fieldAt b 0 1) 1 || bitOf (fieldAt b 0 1) 3) && s.pwr.tbWarm)) = true then s.busy
      else (s.runs (fieldAt b 0 1) cl).repick.accepted :=
  s.parsed_checked _ _ _ fields

theorem State.posted_engines (f : Func) (r : Reply) : (s.posted f r).cl = s.cl := rfl

theorem State.repick_engines : s.repick.cl = s.cl := rfl

/-! ## Stores of calibration (R266, R339) -/

/-- The state a verified CAL_STORE of set `n` leaves before its reply. -/
def State.storedCal (n : Nat) : State :=
  { s with
    free := s.free + 1
    cal := { s.cal with
      flash := upd s.cal.flash (s.cal.slot + 1) fun _ => s.bankB n (Config.freeValue s.free).toNat
      image := s.calImage n
      slot := s.cal.slot + 1
      seq := s.cal.seq + 1
      total := satInc s.cal.total
      stores := s.now :: s.cal.stores
      none_ := false } }

theorem State.calStore_eq (b : List Byte) (verified : Bool) (fields : ∀ x ∈ calStoreFields b, x.2 = true)
    (missing : s.calMissing (fieldAt b 0 1) = none) (recent : s.recentStores < 8) :
    s.calStore b verified = if verified = true then (s.storedCal (fieldAt b 0 1)).done
      else State.integrity { s with cal := { s.cal with flash := upd s.cal.flash (s.cal.slot + 1) fun _ => .partialStore } } := by
  have few : ¬ 8 ≤ s.recentStores := by omega
  refine (s.parsed_checked _ _ _ fields).trans ?_
  rw [missing]
  dsimp only
  rw [if_neg few]
  cases verified <;> rfl

/-- What a verified CAL_STORE of set `n` writes into the flash and the image, in terms of the calibration `k` it finds. -/
theorem State.storedCal_flash (n : Nat) (lt : n < 5) (k : Cal) (cal : s.cal = k) : let t := s.storedCal n
    (∀ i : Fin 32, i ≠ k.slot + 1 → t.cal.flash[i] = k.flash[i]) ∧
    t.cal.flash[k.slot + 1] = (if (k.flash[k.slot + 1]).holds (k.slot + 1) (k.seq + 1) t.cal.image then k.flash[k.slot + 1]
      else .stored (k.slot + 1) (k.seq + 1) (Config.freeValue s.free).toNat t.cal.image) ∧
    (∀ i : Fin 5, i.val ≠ n → t.cal.image[i] = k.image[i]) ∧
    getN t.cal.image n none = some (Vector.ofFn fun c : Fin 12 => (k.cl[c]).record) := by
  subst cal
  refine ⟨fun i ne => (upd_at ..).trans (if_neg ne), upd_get_same .., fun i ne => (updN_get ..).trans (if_neg fun h => ne h.symm), ?_⟩
  have at_ := (updN_get s.cal.image n ⟨n, lt⟩ fun _ => some (Vector.ofFn fun (c : Fin 12) => (s.cal.cl[c]).record)).trans (if_pos rfl)
  change getN (s.calImage n) n none = _
  rw [getN]
  simpa [State.calImage, lt] using at_

end Sys2Proof.Machine

namespace Sys2Proof.Claims
open Sys2Proof.Machine

/-- Settles O23: CAL_RUN marks the clusters and starts their code-density runs, CAL_STORE writes the next bank, and CAL_REF_DECLARE two numbers. -/
theorem calibrationCommands : Obligations.CalibrationCommands := by
  unfold Obligations.CalibrationCommands
  refine ⟨?run, ?store, ?declare⟩
  case run =>
    intro s p cl hp what refused
    subst what
    intro some_ four zero
    have hm : s.cmd.mcheck = none := hp.2.1
    have hn := s.target_nodup _ _ _ hp.2.2.2.1
    have fields : ∀ x ∈ [(0, decide (0 < fieldAt p.payload 0 1) && decide (fieldAt p.payload 0 1 < 16)), isZero p.payload 1 15], x.2 = true := by
      simp [isZero, zero, some_, four]
    have warm : (s.fetch 0x0900 p).pwr.tbWarm = s.pwr.tbWarm := by rw [s.fetch_pwr]
    have run := (s.fetch 0x0900 p).calRun_eq p.payload cl fields
    have busy : (!cl.all (fun c => (s.fetch 0x0900 p).quietSite ((s.fetch 0x0900 p).site c))
        || ((bitOf (fieldAt p.payload 0 1) 1 || bitOf (fieldAt p.payload 0 1) 3) && (s.fetch 0x0900 p).pwr.tbWarm)) = true ↔ refused := by
      rw [warm]
      simp [refused, bitOf_eq_one, State.fetch_quietSite]
    refine ⟨fun bad => ?_, fun good => ?_⟩
    · exact Completes.replyOnly hp rfl rfl (s.fetch 0x0900 p).busy (run.trans (if_pos (busy.2 bad))) rfl rfl
    · have frame := (s.fetch 0x0900 p).runs_frame (fieldAt p.payload 0 1) cl
      have each := (s.fetch 0x0900 p).runs_cal (fieldAt p.payload 0 1) cl hn
      have light := (s.fetch 0x0900 p).runs_light (fieldAt p.payload 0 1) cl
      generalize (s.fetch 0x0900 p).runs (fieldAt p.payload 0 1) cl = w at run frame each light
      rw [s.fetch_cal, s.fetch_net] at each
      rw [s.fetch_cal, s.fetch_cl] at light
      refine Completes.accepted hp rfl rfl w.repick (run.trans (if_neg (mt busy.1 good))) (by rw [frame]; rfl) ?_
      refine ⟨?_, fun c => ?_, fun dac tdc idle => ?_⟩
      · have pwr := s.fetch_pwr 0x0900 p
        have picked : w.repick = { s.fetch 0x0900 p with
            cl := w.repick.cl, cal := { s.cal with cl := w.repick.cal.cl }, pwr := { (s.fetch 0x0900 p).pwr with cl := w.repick.pwr.cl } } := by
          rw [← s.fetch_cal 0x0900 p]
          rw [frame]
          rfl
        generalize w.repick = x at picked ⊢
        rw [served_eq_posted hm, picked, pwr, ← s.fetch_now 0x0900 p]
        rfl
      · exact each c
      · have noDac : bitOf (fieldAt p.payload 0 1) 0 = false := by
          rw [bitOf_eq_one]
          exact decide_eq_false (by omega)
        have noTdc : bitOf (fieldAt p.payload 0 1) 2 = false := by
          rw [bitOf_eq_one]
          exact decide_eq_false (by omega)
        obtain ⟨engines, routes⟩ := light noDac noTdc hn idle
        exact ⟨(w.repick.posted_engines _ _).trans (w.repick_engines.trans engines), routes⟩
  case store =>
    intro s p hp set zero missing recent
    have hm : s.cmd.mcheck = none := hp.2.1
    have fields : ∀ x ∈ calStoreFields p.payload, x.2 = true := by simp [calStoreFields, below, isZero, zero, set]
    have cal := s.fetch_cal 0x0901 p
    have missing' : (s.fetch 0x0901 p).calMissing (fieldAt p.payload 0 1) = none := by rw [State.calMissing, cal]; exact missing
    have recent' : (s.fetch 0x0901 p).recentStores < 8 := by rw [State.recentStores, cal, State.fetch_now]; exact recent
    have store := fun ok => (s.fetch 0x0901 p).calStore_eq p.payload ok fields missing' recent'
    refine ⟨?_, ?_⟩
    · refine Completes.done hp rfl rfl _ ((store true).trans (if_pos rfl)) rfl ?_
      have free := s.fetch_free 0x0901 p
      have now := s.fetch_now 0x0901 p
      rw [served_eq_posted hm]
      clear store missing' recent'
      generalize s.fetch 0x0901 p = u at cal free now ⊢
      obtain ⟨others, bank, banks, image⟩ := u.storedCal_flash (fieldAt p.payload 0 1) set s.cal cal
      refine ⟨?_, ?_, ?_, ?_, ?_, others, ?_, banks, ?_⟩
      · rw [← free]
        rfl
      · rw [← cal]
        rfl
      · rw [← cal]
        rfl
      · rw [← cal]
        rfl
      · rw [← cal, ← now]
        rfl
      · rw [← free]
        exact bank
      · exact image
    · refine Completes.answers hp rfl rfl (State.integrity _) ((store false).trans (if_neg Bool.false_ne_true)) rfl ?_ ?_
      · exact (s.fetch_mcheck 0x0901 p).trans hm
      · rw [served_eq_posted hm, cal]
        rfl
  case declare =>
    intro s p hp low high early late zero
    have hm : s.cmd.mcheck = none := hp.2.1
    refine Completes.done hp rfl rfl _ (State.parsed_checked _ _ _ _ ?_) rfl ?_
    · simp [isZero, zero, low, high, early, late]
    · rw [served_eq_posted hm, s.fetch_cal]
      rfl

end Sys2Proof.Claims

namespace Sys2Proof.Claims
open Sys2Proof.Machine

/-- A trigger-skew run of cluster 0 began at this instant, while a cycle of the collector without a reaction is in hand. -/
def skewing : State :=
  { bench with
    cal := { bench.cal with cl := upd bench.cal.cl 0 fun x => { x with what := 0x8, kindFrom := bench.net } }
    flt := { bench.flt with taking := some ⟨bench.collectorCycle.1, true, none, [], 0, [], []⟩ } }

/-- What a run reads that measures no deviation. -/
def noDeviation : CalResult := ⟨⟨[], [], 0, [], [], [], [], []⟩, ⟨[], [], 0, [], [], [], [], []⟩, 0, 0⟩

/-- Refutes O55: a commanded trigger-skew run ends a millisecond on (R328), and the collector's cycle in hand is over by then. -/
theorem not_calibrationFollowsItsRuns : ¬ Obligations.CalibrationFollowsItsRuns := by
  unfold Obligations.CalibrationFollowsItsRuns
  rintro ⟨-, -, -, -, -, -, -, -, ends, -⟩
  have ended : (stateOf skewing (exec (.calRunComplete 0 .trig true noDeviation) skewing)).flt.taking.isNone = true := by decide +kernel
  obtain ⟨t, run, -, -, -, -, -, -, -, flt, -⟩ := ends skewing 0 .trig noDeviation (by decide +kernel) (by decide +kernel) (by decide +kernel)
    (by decide +kernel) (by decide +kernel) (by decide +kernel)
  rw [stateOf_exec run, flt] at ended
  exact absurd ended (by decide +kernel)

end Sys2Proof.Claims

namespace Sys2Proof.Machine
variable (s : State)

/-! ## Cleared statistics (R154) -/

/-- A fetch leaves of the host port everything but the rings and the requests for the packet. -/
theorem State.fetch_host (op : Nat) (p : Packet) :
    (s.fetch op p).host = { s.host with fn := (s.fetch op p).host.fn, reads := (s.fetch op p).host.reads } := by
  cases h : s.restartOf op p with
  | none => rw [State.fetch_of_ring_eq s op p h]
  | some x => rw [State.fetch_of_slot s op p x.1 x.2 h]

theorem State.fetch_rq (op : Nat) (p : Packet) (f : Func) : ((s.fetch op p).host.fn[f]).rq = (s.host.fn[f]).rq := by
  cases h : s.restartOf op p with
  | none =>
    rw [State.fetch_of_ring_fn s op p h]
    split <;> rfl
  | some x => rw [State.fetch_of_slot s op p x.1 x.2 h]

theorem State.clearStats_foldl_only (pairs : Bool) (l : List Nat) :
    l.foldl (fun s x => s.clearStats pairs x) s =
      { s with cl := (l.foldl (fun s x => s.clearStats pairs x) s).cl, pairs := (l.foldl (fun s x => s.clearStats pairs x) s).pairs } := by
  refine List.foldlRecOn (motive := fun t : State => t = { s with cl := t.cl, pairs := t.pairs }) l _ rfl fun t h x _ => ?_
  unfold State.clearStats
  cases pairs
  · exact congrArg (fun u : State => u.updCl (Fin.ofNat 12 (x / 8)) _) h
  · exact congrArg (fun u : State => ({ u with pairs := _ } : State)) h

theorem State.clearStats_pairs_get (n : Nat) (e : Fin 48) :
    (s.clearStats true n).pairs[e] = if n = e.val then { s.pairs[e] with stats := {} } else s.pairs[e] :=
  updN_get ..

theorem State.clearStats_pairs_cl (n : Nat) : (s.clearStats true n).cl = s.cl := rfl

theorem State.clearStats_chan_pairs (n : Nat) : (s.clearStats false n).pairs = s.pairs := rfl

theorem State.clearStats_chan_get (n : Nat) (lt : n < 96) (c : Cluster) (k : Fin 8) : ((s.clearStats false n).cl[c]).tdc[k] =
    if n = 8 * c.val + k.val then ((s.cl[c]).tdc[k]).clearStats else (s.cl[c]).tdc[k] := by
  have at_ : (s.clearStats false n).cl[c] =
      if c = Fin.ofNat 12 (n / 8) then { s.cl[c] with tdc := updN (s.cl[c]).tdc (n % 8) TdcChan.clearStats } else s.cl[c] := upd_apply ..
  have here : c = Fin.ofNat 12 (n / 8) ↔ n / 8 = c.val := by
    rw [Fin.ext_iff]
    simp only [Fin.val_ofNat]
    omega
  rw [at_]
  split
  next h =>
    rw [here] at h
    refine (updN_get ..).trans (if_congr ?_ rfl rfl)
    omega
  next h =>
    rw [here] at h
    exact (if_neg (by omega)).symm

/-- A part of the state that one index of a list changes, and changes once for all. -/
theorem foldl_get_of_mem {σ α : Type} (l : List Nat) (step : σ → Nat → σ) (get : σ → α) (m : Nat) (f : α → α) (idem : ∀ a, f (f a) = f a)
    (h : ∀ t, ∀ n ∈ l, get (step t n) = if n = m then f (get t) else get t) (t : σ) :
    get (l.foldl step t) = if m ∈ l then f (get t) else get t := by
  induction l generalizing t with
  | nil => rfl
  | cons n l ih =>
    have head := h t n List.mem_cons_self
    rw [List.foldl_cons, ih (fun t k mem => h t k (List.mem_cons_of_mem n mem)), head]
    by_cases e : n = m
    · simp [e, idem]
    · simp [e, Ne.symm e]

/-- What TDC_STATS leaves of the statistics it has read: those of the channels named, or of the pairs named, are cleared when CLEAR asks (R154). -/
def State.statsCleared (clear pairs : Bool) (l : List Nat) : State := if clear then l.foldl (fun s x => s.clearStats pairs x) s else s

theorem State.statsCleared_only (clear pairs : Bool) (l : List Nat) :
    s.statsCleared clear pairs l = { s with cl := (s.statsCleared clear pairs l).cl, pairs := (s.statsCleared clear pairs l).pairs } := by
  cases clear with
  | false => rfl
  | true => exact s.clearStats_foldl_only pairs l

theorem State.statsCleared_chan (clear pairs : Bool) (l : List Nat) (lt : pairs = false → ∀ n ∈ l, n < 96) (c : Cluster) (k : Fin 8) :
    ((s.statsCleared clear pairs l).cl[c]).tdc[k] =
      if clear = true ∧ pairs = false ∧ 8 * c.val + k.val ∈ l then ((s.cl[c]).tdc[k]).clearStats else (s.cl[c]).tdc[k] := by
  cases clear with
  | false => rfl
  | true =>
    cases pairs with
    | false =>
      simp only [true_and]
      exact foldl_get_of_mem l (fun s x => s.clearStats false x) (fun t => (t.cl[c]).tdc[k]) (8 * c.val + k.val) TdcChan.clearStats (fun _ => rfl)
        (fun t n mem => t.clearStats_chan_get n (lt rfl n mem) c k) s
    | true =>
      have same : (s.statsCleared true true l).cl = s.cl :=
        List.foldlRecOn (motive := fun t : State => t.cl = s.cl) l _ rfl fun t h x _ => (t.clearStats_pairs_cl x).trans h
      rw [same]
      simp

theorem State.statsCleared_pair (clear pairs : Bool) (l : List Nat) (e : Fin 48) : (s.statsCleared clear pairs l).pairs[e] =
    if clear = true ∧ pairs = true ∧ e.val ∈ l then { s.pairs[e] with stats := {} } else s.pairs[e] := by
  cases clear with
  | false => rfl
  | true =>
    cases pairs with
    | true =>
      simp only [true_and]
      exact foldl_get_of_mem l (fun s x => s.clearStats true x) (fun t => t.pairs[e]) e.val (fun x => { x with stats := {} }) (fun _ => rfl)
        (fun t n _ => t.clearStats_pairs_get n e) s
    | false =>
      have same : (s.statsCleared true false l).pairs = s.pairs :=
        List.foldlRecOn (motive := fun t : State => t.pairs = s.pairs) l _ rfl fun t h x _ => (t.clearStats_chan_pairs x).trans h
      rw [same]
      simp

theorem State.writeData_engines (a : BitVec 64) (b : List Byte) : (s.writeData a b).cl = s.cl := rfl

theorem State.writeData_pairs (a : BitVec 64) (b : List Byte) : (s.writeData a b).pairs = s.pairs := rfl

theorem State.posted_pairs (f : Func) (r : Reply) : (s.posted f r).pairs = s.pairs := rfl

theorem State.fetch_statsAt (op : Nat) (p : Packet) (pairs : Bool) (n : Nat) : (s.fetch op p).statsAt pairs n = s.statsAt pairs n := by
  rw [State.statsAt, State.statsAt, State.fetch_pairs, State.fetch_cl]

/-- The statistics, with histograms when HIST asks, of the channels or pairs of a list (R154). -/
def State.statsOut (hist pairs : Bool) (l : List Nat) : List Byte :=
  l.flatMap fun x => (s.statsAt pairs x).block ++ if hist then (s.statsAt pairs x).histogram else []

theorem State.tdcStats_eq (b : List Byte) (l : List Nat) (hl : (List.range (fieldAt b 2 1)).map (fun i => fieldAt b (16 + i) 1) = l)
    (kind : fieldAt b 0 1 < 2) (flags : fieldAt b 1 1 < 4) (z : zeroAt b 3 1 = true) (al : fieldAt b 8 8 % 64 = 0)
    (bound : ∀ x ∈ l, x < if decide (fieldAt b 0 1 = 1) = true then 48 else 96)
    (pad : zeroAt b (16 + fieldAt b 2 1) ((16 - fieldAt b 2 1 % 16) % 16) = true) :
    s.tdcStats b =
      let need := fieldAt b 2 1 * if bitOf (fieldAt b 1 1) 1 then 4160 else 64
      if fieldAt b 4 4 < need then s.badParam 6 need
      else ((s.statsCleared (bitOf (fieldAt b 1 1) 0) (decide (fieldAt b 0 1 = 1)) l).writeData (u64At b 8)
        (s.statsOut (bitOf (fieldAt b 1 1) 1) (decide (fieldAt b 0 1 = 1)) l)).done := by
  subst hl
  refine s.parsed_checked _ _ _ ?_
  intro x mem
  rw [List.mem_append, List.mem_append] at mem
  obtain (fixed | listed) | last := mem
  · revert x
    simp [below, isZero, kind, flags, z, al]
  · obtain ⟨⟨v, i⟩, hv, rfl⟩ := List.mem_map.1 listed
    have lt := bound v (List.fst_mem_of_mem_zipIdx hv)
    simpa using lt
  · rw [List.mem_singleton.1 last]
    exact pad

end Sys2Proof.Machine

namespace Sys2Proof.Claims
open Sys2Proof.Machine

/-- Settles O17: the snapshot is written before the reply, and the statistics read are cleared when CLEAR asks. -/
theorem tdcStatsSnapshot : Obligations.TdcStatsSnapshot := by
  unfold Obligations.TdcStatsSnapshot
  intro s p b n idx pairs one clear hp pos most kind flags z al bound pad
  have hm : s.cmd.mcheck = none := hp.2.1
  have spec : (if (n = 0 || decide (96 < n)) = true then some 2 else none) = (none : Option Nat) := if_neg (by simp; omega)
  have run : exec (.tdcStats p) s = .next (s.runPacket { opcode := 0x0501, form := .none, units := 2 + (n + 15) / 16 } p (s.statsOwner p.func b)
      fun _ s => s.tdcStats p.payload) := by
    rw [← spec]
    rfl
  have stats := (s.fetch 0x0501 p).tdcStats_eq b idx rfl kind flags z al bound pad
  have size : (if bitOf (fieldAt b 1 1) 1 = true then 4160 else 64) = one := by
    rw [bitOf_eq_one]
    simp [one]
  simp only [size] at stats
  refine ⟨fun fits => ?_, fun short => ?_⟩
  · set hist := bitOf (fieldAt b 1 1) 1
    have frame := (s.fetch 0x0501 p).statsCleared_only (bitOf (fieldAt b 1 1) 0) pairs idx
    have chans := (s.fetch 0x0501 p).statsCleared_chan (bitOf (fieldAt b 1 1) 0) pairs idx (fun single n mem => by simpa [single] using bound n mem)
    have pairs' := (s.fetch 0x0501 p).statsCleared_pair (bitOf (fieldAt b 1 1) 0) pairs idx
    have out : (s.fetch 0x0501 p).statsOut hist pairs idx =
        idx.flatMap fun x => (s.statsAt pairs x).block ++ if one = 4160 then (s.statsAt pairs x).histogram else [] := by
      unfold State.statsOut
      have full : one = 4160 ↔ hist = true := by
        rw [← size]
        cases hist <;> simp
      simp only [State.fetch_statsAt, full]
    have host := s.fetch_host 0x0501 p
    have rq := s.fetch_rq 0x0501 p p.func
    refine Completes.done hp run rfl _ (stats.trans (if_neg (Nat.not_lt.2 fits))) ?_ ?_
    · rw [State.writeData, frame]
    · rw [served_eq_posted hm, out]
      generalize (s.fetch 0x0501 p).statsCleared (bitOf (fieldAt b 1 1) 0) pairs idx = w at frame chans pairs' ⊢
      have asked : clear ↔ bitOf (fieldAt b 1 1) 0 = true := by
        rw [bitOf_eq_one]
        simp [clear]
      have writes : w.host = { s.host with fn := (s.fetch 0x0501 p).host.fn, reads := (s.fetch 0x0501 p).host.reads } := by rw [frame, ← host]
      refine ⟨?_, ?_, fun c k => ?_, fun e => ?_⟩
      · change w.host.writes ++ payloads (128 * 2 ^ w.host.mps.val) _ _ _
          ++ [⟨(w.host.fn[p.func]).rq.base + BitVec.ofNat 64 (32 * (w.host.fn[p.func]).rq.tail), _⟩] = _
        rw [writes]
        dsimp only
        rw [rq]
      · rw [frame]
        rfl
      · rw [s.fetch_cl] at chans
        simp only [asked]
        rw [State.posted_engines, State.writeData_engines]
        exact chans c k
      · rw [s.fetch_pairs] at pairs'
        simp only [asked]
        rw [State.posted_pairs, State.writeData_pairs]
        exact pairs' e
  · exact Completes.replyOnly hp run rfl ((s.fetch 0x0501 p).badParam 6 (n * one)) (stats.trans (if_pos short)) rfl rfl

end Sys2Proof.Claims

namespace Sys2Proof.Machine
variable (s : State)

/-! ## Reactions leave the persistent log alone (R345, R356) -/

/-- What the collector holds of the log in flash (R355, R356). -/
def Faults.flashLog (x : Faults) : List PlogRec × Nat × List PlogRec × Word := (x.active, x.sector, x.other, x.pseq)

@[simp] theorem State.accountDue_flt (k : Cluster) : (s.accountDue k).flt = s.flt := foldl_keeps State.flt _ (by intros; rfl) _ _

@[simp] theorem State.touchPaths_flt (k : Cluster) : (s.touchPaths k).flt = s.flt := by
  unfold State.touchPaths
  split <;> rfl

@[simp] theorem State.setState_flt (k : Cluster) (x : SiteState) : (s.setState k x).flt = s.flt := by
  unfold State.setState
  split <;> simp

@[simp] theorem State.cancelStart_flt (k : Cluster) : (s.cancelStart k).flt = s.flt := by
  dsimp only [State.cancelStart]
  split <;> simp

@[simp] theorem State.abortNow_flt (k : Cluster) : (s.abortNow k).flt = s.flt := by
  unfold State.abortNow
  split <;> simp

@[simp] theorem State.leaveIdle_flt (n : Port) : (s.leaveIdle n).flt = s.flt := by
  dsimp only [State.leaveIdle]
  split <;> rfl

@[simp] theorem State.issue_flt (ctype : Byte) (body : Nat → List Byte) : (s.issue ctype body).flt = s.flt :=
  foldl_keeps State.flt _ State.leaveIdle_flt _ _

@[simp] theorem State.sendAbort_flt (k : Cluster) (cause : Nat) : (s.sendAbort k cause).flt = s.flt := by
  unfold State.sendAbort
  split <;> simp

@[simp] theorem State.haltSite_flt (k : Cluster) : (s.haltSite k).flt = s.flt := by simp [State.haltSite]

theorem State.react_flashLog (r : Reaction) (m : BitVec 12) : (s.react r m).flt.flashLog = s.flt.flashLog := by
  have halt (l : List Cluster) (s : State) : (l.foldl State.haltSite s).flt = s.flt := foldl_keeps State.flt _ State.haltSite_flt _ _
  have park (f : State → Cluster → ClusterEng → ClusterEng) (l : List Cluster) (s : State) :
      (l.foldl (fun s c => s.updCl c (f s c)) s).flt = s.flt := foldl_keeps State.flt _ (by intros; rfl) _ _
  unfold State.react Faults.flashLog
  cases r <;> simp [Reaction.code, halt, park]

theorem State.issueFaults_flashLog : s.issueFaults.flt.flashLog = s.flt.flashLog := by
  unfold State.issueFaults
  split
  · rfl
  · exact foldl_keeps (fun t : State => t.flt.flashLog) _ (fun (s : State) _ => s.react_flashLog _ _) _ _

/-- With no cycle in hand no reaction is due. -/
theorem State.issueFaults_idle (idle : s.flt.taking = none) : s.issueFaults = s := by
  unfold State.issueFaults
  rw [idle]

theorem State.endCycle_idle (idle : s.flt.taking = none) (t : Nat) : s.endCycle t = s := by
  unfold State.endCycle
  rw [idle]
  exact if_neg Bool.false_ne_true

/-! ## One report, in a cycle of its own (R23, R347, R349, R351) -/

/-- `t` is `s` but for the collector's records and the TAINT of sites. -/
def ReportFrame (s t : State) : Prop :=
  t = { s with sites := t.sites, flt := t.flt } ∧ (∀ k : Cluster, t.sites[k] = { s.sites[k] with taint := (t.sites[k]).taint }) ∧
  t.flt = { s.flt with first := t.flt.first, history := t.flt.history, count := t.flt.count, plogPend := t.flt.plogPend,
                       plogDrop := t.flt.plogDrop, counts := t.flt.counts, taking := t.flt.taking }

theorem State.taintFor_frame (e : CycleEvent) : ReportFrame s (s.taintFor e) ∧ (s.taintFor e).flt = s.flt := by
  unfold State.taintFor
  split
  · unfold State.taintSites
    refine List.foldlRecOn (motive := fun t : State => ReportFrame s t ∧ t.flt = s.flt) _ _ ⟨⟨rfl, fun _ => rfl, rfl⟩, rfl⟩ ?_
    rintro t ⟨⟨frame, sites, flt⟩, same⟩ k -
    refine ⟨⟨?_, fun j => ?_, flt⟩, same⟩
    · exact congrArg (fun u : State => u.updSite k fun r => { r with taint := true }) frame
    · have at_ := upd_apply t.sites k j fun r => { r with taint := true }
      change (upd t.sites k fun r => { r with taint := true })[j] = { s.sites[j] with taint := (upd t.sites k fun r => { r with taint := true })[j].taint }
      rw [at_]
      split
      · rw [sites j]
      · exact sites j
  · exact ⟨⟨rfl, fun _ => rfl, rfl⟩, rfl⟩

/-- The history entry an event makes stands in front of the others. -/
theorem State.take_history (f : Faults) (e : CycleEvent) : ∃ h : HistEntry,
    (s.take f e).1.history = (h :: f.history).take 32 ∧ (h.source, h.mask, h.detail) = (e.event.source, e.event.mask, e.event.detail) ∧
    h.seq = f.count + 1 ∧ h.cls = classOf e.event ∧ h.injected = e.injected ∧ h.reaction = e.rc := by
  unfold State.take
  dsimp only
  cases f.first <;> dsimp only <;> split <;> exact ⟨_, rfl, rfl, rfl, rfl, rfl, rfl⟩

theorem State.take_frame (f : Faults) (e : CycleEvent) :
    (s.take f e).1 = { f with first := (s.take f e).1.first, history := (s.take f e).1.history, count := f.count + 1,
                              plogPend := (s.take f e).1.plogPend } := by
  unfold State.take
  dsimp only
  cases f.first <;> dsimp only <;> split <;> rfl

/-- The event a report makes, as the collector takes it (R345, R346). -/
def State.reported (source : Nat) (mask : BitVec 12) (detail : Word) : CycleEvent :=
  ⟨⟨source, mask, detail⟩, false, s.flt.reaction source, s.net, false⟩

/-- The state after a report that opens a cycle, but for the TAINT of sites. -/
def State.opened (source : Nat) (mask : BitVec 12) (detail : Word) : State :=
  let e := s.reported source mask detail
  let t : State := { s with flt := s.flt.tally e }
  let r := t.take (s.flt.tally e) e
  { s with flt := { r.1 with taking := some { s.openCycle with events := [{ e with issued := r.2 }] } } }

theorem State.report_eq (idle : s.flt.taking = none) (source : Nat) (mask : BitVec 12) (detail : Word) :
    s.report source mask detail = (s.opened source mask detail).taintFor (s.reported source mask detail) := by
  have whole : s.report source mask detail = s.collectOne (⟨source, mask, detail⟩, false) := by
    unfold State.report State.collect
    rw [s.endCycle_idle idle]
    rfl
  have fresh : s.openCycle = ⟨s.collectorCycle.1, s.collectorCycle.2, s.flt.first, s.flt.history, s.flt.count, s.flt.plogPend, []⟩ := by
    rw [State.openCycle, idle]
    rfl
  rw [whole, State.collectOne, State.opened, fresh]
  rfl

/-- What a report leaves when no cycle of the collector is in hand. -/
theorem State.report_idle (idle : s.flt.taking = none) (source : Nat) (mask : BitVec 12) (detail : Word) :
    ReportFrame s (s.report source mask detail) ∧ Claims.newest (s.report source mask detail) = some (source, mask, detail) ∧
    (s.report source mask detail).flt.count = s.flt.count + 1 ∧
    (s.report source mask detail).flt.history.drop 1 = s.flt.history.take 31 := by
  rw [s.report_eq idle]
  obtain ⟨⟨frame, sites, flt⟩, same⟩ := (s.opened source mask detail).taintFor_frame (s.reported source mask detail)
  obtain ⟨h, history, entry, -⟩ := State.take_history { s with flt := s.flt.tally (s.reported source mask detail) }
    (s.flt.tally (s.reported source mask detail)) (s.reported source mask detail)
  have taken := State.take_frame { s with flt := s.flt.tally (s.reported source mask detail) }
    (s.flt.tally (s.reported source mask detail)) (s.reported source mask detail)
  generalize (s.opened source mask detail).taintFor (s.reported source mask detail) = w at frame sites flt same ⊢
  have list : w.flt.history = (h :: s.flt.history).take 32 := by
    rw [same]
    exact history
  have records : w.flt = { s.flt with
      first := w.flt.first, history := w.flt.history, count := s.flt.count + 1, plogPend := w.flt.plogPend,
      plogDrop := w.flt.plogDrop, counts := w.flt.counts, taking := w.flt.taking } := by
    rw [same, State.opened]
    dsimp only
    rw [taken]
    rfl
  have count : w.flt.count = s.flt.count + 1 := by rw [records]
  refine ⟨⟨?_, sites, ?_⟩, ?_, count, ?_⟩
  · exact frame
  · rw [← count] at records
    exact records
  · rw [Claims.newest, list]
    exact congrArg some entry
  · rw [list]
    rfl

end Sys2Proof.Machine

namespace Sys2Proof.Claims
open Sys2Proof.Machine

/-- A PIN_FORMAT_WRITE for cluster 0 that has been abandoned three times runs again; two reads of pin 0's chip have gone unanswered. -/
def stubborn : Routine := ⟨0x0102, benchPacket 2 1 [3]⟩

def insisting : State :=
  { bench with
    cmd := { bench.cmd with slot := [(stubborn, 3)] }
    ids := { bench.ids with assigned := 1, misses := upd bench.ids.misses 0 fun _ => 2 } }

/-- Refutes O56: a routine abandoned three times runs to its END before the fault is taken (R275), and its command changes a shadow. -/
theorem not_faultsAreCollected : ¬ Obligations.FaultsAreCollected := by
  unfold Obligations.FaultsAreCollected
  rintro ⟨-, -, -, -, -, -, -, -, -, -, parity, -⟩
  have written : ((stateOf insisting (exec (.cfgParity 0 0 (some stubborn)) insisting)).gens[(0 : Cluster)]).shadow.config.mux = 3 := by decide +kernel
  obtain ⟨t, run, -, gens⟩ := parity insisting 0 0 (some stubborn) (by decide +kernel) (by decide +kernel)
  rw [stateOf_exec run, gens] at written
  exact absurd written (by decide +kernel)

end Sys2Proof.Claims

namespace Sys2Proof.Machine
variable (s : State)

/-! ## What every reset leaves (R355, R370) -/

/-- What each reset of `s` leaves in `t`, whatever its kind: every pin parked, nothing configured, flash as it was (R370, R371). -/
def ResetParks (s t : State) : Prop :=
  t.sites = Vector.replicate 12 {} ∧ t.gens = Vector.replicate 12 {} ∧ t.seqs = Vector.replicate 12 {} ∧ t.siteOf = Vector.ofFn id ∧
  (∀ c : Cluster, (t.cl[c]).tim = {} ∧ (t.cl[c]).cap = {} ∧ (t.cl[c]).dec = {} ∧ ∀ r : Lane, ((t.cl[c]).lvl.rails[r]).live = false) ∧
  t.cal.flash = s.cal.flash ∧ t.sec.slots = s.sec.slots ∧ t.sec.bootLog = s.sec.bootLog ∧ t.sec.journal = s.sec.journal ∧
  t.sec.treeLog = s.sec.treeLog ∧ t.sec.rollback = s.sec.rollback ∧ t.cmd = {} ∧
  t.pwr.phase = .held ∧ t.pwr.bootDone = false ∧ t.now = s.now ∧ t.free = s.free

theorem Levels.park_live (l : Levels) (fault : Bool) (t : Int) (r : Lane) : ((l.park fault t).rails[r]).live = false := by
  unfold Levels.park
  simp only [Fin.getElem_fin, Vector.getElem_map]
  rfl

theorem State.cleared_engine (k : ResetKind) (c : Cluster) :
    (s.cleared k).cl[c] = { lvl := ({} : Levels).park ((s.issueFaults.flt.cleared k).parked.getLsbD c.val) s.net } := by
  simp only [State.cleared, Fin.getElem_fin, Vector.getElem_ofFn]

theorem State.cleared_parks (k : ResetKind) : ResetParks s (s.cleared k) := by
  refine ⟨rfl, rfl, rfl, rfl, fun c => ?_, rfl, rfl, rfl, rfl, rfl, rfl, rfl, ?_, ?_, rfl, rfl⟩
  · rw [s.cleared_engine k c]
    exact ⟨rfl, rfl, rfl, fun r => Levels.park_live _ _ _ r⟩
  · cases k <;> rfl
  · cases k <;> rfl

theorem State.powerLoss_past (past : ∀ w, s.sec.wrote = some w → w.1 < s.now) : s.powerLoss = s := by
  unfold State.powerLoss
  refine if_neg ?_
  cases h : s.sec.wrote with
  | none => exact Bool.false_ne_true
  | some w =>
    have := past w h
    simp only [Option.any_some, decide_eq_true_eq]
    omega

/-- A reset other than PORST_N leaves the collector as it is when no cycle is in hand (R355). -/
theorem State.cleared_flt (k : ResetKind) (other : k ≠ .porst) (idle : s.flt.taking = none) : (s.cleared k).flt = s.flt := by
  change s.issueFaults.flt.cleared k = s.flt
  rw [s.issueFaults_idle idle]
  exact if_neg other

theorem warmKey (v : Word) : v.extractLsb' 16 16 = 0x5741 ↔ v.toNat / 65536 = 0x5741 := by
  have high : (v.extractLsb' 16 16).toNat = v.toNat / 65536 := by
    have := v.isLt
    rw [BitVec.extractLsb'_toNat, Nat.shiftRight_eq_div_pow]
    omega
  rw [← high, ← BitVec.toNat_inj]
  rfl

/-- The state a WARM reset leaves, and what it answers (R370). -/
theorem exec_warmReset {v : Word} (bar : s.barOpen 0 = true) (key : v.extractLsb' 16 16 = 0x5741) (go : v.getLsbD 0 = true) :
    exec (.warmReset v) s = .next (if (s.time.source = .rope && s.time.state = .locked) = true then (s.cleared .warm).report 40 0 0
      else s.cleared .warm) :=
  if_neg (by simp [bar, go, (warmKey v).1 key])

theorem HostPort.cleared_warm_ring (x : HostPort) (f : Func) (r : Fin 4) :
    ((x.cleared .warm).fn[f]).sq[r] = { (x.fn[f]).sq[r] with en := false, part := 0 } := by
  simp only [HostPort.cleared, Fin.getElem_fin, Vector.getElem_map]

theorem HostPort.cleared_warm_fn (x : HostPort) (f : Func) :
    ((x.cleared .warm).fn[f]).busMaster = (x.fn[f]).busMaster ∧ ((x.cleared .warm).fn[f]).rq.en = false := by
  simp only [HostPort.cleared, Fin.getElem_fin, Vector.getElem_map, and_self]

end Sys2Proof.Machine

namespace Sys2Proof.Claims
open Sys2Proof.Machine

/-- Settles O34: what every reset leaves is one lemma; the kinds differ in the collector, the time unit, the host port and the cause. -/
theorem resetsKeepAndClear : Obligations.ResetsKeepAndClear := by
  unfold Obligations.ResetsKeepAndClear
  intro parked
  refine ⟨?porst, ?perst, ?warm, ?holdover, ?ignored, ?released⟩
  case porst =>
    intro s porst past
    have log := s.issueFaults_flashLog
    simp only [Faults.flashLog, Prod.mk.injEq] at log
    obtain ⟨active, sector, other, pseq⟩ := log
    refine ⟨_, if_neg (by rw [porst]; exact Bool.false_ne_true), ?_⟩
    rw [s.powerLoss_past past]
    refine ⟨s.cleared_parks .porst, rfl, rfl, rfl, ?_, rfl, rfl, rfl⟩
    rw [← active, ← sector, ← other, ← pseq]
    rfl
  case perst =>
    intro s porst perst idle
    refine ⟨_, (if_neg (by rw [perst]; exact Bool.false_ne_true)).trans (if_neg (by rw [porst]; exact Bool.false_ne_true)), s.cleared_parks .perst, rfl, ?_⟩
    exact ⟨porst, rfl, s.cleared_flt .perst (by decide) idle, rfl, rfl, rfl⟩
  case warm =>
    intro s v bar key go unheld idle
    have locks : ¬ (s.time.source = .rope && s.time.state = .locked) = true := by simpa using unheld
    refine ⟨_, (exec_warmReset s bar key go).trans (congrArg _ (if_neg locks)), s.cleared_parks .warm, rfl, rfl,
      s.cleared_flt .warm (by decide) idle, if_neg locks, rfl, rfl, fun f => ?_⟩
    obtain ⟨master, reply⟩ := s.host.cleared_warm_fn f
    exact ⟨master, reply, s.host.cleared_warm_ring f⟩
  case holdover =>
    intro s v bar key go held idle
    have locks : (s.time.source = .rope && s.time.state = .locked) = true := by simpa using held
    have flt := s.cleared_flt .warm (by decide) idle
    obtain ⟨⟨frame, -, -⟩, newest, count, -⟩ := (s.cleared .warm).report_idle (by rw [flt, idle]) 40 0 0
    refine ⟨_, (exec_warmReset s bar key go).trans (congrArg _ (if_pos locks)), ?_⟩
    have time : (s.cleared .warm).time = { s.time with state := .holdover, holdSeen := true, corr := 0 } := if_pos locks
    rw [flt] at count
    refine ⟨?_, ?_, ?_, count, ?_⟩
    · rw [frame]
      rfl
    · rw [frame]
      exact congrArg TimeUnit.state time
    · rw [frame]
      exact congrArg TimeUnit.holdSeen time
    · rw [List.head?_map]
      unfold Claims.newest at newest
      obtain ⟨h, head, entry⟩ := Option.map_eq_some_iff.1 newest
      rw [head]
      exact congrArg (fun x => some x.1) entry
  case ignored =>
    intro s v bar wrong
    refine ⟨s, if_pos ?_, rfl⟩
    obtain wrong | wrong := wrong
    · simp [bar, mt (warmKey v).2 wrong]
    · rw [wrong]
      simp
  case released =>
    intro s straps porst
    exact ⟨_, if_neg (by rw [porst]; exact Bool.false_ne_true), rfl⟩

end Sys2Proof.Claims

namespace Sys2Proof.Machine
variable (s : State)

/-! ## What the vectors a site has played by an instant leave (R41, R44) -/

theorem State.updMembers_only (k : Cluster) (f : Cluster → ClusterEng → ClusterEng) : ∃ v, s.updMembers k f = { s with cl := v } :=
  List.foldlRecOn (motive := fun t : State => ∃ v, t = { s with cl := v }) _ _ ⟨s.cl, rfl⟩ fun t ⟨v, h⟩ c _ => by
    subst h
    exact ⟨_, rfl⟩

/-- The sequencer `x` with other counts of vectors played. -/
def Seqr.SameButCounts (x y : Seqr) : Prop :=
  y = { x with play := y.play, stall := y.stall, vectors := y.vectors } ∧ (∃ n, y.play = x.play.map fun p => { p with played := n }) ∧
  ∃ n, y.stall = x.stall.map fun st => { st with played := n }

theorem Seqr.SameButCounts.refl (x : Seqr) : x.SameButCounts x := by
  refine ⟨rfl, ⟨(x.play.map (·.played)).getD 0, ?_⟩, ⟨(x.stall.map (·.played)).getD 0, ?_⟩⟩
  · cases x.play <;> rfl
  · cases x.stall <;> rfl

/-- `t` is `s` but for the engines of the clusters and the counts of vectors site `k` has played. -/
def PlayFrame (s t : State) (k : Cluster) : Prop :=
  t = { s with cl := t.cl, seqs := t.seqs } ∧ (∀ j : Cluster, j ≠ k → t.seqs[j] = s.seqs[j]) ∧ (s.seqs[k]).SameButCounts t.seqs[k]

theorem State.playTo_frame (k : Cluster) (t : Int) : PlayFrame s (s.playTo k t) k := by
  have same : PlayFrame s s k := ⟨rfl, fun _ _ => rfl, Seqr.SameButCounts.refl _⟩
  have counted (f : Cluster → ClusterEng → ClusterEng) (g : Seqr → Seqr) (h : (s.seqs[k]).SameButCounts (g s.seqs[k])) :
      PlayFrame s ((s.updMembers k f).updSeq k g) k := by
    obtain ⟨v, only⟩ := s.updMembers_only k f
    rw [only]
    refine ⟨rfl, fun j ne => (upd_at ..).trans (if_neg ne), ?_⟩
    have here : (upd s.seqs k g)[k] = g s.seqs[k] := upd_get_same ..
    exact here.symm ▸ h
  have stalls : ∃ n, (s.seqs[k]).stall = (s.seqs[k]).stall.map fun st => { st with played := n } := (Seqr.SameButCounts.refl _).2.2
  have plays (p : Play) (play : (s.seqs[k]).play = some p) (n : Nat) (c : Prop) [Decidable c] (f : Cluster → ClusterEng → ClusterEng) (m : Nat) :
      PlayFrame s (if c then s else (s.updMembers k f).updSeq k fun q => { q with play := some { p with played := n }, vectors := m }) k := by
    split
    · exact same
    · refine counted _ _ ⟨rfl, ⟨n, ?_⟩, stalls⟩
      rw [play]
      rfl
  have waits (st : Stall) (idle : (s.seqs[k]).play = none) (stall : (s.seqs[k]).stall = some st) (n : Nat) (c : Prop) [Decidable c]
      (f : Cluster → ClusterEng → ClusterEng) :
      PlayFrame s (if c then s else (s.updMembers k f).updSeq k fun q => { q with stall := some { st with played := n } }) k := by
    split
    · exact same
    · refine counted _ _ ⟨rfl, ⟨0, ?_⟩, ⟨n, ?_⟩⟩
      · exact idle.trans (by rw [idle]; rfl)
      · rw [stall]
        rfl
  unfold State.playTo
  dsimp only
  split
  next p play => exact plays p play _ _ _ _
  next idle =>
    split
    next st d stall desc => exact waits st idle stall _ _ _
    next => exact same

end Sys2Proof.Machine

namespace Sys2Proof.Claims
open Sys2Proof.Machine

/-- Refutes O58: a lost chip is a fault of class CLUSTER, and a routine abandoned three times runs to its END before it is taken (R275). -/
theorem not_powerStatesMove : ¬ Obligations.PowerStatesMove := by
  unfold Obligations.PowerStatesMove
  rintro ⟨-, -, -, -, -, -, -, -, lost, -⟩
  have written : ((stateOf insisting (exec (.companionPoll 0 false (some stubborn)) insisting)).gens[(0 : Cluster)]).shadow.config.mux = 3 := by
    decide +kernel
  obtain ⟨t, run, -, -, -, -, gens, -⟩ := lost insisting 0 (some stubborn) (by decide +kernel) (by decide +kernel) (by decide +kernel)
    (by decide +kernel) (by decide +kernel)
  rw [stateOf_exec run, gens] at written
  exact absurd written (by decide +kernel)

end Sys2Proof.Claims

namespace Sys2Proof.Machine
variable (s : State)

/-! ## Damage and device-wide faults (R60, R160, R353) -/

/-- `t` is `s` but for what an abandoned routine leaves (R272, R274). -/
def AbandonFrame (s t : State) : Prop :=
  t = { s with free := t.free, cal := { s.cal with flash := t.cal.flash }, pwr := { s.pwr with quiet := t.pwr.quiet }, host := t.host,
               cmd := t.cmd, sec := t.sec }

theorem AbandonFrame.refl : AbandonFrame s s := rfl

theorem State.abandon_frame (r : Routine) : AbandonFrame s (s.abandon r) := by
  have frame := (s.fetch r.opcode.toNat r.packet).endRoutine.residue_frame r
  have fetched := s.fetch_eq r.opcode.toNat r.packet
  rw [s.fetch_pwr] at fetched
  unfold State.abandon AbandonFrame
  dsimp only
  unfold ResidueFrame at frame
  generalize (s.fetch r.opcode.toNat r.packet).endRoutine.residue r = x at frame ⊢
  generalize s.fetch r.opcode.toNat r.packet = w at frame fetched
  rw [frame, fetched]
  rfl

/-- A routine that a DEVICE-class fault interrupts is abandoned, whatever it has done (R353). -/
theorem State.preempt_device (run : Option Routine) : AbandonFrame s (s.preempt run (.fault true)) := by
  unfold State.preempt
  cases run with
  | none => exact AbandonFrame.refl s
  | some r =>
    dsimp only
    split
    next => exact s.abandon_frame r
    next keeps =>
      have cannot : s.couldRun r.opcode.toNat r.packet = false := by
        simpa [State.abandons] using keeps
      rw [cannot]
      exact AbandonFrame.refl s

/-- A DEVICE-class fault in a cycle of its own: the routine in hand is abandoned, and the fault reported. -/
theorem State.collectOver_device (idle : s.flt.taking = none) (run : Option Routine) (source : Nat) (mask : BitVec 12) (detail : Word)
    (device : classOf ⟨source, mask, detail⟩ = .device) : ∃ u, AbandonFrame s u ∧
    s.collectOver run [⟨source, mask, detail⟩] = u.report source mask detail ∧ ReportFrame u (u.report source mask detail) ∧
    Claims.newest (u.report source mask detail) = some (source, mask, detail) := by
  have frame := s.preempt_device run
  refine ⟨s.preempt run (.fault true), frame, ?_, ?_⟩
  · unfold State.collectOver
    simp only [List.foldl, device]
    rfl
  · have still : (s.preempt run (.fault true)).flt.taking = none := by
      rw [frame]
      exact idle
    obtain ⟨reported, newest, -⟩ := State.report_idle _ still source mask detail
    exact ⟨reported, newest⟩

theorem State.setState_seqs (k : Cluster) (x : SiteState) : (s.setState k x).seqs = s.seqs := by
  have due : (s.accountDue k).seqs = s.seqs := foldl_keeps State.seqs _ (by intros; rfl) _ _
  unfold State.setState State.touchPaths
  dsimp only
  split
  · split <;> exact due
  · exact due

/-- A state of a site that does not rest: only the account of staged targets and the site's own record change. -/
theorem State.setState_active (k : Cluster) (x : SiteState) (active : x.rests = false) :
    s.setState k x = { s with cal := (s.setState k x).cal, sites := upd s.sites k fun r => { r with state := x } } := by
  have due : s.accountDue k = { s with cal := (s.accountDue k).cal } :=
    List.foldlRecOn (motive := fun t : State => t = { s with cal := t.cal }) _ _ rfl fun t h c _ => by
      rw [h]
  unfold State.setState
  dsimp only
  rw [active, due]
  rfl

/-- The abort of a burst in play sets the vector it ends at, and nothing else (R60). -/
theorem State.abortNow_playing (k : Cluster) (p : Play) (running : s.siteState k ≠ .armed) (play : (s.seqs[k]).play = some p)
    (unstalled : (s.seqs[k]).stall = none) :
    s.abortNow k = { s with seqs := (s.abortNow k).seqs } ∧ ((s.abortNow k).seqs[k]).abortAt.isSome = true := by
  unfold State.abortNow
  rw [if_neg running]
  refine ⟨rfl, (congrArg (fun q : Seqr => q.abortAt.isSome) (upd_get_same ..)).trans ?_⟩
  have enter (t : Int) : (s.seqs[k]).enterStall t = s.seqs[k] := by
    unfold Seqr.enterStall
    rw [unstalled]
  rw [enter]
  generalize s.seqs[k] = q at play ⊢
  dsimp only
  rw [play]
  rfl

/-- A burst that an uncorrectable error strikes: it has an end, and its site is STALLED (R60, R160). -/
theorem State.abortDamaged_playing (k : Cluster) (p : Play) (running : s.siteState k = .running) (play : (s.seqs[k]).play = some p)
    (unstalled : (s.seqs[k]).stall = none) : let t := s.abortDamaged k
    t = { s with cl := t.cl, cal := t.cal, seqs := t.seqs, sites := upd s.sites k fun r => { r with state := .stalled } } ∧
    (t.seqs[k]).abortAt.isSome = true := by
  obtain ⟨played, -, -, ⟨n, play'⟩, ⟨m, stall'⟩⟩ := s.playTo_frame k s.net
  have state : (s.playTo k s.net).siteState k ≠ .armed := by
    rw [played, State.siteState]
    intro armed
    have armed' : s.siteState k = .armed := armed
    rw [running] at armed'
    exact SiteState.noConfusion armed'
  rw [play] at play'
  rw [unstalled] at stall'
  obtain ⟨aborted, ends⟩ := (s.playTo k s.net).abortNow_playing k _ state play' stall'
  have stalled := ((s.playTo k s.net).abortNow k).setState_active k .stalled rfl
  have seqs := ((s.playTo k s.net).abortNow k).setState_seqs k .stalled
  unfold State.abortDamaged
  refine ⟨?_, ?_⟩
  · generalize ((s.playTo k s.net).abortNow k).setState k .stalled = x at stalled ⊢
    generalize (s.playTo k s.net).abortNow k = w at aborted stalled
    generalize s.playTo k s.net = v at played aborted
    rw [stalled, aborted, played]
  · rw [seqs]
    exact ends

theorem mem_updSeg_same {l : List Seg} {id : Word} {f : Seg → Seg} {x : Seg} (mem : x ∈ updSeg l id f) (here : x.id = id) :
    ∃ g ∈ l, x = f g := by
  obtain ⟨g, hg, rfl⟩ := List.mem_map.1 mem
  by_cases e : g.id = id
  · exact ⟨g, hg, if_pos e⟩
  · rw [if_neg e] at here
    exact absurd here e

/-- The state an uncorrectable error in the segment a cluster plays leaves before its report (R160). -/
def State.struck (c : Cluster) (word : Word) (vs : Bool) (id : Word) : State :=
  let t := s.abortDamaged (s.site c)
  let m := t.mem.noteUe word vs c id
  { t with mem := { m with segs := upd m.segs c fun l => updSeg l id fun g => { g with damaged := true } } }

/-! ## Leaving self-refresh (R368) -/

theorem State.scrubDue_eq : s.scrubDue = s.mem.scrubAt + 86400000000000 * nsUnits := by
  unfold State.scrubDue msUnits
  omega

theorem usUnits_eq (n : Nat) : n * usUnits = n * 1000 * nsUnits :=
  (Nat.mul_assoc n 1000 nsUnits).symm

theorem upd_self {α : Type} {n : Nat} (v : Vector α n) (i : Fin n) (f : α → α) (h : f v[i] = v[i]) : upd v i f = v := by
  refine Vector.ext fun j lt => ?_
  have at_ := upd_at v i ⟨j, lt⟩ f
  rw [h] at at_
  refine at_.trans ?_
  split
  next e =>
    subst e
    rfl
  next => rfl

theorem upd_congr {α : Type} {n : Nat} (v : Vector α n) (i : Fin n) (f g : α → α) (h : f v[i] = g v[i]) : upd v i f = upd v i g := by
  unfold upd
  rw [h]

theorem State.updOut_congr (i : Fin 24) (f g : OutStream → OutStream) (h : f s.mem.outs[i] = g s.mem.outs[i]) : s.updOut i f = s.updOut i g := by
  unfold State.updOut
  rw [upd_congr _ i f g h]

theorem State.fill_nil (i : Fin 24) : s.fill i [] = s := by
  unfold State.fill
  rw [upd_self s.mem.outs i _ (by rw [List.append_nil])]

theorem State.drain_awake (c : Cluster) (awake : s.mem.selfRef = false) :
    s.drain c = { s with cl := (s.drain c).cl, mem := { s.mem with outs := (s.drain c).mem.outs } } := by
  unfold State.drain
  dsimp only
  rw [if_neg (by rw [awake]; exact Bool.false_ne_true)]
  rfl

theorem State.drain_empty (c : Cluster) (awake : s.mem.selfRef = false) (cap : (s.cl[c]).cap.fifo = []) (stamp : (s.cl[c]).stamp.fifo = []) :
    s.drain c = s := by
  unfold State.drain
  dsimp only
  have a (n : Nat) : (s.cl[c]).cap.fifo.take n = [] := by rw [cap, List.take_nil]
  have b (n : Nat) : (s.cl[c]).stamp.fifo.take n = [] := by rw [stamp, List.take_nil]
  rw [if_neg (by rw [awake]; exact Bool.false_ne_true), a, b, State.fill_nil, State.fill_nil]
  exact congrArg (fun v => ({ s with cl := v } : State)) (upd_self s.cl c _ rfl)

theorem State.drain_foldl (l : List Cluster) (awake : s.mem.selfRef = false) : let t := l.foldl State.drain s
    t = { s with cl := t.cl, mem := { s.mem with outs := t.mem.outs } } ∧
    ((∀ c : Cluster, (s.cl[c]).cap.fifo = [] ∧ (s.cl[c]).stamp.fifo = []) → t = s) := by
  refine ⟨?_, fun empty => ?_⟩
  · refine List.foldlRecOn (motive := fun t : State => t = { s with cl := t.cl, mem := { s.mem with outs := t.mem.outs } }) l _ rfl fun t h c _ => ?_
    have same : t.mem.selfRef = false := by
      rw [h]
      exact awake
    have drained := t.drain_awake c same
    generalize t.drain c = u at drained ⊢
    rw [drained, h]
  · refine List.foldlRecOn (motive := fun t : State => t = s) l _ rfl fun t h c _ => ?_
    rw [h]
    exact s.drain_empty c awake (empty c).1 (empty c).2

/-- The state the end of self-refresh makes of the state at its instant. -/
def State.woken : State :=
  State.repick ((List.finRange 12).foldl State.drain { s.noteHbm with
    mem := { s.noteHbm.mem with selfRef := false, srExit := none }, pwr := { s.noteHbm.pwr with hbm := 1 } })

theorem State.exec_hbmSrExitDone {u : Nat} (exit : s.mem.srExit = some u) : exec .hbmSrExitDone s = .next (s.advance (u + 20 * usUnits)).woken := by
  change execHbmSrExitDone s = _
  unfold execHbmSrExitDone
  rw [exit]
  rfl

theorem State.woken_frame : s.woken.now = s.now ∧ s.woken.pwr.hbm = 1 ∧ s.woken.pwr.hbmIdle = s.now ∧
    s.woken.mem = { s.mem with selfRef := false, srExit := none, outs := s.woken.mem.outs } ∧
    ((∀ c : Cluster, (s.cl[c]).cap.fifo = [] ∧ (s.cl[c]).stamp.fifo = []) → s.woken.mem.outs = s.mem.outs) := by
  obtain ⟨frame, still⟩ := State.drain_foldl { s.noteHbm with
    mem := { s.noteHbm.mem with selfRef := false, srExit := none }, pwr := { s.noteHbm.pwr with hbm := 1 } } (List.finRange 12) rfl
  unfold State.woken
  generalize List.foldl State.drain _ _ = x at frame still ⊢
  refine ⟨?_, ?_, ?_, ?_, fun empty => ?_⟩
  · rw [frame]
    rfl
  · rw [frame]
    rfl
  · rw [frame]
    rfl
  · rw [frame]
    rfl
  · rw [still empty]
    rfl

end Sys2Proof.Machine

namespace Sys2Proof.Claims
open Sys2Proof.Machine

/-- Settles O48: errors strike what they hit and are reported in a cycle of their own; refresh and scrub move by the calm advance of time. -/
theorem memoryErrorsAndRefresh : Obligations.MemoryErrorsAndRefresh := by
  unfold Obligations.MemoryErrorsAndRefresh
  refine ⟨?corrected, ?other, ?segment, ?outbound, ?scrub, ?enters, ?leaves, ?fails⟩
  case corrected =>
    intro s w ready calm
    obtain ⟨⟨frame, -, -⟩, newest, -⟩ := State.report_idle { s with mem := { s.mem with eccCe := satInc s.mem.eccCe } } calm.2 32 0 w
    refine ⟨_, if_neg (by rw [ready]; exact Bool.false_ne_true), ?_⟩
    generalize State.report { s with mem := { s.mem with eccCe := satInc s.mem.eccCe } } 32 0 w = t at frame newest ⊢
    have mem : t.mem = { s.mem with eccCe := satInc s.mem.eccCe } := by rw [frame]
    have gens : t.gens = s.gens := by rw [frame]
    rw [mem]
    exact ⟨rfl, newest, rfl, gens⟩
  case other =>
    intro s w ready
    exact ⟨_, if_neg (by rw [ready]; exact Bool.false_ne_true), rfl, rfl⟩
  case segment =>
    intro s w c vs p e ready play entry running unstalled calm
    obtain ⟨frame, ends⟩ := s.abortDamaged_playing s.siteOf[c] p running play unstalled
    have played : s.playedSeg c = some e.segment := by
      have play' : (s.seqs[s.site c]).play = some p := play
      have entry' : s.entry (s.site c) p.entry = some e := entry
      rw [State.playedSeg, play', Option.bind_some, entry']
      rfl
    have run : exec (.eccUe w (.segment c vs)) s = .next (State.report (s.struck c w vs e.segment) 18 ((s.abortDamaged s.siteOf[c]).maskOf s.siteOf[c]) w) := by
      refine (if_neg (by rw [ready]; exact Bool.false_ne_true)).trans ?_
      dsimp only
      rw [played]
      rfl
    have struck : s.struck c w vs e.segment = { s.abortDamaged s.siteOf[c] with
        mem := { s.mem.noteUe w vs c e.segment with
          segs := upd s.mem.segs c fun l => updSeg l e.segment fun g => { g with damaged := true } } } := by
      unfold State.struck State.site
      dsimp only
      rw [show (s.abortDamaged s.siteOf[c]).mem = s.mem by rw [frame]]
      rfl
    have flt : (s.struck c w vs e.segment).flt.taking = none := by
      rw [struck, frame]
      exact calm.2
    have mask : (s.abortDamaged s.siteOf[c]).maskOf s.siteOf[c] = s.maskOf s.siteOf[c] := by
      unfold State.maskOf State.members
      rw [frame]
    rw [mask] at run
    obtain ⟨⟨only, sites, -⟩, newest, -⟩ := State.report_idle (s.struck c w vs e.segment) flt 18 (s.maskOf s.siteOf[c]) w
    refine ⟨_, run, ?_⟩
    generalize State.report (s.struck c w vs e.segment) 18 (s.maskOf s.siteOf[c]) w = t at only sites newest ⊢
    have mem : t.mem = (s.struck c w vs e.segment).mem := by rw [only]
    have seqs : t.seqs = (s.struck c w vs e.segment).seqs := by rw [only]
    have gens : t.gens = s.gens := by rw [only, struck, frame]
    have site : (s.struck c w vs e.segment).sites[s.siteOf[c]] = { s.sites[s.siteOf[c]] with state := .stalled } := by
      rw [struck, frame]
      exact upd_get_same ..
    have here := sites s.siteOf[c]
    rw [site] at here
    rw [mem, seqs, here, struck]
    refine ⟨rfl, rfl, rfl, ?_, rfl, rfl, ends, fun g hg id => ?_, newest, gens⟩
    · have := c.isLt
      simp only [Memory.noteUe, BitVec.toNat_ofNat]
      omega
    · have at_ : (upd s.mem.segs c fun l => updSeg l e.segment fun g => { g with damaged := true })[c] = _ := upd_get_same ..
      rw [at_] at hg
      obtain ⟨x, -, rfl⟩ := mem_updSeg_same hg id
      rfl
  case outbound =>
    intro s w i b rest ready area calm
    set u : State := ({ s with mem := s.mem.noteUe w false 0 0xFFFFFFFF } : State).updOut i fun o => { o with area := { b with bad := true } :: rest } with hu
    have run : exec (.eccUe w (.outbound i)) s = .next (u.report 33 (bitMask 12 (streamCluster i).val) (BitVec.ofNat 32 i.val)) := by
      refine (if_neg (by rw [ready]; exact Bool.false_ne_true)).trans ((if_neg (by rw [area]; exact Bool.false_ne_true)).trans ?_)
      refine congrArg (fun x : State => Host.Outcome.next (x.report 33 (bitMask 12 (streamCluster i).val) (BitVec.ofNat 32 i.val)))
        (State.updOut_congr _ i _ _ ?_)
      have head : (({ s with mem := s.mem.noteUe w false 0 0xFFFFFFFF } : State).mem.outs[i]).area = b :: rest := area
      rw [head]
    have cluster : (streamCluster i).val = i.val / 2 := by
      have := i.isLt
      simp only [streamCluster, Fin.val_ofNat]
      omega
    obtain ⟨⟨frame, -, -⟩, newest, -⟩ := u.report_idle calm.2 33 (bitMask 12 (streamCluster i).val) (BitVec.ofNat 32 i.val)
    refine ⟨_, run, ?_⟩
    generalize u.report 33 (bitMask 12 (streamCluster i).val) (BitVec.ofNat 32 i.val) = t at frame newest ⊢
    have mem : t.mem = u.mem := by rw [frame]
    rw [mem]
    rw [cluster] at newest
    exact ⟨congrArg OutStream.area (upd_get_same ..), rfl, newest, rfl⟩
  case scrub =>
    intro s ready awake due calm
    have instant : s.scrubDue = s.mem.scrubAt + 86400000000000 * nsUnits := s.scrubDue_eq
    have later := advance_to calm due
    rw [← instant] at later ⊢
    have asks : (s.advance s.scrubDue).askHbm = s.advance s.scrubDue := by
      refine if_neg ?_
      rw [later, awake]
      exact Bool.false_ne_true
    refine ⟨_, if_neg (by rw [ready]; exact Bool.false_ne_true), ?_⟩
    rw [State.useHbm, asks]
    generalize s.advance s.scrubDue = w at later ⊢
    rw [later]
    exact ⟨rfl, rfl⟩
  case enters =>
    intro s ready awake enabled deep empty fetching due scrub calm
    have instant : s.pwr.hbmIdle + 100 * usUnits = s.pwr.hbmIdle + 100000 * nsUnits := by rw [usUnits_eq]
    have beyond : s.scrubDue = s.mem.scrubAt + 86400000000000 * nsUnits := s.scrubDue_eq
    have later := advance_to calm due
    rw [← instant] at later scrub ⊢
    have none_ : (List.finRange 24).any s.fetching = false := by simpa using fetching
    have undue : ¬ s.scrubDue ≤ (s.advance (s.pwr.hbmIdle + 100 * usUnits)).now := by
      rw [later, beyond]
      exact Nat.not_le.2 scrub
    refine ⟨_, if_neg (by rw [ready, awake, enabled, deep, empty, none_, decide_eq_false undue]; exact Bool.false_ne_true), ?_⟩
    generalize s.advance (s.pwr.hbmIdle + 100 * usUnits) = w at later ⊢
    rw [later]
    exact ⟨rfl, rfl, rfl, rfl⟩
  case leaves =>
    intro s u exit due calm
    have later := advance_to calm due
    rw [show u + 20000 * nsUnits = u + 20 * usUnits by rw [usUnits_eq]] at later ⊢
    obtain ⟨now, hbm, idle, mem, outs⟩ := (s.advance (u + 20 * usUnits)).woken_frame
    have run := s.exec_hbmSrExitDone exit
    generalize u + 20 * usUnits = n at later now hbm idle mem outs run ⊢
    generalize s.advance n = w at later now hbm idle mem outs run
    have now' : w.now = n := by rw [later]
    have mem' : w.mem = s.mem := by rw [later]
    have cl' : w.cl = s.cl := by rw [later]
    rw [now'] at now idle
    rw [mem'] at mem outs
    rw [cl'] at outs
    exact ⟨_, run, now, hbm, idle.trans now.symm, mem, outs⟩
  case fails =>
    intro s run phase ready calm
    obtain ⟨u, abandoned, eq, ⟨frame, -, -⟩, newest⟩ :=
      State.collectOver_device { s with mem := { s.mem with ready := false }, pwr := { s.pwr with hbm := 3 } } calm.2 run 4 0 0 rfl
    have isReady : s.isReady = true := isReady_of phase
    refine ⟨_, (if_neg (by rw [isReady, ready]; exact Bool.false_ne_true)).trans (congrArg _ eq), ?_⟩
    generalize u.report 4 0 0 = t at frame newest ⊢
    have mem : t.mem = { s.mem with ready := false } := by rw [frame, abandoned]
    have hbm : t.pwr.hbm = 3 := by rw [frame, abandoned]
    have gens : t.gens = s.gens := by rw [frame, abandoned]
    exact ⟨mem, hbm, newest, gens⟩

end Sys2Proof.Claims

namespace Sys2Proof.Machine
variable (s : State)

/-! ## What follows a block written to the host (R171, R176) -/

/-- `t` is `s` but for the engines, the areas of the outbound streams and the request to leave self-refresh. -/
def DrainFrame (s t : State) : Prop :=
  t = { s with cl := t.cl, mem := { s.mem with outs := t.mem.outs, srExit := t.mem.srExit } } ∧
  ∀ j : Fin 24, t.mem.outs[j] = { s.mem.outs[j] with area := (t.mem.outs[j]).area }

theorem State.fill_at (i j : Fin 24) (bs : List ClosedBlock) :
    (s.fill i bs).mem.outs[j] = { s.mem.outs[j] with area := ((s.fill i bs).mem.outs[j]).area } := by
  have at_ : (s.fill i bs).mem.outs[j] = if j = i then { s.mem.outs[j] with area := (s.mem.outs[j]).area ++ bs } else s.mem.outs[j] := upd_apply ..
  rw [at_]
  split <;> rfl

theorem State.drain_frame (c : Cluster) : DrainFrame s (s.drain c) := by
  unfold State.drain
  dsimp only
  split
  · split
    · exact ⟨rfl, fun _ => rfl⟩
    · unfold State.askHbm
      split
      · exact ⟨rfl, fun _ => rfl⟩
      · exact ⟨rfl, fun _ => rfl⟩
  · refine ⟨rfl, fun j => ?_⟩
    rw [State.fill_at, State.fill_at]
    rfl

theorem State.closeDrained_staying (i : Fin 24) (stays : (s.mem.outs[i]).closing = false) : s.closeDrained i = s := by
  unfold State.closeDrained
  dsimp only
  rw [stays]
  exact if_neg Bool.false_ne_true

/-- What follows a block or a buffer of a stream that stays open (R171, R176). -/
theorem State.afterOut_frame (i : Fin 24) (stays : (s.mem.outs[i]).closing = false) : let t := s.afterOut i
    t = { s with cl := t.cl, mem := { s.mem with outs := t.mem.outs, srExit := t.mem.srExit }, pwr := t.pwr } ∧
    ∀ j : Fin 24, t.mem.outs[j] = { s.mem.outs[j] with area := (t.mem.outs[j]).area } := by
  obtain ⟨frame, areas⟩ := s.drain_frame (streamCluster i)
  have open_ : ((s.drain (streamCluster i)).mem.outs[i]).closing = false := by
    rw [areas i]
    exact stays
  unfold State.afterOut
  rw [State.closeDrained_staying _ i open_]
  generalize s.drain (streamCluster i) = d at frame areas ⊢
  refine ⟨?_, areas⟩
  rw [frame]
  rfl

theorem State.updIn_at (i : Fin 24) (f : InStream → InStream) : (s.updIn i f).mem.ins[i] = f s.mem.ins[i] := upd_get_same ..

theorem State.afterOut_leaves (i : Fin 24) (stays : (s.mem.outs[i]).closing = false) :
    (s.afterOut i).now = s.now ∧ (s.afterOut i).host = s.host ∧ (s.afterOut i).flt = s.flt ∧ (s.afterOut i).mem.port = s.mem.port ∧
    (s.afterOut i).mem.segs = s.mem.segs := by
  rw [(s.afterOut_frame i stays).1]
  exact ⟨rfl, rfl, rfl, rfl, rfl⟩

theorem State.afterOut_outs (i : Fin 24) (stays : (s.mem.outs[i]).closing = false) :
    (s.afterOut i).mem.outs[i] = { s.mem.outs[i] with area := ((s.afterOut i).mem.outs[i]).area } :=
  (s.afterOut_frame i stays).2 i

/-- An update of one inbound stream's record leaves everything else. -/
theorem State.updIn_host (i : Fin 24) (f : InStream → InStream) :
    (s.updIn i f).host = s.host ∧ (s.updIn i f).mem.segs = s.mem.segs ∧ (s.updIn i f).cl = s.cl := ⟨rfl, rfl, rfl⟩

theorem State.portGrant_host (r : PortReq) :
    (s.portGrant r).host = s.host ∧ (s.portGrant r).mem.segs = s.mem.segs ∧ (s.portGrant r).cl = s.cl := ⟨rfl, rfl, rfl⟩

/-- Completing a descriptor writes DONE_BLOCKS, STATUS and FLAGS, in this order (R172). -/
theorem State.completeDesc_then (base : BitVec 64) (slot done status : Nat) (i : Fin 24) (f : InStream → InStream) :
    let t := ((s.completeDesc base slot done status).updIn i f).noteHbm
    let a := base + BitVec.ofNat 64 (16 * slot)
    t.mem.segs = s.mem.segs ∧ t.cl = s.cl ∧
    t.host.writes = s.host.writes ++ [⟨a + 0xC, leBytes 2 done⟩, ⟨a + 0xF, leBytes 1 status⟩, ⟨a + 0xE, leBytes 1 0⟩] := by
  unfold State.completeDesc State.noteHbm State.updIn
  simp only [State.writeHost, List.append_assoc, List.cons_append, List.nil_append, and_self]

/-! ## Inbound blocks (R42, R43, R174, R175) -/

theorem State.settleStall_none (k : Cluster) (t : Int) (stall : (s.seqs[k]).stall = none) : s.settleStall k t = s := by
  unfold State.settleStall
  rw [stall]
  split
  next e => cases e
  next => rfl

/-- The verdict on an inbound block (R42). -/
def State.verdict (i : Fin 24) (b : List Byte) : Verdict :=
  checkBlock b s.mem.ins[i] (streamCluster i) (s.members (s.site (streamCluster i))) fun c id => findSeg s.mem.segs[c] id

def Verdict.rejects : Verdict → Bool
  | .reject _ => true
  | _ => false

/-- What its verdict makes of a block, but for the counts of the buffer in hand (R42, R43, R175). -/
def State.judged (i : Fin 24) (b : List Byte) : Verdict → State
  | .stale => s.updIn i fun t => { t with stale := satInc t.stale }
  | .reject n => s.rejectBlock (streamCluster i) (BlkHdr.of b) n
  | .accept body => s.acceptBlock i (BlkHdr.of b) body

/-- The counts of the buffer in hand with one more block, good or bad (R174). -/
def InStream.counted (t : InStream) (bad : Bool) : InStream :=
  { t with fetched := t.fetched + 1, good := if t.bad || bad then t.good else t.good + 1, bad := t.bad || bad }

theorem State.exec_blockEntry {i : Fin 24} {b : List Byte} {v : Verdict} (ready : s.mem.ready = true) (awake : s.mem.selfRef = false)
    (turn : s.portTurn = some (.inb i)) (stall : (s.seqs[s.site (streamCluster i)]).stall = none) (verdict : s.verdict i b = v) :
    exec (.blockEntry i b) s = .next ((((s.portGrant (.inb i)).judged i b v).updIn i fun t => t.counted v.rejects).completeIn i).noteHbm := by
  change execBlockEntry i b s = _
  unfold execBlockEntry
  dsimp only
  rw [s.settleStall_none _ _ stall, if_neg (by rw [ready, turn]; simp), if_neg (by rw [awake]; exact Bool.false_ne_true)]
  have seen : (checkBlock b s.mem.ins[i] (streamCluster i) ((s.portGrant (.inb i)).members ((s.portGrant (.inb i)).site (streamCluster i)))
      fun c id => findSeg (s.portGrant (.inb i)).mem.segs[c] id) = v := verdict
  rw [seen]
  cases v <;> rfl

theorem State.completeIn_more {i : Fin 24} {d : Desc} (descs : (s.mem.ins[i]).descs.head? = some d) (more : (s.mem.ins[i]).fetched < d.blocks) :
    s.completeIn i = s := by
  obtain ⟨ds, list⟩ := List.head?_eq_some_iff.1 descs
  unfold State.completeIn
  dsimp only
  rw [list]
  exact if_pos more

/-- The stream's record with the buffer in hand completed (R172, R174). -/
def InStream.completed (t : InStream) (d : Desc) (ds : List Desc) : InStream :=
  { t with descs := ds, gens := noteGen t.gens t.head d.gen, head := (t.head + 1) % t.size, fetched := 0, good := 0, bad := false }

theorem State.completeIn_full {i : Fin 24} {d : Desc} {ds : List Desc} (descs : (s.mem.ins[i]).descs = d :: ds)
    (full : d.blocks ≤ (s.mem.ins[i]).fetched) :
    s.completeIn i = (s.completeDesc (s.mem.ins[i]).base (s.mem.ins[i]).head (s.mem.ins[i]).good (if (s.mem.ins[i]).bad then 1 else 0)).updIn i
      fun t => t.completed d ds := by
  unfold State.completeIn
  dsimp only
  rw [descs]
  exact if_neg (Nat.not_lt.2 full)

theorem State.joins_foldl (h : BlkHdr) (b : Body) (l : List Cluster) : l.foldl (fun s c =>
      { s with mem := { s.mem with segs := upd s.mem.segs c fun l => updSeg l h.seg fun g => g.accept h.isFirst b } }) s =
    { s with mem := { s.mem with segs := l.foldl (fun v c => upd v c fun l => updSeg l h.seg fun g => g.accept h.isFirst b) s.mem.segs } } := by
  induction l generalizing s with
  | nil => rfl
  | cons c l ih => exact ih _

/-- An accepted block: the segments of each cluster it names, and the stream's record, have it (R175). -/
theorem State.acceptBlock_frame (i : Fin 24) (h : BlkHdr) (b : Body) : let t := s.acceptBlock i h b
    t = { s with mem := { s.mem with segs := t.mem.segs, ins := t.mem.ins } } ∧
    (∀ c : Cluster, t.mem.segs[c] = if c ∈ maskClusters h.mask then updSeg s.mem.segs[c] h.seg fun g => g.accept h.isFirst b else s.mem.segs[c]) ∧
    (∀ j : Fin 24, j ≠ i → t.mem.ins[j] = s.mem.ins[j]) ∧
    t.mem.ins[i] = { s.mem.ins[i] with
      expect := (s.mem.ins[i]).expect + 1, cur := (t.mem.ins[i]).cur, dense := (t.mem.ins[i]).dense, oversize := (t.mem.ins[i]).oversize
      staged := if (s.mem.ins[i]).play then (s.mem.ins[i]).staged + 1 else 0 } := by
  unfold State.acceptBlock
  rw [State.joins_foldl]
  refine ⟨rfl, fun c => ?_, fun j ne => ?_, ?_⟩
  · exact foldl_upd_get (maskClusters h.mask) (fun _ (l : List Seg) => updSeg l h.seg fun g => g.accept h.isFirst b) s.mem.segs
      (maskClusters_nodup h.mask) c
  · exact (upd_at ..).trans ((if_neg ne).trans ((upd_at ..).trans (if_neg ne)))
  · dsimp only [State.updIn]
    rw [upd_get_same, upd_get_same]

/-! ## Outbound blocks (R176, R178) -/

/-- The state a block written to the host leaves before what follows it (R176). -/
def State.wroteOut (i : Fin 24) (b : ClosedBlock) (rest : List ClosedBlock) (d : Desc) (f : OutBuf) : State :=
  ((s.portGrant (.out i)).writeData (d.addr + BitVec.ofNat 64 (4096 * f.written))
    (b.bytes (if i.val % 2 = 0 then captureMagic else stampMagic) (streamCluster i))).updOut i
      fun t => { t with area := rest, buf := some { f with written := f.written + 1 } }

theorem State.exec_outbound {i : Fin 24} {b : ClosedBlock} {rest : List ClosedBlock} {d : Desc} {ds : List Desc} {f : OutBuf} (own : Bool)
    (gen : BitVec 16) (oa : Bool) (g : BitVec 16) (area : (s.mem.outs[i]).area = b :: rest) (descs : (s.mem.outs[i]).descs = d :: ds)
    (turn : s.portTurn = some (.out i)) (awake : s.mem.selfRef = false) (buf : (s.mem.outs[i]).buf = some f) :
    exec (.outboundBlockWrite i own gen oa g) s =
      if (!own || decide (gen ≠ f.gen)) = true then .next (((s.portGrant (.out i)).reclaimed i 1).afterOut i)
      else if (decide (f.written + 1 < d.blocks) && !b.blk.last) = true then .next ((s.wroteOut i b rest d f).afterOut i)
      else if (!oa || decide (g ≠ f.gen)) = true then .next (((s.wroteOut i b rest d f).reclaimed i 0).afterOut i)
      else .next (((s.wroteOut i b rest d f).completeOut i).afterOut i) := by
  change execOutboundBlockWrite i own gen oa g s = _
  unfold execOutboundBlockWrite
  dsimp only
  rw [area, descs, buf]
  dsimp only
  rw [if_neg (by rw [turn]; simp), if_neg (by rw [awake]; exact Bool.false_ne_true)]
  rfl

theorem State.wroteOut_kept (i : Fin 24) (b : ClosedBlock) (rest : List ClosedBlock) (d : Desc) (f : OutBuf) : let t := s.wroteOut i b rest d f
    t.mem.outs[i] = { s.mem.outs[i] with area := rest, buf := some { f with written := f.written + 1 } } ∧
    t.mem.port = (s.portGrant (.out i)).mem.port ∧ t.mem.segs = s.mem.segs ∧
    t.host.writes = s.host.writes ++ payloads (128 * 2 ^ s.host.mps.val)
      (b.bytes (if i.val % 2 = 0 then captureMagic else stampMagic) (streamCluster i)).length (d.addr + BitVec.ofNat 64 (4096 * f.written))
      (b.bytes (if i.val % 2 = 0 then captureMagic else stampMagic) (streamCluster i)) := by
  unfold State.wroteOut State.updOut
  refine ⟨upd_get_same .., ?_, ?_, ?_⟩
  · simp only [State.writeData]
  · simp only [State.writeData, State.portGrant]
  · simp only [State.writeData, State.portGrant]

/-- A buffer the host takes back, reported in a cycle of its own (R178). -/
theorem State.reclaimed_outs (idle : s.flt.taking = none) (i : Fin 24) (n : Nat) : let t := s.reclaimed i n
    t.mem.outs[i] = { s.mem.outs[i] with
      area := (s.mem.outs[i]).area.drop n, descs := (s.mem.outs[i]).descs.drop 1, head := ((s.mem.outs[i]).head + 1) % (s.mem.outs[i]).size, buf := none
      reclaim := true
      reclaimBytes := satAdd (s.mem.outs[i]).reclaimBytes ((((s.mem.outs[i]).buf.map (·.written)).getD 0 + n) * 4096) } ∧
    t.host = s.host ∧ Claims.newest t = some (36, bitMask 12 (streamCluster i).val, BitVec.ofNat 32 i.val) := by
  unfold State.reclaimed State.updOut
  dsimp only
  generalize hv : upd s.mem.outs i _ = v
  obtain ⟨⟨frame, -, -⟩, newest, -⟩ :=
    State.report_idle { s with mem := { s.mem with outs := v, reclaim := true } } idle 36 (bitMask 12 (streamCluster i).val) (BitVec.ofNat 32 i.val)
  generalize State.report _ 36 (bitMask 12 (streamCluster i).val) (BitVec.ofNat 32 i.val) = t at frame newest ⊢
  refine ⟨?_, ?_, newest⟩
  · rw [frame, ← hv]
    exact upd_get_same ..
  · rw [frame]

/-- The buffer in hand completed: its descriptor is written back and taken from the ring (R172, R173, R176). -/
theorem State.completeOut_outs {i : Fin 24} {d : Desc} {ds : List Desc} {f : OutBuf} (descs : (s.mem.outs[i]).descs = d :: ds)
    (buf : (s.mem.outs[i]).buf = some f) : let t := s.completeOut i
    let a := (s.mem.outs[i]).base + BitVec.ofNat 64 (16 * (s.mem.outs[i]).head)
    t.mem.outs[i] = { s.mem.outs[i] with
      descs := ds, gens := noteGen (s.mem.outs[i]).gens (s.mem.outs[i]).head d.gen, head := ((s.mem.outs[i]).head + 1) % (s.mem.outs[i]).size
      buf := none } ∧
    t.now = s.now ∧
    t.host.writes = s.host.writes ++ [⟨a + 0xC, leBytes 2 f.written⟩, ⟨a + 0xF, leBytes 1 (if f.written < d.blocks then 2 else 0)⟩,
      ⟨a + 0xE, leBytes 1 0⟩] := by
  unfold State.completeOut
  dsimp only
  rw [descs, buf]
  unfold State.completeDesc State.updOut
  refine ⟨upd_get_same .., ?_, ?_⟩
  · simp only [State.writeHost]
  · simp only [State.writeHost, List.append_assoc, List.cons_append, List.nil_append]

/-! ## Blocks released by a play (R162) -/

theorem findSeg_updSeg (l : List Seg) (id : Word) (f : Seg → Seg) (keeps : ∀ g, (f g).id = g.id) :
    findSeg (updSeg l id f) id = (findSeg l id).map f := by
  induction l with
  | nil => rfl
  | cons g l ih =>
    unfold findSeg updSeg at ih ⊢
    by_cases e : g.id = id
    · simp [e, keeps]
    · simp [e, ih]

/-- The segment with the next block of its first entry released (R162). -/
def Seg.release (g : Seg) : Seg :=
  { g with insts := match g.insts with
    | y :: rest => { y with released := y.released + 1 } :: rest
    | [] => [] }

/-- The state after the release of the next block of a STREAM play that plays segment `id` at the instant `t`. -/
def State.releasedBlock (c : Cluster) (id : Word) (t : Int) : State :=
  let u := (((s.advanceNet t).playTo (s.site c) t).unstage c id 1).noteHbm
  { u with mem := { u.mem with segs := upd u.mem.segs c fun l => updSeg l id Seg.release } }

theorem State.advanceNet_calm (calm : Claims.Calm s) (t : Int) :
    (s.advanceNet t).mem = s.mem ∧ (s.advanceNet t).gens = s.gens ∧ (s.advanceNet t).host = s.host := by
  unfold State.advanceNet
  rw [State.advance_calm s _ calm.1 calm.2]
  split <;> exact ⟨rfl, rfl, rfl⟩

theorem State.releasedBlock_frame (calm : Claims.Calm s) (c : Cluster) (id : Word) (t : Int) (i : Fin 24) (stream : s.playStream c id = some i) :
    let u := s.releasedBlock c id t
    u.mem.ins = (upd s.mem.ins i fun x => { x with staged := x.staged - 1 }) ∧
    u.mem.segs = (upd s.mem.segs c fun l => updSeg l id Seg.release) ∧ u.gens = s.gens ∧ u.host = s.host := by
  obtain ⟨mem, gens, host⟩ := s.advanceNet_calm calm t
  obtain ⟨played, -⟩ := (s.advanceNet t).playTo_frame (s.site c) t
  unfold State.releasedBlock
  generalize (s.advanceNet t).playTo (s.site c) t = v at played
  have mem' : v.mem = s.mem := by rw [played, mem]
  have gens' : v.gens = s.gens := by rw [played, gens]
  have host' : v.host = s.host := by rw [played, host]
  have stream' : v.playStream c id = some i := by
    rw [State.playStream, mem']
    exact stream
  have unstaged : v.unstage c id 1 = { v with mem := { v.mem with ins := upd v.mem.ins i fun x => { x with staged := x.staged - 1 } } } := by
    unfold State.unstage
    rw [stream']
  rw [unstaged, ← mem', ← gens', ← host']
  exact ⟨rfl, rfl, rfl, rfl⟩

end Sys2Proof.Machine

namespace Sys2Proof.Claims
open Sys2Proof.Machine

/-- A buffer held for 100 µs is completed with what it holds (R176). -/
theorem outboundPartialTimeout_completes {s : State} {i : Fin 24} {d : Desc} {ds : List Desc} {f : OutBuf} :
    let o := s.mem.outs[i]
    o.descs = d :: ds → o.closing = false → o.buf = some f → s.now ≤ f.since + 100000 * nsUnits →
    s.dma s.host.owner[(Fin.ofNat 12 (i.val / 2) : Cluster)] = true → Calm s →
    Completes (.outboundPartialTimeout i true f.gen) s fun t => t.now = f.since + 100000 * nsUnits ∧ (t.mem.outs[i]).buf = none ∧ (t.mem.outs[i]).descs = ds ∧
      (let a := o.base + BitVec.ofNat 64 (16 * o.head)
       t.host.writes = s.host.writes ++ [⟨a + 0xC, leBytes 2 f.written⟩, ⟨a + 0xF, leBytes 1 (if f.written < d.blocks then 2 else 0)⟩, ⟨a + 0xE, leBytes 1 0⟩]) := by
  intro o descs stays buf due dma calm
  have later := advance_to calm due
  rw [show f.since + 100000 * nsUnits = f.since + 100 * usUnits by rw [usUnits_eq]] at later ⊢
  have run : exec (.outboundPartialTimeout i true f.gen) s = .next (((s.advance (f.since + 100 * usUnits)).completeOut i).afterOut i) := by
    change execOutboundPartialTimeout i true f.gen s = _
    unfold execOutboundPartialTimeout
    rw [buf]
    dsimp only
    rw [if_neg (by rw [show s.dma s.host.owner[streamCluster i] = true from dma]; exact Bool.false_ne_true), if_neg (by simp)]
  refine ⟨_, run, ?_⟩
  have outs : (s.advance (f.since + 100 * usUnits)).mem.outs = s.mem.outs := by rw [later]
  have now : (s.advance (f.since + 100 * usUnits)).now = f.since + 100 * usUnits := by rw [later]
  have host : (s.advance (f.since + 100 * usUnits)).host = s.host := by rw [later]
  clear later run
  generalize s.advance (f.since + 100 * usUnits) = w at outs now host ⊢
  obtain ⟨here, now', writes⟩ := w.completeOut_outs (i := i) (d := d) (ds := ds) (f := f) (by rw [outs]; exact descs) (by rw [outs]; exact buf)
  rw [outs] at here writes
  rw [host] at writes
  generalize w.completeOut i = x at here now' writes ⊢
  have open_ : (x.mem.outs[i]).closing = false := by
    rw [here]
    exact stays
  obtain ⟨later', host', -⟩ := x.afterOut_leaves i open_
  have one := x.afterOut_outs i open_
  rw [here] at one
  refine ⟨later'.trans (now'.trans now), congrArg OutStream.buf one, (congrArg OutStream.descs one).trans rfl, ?_⟩
  rw [host']
  exact writes

/-- The decompressor of a cluster releases the next block of its STREAM play (R162). -/
theorem blockHbmRelease_completes {s : State} {c : Cluster} {p : Play} {e : Entry} {g : Seg} {x : Inst} {xs : List Inst} {i : Fin 24}
    (play : (s.seqs[s.site c]).play = some p) (entry : s.entry (s.site c) p.entry = some e) (seg : findSeg s.mem.segs[c] e.segment = some g)
    (stream : g.stream = true) (insts : g.insts = x :: xs) (more : x.released < x.blocks.length) (bound : s.playStream c e.segment = some i)
    (goes : (s.seqs[s.site c]).abortAt = none) (fits : ((x.blocks.take (x.released + 1)).map (·.vectors)).sum ≤ p.len) (calm : Calm s) :
    Completes (.blockHbmRelease c) s fun t => (t.mem.ins[i]).staged = (s.mem.ins[i]).staged - 1 ∧ (t.instOf c e.segment).released = x.released + 1 ∧
      (t.instOf c e.segment).blocks = x.blocks ∧ t.gens = s.gens ∧ t.host = s.host := by
  have inst : s.instOf c e.segment = x := by
    rw [State.instOf, seg, Option.bind_some, insts]
    rfl
  have run : exec (.blockHbmRelease c) s =
      .next (s.releasedBlock c e.segment (p.startOf (((x.blocks.take (x.released + 1)).map (·.vectors)).sum - 1))) := by
    change execBlockHbmRelease c s = _
    unfold execBlockHbmRelease
    dsimp only
    rw [play]
    dsimp only
    rw [entry]
    dsimp only [Option.map_some, Option.getD_some]
    refine (if_neg ?_).trans ((if_neg ?_).trans (by rw [inst]; rfl))
    · simp only [Bool.or_eq_true, decide_eq_true_eq]
      rw [inst, bound, seg]
      simp [stream, more]
    · rw [inst, goes]
      exact Nat.not_lt.2 fits
  obtain ⟨ins, segs, gens, host⟩ := s.releasedBlock_frame calm c e.segment (p.startOf (((x.blocks.take (x.released + 1)).map (·.vectors)).sum - 1)) i bound
  refine ⟨_, run, ?_⟩
  generalize s.releasedBlock c e.segment _ = t at ins segs gens host ⊢
  have list : t.mem.segs[c] = updSeg s.mem.segs[c] e.segment Seg.release := by
    rw [segs]
    exact upd_get_same ..
  have inst' : t.instOf c e.segment = { x with released := x.released + 1 } := by
    rw [State.instOf, list, findSeg_updSeg _ _ Seg.release fun _ => rfl, seg, Option.map_some, Option.bind_some, Seg.release, insts]
    rfl
  rw [inst', ins]
  exact ⟨congrArg InStream.staged (upd_get_same ..), rfl, rfl, gens, host⟩

/-- Settles O47: each verdict on an inbound block, each end of an outbound one, and the release of a played one, changes what its clause names. -/
theorem blocksComeAndGo : Obligations.BlocksComeAndGo := by
  unfold Obligations.BlocksComeAndGo
  intro owner verdict open_ image
  refine ⟨?accepted, ?rejected, ?stale, ?written, ?taken, ?timeout, ?released⟩
  case accepted =>
    intro s i b d body ⟨ready, awake, turn, descs, stall⟩ accepts more
    refine ⟨_, s.exec_blockEntry ready awake turn stall accepts, ?_⟩
    obtain ⟨frame, segs, others, here⟩ := (s.portGrant (.inb i)).acceptBlock_frame i (BlkHdr.of b) body
    rw [show (s.portGrant (.inb i)).judged i b (.accept body) = (s.portGrant (.inb i)).acceptBlock i (BlkHdr.of b) body from rfl]
    generalize (s.portGrant (.inb i)).acceptBlock i (BlkHdr.of b) body = w at frame segs others here ⊢
    have one : (w.updIn i fun t => t.counted (Verdict.accept body).rejects).mem.ins[i] = (w.mem.ins[i]).counted false := upd_get_same ..
    have rest (j : Fin 24) (ne : j ≠ i) : (w.updIn i fun t => t.counted (Verdict.accept body).rejects).mem.ins[j] = s.mem.ins[j] :=
      ((upd_at ..).trans (if_neg ne)).trans (others j ne)
    rw [State.completeIn_more _ (d := d) (by rw [one, here]; exact descs) (by rw [one, here]; exact more)]
    have host : w.host = s.host := by
      rw [frame]
      rfl
    have cl : w.cl = s.cl := by
      rw [frame]
      rfl
    have port : w.mem.port = (s.portGrant (.inb i)).mem.port := by rw [frame]
    refine ⟨port, ?_, ?_, ?_, ?_, segs, rest, cl, host⟩
    · refine (congrArg InStream.expect one).trans ?_
      rw [here]
      rfl
    · refine (congrArg InStream.fetched one).trans ?_
      rw [here]
      rfl
    · refine (congrArg InStream.good one).trans ?_
      rw [here]
      simp only [InStream.counted, Bool.or_false]
      rfl
    · refine (congrArg InStream.staged one).trans ?_
      rw [here]
      rfl
  case rejected =>
    intro s i b d n ⟨ready, awake, turn, descs, stall⟩ rejects early more
    refine ⟨_, s.exec_blockEntry ready awake turn stall rejects, ?_⟩
    have judged : (s.portGrant (.inb i)).judged i b (.reject n) =
        (s.portGrant (.inb i)).updCl (streamCluster i) fun e => { e with dec := e.dec.noteBlock (BlkHdr.of b) n } := by
      have blamed : (s.portGrant (.inb i)).blamed (streamCluster i) (BlkHdr.of b) n = [streamCluster i] := if_pos early
      unfold State.judged State.rejectBlock
      dsimp only
      rw [blamed]
      rfl
    rw [judged]
    generalize hw : (s.portGrant (.inb i)).updCl (streamCluster i) (fun e => { e with dec := e.dec.noteBlock (BlkHdr.of b) n }) = w
    have one : (w.updIn i fun t => t.counted (Verdict.reject n).rejects).mem.ins[i] = (s.mem.ins[i]).counted true := by
      rw [← hw]
      exact upd_get_same ..
    rw [State.completeIn_more _ (d := d) (by rw [one]; exact descs) (by rw [one]; exact more)]
    refine ⟨?_, ?_, ?_, ?_, fun c ne => ?_⟩
    · rw [← hw]
      rfl
    · exact (congrArg InStream.bad one).trans (Bool.or_true _)
    · exact (congrArg InStream.expect one).trans rfl
    · rw [← hw]
      exact congrArg ClusterEng.dec (upd_get_same ..)
    · rw [← hw]
      exact (upd_at ..).trans (if_neg ne)
  case stale =>
    intro s i b d ⟨ready, awake, turn, descs, stall⟩ stale good full
    refine ⟨_, s.exec_blockEntry ready awake turn stall stale, ?_⟩
    obtain ⟨ds, list⟩ := List.head?_eq_some_iff.1 descs
    rw [show (s.portGrant (.inb i)).judged i b .stale = (s.portGrant (.inb i)).updIn i fun t => { t with stale := satInc t.stale } from rfl]
    generalize hw : ((s.portGrant (.inb i)).updIn i (fun t => { t with stale := satInc t.stale })).updIn i
      (fun t => t.counted Verdict.stale.rejects) = w
    have one : w.mem.ins[i] = ({ s.mem.ins[i] with stale := satInc (s.mem.ins[i]).stale } : InStream).counted false := by
      rw [← hw]
      exact (upd_get_same ..).trans (congrArg (InStream.counted · false) (upd_get_same ..))
    rw [State.completeIn_full w (d := d) (ds := ds) (by rw [one]; exact list) (by rw [one]; exact full)]
    have kept : w.host = s.host ∧ w.mem.segs = s.mem.segs ∧ w.cl = s.cl := by
      obtain ⟨host, segs, cl⟩ := s.portGrant_host (.inb i)
      rw [← hw]
      simp only [State.updIn_host, host, segs, cl, and_self]
    obtain ⟨host, segs, cl⟩ := kept
    have done (x : State) (hx : x.mem.ins = w.mem.ins) : (x.updIn i fun t => t.completed d ds).mem.ins[i] =
        (({ s.mem.ins[i] with stale := satInc (s.mem.ins[i]).stale } : InStream).counted false).completed d ds := by
      rw [State.updIn_at, hx, one]
    have final := done (w.completeDesc (w.mem.ins[i]).base (w.mem.ins[i]).head (w.mem.ins[i]).good (if (w.mem.ins[i]).bad then 1 else 0)) rfl
    have counted : (w.mem.ins[i]).good = (s.mem.ins[i]).good + 1 ∧ (w.mem.ins[i]).bad = false ∧ (w.mem.ins[i]).base = (s.mem.ins[i]).base ∧
        (w.mem.ins[i]).head = (s.mem.ins[i]).head := by
      rw [one]
      exact ⟨if_neg (by rw [good]; exact Bool.false_ne_true), by rw [InStream.counted, good]; rfl, rfl, rfl⟩
    obtain ⟨count, well, base, head⟩ := counted
    rw [count, well, base, head] at final ⊢
    obtain ⟨segs', cl', writes⟩ := w.completeDesc_then (s.mem.ins[i]).base (s.mem.ins[i]).head ((s.mem.ins[i]).good + 1) (if false = true then 1 else 0) i
      fun t => t.completed d ds
    rw [segs] at segs'
    rw [cl] at cl'
    rw [host] at writes
    refine ⟨segs', cl', (congrArg InStream.stale final).trans rfl, (congrArg InStream.descs final).trans ?_, (congrArg InStream.head final).trans rfl, writes⟩
    rw [list]
    rfl
  case written =>
    intro s i b rest d ds f g oa o area descs turn stays awake buf more middle
    have run := s.exec_outbound true f.gen oa g area descs turn awake buf
    rw [if_neg (by simp), if_pos (by rw [middle]; simpa using more)] at run
    obtain ⟨here, port, segs, writes⟩ := s.wroteOut_kept i b rest d f
    generalize s.wroteOut i b rest d f = w at run here port segs writes
    have open_ : (w.mem.outs[i]).closing = false := by
      rw [here]
      exact stays
    obtain ⟨-, host', -, port', segs'⟩ := w.afterOut_leaves i open_
    have one := w.afterOut_outs i open_
    rw [here] at one
    rw [port] at port'
    rw [segs] at segs'
    refine ⟨_, run, congrArg OutStream.buf one, port', (congrArg OutStream.descs one).trans descs, (congrArg OutStream.reclaimBytes one).trans rfl, ?_, segs'⟩
    rw [host']
    exact writes
  case taken =>
    intro s i b rest d ds f g oa o area descs turn stays awake buf calm
    have run := s.exec_outbound false f.gen oa g area descs turn awake buf
    rw [if_pos (by rfl)] at run
    obtain ⟨here, host, report⟩ := (s.portGrant (.out i)).reclaimed_outs calm.2 i 1
    generalize (s.portGrant (.out i)).reclaimed i 1 = w at run here host report
    have open_ : (w.mem.outs[i]).closing = false := by
      rw [here]
      exact stays
    obtain ⟨-, host', flt', -, -⟩ := w.afterOut_leaves i open_
    have one := w.afterOut_outs i open_
    rw [here] at one
    refine ⟨_, run, congrArg OutStream.buf one, (congrArg OutStream.descs one).trans ?_, congrArg OutStream.reclaim one,
      (congrArg OutStream.reclaimBytes one).trans ?_, ?_, ?_⟩
    · exact congrArg (List.drop 1) descs
    · change satAdd o.reclaimBytes (((o.buf.map (·.written)).getD 0 + 1) * 4096) = _
      rw [buf]
      rfl
    · rw [host', host]
      exact congrArg HostPort.writes (s.portGrant_host (.out i)).1
    · unfold newest
      rw [flt']
      exact report
  case timeout =>
    exact fun s i d ds f => outboundPartialTimeout_completes
  case released =>
    intro s c p e g x xs i play entry seg stream insts more bound goes fits calm
    exact blockHbmRelease_completes play entry seg stream insts more bound goes fits calm

end Sys2Proof.Claims

namespace Sys2Proof.Machine

/-! ## What the items of the scheduler do (R196 to R211) -/

section
variable {s : State}

/-- With nothing under way, time leaves the scheduler, the generations, the sequencers and the collector as they are (R188, R345). -/
theorem State.advance_calm_units (calm : Claims.Calm s) (t : Nat) :
    (s.advance t).sched = s.sched ∧ (s.advance t).gens = s.gens ∧ (s.advance t).flt = s.flt := by
  rw [s.advance_calm t calm.1 calm.2]
  split <;> exact ⟨rfl, rfl, rfl⟩

theorem State.startCore_idle (c : Fin 16) (slots : (s.sched.cores[c]).slots = []) : s.startCore c = s := by
  dsimp only [State.startCore]
  rw [slots]
  split
  · next e => cases e
  · rfl

/-- Cores whose slots are empty start nothing. -/
theorem State.startCores_idle (l : List (Fin 16)) (slots : ∀ c ∈ l, (s.sched.cores[c]).slots = []) : s.startCores l = s := by
  induction l with
  | nil => rfl
  | cons c l ih =>
    change State.startCores (s.startCore c) l = s
    rw [State.startCore_idle c (slots c List.mem_cons_self)]
    exact ih fun d h => slots d (List.mem_cons_of_mem _ h)

/-- What a core that runs nothing makes of the first item of its slots (R203). -/
theorem State.startCore_starts {c : Fin 16} {i : Item} {rest : List Item} (run : (s.sched.cores[c]).run = none)
    (slots : (s.sched.cores[c]).slots = i :: rest) : ∃ r : Running, r.item = i ∧ r.started = s.now + 10 * nsUnits ∧
      (s.startCore c).sched.cores = upd (upd s.sched.cores c fun k => { k with slots := rest }) c (fun k => { k with run := some r }) ∧
      (s.startCore c).sched.flows = s.sched.flows ∧ (s.startCore c).sched.cycleAt = s.sched.cycleAt ∧ (s.startCore c).gens = s.gens ∧
      (s.startCore c).sites = s.sites := by
  dsimp only [State.startCore]
  rw [run, slots]
  exact ⟨_, rfl, rfl, rfl, rfl, rfl, rfl, rfl⟩

/-- When one core alone has an item in its slots, that core alone starts one. -/
theorem State.startCores_one (p : Fin 16) (i : Item) (run : (s.sched.cores[p]).run = none) (slots : (s.sched.cores[p]).slots = [i])
    (others : ∀ c ≠ p, (s.sched.cores[c]).slots = []) : s.startCores (List.finRange 16) = s.startCore p := by
  obtain ⟨pre, post, split⟩ := List.append_of_mem (List.mem_finRange p)
  have once : (pre ++ p :: post).Nodup := split ▸ List.nodup_finRange 16
  have before : ∀ c ∈ pre, c ≠ p := by
    rintro c h rfl
    exact List.disjoint_of_nodup_append once h List.mem_cons_self
  rw [split, State.startCores, List.foldl_append, List.foldl_cons, ← State.startCores, ← State.startCores,
    State.startCores_idle pre fun c h => others c (before c h)]
  obtain ⟨r, -, -, cores, -⟩ := State.startCore_starts run slots
  refine State.startCores_idle post fun c _ => ?_
  rw [cores]
  by_cases here : c = p
  · rw [here, upd_get_same, upd_get_same]
  · rw [upd_get_other _ _ _ _ (Ne.symm here), upd_get_other _ _ _ _ (Ne.symm here)]
    exact others c here

/-- What the dispatch of a lone item leaves, the item going to core `p` (R203, R205). -/
theorem State.Waits.dispatched {i : Item} {p : Fin 16} (h : s.Waits i) (goes : s.goesTo i = some p) :
    (∃ r : Running, (s.dispatch.sched.cores[p]).run = some r ∧ r.item = i ∧ r.started = s.now + 10 * nsUnits) ∧
    (s.dispatch.sched.flow i.flow).inService = true ∧ (∀ c : Fin 16, c ≠ p → (s.dispatch.sched.cores[c]).run = none) ∧
    s.dispatch.sched.cycleAt = some (s.now / nsUnits) ∧ s.dispatch.gens = s.gens ∧ s.dispatch.sites = s.sites := by
  have cycle := h.cycle_eq
  rw [goes] at cycle
  have here : (((s.sched.give p i).cores)[p]) = ({ slots := [i] } : SchedCore) := by
    rw [Sched.give, upd_get_same, h.lone.core]
    rfl
  have there (c : Fin 16) (ne : c ≠ p) : (((s.sched.give p i).cores)[c]) = ({} : SchedCore) := by
    rw [Sched.give, upd_get_other _ _ _ _ (Ne.symm ne), h.lone.core]
  have served : ((s.sched.give p i).flow i.flow).inService = true := 
    congrArg Flow.inService (Sched.updFlow_same s.sched i.flow fun f => { f with inService := true })
  rw [State.dispatch, cycle]
  dsimp only [Option.elim]
  generalize s.sched.pointerAfter (some p) = ptr
  have cores (c : Fin 16) : ({ s with sched := { s.sched.give p i with cycleAt := some (s.now / nsUnits), ptr := ptr } } : State).sched.cores[c] =
      (s.sched.give p i).cores[c] := rfl
  rw [State.startCores_one p i (by rw [cores, here]) (by rw [cores, here]) fun c ne => by rw [cores, there c ne]]
  obtain ⟨r, item, started, after, flows, at_, gens, sites⟩ := State.startCore_starts (c := p) (i := i) (rest := [])
    (s := { s with sched := { s.sched.give p i with cycleAt := some (s.now / nsUnits), ptr := ptr } }) (by rw [cores, here]) (by rw [cores, here])
  refine ⟨⟨r, ?_, item, started⟩, ?_, fun c ne => ?_, at_, gens, sites⟩
  · rw [after, upd_get_same]
  · rw [Sched.flow, flows]
    exact served
  · rw [after, upd_get_other _ _ _ _ (Ne.symm ne), upd_get_other _ _ _ _ (Ne.symm ne), cores, there c ne]

/-! ### The end of an item -/

/-- The state an item leaves that has ended so, before its core goes on (R196, R203). -/
def State.ended (s : State) (c : Fin 16) (r : Running) (e : ItemEnd) : State :=
  let t := (s.applyEnd r e).freeCore c r
  { t with sched := { t.sched.updFlow r.item.flow (fun f => { f with lastCore := some c }) with
                                 doneCnt := upd t.sched.doneCnt r.item.prio (· + 1) } }

theorem State.writeFlags_only (k : Cluster) (i : Item) (sc : BitVec 32) (sel : Option (Fin 4)) :
    s.writeFlags k i sc sel = { s with sites := (s.writeFlags k i sc sel).sites, free := (s.writeFlags k i sc sel).free } := by
  unfold State.writeFlags
  cases sel <;> rfl

theorem State.writeFlags_sched (k : Cluster) (i : Item) (sc : BitVec 32) (sel : Option (Fin 4)) : (s.writeFlags k i sc sel).sched = s.sched := by
  rw [State.writeFlags_only]

theorem State.sendActions_cores (r : Running) (w : Work) : (s.sendActions r w).sched.cores = s.sched.cores := by
  unfold State.sendActions
  split <;> rfl

/-- The flags of a decision flow's site are written, of another item none (R196). -/
def State.endFlags (s : State) (r : Running) (sc : BitVec 32) (sel : Option (Fin 4)) : State :=
  match r.item.site with
  | some k => if r.item.flow < 12 then s.writeFlags k r.item sc sel else s
  | none => s

theorem State.endFlags_sched (r : Running) (sc : BitVec 32) (sel : Option (Fin 4)) : (s.endFlags r sc sel).sched = s.sched := by
  unfold State.endFlags
  split
  · split
    · exact State.writeFlags_sched ..
    · rfl
  · rfl

theorem State.applyEnd_cores (r : Running) (e : ItemEnd) : (s.applyEnd r e).sched.cores = s.sched.cores := by
  cases e with
  | ok w => exact (State.sendActions_cores r w).trans ((congrArg Sched.cores (State.endFlags_sched r _ _)).trans rfl)
  | noTable => exact (congrArg Sched.cores (State.endFlags_sched r _ none)).trans rfl
  | badOperand => exact (congrArg Sched.cores (State.endFlags_sched r _ none)).trans rfl

theorem State.freeCore_core (c : Fin 16) (r : Running) : ((s.freeCore c r).sched.cores[c]).run = none ∧
    ((s.freeCore c r).sched.cores[c]).slots = (s.sched.cores[c]).slots := by
  have : (s.freeCore c r).sched.cores = upd s.sched.cores c fun k => { k with run := none, busy := k.busy + s.sched.ranFor r s.now } := rfl
  rw [this, upd_get_same]
  exact ⟨rfl, rfl⟩

/-- An item that is no reduction ends as its evaluation says, and its core, with nothing in its slots, rests. -/
theorem State.exec_itemComplete {c : Fin 16} {r : Running} {e : ItemEnd} (run : (s.sched.cores[c]).run = some r)
    (slots : (s.sched.cores[c]).slots = []) (type : r.item.type ≠ .failReduce) (calm : Claims.Calm s)
    (ends : (s.advance (r.started + s.itemTime r * nsUnits)).evaluate r (s.ruleEnv r.item) = (s.advance (r.started + s.itemTime r * nsUnits), e)) :
    exec (.itemComplete c) s = .next ((s.advance (r.started + s.itemTime r * nsUnits)).ended c r e) := by
  have free : s.writeBarred r.item = false := by simp [State.writeBarred, type]
  have empty : (((s.advance (r.started + s.itemTime r * nsUnits)).ended c r e).sched.cores[c]).slots = [] := by
    change ((((s.advance (r.started + s.itemTime r * nsUnits)).applyEnd r e).freeCore c r).sched.cores[c]).slots = []
    rw [(State.freeCore_core c r).2, State.applyEnd_cores, (State.advance_calm_units calm _).1, slots]
  change execItemComplete c s = _
  unfold execItemComplete
  rw [run]
  dsimp only
  rw [if_neg (by rw [free]; exact Bool.false_ne_true), ends]
  change Host.Outcome.next (if ((s.advance (r.started + s.itemTime r * nsUnits)).ended c r e).flt.device then
    (s.advance (r.started + s.itemTime r * nsUnits)).ended c r e else ((s.advance (r.started + s.itemTime r * nsUnits)).ended c r e).startCore c) = _
  rw [State.startCore_idle c empty, ite_self]

theorem State.ended_core (c : Fin 16) (r : Running) (e : ItemEnd) : ((s.ended c r e).sched.cores[c]).run = none := (State.freeCore_core c r).1

/-- What the core and the flow of an item are left with is the end's, but for the flow's service (R202, R203). -/
theorem State.ended_flow (c : Fin 16) (r : Running) (e : ItemEnd) : (s.ended c r e).sched.flow r.item.flow =
    { (s.applyEnd r e).sched.flow r.item.flow with inService := false, lastCore := some c } := by
  have freed : ((s.applyEnd r e).freeCore c r).sched.flow r.item.flow = { (s.applyEnd r e).sched.flow r.item.flow with inService := false } :=
    Sched.updFlow_same (s.applyEnd r e).sched r.item.flow fun f => { f with inService := false }
  have last : (s.ended c r e).sched.flow r.item.flow = { ((s.applyEnd r e).freeCore c r).sched.flow r.item.flow with lastCore := some c } :=
    Sched.updFlow_same ((s.applyEnd r e).freeCore c r).sched r.item.flow fun f => { f with lastCore := some c }
  rw [last, freed]

/-- A value of a host item without a site that asks for nothing changes its flow's variables alone (R196). -/
theorem State.applyEnd_quiet {r : Running} {w : Work} (site : r.item.site = none) (levels : w.levels = []) (edges : w.edges = [])
    (restart : w.restart = none) (stop : w.stop = false) :
    s.applyEnd r (.ok w) = { s with sched := s.sched.updFlow r.item.flow fun f => { f with vars := w.vars } } := by
  simp only [State.applyEnd, State.sendActions, site, levels, edges, restart, stop]
  rfl

/-- An item without a site whose table is missing notes it and changes nothing else (R199). -/
theorem State.applyEnd_noTable {r : Running} (site : r.item.site = none) :
    s.applyEnd r .noTable = { s with sched := { s.sched with noTable := true, lastFlow := BitVec.ofNat 12 r.item.flow } } := by
  simp only [State.applyEnd, site]

/-- The flags of a decision flow's site after an item that selects nothing (R196). -/
theorem State.applyEnd_flags {r : Running} {w : Work} {k : Cluster} (site : r.item.site = some k) (flow : r.item.flow < 12) (sel : w.sel = none) :
    ((s.applyEnd r (.ok w)).sites[k]).scFlags =
      w.sc &&& 0x04FFFFFF ||| BitVec.ofNat 32 ((Config.freeValue s.free).toNat % 16 * 2 ^ 28) := by
  have sent (t : State) : (t.sendActions r w).sites = t.sites := by
    unfold State.sendActions
    split <;> rfl
  simp only [State.applyEnd, site, flow, if_true, sent, sel, State.writeFlags]
  exact congrArg SiteRec.scFlags (upd_get_same _ _ _)

theorem usUnits_pos : 0 < usUnits := by decide

theorem usUnits_one : usUnits = 1000 * nsUnits := rfl

theorem msUnits_eq : msUnits = 1000000 * nsUnits := rfl

/-- A multiple of a unit is its own next multiple. -/
theorem whole_roundUp {n u : Nat} (pos : 0 < u) (whole : n % u = 0) : (n + u - 1) / u * u = n := by
  obtain ⟨m, rfl⟩ := Nat.dvd_of_mod_eq_zero whole
  rw [Nat.add_sub_assoc pos, Nat.mul_add_div pos, Nat.div_eq_of_lt (Nat.sub_one_lt (Nat.ne_of_gt pos)), Nat.add_zero, Nat.mul_comm]

/-! ### The watchdog -/

/-- An item's core is free, and the watchdog has noted its flow (R202). -/
def State.timedOut (s : State) (c : Fin 16) (r : Running) : State :=
  let t := s.freeCore c r
  { t with sched := { t.sched.skipReduce r.item with watchdog := true, lastFlow := BitVec.ofNat 12 r.item.flow } }

theorem Sched.skipReduce_only (x : Sched) (i : Item) : x.skipReduce i = { x with procs := (x.skipReduce i).procs } := by
  unfold Sched.skipReduce
  split <;> rfl

theorem State.timedOut_cores (c : Fin 16) (r : Running) : (s.timedOut c r).sched.cores = (s.freeCore c r).sched.cores := by
  dsimp only [State.timedOut]
  rw [Sched.skipReduce_only]

theorem State.timedOut_flow (c : Fin 16) (r : Running) :
    (s.timedOut c r).sched.flow r.item.flow = { s.sched.flow r.item.flow with inService := false } := by
  have flows : (s.timedOut c r).sched.flows = (s.freeCore c r).sched.flows := by
    dsimp only [State.timedOut]
    rw [Sched.skipReduce_only]
  rw [Sched.flow, flows]
  exact Sched.updFlow_same s.sched r.item.flow fun f => { f with inService := false }

/-- What the watchdog reports (R202). -/
def State.watched (s : State) (c : Fin 16) (r : Running) : State :=
  (s.timedOut c r).report 22 ((r.item.site.map (s.timedOut c r).maskOf).getD 0) (BitVec.ofNat 32 (r.item.flow + c.val * 65536))

/-- 100 µs after an item's first instruction its core, with nothing in its slots, rests (R202). -/
theorem State.exec_watchdog {c : Fin 16} {r : Running} (run : (s.sched.cores[c]).run = some r) (slots : (s.sched.cores[c]).slots = [])
    (calm : Claims.Calm s) : exec (.watchdog c) s = .next ((s.advance (r.started + 100 * usUnits)).watched c r) := by
  have same := (State.advance_calm_units calm (r.started + 100 * usUnits)).1
  change execWatchdog c s = _
  unfold execWatchdog
  rw [run]
  dsimp only
  generalize s.advance (r.started + 100 * usUnits) = t at same ⊢
  have empty : ((t.watched c r).sched.cores[c]).slots = [] := by
    rw [State.watched, State.report_sched, State.timedOut_cores, (State.freeCore_core c r).2, same, slots]
  change Host.Outcome.next (if (t.watched c r).flt.device then t.watched c r else (t.watched c r).startCore c) = _
  rw [State.startCore_idle c empty, ite_self]

/-! ### The flags word after BIN_ASSIGN (R196, R200) -/

theorem tagBits_low (v n m : Nat) (fits : m + n ≤ 28) : (BitVec.ofNat 32 (v % 16 * 2 ^ 28)).extractLsb' m n = 0#n := by
  apply BitVec.eq_of_toNat_eq
  have split : v % 16 * 2 ^ 28 = v % 16 * 2 ^ (28 - m - n) * 2 ^ n * 2 ^ m := by
    rw [Nat.mul_assoc, Nat.mul_assoc, ← pow_add, ← pow_add]
    congr 2
    omega
  have small : v % 16 * 2 ^ 28 < 2 ^ 32 := by omega
  rw [BitVec.extractLsb'_toNat, BitVec.toNat_ofNat, Nat.mod_eq_of_lt small, split, Nat.shiftRight_eq_div_pow,
    Nat.mul_div_cancel _ (Nat.two_pow_pos m), Nat.mul_mod_left]
  rfl

/-- BIN_ASSIGN of a bin number writes the bin and leaves the flags below it (R196, R200). -/
theorem scSetBin_written (sc : BitVec 32) (bin v : Nat) :
    let f := scSetBin sc bin &&& 0x04FFFFFF ||| BitVec.ofNat 32 (v % 16 * 2 ^ 28)
    f.extractLsb' 16 8 = BitVec.ofNat 8 bin ∧ f.getLsbD 26 = true ∧ f.getLsbD 27 = false ∧ f.extractLsb' 0 16 = sc.extractLsb' 0 16 := by
  have field (m n : Nat) (fits : m + n ≤ 28) : (scSetBin sc bin &&& 0x04FFFFFF ||| BitVec.ofNat 32 (v % 16 * 2 ^ 28)).extractLsb' m n =
      (sc.extractLsb' m n &&& (~~~(0x00FF0000#32)).extractLsb' m n ||| (BitVec.ofNat 32 (bin % 256 * 2 ^ 16)).extractLsb' m n |||
        (bitMask 32 26).extractLsb' m n) &&& (0x04FFFFFF#32).extractLsb' m n := by
    rw [BitVec.extractLsb'_or, tagBits_low v n m fits, BitVec.or_zero, scSetBin, BitVec.extractLsb'_and, BitVec.extractLsb'_or, BitVec.extractLsb'_or,
      BitVec.extractLsb'_and]
    rfl
  have one (f : BitVec 32) (m : Nat) (b : Bool) (h : f.extractLsb' m 1 = BitVec.ofBool b) : f.getLsbD m = b := by
    have := congrArg (BitVec.getLsbD · 0) h
    simpa using this
  have number : (BitVec.ofNat 32 (bin % 256 * 2 ^ 16)).extractLsb' 16 8 = BitVec.ofNat 8 bin := by
    apply BitVec.eq_of_toNat_eq
    rw [BitVec.extractLsb'_toNat, BitVec.toNat_ofNat, BitVec.toNat_ofNat, Nat.shiftRight_eq_div_pow]
    omega
  have above (m n : Nat) (h : 24 ≤ m) : (BitVec.ofNat 32 (bin % 256 * 2 ^ 16)).extractLsb' m n = 0#n := by
    apply BitVec.eq_of_toNat_eq
    have small : bin % 256 * 2 ^ 16 < 2 ^ 24 := by omega
    have none : bin % 256 * 2 ^ 16 / 2 ^ m = 0 := Nat.div_eq_of_lt (Nat.lt_of_lt_of_le small (Nat.pow_le_pow_right (by decide) h))
    have fits : bin % 256 * 2 ^ 16 % 2 ^ 32 = bin % 256 * 2 ^ 16 := Nat.mod_eq_of_lt (by omega)
    rw [BitVec.extractLsb'_toNat, BitVec.toNat_ofNat, fits, Nat.shiftRight_eq_div_pow, none]
    simp
  have below : (BitVec.ofNat 32 (bin % 256 * 2 ^ 16)).extractLsb' 0 16 = 0#16 := by
    apply BitVec.eq_of_toNat_eq
    rw [BitVec.extractLsb'_toNat, BitVec.toNat_ofNat, Nat.shiftRight_eq_div_pow]
    change _ = 0
    omega
  refine ⟨?_, one _ 26 true ?_, one _ 27 false ?_, ?_⟩
  · rw [field 16 8 (by decide), number]
    have masks : (~~~(0x00FF0000#32)).extractLsb' 16 8 = 0#8 ∧ (bitMask 32 26).extractLsb' 16 8 = 0#8 ∧
        (0x04FFFFFF#32).extractLsb' 16 8 = BitVec.allOnes 8 := by decide
    rw [masks.1, masks.2.1, masks.2.2]
    simp only [BitVec.and_allOnes, BitVec.or_zero, BitVec.and_zero, BitVec.zero_or]
  · rw [field 26 1 (by decide), above 26 1 (by decide)]
    generalize sc.extractLsb' 26 1 = x
    revert x
    decide
  · rw [field 27 1 (by decide), above 27 1 (by decide)]
    generalize sc.extractLsb' 27 1 = x
    revert x
    decide
  · rw [field 0 16 (by decide), below]
    generalize sc.extractLsb' 0 16 = x
    have masks : (~~~(0x00FF0000#32)).extractLsb' 0 16 = BitVec.allOnes 16 ∧ (bitMask 32 26).extractLsb' 0 16 = 0#16 ∧
        (0x04FFFFFF#32).extractLsb' 0 16 = BitVec.allOnes 16 := by decide
    rw [masks.1, masks.2.1, masks.2.2]
    simp only [BitVec.and_allOnes, BitVec.or_zero]

end

end Sys2Proof.Machine

namespace Sys2Proof.Claims
open Sys2Proof.Machine

theorem advance_now {s : State} {t : Nat} (calm : Calm s) (later : s.now ≤ t) : (s.advance t).now = t := by rw [advance_to calm later]

theorem hundredUs (n : Nat) : n + 100000 * nsUnits = n + 100 * usUnits := by rw [usUnits_eq]

theorem watchdog_completes {s : State} {c : Fin 16} {r : Running} {u : Nat} (run : (s.sched.cores[c]).run = some r)
    (slots : (s.sched.cores[c]).slots = []) (due : u = r.started + 100 * usUnits) (later : s.now ≤ u) (calm : Calm s) :
    Completes (.watchdog c) s fun t => t.now = u ∧ (t.sched.cores[c]).run = none ∧ t.sched.watchdog = true ∧
      (t.sched.flow r.item.flow).inService = false ∧ (t.sched.flow r.item.flow).vars = (s.sched.flow r.item.flow).vars ∧
      (t.flt.history.map fun h => (h.source, h.detail)).head? = some (22, BitVec.ofNat 32 (r.item.flow + c.val * 65536)) := by
  have exec := State.exec_watchdog run slots calm
  rw [← due] at exec
  have now : (s.advance u).now = u := advance_now calm later
  obtain ⟨same, -, flt⟩ := State.advance_calm_units calm u
  refine ⟨_, exec, ?_⟩
  generalize s.advance u = t at now same flt
  have idle : (t.timedOut c r).flt.taking = none := by
    change t.flt.taking = none
    rw [flt, calm.2]
  obtain ⟨⟨frame, -, -⟩, new, -⟩ := State.report_idle _ idle 22 ((r.item.site.map (t.timedOut c r).maskOf).getD 0)
    (BitVec.ofNat 32 (r.item.flow + c.val * 65536))
  change t.watched c r = _ at frame
  change newest (t.watched c r) = _ at new
  have sched : (t.watched c r).sched = (t.timedOut c r).sched := State.report_sched ..
  have at_ : (t.watched c r).now = t.now := by
    rw [frame]
    rfl
  generalize t.watched c r = w at new sched at_ ⊢
  rw [sched, State.timedOut_flow, State.timedOut_cores, same]
  refine ⟨at_.trans now, (State.freeCore_core c r).1, rfl, rfl, rfl, ?_⟩
  rw [List.head?_map]
  cases h : w.flt.history.head? with
  | none =>
    rw [newest, h] at new
    cases new
  | some e =>
    rw [newest, h, Option.map_some, Option.some.injEq, Prod.mk.injEq, Prod.mk.injEq] at new
    rw [Option.map_some, new.1, new.2.2]

theorem exec_schedSample_window {s : State} (ready : s.pwr.phase = .ready) :
    exec (.schedSample true) s = .next (s.advance (s.sched.window + msUnits)).endWindow := by
  have open_ : (!s.isReady) = false := by rw [isReady_of ready]; rfl
  change execSchedSample true s = _
  rw [execSchedSample, if_neg (by rw [open_]; exact Bool.false_ne_true), if_pos rfl]

/-- The end of a 1 ms window takes its samples and begins the next (R211). -/
theorem endWindow_leaves (t : State) : t.endWindow.now = t.now ∧ t.endWindow.sched.window = t.endWindow.now ∧
    t.endWindow.host.samples.done = t.sched.doneCnt ∧ t.endWindow.host.samples.hist = t.sched.runHist ∧
    (∀ c : Fin 16, (t.endWindow.sched.cores[c]).busy = 0) ∧ t.endWindow.sched.queue = t.sched.queue := by
  refine ⟨rfl, rfl, rfl, rfl, fun c => ?_, rfl⟩
  dsimp only [State.endWindow]
  rw [Fin.getElem_fin, Vector.getElem_map]

theorem schedSample_window {s : State} (ready : s.pwr.phase = .ready) (later : s.now ≤ s.sched.window + 1000000 * nsUnits) (calm : Calm s) :
    Completes (.schedSample true) s fun t => t.now = s.sched.window + 1000000 * nsUnits ∧ t.sched.window = t.now ∧ t.host.samples.done = s.sched.doneCnt ∧
      t.host.samples.hist = s.sched.runHist ∧ (∀ c : Fin 16, (t.sched.cores[c]).busy = 0) ∧ t.sched.queue = s.sched.queue := by
  rw [← msUnits_eq] at later ⊢
  have leaves := endWindow_leaves (s.advance (s.sched.window + msUnits))
  rw [(State.advance_calm_units calm _).1, advance_now calm later] at leaves
  exact ⟨_, exec_schedSample_window ready, leaves⟩

theorem schedSample_depths {s : State} (ready : s.pwr.phase = .ready) (whole : s.now % (1000 * nsUnits) = 0) (_ : Calm s) :
    Completes (.schedSample false) s fun t => t = { s with host := { s.host with samples := t.host.samples } } ∧
      ∀ p : Fin 4, t.host.samples.depth[p] = BitVec.ofNat 32 ((s.sched.queue.filter fun i => i.prio = p).length) := by
  have open_ : (!s.isReady) = false := by rw [isReady_of ready]; rfl
  rw [← usUnits_one] at whole
  have still : s.advance ((s.now + usUnits - 1) / usUnits * usUnits) = s := by
    rw [whole_roundUp usUnits_pos whole]
    exact if_pos (Nat.le_refl _)
  have runs : exec (.schedSample false) s = .next { s with host := { s.host with samples := { s.host.samples with
      depth := Vector.ofFn fun p : Fin 4 => BitVec.ofNat 32 (s.sched.depth p.val),
      flowWait := Vector.ofFn fun k : Fin 12 => satNat 16 (s.sched.waiting k.val) } } } := by
    change execSchedSample false s = _
    rw [execSchedSample, if_neg (by rw [open_]; exact Bool.false_ne_true), if_neg Bool.false_ne_true, still]
  refine ⟨_, runs, rfl, fun p => ?_⟩
  dsimp only
  rw [Fin.getElem_fin, Vector.getElem_ofFn]
  simp only [Sched.depth, Fin.ext_iff]

/-- Settles O49: a lone item goes to the core at the pointer; an item's end, the watchdog and the samples leave what they name. -/
theorem itemsRunOnCores : Obligations.ItemsRunOnCores := by
  unfold Obligations.ItemsRunOnCores
  refine ⟨?dispatch, ?rules, ?bin, ?noTable, ?watchdog, ?window, ?depths⟩
  case dispatch =>
    intro s i p ready works queue cycle cores inService lastCore takes calm
    have waits : s.Waits i := ⟨ready, works, ⟨queue, cores, inService, lastCore⟩, cycle, calm.1⟩
    have goes : s.goesTo i = some p := by
      have := s.goesTo_eq_some i 0 (fun m hm => absurd hm (by simp))
        (by rw [zero_add, Sched.takes, Bool.or_eq_true, decide_eq_true_eq, Bool.not_eq_true']; exact takes)
      rwa [zero_add] at this
    obtain ⟨-, -, empty, pointer, now⟩ := waits.taken p goes
    obtain ⟨⟨r, runs, item, started⟩, served, others, at_, gens, sites⟩ := waits.dispatched goes
    refine ⟨_, waits.exec, empty, now, pointer, at_, ?_, served, others, gens, sites⟩
    rw [runs, Option.map_some, item, started]
  case rules =>
    intro s c r rs w run slots type site table evals levels edges restart stop later calm
    have ends : (s.advance (r.started + s.itemTime r * nsUnits)).evaluate r (s.ruleEnv r.item) =
        (s.advance (r.started + s.itemTime r * nsUnits), .ok w) := by
      cases num : r.num <;> simp only [State.evaluate, type, table, num, evals] <;> rfl
    refine ⟨_, State.exec_itemComplete run slots (by rw [type]; decide) calm ends, ?_⟩
    generalize reached : s.advance (r.started + s.itemTime r * nsUnits) = t
    have units : t.now = r.started + s.itemTime r * nsUnits ∧ t.sched = s.sched ∧ t.gens = s.gens := by
      rw [← reached]
      exact ⟨advance_now calm later, (State.advance_calm_units calm _).1, (State.advance_calm_units calm _).2.1⟩
    have flow := State.ended_flow (s := t) c r (.ok w)
    have applied : t.applyEnd r (.ok w) = _ := State.applyEnd_quiet site levels edges restart stop
    refine ⟨?_, State.ended_core c r _, ?_, ?_, ?_, fun p => ?_, ?_, ?_⟩
    · rw [State.ended, applied]
      exact units.1
    · rw [flow, applied]
      exact congrArg Flow.vars (Sched.updFlow_same t.sched r.item.flow fun f => { f with vars := w.vars })
    · rw [flow]
    · rw [flow]
    · have counts : (t.ended c r (.ok w)).sched.doneCnt = upd t.sched.doneCnt r.item.prio (· + 1) := by
        rw [State.ended, applied]
        rfl
      rw [counts, units.2.1, upd_get]
      by_cases here : p = r.item.prio
      · rw [if_pos here.symm, if_pos here, here]
      · rw [if_neg (Ne.symm here), if_neg here]
    · rw [State.ended, applied, ← units.2.1]
      rfl
    · rw [State.ended, applied]
      exact units.2.2
  case bin =>
    intro s c r k run slots type site flow set calm
    obtain ⟨w, sc, sel, ends⟩ : ∃ w : Work, w.sc = scSetBin r.sc (fieldAt r.item.payload 0 1) ∧ w.sel = none ∧
        (s.advance (r.started + s.itemTime r * nsUnits)).evaluate r (s.ruleEnv r.item) = (s.advance (r.started + s.itemTime r * nsUnits), .ok w) := by
      simp only [State.evaluate, type, set]
      exact ⟨_, rfl, rfl, rfl⟩
    refine ⟨_, State.exec_itemComplete run slots (by rw [type]; decide) calm ends, ?_⟩
    generalize s.advance (r.started + s.itemTime r * nsUnits) = t
    have written : ((t.ended c r (.ok w)).sites[k]).scFlags = _ := State.applyEnd_flags site (flow ▸ k.isLt) sel
    rw [written, sc]
    exact scSetBin_written r.sc _ _
  case noTable =>
    intro s c r run slots type site num table calm
    have ends : (s.advance (r.started + s.itemTime r * nsUnits)).evaluate r (s.ruleEnv r.item) =
        (s.advance (r.started + s.itemTime r * nsUnits), .noTable) := by
      obtain ⟨n, num⟩ := Option.isSome_iff_exists.1 num
      simp only [State.evaluate, type, table, num]
    have same := (State.advance_calm_units calm (r.started + s.itemTime r * nsUnits)).1
    refine ⟨_, State.exec_itemComplete run slots (by rw [type]; decide) calm ends, ?_⟩
    generalize s.advance (r.started + s.itemTime r * nsUnits) = t at same ⊢
    have applied : t.applyEnd r .noTable = _ := State.applyEnd_noTable site
    rw [State.ended_flow, State.ended, applied, ← same]
    exact ⟨rfl, rfl, rfl, rfl⟩
  case watchdog =>
    intro s c r run slots later calm
    exact watchdog_completes run slots (hundredUs r.started) later calm
  case window => exact fun s => schedSample_window
  case depths => exact fun s => schedSample_depths

end Sys2Proof.Claims

namespace Sys2Proof.Machine

/-! ## The time unit: frames heard, exchanges, estimates (R305, R309 to R315) -/

section
variable {s : State}

theorem State.updPort_at (n : Port) (f : RopePort → RopePort) : (s.updPort n f).rope.ports[n] = f s.rope.ports[n] := upd_get_same ..

theorem State.updPort_other {n m : Port} (f : RopePort → RopePort) (ne : m ≠ n) : (s.updPort n f).rope.ports[m] = s.rope.ports[m] :=
  upd_get_other _ _ _ _ (Ne.symm ne)

theorem State.leaveIdle_awake {n : Port} (awake : (s.rope.ports[n]).state ≠ .idle) : s.leaveIdle n = s := if_pos awake

/-- A frame of 16 bytes that is no probe is sent (R280, R290). -/
theorem State.sendOn_full (n : Port) {c : Byte} {body : List Byte} (full : body.length = 16) (other : c ≠ 0x40) : s.sendOn n c body =
    ({ s with rope := { s.rope with sent := s.rope.sent ++ [⟨n, c, 0, 0, Config.serial, body⟩] } } : State).updPort n fun p =>
      { p with lastBusy := s.now } := by
  simp only [State.sendOn, full, other, if_false, Nat.sub_self, List.replicate_zero, List.append_nil]

/-- Port `n` has heard a frame that is no probe (R290). -/
def State.heard (s : State) (n : Port) : State := s.updPort n fun p => { p with lastRx := s.now, lastBusy := s.now }

theorem PortState.hears_of_takes {x : PortState} {c : Byte} (takes : x.takes c = true) : x.hears = true := by
  cases x <;> simp_all [PortState.takes, PortState.hears]

/-- A frame the port takes, that crosses no class of fixed latency, goes to its block (R282, R283). -/
theorem State.receive_arrives {n : Port} {c : Byte} {fr : Frame} (f : State → State) (arrives : Claims.Arrives s n c fr)
    (plain : fixedLatency c = false) (other : c ≠ 0x40) : s.receive n c fr f = f (s.heard n) := by
  obtain ⟨takes, crc, hops, level⟩ := arrives
  have far : ¬ 4 < crossed fr := by rw [crossed]; omega
  simp only [State.receive, PortState.hears_of_takes takes, crc, far, level, takes, plain, other, State.heard, Bool.not_true, Bool.false_eq_true,
    if_false, ne_eq, not_true_eq_false, decide_false, Bool.or_self, Bool.false_and]

/-- What an estimate θ makes of the unit, and what it reports (R314, R315). -/
def Judged (s t : State) (theta : Int) : Prop :=
  t.time.theta = theta ∧ t.time.sums = [] ∧ t.time.lastEst = t.now ∧
    (if theta.natAbs ≤ s.time.threshold * nsUnits then
      if s.time.state = .refused then t.time.corr = s.time.corr ∧ (if 15 ≤ s.time.within then t.time.state = .locked ∧ t.time.within = 0
        else t.time.state = .refused ∧ t.time.within = s.time.within + 1)
      else t.time.state = .locked ∧ t.time.corr = theta.tdiv 32
     else t.time.state = .refused ∧ t.time.corr = 0 ∧
      (s.time.state = .refused ∨ Claims.newest t = some (41, 0, BitVec.ofNat 32 (min (theta.natAbs / nsUnits) (2 ^ 32 - 1)))))

/-- What an estimate leaves as it is. -/
def EstimateFrame (s t : State) : Prop :=
  t.now = s.now ∧ t.netOff = s.netOff ∧ t.rope = s.rope ∧ t.gens = s.gens ∧ t.time.req = s.time.req ∧ t.time.stratum = s.time.stratum

theorem State.report_leaves (idle : s.flt.taking = none) (source : Nat) (mask : BitVec 12) (detail : Word) :
    EstimateFrame s (s.report source mask detail) ∧ (s.report source mask detail).time = s.time := by
  obtain ⟨⟨frame, -, -⟩, -⟩ := s.report_idle idle source mask detail
  rw [frame]
  exact ⟨⟨rfl, rfl, rfl, rfl, rfl, rfl⟩, rfl⟩

theorem State.estimate_judged (idle : s.flt.taking = none) (theta : Int) :
    Judged s (s.estimate theta) theta ∧ EstimateFrame s (s.estimate theta) := by
  unfold State.estimate
  dsimp only
  by_cases near : theta.natAbs ≤ s.time.threshold * nsUnits
  · rw [if_pos near]
    by_cases was : s.time.state = .refused
    · rw [if_pos was]
      by_cases last : 16 ≤ s.time.within + 1
      · rw [if_pos last]
        refine ⟨⟨rfl, rfl, rfl, ?_⟩, rfl, rfl, rfl, rfl, rfl, rfl⟩
        rw [if_pos near, if_pos was, if_pos (Nat.le_of_succ_le_succ last)]
        exact ⟨rfl, rfl, rfl⟩
      · rw [if_neg last]
        refine ⟨⟨rfl, rfl, rfl, ?_⟩, rfl, rfl, rfl, rfl, rfl, rfl⟩
        rw [if_pos near, if_pos was, if_neg fun h => last (Nat.succ_le_succ h)]
        exact ⟨rfl, was, rfl⟩
    · rw [if_neg was]
      refine ⟨⟨rfl, rfl, rfl, ?_⟩, rfl, rfl, rfl, rfl, rfl, rfl⟩
      rw [if_pos near, if_neg was]
      exact ⟨rfl, rfl⟩
  · rw [if_neg near]
    by_cases was : s.time.state = .refused
    · rw [if_pos was]
      refine ⟨⟨rfl, rfl, rfl, ?_⟩, rfl, rfl, rfl, rfl, rfl, rfl⟩
      rw [if_neg near]
      exact ⟨rfl, rfl, .inl was⟩
    · rw [if_neg was]
      generalize refused : ({ s with time := { s.time with
        theta := theta, sums := [], lastEst := s.now, state := .refused, holdSeen := s.time.holdSeen || s.time.state ≠ .refused, corr := 0,
        within := 0 } } : State) = u
      have flt : u.flt.taking = none := by rw [← refused]; exact idle
      obtain ⟨⟨now, off, rope, gens, req, stratum⟩, time⟩ := u.report_leaves flt 41 0 (satNat 32 (theta.natAbs / nsUnits))
      obtain ⟨-, new, -⟩ := u.report_idle flt 41 0 (satNat 32 (theta.natAbs / nsUnits))
      subst refused
      refine ⟨⟨by rw [time], by rw [time], by rw [time, now], ?_⟩, now, off, rope, gens, req, stratum⟩
      rw [if_neg near, time]
      exact ⟨rfl, rfl, .inr new⟩

/-- A completed exchange joins the fifteen before it at most, or the sixteenth makes an estimate (R311, R313). -/
theorem State.exchange_cases (idle : s.flt.taking = none) (twice : Int) :
    (if (s.time.sums ++ [twice]).length < 16 then s.exchange twice = { s with time := { s.time with sums := s.time.sums ++ [twice] } }
      else Judged s (s.exchange twice) (((s.time.sums ++ [twice]).sum + 16) / 32)) ∧ EstimateFrame s (s.exchange twice) := by
  unfold State.exchange
  by_cases few : (s.time.sums ++ [twice]).length < 16
  · rw [if_pos few, if_neg (Nat.not_le.2 few)]
    exact ⟨rfl, rfl, rfl, rfl, rfl, rfl, rfl⟩
  · rw [if_neg few, if_pos (Nat.not_lt.1 few)]
    exact s.estimate_judged idle _

/-- The exchange of a request whose answer has told the source's stratum (R310, R311). -/
theorem State.exchange_answered {u : State} {stratum : Nat} (idle : u.flt.taking = none)
    (time : u.time = { s.time with req := none, stratum := stratum }) (twice : Int) :
    if (s.time.sums ++ [twice]).length < 16 then
      (u.exchange twice).time = { s.time with req := none, stratum := stratum, sums := s.time.sums ++ [twice] }
    else Judged s (u.exchange twice) (((s.time.sums ++ [twice]).sum + 16) / 32) := by
  obtain ⟨made, -⟩ := u.exchange_cases idle twice
  have sums : u.time.sums = s.time.sums := by rw [time]
  rw [sums] at made
  split
  · next few =>
    rw [if_pos few] at made
    rw [made, time]
  · next all =>
    rw [if_neg all, Judged, time] at made
    exact made

/-- T2 as the requester reads it, the short stamp widened against T1 (R305, R310). -/
theorem t2Of_eq (b : List Byte) (level : Nat) (t1 : Int) : t2Of b level t1 = if level = 3 then timeOf (u96At b 0)
    else (t1 / nsUnits + (u32At b 0 - BitVec.ofInt 32 (t1 / nsUnits)).toInt) * nsUnits + fieldAt b 4 2 := by
  have short : BitVec.ofNat 32 (shortStamp t1) = BitVec.ofInt 32 (t1 / nsUnits) := by
    apply BitVec.eq_of_toNat_eq
    rw [BitVec.toNat_ofNat, BitVec.toNat_ofInt, shortStamp]
    omega
  rw [t2Of, widen, sdiff, short, u32At, add_mul]

end

end Sys2Proof.Machine

namespace Sys2Proof.Claims
open Sys2Proof.Machine

theorem timeReq_completes {s : State} {n : Port} {fr : Frame} {turn : BitVec 24} (arrives : Arrives s n 0x10 fr) :
    Completes (.timeReq n fr turn) s fun t => OnlyPort s t n ∧ (t.rope.ports[n]).reqAt = some s.now ∧ (t.rope.ports[n]).lastRx = s.now ∧
      t.rope.sent = s.rope.sent ++ [⟨n, 0x11, 0, 0, Config.serial,
        t2Bytes (toFu s.net) (s.rope.ports[n]).level ++ leBytes 3 turn.toNat ++ leBytes 1 s.time.tstat⟩] := by
  have full : (t2Bytes (toFu s.net) (s.rope.ports[n]).level ++ leBytes 3 turn.toNat ++ leBytes 1 s.time.tstat).length = 16 := by
    unfold t2Bytes
    split <;> simp [leBytes]
  have level : ((s.heard n).rope.ports[n]).level = (s.rope.ports[n]).level := by rw [State.heard, State.updPort_at]
  have runs : exec (.timeReq n fr turn) s = .next (((s.heard n).updPort n fun p => { p with reqAt := some s.now }).sendOn n 0x11
      (t2Bytes (toFu s.net) (s.rope.ports[n]).level ++ leBytes 3 turn.toNat ++ leBytes 1 s.time.tstat)) := by
    change Host.Outcome.next (s.receive n 0x10 fr _) = _
    rw [State.receive_arrives _ arrives (by decide) (by decide), level]
    rfl
  rw [State.sendOn_full n full (by decide)] at runs
  refine ⟨_, runs, ⟨rfl, fun m ne => ?_⟩, ?_, ?_, rfl⟩
  · rw [State.updPort_other _ ne]
    exact ((s.heard n).updPort_other _ ne).trans (s.updPort_other _ ne)
  · rw [State.updPort_at]
    exact congrArg RopePort.reqAt (State.updPort_at (s := s.heard n) n fun p => { p with reqAt := some s.now })
  · rw [State.updPort_at]
    exact (congrArg RopePort.lastRx (State.updPort_at (s := s.heard n) n fun p => { p with reqAt := some s.now })).trans
      (congrArg RopePort.lastRx (s.updPort_at n fun p => { p with lastRx := s.now, lastBusy := s.now }))

theorem timeReqTimer_completes {s : State} {u : Nat} (due : u = s.time.lastReq + 20 * usUnits) (source : s.time.source = .rope)
    (none_ : s.time.req = none) (up : (s.rope.ports[s.time.port]).state = .up) (later : s.now ≤ u) (calm : Calm s) :
    Completes .timeReqTimer s fun t => t.now = u ∧ t.time = { s.time with req := some (u, toFu (u + s.netOff)), lastReq := u } ∧
      t.rope.sent = s.rope.sent ++ [⟨s.time.port, 0x10, 0, 0, Config.serial, List.replicate 16 0⟩] ∧ t.netOff = s.netOff ∧ t.gens = s.gens := by
  have frame := advance_to calm later
  generalize reached : s.advance u = w at frame
  have same : (w.rope.ports[s.time.port]).state = .up := by rw [frame]; exact up
  have runs : exec .timeReqTimer s = .next (({ w with time := { s.time with req := some (w.now, toFu w.net), lastReq := w.now } } : State).sendOn
      s.time.port 0x10 (List.replicate 16 0)) := by
    have awake : w.leaveIdle s.time.port = w := State.leaveIdle_awake (by rw [same]; decide)
    have open_ : (decide (s.time.source ≠ .rope) || s.time.req.isSome) = false := by rw [source, none_]; rfl
    change execTimeReqTimer s = _
    unfold execTimeReqTimer
    dsimp only
    rw [← due, open_, if_neg Bool.false_ne_true, reached, awake, same]
  rw [State.sendOn_full _ (List.length_replicate ..) (by decide)] at runs
  refine ⟨_, runs, ?_⟩
  rw [frame]
  exact ⟨rfl, rfl, rfl, rfl, rfl⟩

theorem timeResp_completes {s : State} {n : Port} {fr : Frame} {el at_ : Nat} {t1 : Int} (req : s.time.req = some (at_, t1))
    (source : s.time.source = .rope) (port : s.time.port = n) (early : el ≤ 10 * usUnits) (later : s.now ≤ at_ + el)
    (arrives : Arrives s n 0x11 fr) (valid : fieldAt fr.body 15 1 / 16 % 2 = 1) (known : fieldAt fr.body 15 1 % 16 < 15) (calm : Calm s) :
    ∃ u : State, exec (.timeResp n fr el) s = .next (u.exchange
        ((toFu ((at_ + el : Nat) + s.netOff) - (t2Of fr.body (s.rope.ports[n]).level t1 + fieldAt fr.body 12 3 * fuUnits)) -
          (t2Of fr.body (s.rope.ports[n]).level t1 - t1) - (s.time.asymCable[n]).toInt)) ∧
      u.now = at_ + el ∧ u.time = { s.time with req := none, stratum := fieldAt fr.body 15 1 % 16 + 1 } ∧ u.flt = s.flt ∧ u.gens = s.gens := by
  have frame := advance_to calm later
  generalize reached : s.advance (at_ + el) = w at frame
  have arrives' : Arrives w n 0x11 fr := by rw [frame]; exact arrives
  have level : ((w.heard n).rope.ports[n]).level = (s.rope.ports[n]).level := by
    rw [State.heard, State.updPort_at, frame]
  have cap : min 15 (fieldAt fr.body 15 1 % 16 + 1) = fieldAt fr.body 15 1 % 16 + 1 := by omega
  have usable : (!bitOf (fieldAt fr.body 15 1) 4 || decide (fieldAt fr.body 15 1 % 16 = 15)) = false := by
    have bit : bitOf (fieldAt fr.body 15 1) 4 = true := by
      rw [bitOf_eq_one]
      exact decide_eq_true valid
    rw [bit, decide_eq_false (Nat.ne_of_lt known)]
    rfl
  have open_ : (decide (s.time.source ≠ .rope) || decide (s.time.port ≠ n) || decide (10 * usUnits < el)) = false := by
    rw [source, port, decide_eq_false (Nat.not_lt.2 early)]
    simp
  refine ⟨{ w.heard n with time := { s.time with req := none, stratum := fieldAt fr.body 15 1 % 16 + 1 } }, ?_, ?_, rfl, ?_, ?_⟩
  · change execTimeResp n fr el s = _
    unfold execTimeResp
    rw [req]
    dsimp only
    rw [open_, if_neg Bool.false_ne_true, reached, State.receive_arrives _ arrives' (by decide) (by decide), usable, if_neg Bool.false_ne_true, cap,
      level]
    have time : (w.heard n).time = s.time := by rw [State.heard, frame]; rfl
    have off : (w.heard n).netOff = s.netOff := by rw [State.heard, frame]; rfl
    simp only [time, off]
  · rw [State.heard, frame]
    rfl
  · rw [State.heard, frame]
    rfl
  · rw [State.heard, frame]
    rfl

theorem timeRespTimeout_completes {s : State} {u at_ : Nat} {t1 : Int} (due : u = at_ + 10 * usUnits) (req : s.time.req = some (at_, t1))
    (source : s.time.source = .rope) (later : s.now ≤ u) (calm : Calm s) :
    Completes .timeRespTimeout s fun t => t.now = u ∧ t.time = { s.time with req := none, respTmo := satInc s.time.respTmo } ∧
      t.rope = s.rope ∧ t.gens = s.gens := by
  have frame := advance_to calm later
  generalize reached : s.advance u = w at frame
  have runs : exec .timeRespTimeout s = .next { w with time := { w.time with req := none, respTmo := satInc w.time.respTmo } } := by
    change execTimeRespTimeout s = _
    unfold execTimeRespTimeout
    rw [req]
    dsimp only
    rw [if_neg fun h => h source, ← due, reached]
  refine ⟨_, runs, ?_⟩
  rw [frame]
  exact ⟨rfl, rfl, rfl, rfl⟩

theorem ptmDialogStart_completes {s : State} {u : Nat} (due : u = s.time.lastReq + msUnits) (source : s.time.source = .ptm) (later : s.now ≤ u)
    (up : s.pwr.link ≠ .down) (calm : Calm s) : Completes .ptmDialogStart s fun t => t.now = u ∧
      t.time = { s.time with req := some (u, u + s.netOff), lastReq := u,
                             respTmo := if s.time.req.isSome then satInc s.time.respTmo else s.time.respTmo } ∧
      t.pwr = { s.pwr with link := .l0, quiet := u } ∧ t.netOff = s.netOff ∧ t.rope = s.rope ∧ t.gens = s.gens := by
  have frame := advance_to calm later
  generalize reached : s.advance u = w at frame
  have link : (if w.pwr.link = .down then LinkState.down else .l0) = .l0 := if_neg (by rw [frame]; exact up)
  have runs : exec .ptmDialogStart s = .next { w with
      time := { w.time with respTmo := if w.time.req.isSome then satInc w.time.respTmo else w.time.respTmo, req := some (w.now, w.net), lastReq := w.now },
      pwr := { w.pwr with link := .l0, quiet := w.now } } := by
    change execPtmDialogStart s = _
    unfold execPtmDialogStart
    rw [if_neg fun h => h source, ← due, reached]
    dsimp only
    rw [link]
  refine ⟨_, runs, ?_⟩
  rw [frame]
  exact ⟨rfl, rfl, rfl, rfl, rfl, rfl⟩

theorem ptmDialog_completes {s : State} {r : Nat × Int} {t1 t4 master delay : Int} (source : s.time.source = .ptm) (req : s.time.req = some r)
    (later : s.net ≤ t4) (calm : Calm s) :
    ∃ u : State, exec (.ptmDialog t1 t4 master delay) s = .next (u.exchange (t1 + t4 - delay - 2 * master)) ∧
      u.net = t4 ∧ u.time = { s.time with req := none, stratum := 0 } ∧ u.flt = s.flt ∧ u.rope = s.rope := by
  rw [State.net] at later
  have instant : s.now ≤ (t4 - s.netOff).toNat := by omega
  have frame := advance_to calm instant
  have net : ((t4 - s.netOff).toNat : Int) + s.netOff = t4 := by omega
  generalize reached : s.advance (t4 - s.netOff).toNat = w at frame
  have time : w.time = s.time := by rw [frame]
  refine ⟨{ w with time := { w.time with req := none, stratum := 0 } }, ?_, ?_, ?_, ?_, ?_⟩
  · change execPtmDialog t1 t4 master delay s = _
    have open_ : (decide (s.time.source ≠ .ptm) || s.time.req.isNone) = false := by rw [source, req]; rfl
    unfold execPtmDialog
    rw [open_, if_neg Bool.false_ne_true, State.advanceNet, reached]
  · rw [frame]
    exact net
  · rw [time]
  · rw [frame]
  · rw [frame]

theorem timeSlewStep_completes {s : State} {u gap : Nat}
    (gap_eq : gap = if s.siteIdxs.any (fun k => !(s.siteState k).rests) then 10 * usUnits else 100 * nsUnits) (due : u = s.time.lastStep + gap)
    (locked : s.time.state = .locked) (corr : s.time.corr ≠ 0) (later : s.now ≤ u) (calm : Calm s) :
    Completes .timeSlewStep s fun t => let d : Int := if 0 < s.time.corr then 1 else -1
      t.now = u ∧ t.netOff = s.netOff - d * 32 ∧ t.time = { s.time with corr := s.time.corr - d, lastStep := u } ∧
      t.gens = s.gens ∧ t.rope = s.rope := by
  have frame := advance_to calm later
  generalize reached : s.advance u = w at frame
  have runs : exec .timeSlewStep s = .next { w with
      netOff := w.netOff - (if 0 < w.time.corr then 1 else -1) * fuUnits
      time := { w.time with corr := w.time.corr - (if 0 < w.time.corr then 1 else -1), lastStep := w.now } } := by
    have open_ : (decide (s.time.state ≠ .locked) || decide (s.time.corr = 0)) = false := by
      rw [locked, decide_eq_false corr]
      rfl
    change execTimeSlewStep s = _
    unfold execTimeSlewStep
    rw [open_, if_neg Bool.false_ne_true]
    dsimp only
    rw [← gap_eq, ← due, reached]
  refine ⟨_, runs, ?_⟩
  rw [frame]
  exact ⟨rfl, rfl, rfl, rfl, rfl⟩

/-- A holdover that begins in state `w` (R309, R314). -/
theorem holdover_leaves {s w : State} (gens : w.gens = s.gens) (idle : w.flt.taking = none) :
    let t := ({ w with time := { s.time with state := .holdover, holdSeen := true, corr := 0 } } : State).report 40 0 0
    t.now = w.now ∧ t.time = { s.time with state := .holdover, holdSeen := true, corr := 0 } ∧ newest t = some (40, 0, 0) ∧ t.gens = s.gens := by
  generalize held : ({ w with time := { s.time with state := .holdover, holdSeen := true, corr := 0 } } : State) = v
  have flt : v.flt.taking = none := by rw [← held]; exact idle
  obtain ⟨⟨now, -, -, same, -⟩, after⟩ := v.report_leaves flt 40 0 0
  obtain ⟨-, new, -⟩ := v.report_idle flt 40 0 0
  subst held
  exact ⟨now, after, new, same.trans gens⟩

theorem timeHoldover_ptm {s : State} {u : Nat} (due : u = s.time.lastEst + 20 * msUnits) (locked : s.time.state = .locked)
    (source : s.time.source = .ptm) (later : s.now ≤ u) (calm : Calm s) : Completes .timeHoldover s fun t => t.now = u ∧
      t.time = { s.time with state := .holdover, holdSeen := true, corr := 0 } ∧ newest t = some (40, 0, 0) ∧ t.gens = s.gens := by
  have frame := advance_to calm later
  generalize reached : s.advance u = w at frame
  have runs : exec .timeHoldover s = .next (({ w with time := { s.time with state := .holdover, holdSeen := true, corr := 0 } } : State).report 40 0 0) := by
    change execTimeHoldover s = _
    unfold execTimeHoldover
    rw [if_neg fun h => h locked, source]
    dsimp only
    rw [← due, reached, source]
  obtain ⟨now, rest⟩ := holdover_leaves (s := s) (w := w) (by rw [frame]) (by rw [frame]; exact calm.2)
  exact ⟨_, runs, now.trans (by rw [frame]), rest⟩

theorem timeHoldover_down {s : State} (locked : s.time.state = .locked) (source : s.time.source = .rope)
    (down : (s.rope.ports[s.time.port]).state ≠ .up) (calm : Calm s) : Completes .timeHoldover s fun t => t.now = s.now ∧
      t.time = { s.time with state := .holdover, holdSeen := true, corr := 0 } ∧ newest t = some (40, 0, 0) ∧ t.gens = s.gens := by
  have runs : exec .timeHoldover s = .next (({ s with time := { s.time with state := .holdover, holdSeen := true, corr := 0 } } : State).report 40 0 0) := by
    change execTimeHoldover s = _
    unfold execTimeHoldover
    rw [if_neg fun h => h locked, source]
    dsimp only
    rw [if_neg down, source]
  exact ⟨_, runs, holdover_leaves rfl calm.2⟩

theorem twentyUs (n : Nat) : n + 20000 * nsUnits = n + 20 * usUnits := by rw [usUnits_eq]

theorem tenUs (n : Nat) : n + 10000 * nsUnits = n + 10 * usUnits := by rw [usUnits_eq]

theorem oneMs (n : Nat) : n + 1000000 * nsUnits = n + msUnits := by rw [msUnits_eq]

theorem twentyMs (n : Nat) : n + 20000000 * nsUnits = n + 20 * msUnits := by rw [msUnits_eq, ← Nat.mul_assoc]

/-- TSTAT, its flags as weights (R310). -/
theorem tstat_eq (x : TimeUnit) : x.tstat = min 15 x.stratum +
    (if x.state = .freeRun ∨ x.state = .locked ∨ x.state = .holdover then 16 else 0) + (if x.heldOver then 32 else 0) := by
  unfold TimeUnit.tstat
  cases x.state <;> cases x.heldOver <;> rfl

/-- Settles O50: every exchange, dialog and step is one advance to its instant and the change its rule gives; the sixteenth exchange is judged. -/
theorem timeIsExchanged : Obligations.TimeIsExchanged := by
  unfold Obligations.TimeIsExchanged
  intro fu judged
  refine ⟨?req, ?timer, ?resp, ?timeout, ?start, ?dialog, ?slew, ?slewing, ?held, ?down⟩
  case req =>
    intro s n fr turn arrives
    obtain ⟨t, runs, only, reqAt, lastRx, sent⟩ := timeReq_completes (turn := turn) arrives
    refine ⟨t, runs, only, reqAt, lastRx, sent.trans ?_⟩
    rw [tstat_eq]
    rfl
  case timer =>
    intro s source req up later calm
    obtain ⟨t, runs, now, time, sent, off, gens⟩ := timeReqTimer_completes (twentyUs _) source req up later calm
    refine ⟨t, runs, now, ?_, sent, gens⟩
    rw [time, State.net, now, off]
    rfl
  case resp =>
    intro s n fr el at_ t1 ts t2 t4 twice sums theta req source port early later arrives valid known calm
    have limit : el ≤ 10 * usUnits := by rw [usUnits_eq]; exact early
    obtain ⟨u, runs, now, time, flt, gens⟩ := timeResp_completes req source port limit later arrives valid known calm
    rw [t2Of_eq] at runs
    obtain ⟨-, now', -, -, gens', req', stratum'⟩ := u.exchange_cases (flt ▸ calm.2) twice
    refine ⟨_, runs, now'.trans now, req'.trans (by rw [time]), stratum'.trans (by rw [time]), gens'.trans gens, ?_⟩
    exact State.exchange_answered (flt ▸ calm.2) time twice
  case timeout =>
    intro s at_ t1 req source later calm
    exact timeRespTimeout_completes (tenUs _) req source later calm
  case start =>
    intro s source later up calm
    obtain ⟨t, runs, now, time, pwr, off, rope, gens⟩ := ptmDialogStart_completes (oneMs _) source later up calm
    refine ⟨t, runs, now, ?_, ?_, rope, gens⟩
    · rw [time, State.net, now, off]
    · rw [pwr, now]
  case dialog =>
    intro s r t1 t4 master delay source req later calm sums
    obtain ⟨u, runs, net, time, flt, rope⟩ := ptmDialog_completes (t1 := t1) (master := master) (delay := delay) source req later calm
    obtain ⟨-, now', off', rope', -, req', stratum'⟩ := u.exchange_cases (flt ▸ calm.2) (t1 + t4 - delay - 2 * master)
    refine ⟨_, runs, ?_, req'.trans (by rw [time]), stratum'.trans (by rw [time]), rope'.trans rope, ?_⟩
    · rw [State.net, now', off']
      exact net
    · exact State.exchange_answered (flt ▸ calm.2) time _
  case slew =>
    intro s locked corr rest later calm
    have quiet : s.siteIdxs.any (fun k => !(s.siteState k).rests) = false := by
      rw [List.any_eq_false]
      intro k h
      obtain e | e := rest k h <;> rw [e] <;> decide
    obtain ⟨t, runs, now, off, time, gens, rope⟩ := timeSlewStep_completes (gap := 100 * nsUnits) (by rw [quiet]; rfl) rfl locked corr later calm
    exact ⟨t, runs, now, off, time.trans (by rw [now]), gens, rope⟩
  case slewing =>
    intro s k locked corr site running later calm
    have busy : s.siteIdxs.any (fun k => !(s.siteState k).rests) = true := List.any_eq_true.2 ⟨k, site, by rw [running]; rfl⟩
    obtain ⟨t, runs, now, off, -⟩ := timeSlewStep_completes (gap := 10 * usUnits) (by rw [busy]; rfl) (tenUs _) locked corr later calm
    refine ⟨t, runs, now, off.trans ?_⟩
    split <;> rfl
  case held => exact fun s locked source later calm => timeHoldover_ptm (twentyMs _) locked source later calm
  case down => exact fun s locked source down calm => timeHoldover_down locked source down calm

end Sys2Proof.Claims

namespace Sys2Proof.Machine

/-! ## What an event of one rope port does (R283, R284, R290, R291) -/

section
variable {s : State}

/-- Port `n` changes and frames leave it. -/
def State.portAct (s : State) (n : Port) (out : List Sent) (f : RopePort → RopePort) : State :=
  { s with rope := { s.rope with sent := s.rope.sent ++ out, ports := upd s.rope.ports n f } }

theorem State.portAct_at (n : Port) (out : List Sent) (f : RopePort → RopePort) : (s.portAct n out f).rope.ports[n] = f s.rope.ports[n] :=
  upd_get_same ..

theorem State.portAct_other (n : Port) (out : List Sent) (f : RopePort → RopePort) (m : Port) (ne : m ≠ n) :
    (s.portAct n out f).rope.ports[m] = s.rope.ports[m] := upd_get_other _ _ _ _ (Ne.symm ne)

theorem State.portAct_only (n : Port) (out : List Sent) (f : RopePort → RopePort) : Claims.OnlyPort s (s.portAct n out f) n :=
  ⟨rfl, s.portAct_other n out f⟩

theorem upd_upd {α : Type} {n : Nat} (v : Vector α n) (i : Fin n) (f g : α → α) : upd (upd v i f) i g = upd v i fun x => g (f x) := by
  apply Vector.ext
  intro j h
  by_cases here : i.val = j
  · subst here
    simp
  · simp [here]

theorem State.portAct_portAct (n : Port) (a b : List Sent) (f g : RopePort → RopePort) :
    (s.portAct n a f).portAct n b g = s.portAct n (a ++ b) fun p => g (f p) := by
  simp only [State.portAct, upd_upd, List.append_assoc]

theorem State.updPort_eq (n : Port) (f : RopePort → RopePort) : s.updPort n f = s.portAct n [] f := by
  simp only [State.updPort, State.portAct, List.append_nil]

theorem State.portAct_congr (n : Port) (out : List Sent) (f g : RopePort → RopePort) (same : f s.rope.ports[n] = g s.rope.ports[n]) :
    s.portAct n out f = s.portAct n out g := by
  rw [State.portAct, State.portAct, upd_congr _ _ f g same]

/-- An IDENT leaves the port (R294). -/
theorem State.sendIdent_body (n : Port) : s.sendIdent n =
    s.portAct n [⟨n, 0x40, 0, 0, Config.serial, s.identBody n ++ List.replicate (16 - (s.identBody n).length) 0⟩] fun p => { p with identAt := s.now } := by
  rw [State.sendIdent, State.updPort_eq]
  simp only [State.sendOn, if_true, State.portAct, List.append_nil]

theorem State.sendIdent_eq (n : Port) : ∃ body, s.sendIdent n =
    s.portAct n [⟨n, 0x40, 0, 0, Config.serial, body⟩] fun p => { p with identAt := s.now } := ⟨_, s.sendIdent_body n⟩

/-- A frame padded to 16 bytes leaves the port, and is no probe (R285, R292). -/
theorem State.sendOn_eq (n : Port) (c : Byte) (body : List Byte) (other : c ≠ 0x40) : s.sendOn n c body =
    s.portAct n [⟨n, c, 0, 0, Config.serial, body ++ List.replicate (16 - body.length) 0⟩] fun p => { p with lastBusy := s.now } := by
  simp only [State.sendOn, other, if_false]
  rfl

theorem State.heard_eq (n : Port) : s.heard n = s.portAct n [] fun p => { p with lastRx := s.now, lastBusy := s.now } := s.updPort_eq n _

/-- A port in another state (R283). -/
def RopePort.moved (p : RopePort) (x : PortState) : RopePort :=
  let p := { p with state := x, training := none, retryAt := none }
  if x = .ident || x = .up || x = .idle then p else { p with partner := none, level := 0, remoteLoop := x = .test && p.remoteLoop }

/-- A port that is neither in IDLE nor in UP changes its state and reports nothing (R284). -/
theorem State.portTo_eq (n : Port) (x : PortState) (awake : (s.rope.ports[n]).state ≠ .idle) (down : (s.rope.ports[n]).state ≠ .up) :
    s.portTo n x = s.portAct n [] fun p => p.moved x := by
  simp only [State.portTo, awake, down, decide_false, Bool.false_and, Bool.false_eq_true, if_false, State.updPort_eq]
  rfl

theorem oneUs (n : Nat) : n + 1000 * nsUnits = n + usUnits := rfl

/-! ### Detection and loss of lock (R283, R284) -/

/-- A port whose training begins (R290). -/
def RopePort.trained (p : RopePort) (now : Nat) : RopePort :=
  { p.moved .train with training := some { began := now, lastReq := now }, pre := 0, main := 15, post := 0, marginal := false, aligned := false }

theorem State.startTraining_eq (n : Port) (detect : (s.rope.ports[n]).state = .detect) : s.startTraining n =
    s.portAct n [] fun p => p.trained s.now := by
  rw [State.startTraining, s.portTo_eq n .train (by rw [detect]; decide) (by rw [detect]; decide), State.updPort_eq, State.portAct_portAct]
  rfl

/-- A test of a port that has ended (R300). -/
def RopePort.ended (p : RopePort) (n : Port) (now : Nat) : RopePort :=
  { p with test := { p.test with running := false, waiting := false, done := true, bits := p.test.checked now,
                                 errs := p.test.errsAt n now, lockAt := none, firstAt := none, endAt := none } }

theorem State.endTest_eq (n : Port) (test : (s.rope.ports[n]).state = .test) : s.endTest n =
    s.portAct n [] fun p => (p.ended n s.now).moved .detect := by
  have kept : ((s.portAct n [] fun p => p.ended n s.now).rope.ports[n]).state = .test := by rw [State.portAct_at]; exact test
  have ends : s.endTest n = if ((s.portAct n [] fun p => p.ended n s.now).rope.ports[n]).state = .test then
      (s.portAct n [] fun p => p.ended n s.now).portTo n .detect else s.portAct n [] fun p => p.ended n s.now := by
    rw [← State.updPort_eq]
    rfl
  rw [ends, if_pos kept, State.portTo_eq _ _ (by rw [kept]; decide) (by rw [kept]; decide), State.portAct_portAct, List.append_nil]

theorem State.exec_lossOfLock {n : Port} (locks : (s.rope.ports[n]).state.locks = true) : exec (.lossOfLock n) s =
    .next ((if (s.rope.ports[n]).test.running then s.endTest n else s).portTo n .detect) := by
  change execLossOfLock n s = _
  unfold execLossOfLock
  dsimp only
  rw [locks, if_neg (by decide)]

/-! ### Training (R290) -/

theorem tapStep_eq (cur preset req : Nat) (ok : Nat → Bool) : tapStep cur preset req ok =
    let go := fun (n : Nat) => if n = cur || ok n then (n, 0) else (cur, 2)
    if req = 1 then (if cur ≥ 15 then (cur, 1) else go (cur + 1)) else if req = 2 then (if cur = 0 then (cur, 1) else go (cur - 1))
    else if req = 3 then go preset else (cur, 0) := by
  unfold tapStep
  match req with
  | 0 | 1 | 2 | 3 => rfl
  | n + 4 => rfl

theorem State.exec_trainReq {n : Port} {fr : Frame} {t0 : Training} (arrives : Claims.Arrives s n 0x50 fr)
    (training : (s.rope.ports[n]).training = some t0) :
    let p := s.rope.ports[n]
    let a := tapStep p.pre 0 (fieldAt fr.body 0 1) fun x => x + p.post + 4 ≤ p.main
    let m := tapStep p.main 15 (fieldAt fr.body 1 1) fun x => a.1 + p.post + 4 ≤ x
    let b := tapStep p.post 0 (fieldAt fr.body 2 1) fun x => a.1 + x + 4 ≤ m.1
    exec (.trainReq n fr) s = .next (s.portAct n
      [⟨n, 0x51, 0, 0, Config.serial,
        [BitVec.ofNat 8 a.1, BitVec.ofNat 8 m.1, BitVec.ofNat 8 b.1, BitVec.ofNat 8 a.2, BitVec.ofNat 8 m.2, BitVec.ofNat 8 b.2] ++ List.replicate 10 0⟩]
      fun _ => { p with pre := a.1, main := m.1, post := b.1, lastRx := s.now, lastBusy := s.now,
                        training := some { t0 with gotDone := t0.gotDone || decide (fieldAt fr.body 4 1 = 1) } }) := by
  intro p a m b
  change Host.Outcome.next (s.receive n 0x50 fr _) = _
  rw [State.receive_arrives _ arrives (by decide) (by decide), State.heard_eq, State.portAct_at]
  dsimp only [RopePort.taps]
  rw [training, State.sendOn_eq _ _ _ (by decide), State.updPort_eq, State.portAct_portAct, State.portAct_portAct]
  rfl

theorem sixtyUs (n : Nat) : n + 60000 * nsUnits = n + ropeLock := by rw [ropeLock, usUnits_eq]

/-- Frames sent one after another on a port (R290). -/
theorem State.sends_eq (n : Port) (c : Byte) (other : c ≠ 0x40) (l : List (List Byte)) : ∃ busy : RopePort → Nat,
    l.foldl (fun s body => s.sendOn n c body) s =
      s.portAct n (l.map fun body => ⟨n, c, 0, 0, Config.serial, body ++ List.replicate (16 - body.length) 0⟩) fun p => { p with lastBusy := busy p } := by
  induction l generalizing s with
  | nil =>
    refine ⟨fun p => p.lastBusy, ?_⟩
    simp only [List.foldl_nil, List.map_nil, State.portAct, List.append_nil]
    rw [upd_self _ _ _ rfl]
  | cons body l ih =>
    obtain ⟨busy, rest⟩ := ih (s := s.sendOn n c body)
    refine ⟨fun p => busy { p with lastBusy := s.now }, ?_⟩
    rw [List.foldl_cons, rest, State.sendOn_eq _ _ _ other, State.portAct_portAct]
    rfl

theorem natDiff_eq (a b : Nat) : natDiff a b = ((a : Int) - b).natAbs := by
  unfold natDiff
  omega

/-- The requests that take the partner's taps home (R290; log 42). -/
def Training.asks (t0 : Training) (n : Port) : List Sent :=
  let cur := fun (i : Nat) => fieldAt t0.partner i 1
  let want := fun (i : Nat) => if t0.bestTaps = [] then cur i else fieldAt t0.bestTaps i 1
  let far := fun (i : Nat) => ((cur i : Int) - want i).natAbs
  (List.range (max (far 0) (max (far 1) (far 2)))).map fun j =>
    (⟨n, 0x50, 0, 0, Config.serial, ([0, 1, 2].map fun i => if far i ≤ j then (0 : Byte) else if cur i < want i then 1 else 2) ++
      [t0.best, if t0.sentDone then 1 else 0] ++ List.replicate 11 0⟩ : Sent)

theorem State.askBest_eq (n : Port) (t0 : Training) : ∃ busy : RopePort → Nat,
    s.askBest n t0 = s.portAct n (t0.asks n) fun p => { p with lastBusy := busy p } := by
  obtain ⟨busy, sent⟩ := s.sends_eq n 0x50 (by decide) (t0.homing.map fun r => (r ++ [t0.best.toNat, bitAt t0.sentDone 0]).flatMap fun x => leBytes 1 x)
  refine ⟨busy, ?_⟩
  rw [List.foldl_map] at sent
  refine sent.trans (congrArg (fun l => s.portAct n l _) ?_)
  have step (p : Prop) [Decidable p] (a b : Nat) : BitVec.ofNat 8 (if p then a else b) = if p then BitVec.ofNat 8 a else BitVec.ofNat 8 b := by
    split <;> rfl
  have flag : BitVec.ofNat 8 (bitAt t0.sentDone 0) = if t0.sentDone then 1 else 0 := by cases t0.sentDone <;> rfl
  have three : List.range 3 = [0, 1, 2] := rfl
  simp only [Training.homing, Training.asks, List.map_map, List.isEmpty_iff, natDiff_eq, three, List.map_cons, List.map_nil, List.foldl_cons,
    List.foldl_nil, Nat.zero_max, Nat.max_assoc]
  refine List.map_congr_left fun j _ => ?_
  simp only [Function.comp, List.getD_cons_zero, List.getD_cons_succ, List.cons_append, List.nil_append, List.flatMap_cons, List.flatMap_nil, leBytes,
    step, flag, BitVec.ofNat_toNat, BitVec.setWidth_eq, List.length_cons, List.length_nil]
  rfl

/-- A port whose training has come far enough (R290, R291). -/
def RopePort.aligns (p : RopePort) (metric : Byte) (marginal : Bool) (temp : BitVec 8) : RopePort :=
  { p.moved .align with metric := metric, marginal := marginal, trainTemp := temp }

/-- The asymmetry a training has measured (R312). -/
def State.measured (s : State) (n : Port) (asym : Word) : State := { s with time := { s.time with asymInt := upd s.time.asymInt n fun _ => asym } }

theorem State.measured_at (n m : Port) (asym : Word) : (s.measured n asym).time.asymInt[m] = if m = n then asym else s.time.asymInt[m] := by
  refine (upd_get _ _ _ _).trans ?_
  by_cases here : m = n
  · rw [if_pos here.symm, if_pos here]
  · rw [if_neg (Ne.symm here), if_neg here]

theorem State.probe_eq (n : Port) : s.probe n = s.portAct n
    [⟨n, 0x52, 0, 0, Config.serial, leBytes 8 (s.net / 32 % 2 ^ 64).toNat ++ List.replicate 8 0⟩] fun p => { p with lastBusy := s.now } := by
  rw [State.probe, State.sendOn_eq _ _ _ (by decide)]
  rfl

/-- A port in TRAIN goes on to ALIGN (R290, R291). -/
theorem State.aligned_eq (n : Port) (train : (s.rope.ports[n]).state = .train) (metric : Byte) (marginal : Bool) (temp : BitVec 8) :
    ((s.portTo n .align).updPort n fun p => { p with metric := metric, marginal := marginal, trainTemp := temp }) =
      s.portAct n [] fun p => p.aligns metric marginal temp := by
  rw [s.portTo_eq n .align (by rw [train]; decide) (by rw [train]; decide), State.updPort_eq, State.portAct_portAct]
  rfl

theorem State.exec_trainEnd_both {n : Port} {temp : BitVec 8} {asym : Word} {t0 : Training} (train : (s.rope.ports[n]).state = .train)
    (training : (s.rope.ports[n]).training = some t0) (sent : t0.sentDone = true) (got : t0.gotDone = true) (good : 160 ≤ t0.best.toNat) :
    exec (.trainEnd n temp asym) s = .next ((s.measured n asym).portAct n
      [⟨n, 0x52, 0, 0, Config.serial, leBytes 8 (s.net / 32 % 2 ^ 64).toNat ++ List.replicate 8 0⟩]
      fun p => { p.aligns t0.metric false temp with lastBusy := s.now }) := by
  have far : decide (t0.best.toNat < 160) = false := decide_eq_false (Nat.not_lt.2 good)
  change execTrainEnd n temp asym s = _
  unfold execTrainEnd
  rw [training]
  dsimp only
  rw [sent, got, Bool.and_self, if_pos rfl, if_pos rfl, if_pos (Nat.le_trans (by decide) good), far, if_neg Bool.false_ne_true]
  change Host.Outcome.next (State.probe (((s.measured n asym).portTo n .align).updPort n fun p =>
    { p with metric := t0.metric, marginal := false, trainTemp := temp }) n) = _
  rw [State.aligned_eq (s := s.measured n asym) n train t0.metric false temp, State.probe_eq, State.portAct_portAct]
  rfl

/-- Training's end at 2 ms (R290), in the state `w` of that instant. -/
theorem State.exec_trainEnd_late {n : Port} {temp : BitVec 8} {asym : Word} {t0 : Training} {u : Nat} {w : State} (due : u = t0.began + 2 * msUnits)
    (training : (s.rope.ports[n]).training = some t0) (lacks : t0.sentDone = false ∨ t0.gotDone = false) (reached : s.advance u = w) :
    exec (.trainEnd n temp asym) s =
      if 96 ≤ t0.best.toNat then
        let v := ((((w.askBest n t0).measured n asym).portTo n .align).updPort n fun p =>
          { p with metric := t0.best, marginal := decide (t0.best.toNat < 160), trainTemp := temp })
        .next ((if decide (t0.best.toNat < 160) then v.report 39 0 (BitVec.ofNat 32 (n.val + t0.best.toNat * 256)) else v).probe n)
      else .next (((w.askBest n t0).measured n asym).updPort n fun p =>
        { p with training := none, metric := t0.best, trainFail := true, trainTemp := temp, retryAt := some ((w.askBest n t0).now + 100 * msUnits) }) := by
  have both : (t0.sentDone && t0.gotDone) = false := by obtain e | e := lacks <;> simp [e]
  change execTrainEnd n temp asym s = _
  unfold execTrainEnd
  rw [training]
  dsimp only
  rw [both, if_neg Bool.false_ne_true, if_neg Bool.false_ne_true, ← due, reached]
  rfl

/-- A port whose channel delay is known sends its IDENT, and is in UP if its partner's has come (R283, R291). -/
def State.identified (s : State) (n : Port) : State :=
  let t := s.sendIdent n
  if (t.rope.ports[n]).partner.isSome then (t.updPort n fun p => { p with state := .up, lastBusy := t.now }).rise n .ident else t

theorem State.rise_quiet (n : Port) (was : PortState) (calls : ((s.rope.ports[n]).test.running && (s.rope.ports[n]).test.waiting) = false) :
    s.rise n was = s := by
  unfold State.rise
  dsimp only
  rw [Bool.and_assoc, calls, Bool.and_false, if_neg Bool.false_ne_true]

theorem State.identified_eq (n : Port) (calls : ((s.rope.ports[n]).test.running && (s.rope.ports[n]).test.waiting) = false) : ∃ body,
    s.identified n = s.portAct n [⟨n, 0x40, 0, 0, Config.serial, body⟩] fun p =>
      if p.partner.isSome then { p with identAt := s.now, state := .up, lastBusy := s.now } else { p with identAt := s.now } := by
  obtain ⟨body, ident⟩ := s.sendIdent_eq n
  refine ⟨body, ?_⟩
  have port : ((s.sendIdent n).rope.ports[n]) = { s.rope.ports[n] with identAt := s.now } := by rw [ident, State.portAct_at]
  unfold State.identified
  dsimp only
  rw [port]
  dsimp only
  split
  · next partner =>
    rw [State.rise_quiet _ _ (by rw [State.updPort_at, port]; exact calls), ident, State.updPort_eq, State.portAct_portAct]
    refine State.portAct_congr _ _ _ _ ?_
    rw [if_pos partner]
    rfl
  · next partner =>
    rw [ident]
    refine State.portAct_congr _ _ _ _ ?_
    rw [if_neg partner]

end

end Sys2Proof.Machine

namespace Sys2Proof.Claims
open Sys2Proof.Machine

theorem linkDetect_later {s : State} {n : Port} {u : Nat} (due : u = s.rope.clockAt + ropeLock) (state : (s.rope.ports[n]).state = .detect)
    (later : s.now ≤ u) (calm : Calm s) : Completes (.linkDetect n) s fun t => t.now = u ∧ t.rope.sent = s.rope.sent ∧
      (∀ m : Port, m ≠ n → t.rope.ports[m] = s.rope.ports[m]) ∧ (t.rope.ports[n]).state = .train ∧
      (t.rope.ports[n]).training = some { began := t.now, lastReq := t.now } ∧ t.gens = s.gens := by
  have frame := advance_to calm later
  generalize reached : s.advance u = w at frame
  have detect : (w.rope.ports[n]).state = .detect := by rw [frame]; exact state
  have runs : exec (.linkDetect n) s = .next (w.portAct n [] fun p => p.trained w.now) := by
    change execLinkDetect n s = _
    unfold execLinkDetect
    rw [if_pos state, ← due, reached, State.startTraining_eq n detect]
  refine ⟨_, runs, by rw [frame]; rfl, by rw [frame]; exact List.append_nil _, fun m ne => ?_, ?_, ?_, by rw [frame]; rfl⟩
  · rw [State.portAct_other _ _ _ _ ne, frame]
  · rw [State.portAct_at]
    rfl
  · rw [State.portAct_at]
    rfl

/-- A port in UP that loses lock reports it (R284). -/
theorem lossOfLock_up {s : State} {n : Port} (up : (s.rope.ports[n]).state = .up) (idle : (s.rope.ports[n]).test.running = false) :
    exec (.lossOfLock n) s = .next ((s.portAct n [] fun p => { p.moved .detect with loss := satInc p.loss, linkDown := true }).report 38 0
      (BitVec.ofNat 32 n.val)) := by
  rw [State.exec_lossOfLock (by rw [up]; rfl), idle, if_neg Bool.false_ne_true, ← State.updPort_eq]
  have awake : decide (PortState.up = .idle) = false := rfl
  simp only [State.portTo, up, awake, Bool.false_and, Bool.false_eq_true, if_false]
  rfl

theorem trainReqTimer_completes {s : State} {n : Port} {pre main post : Fin 4} {metric : Byte} {t0 : Training} {u : Nat}
    (due : u = t0.lastReq + usUnits) (training : (s.rope.ports[n]).training = some t0) (later : s.now ≤ u) (calm : Calm s) :
    Completes (.trainReqTimer n pre main post metric) s fun t => let done := t0.sentDone || decide (metric.toNat ≥ 160)
      let req := fun (x : Fin 4) => if done then 0 else BitVec.ofNat 8 x.val
      t.now = u ∧
      (t.rope.ports[n]).training = some { t0 with lastReq := t.now, sentDone := done, metric := metric,
                                                  best := if t0.best.toNat ≤ metric.toNat then metric else t0.best,
                                                  bestTaps := if t0.best.toNat ≤ metric.toNat then t0.partner.take 3 else t0.bestTaps } ∧
      (∀ m : Port, m ≠ n → t.rope.ports[m] = s.rope.ports[m]) ∧
      t.rope.sent = s.rope.sent ++ [⟨n, 0x50, 0, 0, Config.serial, [req pre, req main, req post, metric, if done then 1 else 0] ++ List.replicate 11 0⟩] := by
  have frame := advance_to calm later
  generalize reached : s.advance u = w at frame
  have now : w.now = u := by rw [frame]
  generalize begun : (t0.sentDone || decide (metric.toNat ≥ 160)) = done
  let req := fun (x : Fin 4) => if done then 0 else x.val
  have runs : exec (.trainReqTimer n pre main post metric) s = .next (w.portAct n
      [⟨n, 0x50, 0, 0, Config.serial, ([req pre, req main, req post, metric.toNat, bitAt done 0].flatMap fun x => leBytes 1 x) ++ List.replicate 11 0⟩]
      fun p => { p with lastBusy := w.now, training := some { t0 with
        lastReq := w.now, sentDone := done, metric := metric, best := if t0.best ≤ metric then metric else t0.best,
        bestTaps := if t0.best ≤ metric then t0.partner.take 3 else t0.bestTaps } }) := by
    change execTrainReqTimer n pre main post metric s = _
    unfold execTrainReqTimer
    rw [training]
    dsimp only
    rw [← due, reached, State.sendOn_eq _ _ _ (by decide), State.updPort_eq, State.portAct_portAct]
    subst begun
    rfl
  refine ⟨_, runs, now, ?_, fun m ne => ?_, ?_⟩
  · rw [State.portAct_at]
    rfl
  · rw [State.portAct_other _ _ _ _ ne, frame]
  · dsimp only [State.portAct]
    have bytes (x : Fin 4) : BitVec.ofNat 8 (req x) = if done then 0 else BitVec.ofNat 8 x.val := by
      dsimp only [req]
      split <;> rfl
    have flag : BitVec.ofNat 8 (bitAt done 0) = if done then 1 else 0 := by cases done <;> rfl
    have same : w.rope.sent = s.rope.sent := by rw [frame]
    simp only [List.flatMap_cons, List.flatMap_nil, leBytes, List.append_nil, List.cons_append, List.nil_append, bytes, flag, BitVec.ofNat_toNat,
      BitVec.setWidth_eq, same]

theorem trainEnd_both {s : State} {n : Port} {temp : BitVec 8} {asym : Word} {t0 : Training} (train : (s.rope.ports[n]).state = .train)
    (training : (s.rope.ports[n]).training = some t0) (sent : t0.sentDone = true) (got : t0.gotDone = true) (good : 160 ≤ t0.best.toNat) :
    Completes (.trainEnd n temp asym) s fun t => let p := t.rope.ports[n]
      p.state = .align ∧ p.training = none ∧ p.metric = t0.metric ∧ p.marginal = false ∧ p.trainTemp = temp ∧ t.now = s.now ∧ t.flt = s.flt ∧
      (∀ m : Port, t.time.asymInt[m] = if m = n then asym else s.time.asymInt[m]) ∧
      t.rope.sent = s.rope.sent ++ [⟨n, 0x52, 0, 0, Config.serial, leBytes 8 (s.net / 32 % 2 ^ 64).toNat ++ List.replicate 8 0⟩] ∧
      ∀ m : Port, m ≠ n → t.rope.ports[m] = s.rope.ports[m] := by
  refine ⟨_, State.exec_trainEnd_both train training sent got good, ?_⟩
  dsimp only
  rw [State.portAct_at]
  refine ⟨rfl, rfl, rfl, rfl, rfl, rfl, rfl, fun m => s.measured_at n m asym, rfl, fun m ne => ?_⟩
  rw [State.portAct_other _ _ _ _ ne]
  rfl

theorem trainEnd_marginal {s : State} {n : Port} {temp : BitVec 8} {asym : Word} {t0 : Training} {u : Nat} (due : u = t0.began + 2 * msUnits)
    (train : (s.rope.ports[n]).state = .train) (training : (s.rope.ports[n]).training = some t0)
    (lacks : t0.sentDone = false ∨ t0.gotDone = false) (later : s.now ≤ u) (fair : 96 ≤ t0.best.toNat) (poor : t0.best.toNat < 160) (calm : Calm s) :
    Completes (.trainEnd n temp asym) s fun t => let p := t.rope.ports[n]
      t.rope.sent = s.rope.sent ++ t0.asks n ++
        [⟨n, 0x52, 0, 0, Config.serial, leBytes 8 (t.net / 32 % 2 ^ 64).toNat ++ List.replicate 8 0⟩] ∧
      t.now = u ∧ p.state = .align ∧ p.metric = t0.best ∧ p.marginal = true ∧
      newest t = some (39, 0, BitVec.ofNat 32 (n.val + t0.best.toNat * 256)) := by
  have frame := advance_to calm later
  generalize reached : s.advance u = w at frame
  have runs := State.exec_trainEnd_late (temp := temp) (asym := asym) due training lacks reached
  obtain ⟨busy, asks⟩ := w.askBest_eq n t0
  rw [if_pos fair, asks] at runs
  dsimp only at runs
  have kept : ((((w.portAct n (t0.asks n) fun p => { p with lastBusy := busy p }).measured n asym).rope.ports[n])).state = .train := by
    change ((w.portAct n (t0.asks n) _).rope.ports[n]).state = _
    rw [State.portAct_at, frame]
    exact train
  rw [State.aligned_eq n kept, decide_eq_true poor, if_pos rfl] at runs
  generalize marked : (((w.portAct n (t0.asks n) fun p => { p with lastBusy := busy p }).measured n asym).portAct n [] fun p =>
    p.aligns t0.best true temp) = v at runs
  have flt : v.flt.taking = none := by
    rw [← marked, frame]
    exact calm.2
  obtain ⟨⟨now, off, rope, -⟩, -⟩ := v.report_leaves flt 39 0 (BitVec.ofNat 32 (n.val + t0.best.toNat * 256))
  obtain ⟨-, new, -⟩ := v.report_idle flt 39 0 (BitVec.ofNat 32 (n.val + t0.best.toNat * 256))
  generalize v.report 39 0 (BitVec.ofNat 32 (n.val + t0.best.toNat * 256)) = x at runs now off rope new
  rw [State.probe_eq] at runs
  have sent : x.rope.sent = s.rope.sent ++ t0.asks n := by
    rw [rope, ← marked, frame]
    exact List.append_nil _
  have port : x.rope.ports[n] = ({ w.rope.ports[n] with lastBusy := busy w.rope.ports[n] } : RopePort).aligns t0.best true temp := by
    rw [rope, ← marked, State.portAct_at]
    exact congrArg (fun p : RopePort => p.aligns t0.best true temp) (w.portAct_at n (t0.asks n) fun p => { p with lastBusy := busy p })
  refine ⟨_, runs, ?_⟩
  dsimp only
  rw [State.portAct_at, port]
  refine ⟨?_, ?_, rfl, rfl, rfl, new⟩
  · rw [← sent]
    rfl
  · change x.now = u
    rw [now, ← marked, frame]
    rfl

theorem trainEnd_failed {s : State} {n : Port} {temp : BitVec 8} {asym : Word} {t0 : Training} {u : Nat} (due : u = t0.began + 2 * msUnits)
    (train : (s.rope.ports[n]).state = .train) (training : (s.rope.ports[n]).training = some t0)
    (lacks : t0.sentDone = false ∨ t0.gotDone = false) (later : s.now ≤ u) (bad : t0.best.toNat < 96) (calm : Calm s) :
    Completes (.trainEnd n temp asym) s fun t => let p := t.rope.ports[n]
      t.now = u ∧ p.state = .train ∧ p.training = none ∧ p.trainFail = true ∧ p.retryAt = some (t.now + 100 * msUnits) ∧
      p.metric = t0.best ∧ t.rope.sent = s.rope.sent ++ t0.asks n ∧ t.flt = s.flt ∧
      ∀ m : Port, t.time.asymInt[m] = if m = n then asym else s.time.asymInt[m] := by
  have frame := advance_to calm later
  generalize reached : s.advance u = w at frame
  have runs := State.exec_trainEnd_late (temp := temp) (asym := asym) due training lacks reached
  obtain ⟨busy, asks⟩ := w.askBest_eq n t0
  rw [if_neg (Nat.not_le.2 bad), asks, State.updPort_eq] at runs
  have port : (((w.portAct n (t0.asks n) fun p => { p with lastBusy := busy p }).measured n asym).rope.ports[n]) =
      { w.rope.ports[n] with lastBusy := busy w.rope.ports[n] } := w.portAct_at n (t0.asks n) fun p => { p with lastBusy := busy p }
  refine ⟨_, runs, ?_⟩
  dsimp only
  rw [State.portAct_at, port]
  have now : w.now = u := by rw [frame]
  refine ⟨now, ?_, rfl, rfl, rfl, rfl, ?_, ?_, fun m => ?_⟩
  · rw [frame]
    exact train
  · rw [frame]
    exact List.append_nil _
  · rw [frame]
    rfl
  · rw [frame]
    exact s.measured_at n m asym

theorem twoMs (n : Nat) : n + 2000000 * nsUnits = n + 2 * msUnits := by rw [msUnits_eq, ← Nat.mul_assoc]

theorem hundredMs (n : Nat) : n + 100000000 * nsUnits = n + 100 * msUnits := by rw [msUnits_eq, ← Nat.mul_assoc]

/-- The port after its echo (R291): it sends its IDENT, and is in UP if its partner's has come. -/
def echoed (p : RopePort) (now : Nat) (d : BitVec 16) : RopePort :=
  { p.moved .ident with delay := d, aligned := true, identAt := now, lastRx := now, lastBusy := now,
                        state := if p.partner.isSome then .up else .ident }

theorem alignEcho_completes {s : State} {n : Port} {fr : Frame} {rt : Nat} (arrives : Arrives s n 0x53 fr) (align : (s.rope.ports[n]).state = .align)
    (calls : ((s.rope.ports[n]).test.running && (s.rope.ports[n]).test.waiting) = false) :
    Completes (.alignEcho n fr rt) s fun t => OnlyPort s t n ∧ let p := t.rope.ports[n]
      p.state = (if (s.rope.ports[n]).partner.isSome then .up else .ident) ∧ p.aligned = true ∧
      p.delay = BitVec.ofNat 16 (min ((rt - fieldAt fr.body 8 8) / 2) 65535) ∧ p.identAt = s.now ∧
      (t.rope.sent.drop s.rope.sent.length).map (fun x => (x.port, x.ctype, x.hops)) = [(n, 0x40, 0)] ∧
      t.rope.sent.take s.rope.sent.length = s.rope.sent := by
  generalize delay : satNat 16 ((rt - fieldAt fr.body 8 8) / 2) = d
  have heard : ((s.portAct n [] fun p => { p with lastRx := s.now, lastBusy := s.now }).rope.ports[n]) =
      { s.rope.ports[n] with lastRx := s.now, lastBusy := s.now } := State.portAct_at ..
  obtain ⟨body, runs⟩ : ∃ body, exec (.alignEcho n fr rt) s = .next (s.portAct n [⟨n, 0x40, 0, 0, Config.serial, body⟩] fun p =>
      echoed p s.now d) := by
    have runs : exec (.alignEcho n fr rt) s = .next (((s.heard n).portAct n [] fun p => { p.moved .ident with delay := d, aligned := true }).identified n) := by
      have state : ((s.heard n).rope.ports[n]).state = .align := by rw [State.heard_eq, heard]; exact align
      change Host.Outcome.next (s.receive n 0x53 fr _) = _
      rw [State.receive_arrives _ arrives (by decide) (by decide)]
      dsimp only
      rw [if_neg (by rw [state]; decide), State.portTo_eq _ _ (by rw [state]; decide) (by rw [state]; decide), State.updPort_eq, State.portAct_portAct,
        delay]
      rfl
    rw [State.heard_eq, State.portAct_portAct] at runs
    generalize aligned : (s.portAct n ([] ++ []) fun p => { ({ p with lastRx := s.now, lastBusy := s.now } : RopePort).moved .ident with
      delay := d, aligned := true }) = v at runs
    have port : v.rope.ports[n] = { ({ s.rope.ports[n] with lastRx := s.now, lastBusy := s.now } : RopePort).moved .ident with
        delay := d, aligned := true } := by rw [← aligned, State.portAct_at]
    obtain ⟨body, sends⟩ := v.identified_eq n (by rw [port]; exact calls)
    refine ⟨body, ?_⟩
    rw [runs, sends, ← aligned, State.portAct_portAct]
    refine congrArg Host.Outcome.next (State.portAct_congr _ _ _ _ ?_)
    dsimp only [echoed]
    by_cases met : (s.rope.ports[n]).partner.isSome = true
    · rw [if_pos met]
      exact if_pos met
    · rw [if_neg met]
      exact if_neg met
  refine ⟨_, runs, State.portAct_only .., ?_⟩
  dsimp only
  rw [State.portAct_at]
  refine ⟨rfl, rfl, delay.symm, rfl, ?_, ?_⟩
  · exact congrArg (List.map _) (List.drop_left ..)
  · exact List.take_left ..

/-- Settles O52: each event moves one port by its rule, the frames sent with it; what a training ends in follows its best metric. -/
theorem linksTrainAndAlign : Obligations.LinksTrainAndAlign := by
  unfold Obligations.LinksTrainAndAlign
  intro tap cur want far homing
  refine ⟨?detectLater, ?detect, ?lost, ?lostUp, ?lostTest, ?trainReq, ?trainSts, ?timer, ?both, ?marginal, ?failed, ?retry, ?probe, ?echo⟩
  case detectLater =>
    exact fun s n state later calm => linkDetect_later (sixtyUs _) state later calm
  case detect =>
    intro s n state past
    rw [sixtyUs] at past
    have runs : exec (.linkDetect n) s = .next (s.portAct n [] fun p => p.trained s.now) := by
      have still : s.advance (s.rope.clockAt + ropeLock) = s := if_pos past
      change Host.Outcome.next _ = _
      rw [if_pos state, still, State.startTraining_eq n state]
    refine ⟨_, runs, State.portAct_only .., List.append_nil _, ?_⟩
    dsimp only
    rw [State.portAct_at]
    exact ⟨rfl, rfl, rfl, rfl, rfl, rfl, rfl, rfl, rfl, rfl⟩
  case lost =>
    intro s n state idle
    have runs : exec (.lossOfLock n) s = .next (s.portAct n [] fun p => p.moved .detect) := by
      rw [State.exec_lossOfLock (by obtain e | e | e := state <;> rw [e] <;> rfl), idle, if_neg Bool.false_ne_true, State.portTo_eq]
      · obtain e | e | e := state <;> rw [e] <;> decide
      · obtain e | e | e := state <;> rw [e] <;> decide
    refine ⟨_, runs, State.portAct_only .., List.append_nil _, ?_⟩
    dsimp only
    rw [State.portAct_at]
    exact ⟨rfl, rfl, rfl, rfl, rfl⟩
  case lostUp =>
    intro s n up idle calm
    generalize moved : (s.portAct n [] fun p => { p.moved .detect with loss := satInc p.loss, linkDown := true }) = w
    have flt : w.flt.taking = none := by rw [← moved]; exact calm.2
    obtain ⟨⟨-, -, rope, -⟩, -⟩ := w.report_leaves flt 38 0 (BitVec.ofNat 32 n.val)
    obtain ⟨-, new, -⟩ := w.report_idle flt 38 0 (BitVec.ofNat 32 n.val)
    refine ⟨_, moved ▸ lossOfLock_up up idle, new, fun m ne => ?_, ?_⟩
    · rw [rope, ← moved, State.portAct_other _ _ _ _ ne]
    · dsimp only
      rw [rope, ← moved, State.portAct_at]
      exact ⟨rfl, rfl, rfl, rfl, rfl⟩
  case lostTest =>
    intro s n state runs_
    have detect : ((s.portAct n [] fun p => (p.ended n s.now).moved .detect).rope.ports[n]).state = .detect := by rw [State.portAct_at]; rfl
    have runs : exec (.lossOfLock n) s = .next (s.portAct n [] fun p => ((p.ended n s.now).moved .detect).moved .detect) := by
      rw [State.exec_lossOfLock (by rw [state]; rfl), runs_, if_pos rfl, State.endTest_eq n state,
        State.portTo_eq _ _ (by rw [detect]; decide) (by rw [detect]; decide), State.portAct_portAct, List.append_nil]
    refine ⟨_, runs, State.portAct_only .., ?_⟩
    dsimp only
    rw [State.portAct_at]
    exact ⟨rfl, rfl, rfl, rfl⟩
  case trainReq =>
    intro s n fr t0 arrives training
    refine ⟨_, State.exec_trainReq arrives training, ?_⟩
    have step (cur preset req : Nat) (ok : Nat → Bool) : tap cur preset req ok = tapStep cur preset req ok := (tapStep_eq cur preset req ok).symm
    simp only [step]
    refine ⟨State.portAct_only .., ?_, ?_, ?_, ?_, rfl⟩ <;> rw [State.portAct_at]
  case trainSts =>
    intro s n fr t0 arrives training
    have runs : exec (.trainSts n fr) s = .next (s.portAct n [] fun p =>
        { p with lastRx := s.now, lastBusy := s.now, training := p.training.map fun t => { t with partner := fr.body.take 6 } }) := by
      change Host.Outcome.next (s.receive n 0x51 fr _) = _
      rw [State.receive_arrives _ arrives (by decide) (by decide), State.heard_eq, State.updPort_eq, State.portAct_portAct]
      rfl
    refine ⟨_, runs, State.portAct_only .., List.append_nil _, ?_⟩
    rw [State.portAct_at, training]
    rfl
  case timer => exact fun s n pre main post metric t0 training later calm => trainReqTimer_completes (oneUs _) training later calm
  case both => exact fun s n temp asym t0 train training sent got good => trainEnd_both train training sent got good
  case marginal =>
    exact fun s n temp asym t0 train training lacks later fair poor calm => trainEnd_marginal (twoMs _) train training lacks later fair poor calm
  case failed =>
    intro s n temp asym t0 train training lacks later bad calm
    obtain ⟨t, runs, rest⟩ := trainEnd_failed (temp := temp) (asym := asym) (twoMs _) train training lacks later bad calm
    refine ⟨t, runs, ?_⟩
    simp only [hundredMs]
    exact rest
  case retry =>
    intro s n u retry state later calm
    have frame := advance_to calm later
    generalize reached : s.advance u = w at frame
    have train : (w.rope.ports[n]).state = .train := by rw [frame]; exact state
    have runs : exec (.trainFailRetry n) s = .next (w.portAct n [] fun p => p.moved .detect) := by
      change execTrainFailRetry n s = _
      unfold execTrainFailRetry
      rw [retry]
      dsimp only
      rw [reached, State.portTo_eq _ _ (by rw [train]; decide) (by rw [train]; decide)]
    refine ⟨_, runs, by rw [frame]; rfl, ?_, ?_, by rw [frame]; rfl, fun m ne => ?_⟩
    · rw [State.portAct_at]
      rfl
    · rw [State.portAct_at]
      rfl
    · rw [State.portAct_other _ _ _ _ ne, frame]
  case probe =>
    intro s n fr turn arrives length
    have eight : (fr.body ++ List.replicate 8 0).take 8 = fr.body.take 8 := List.take_append_of_le_length (by omega)
    have full : 16 - (fr.body.take 8 ++ leBytes 8 turn.toNat).length = 0 := by
      rw [List.length_append, List.length_take, length]
      rfl
    have runs : exec (.alignProbe n fr turn) s = .next (s.portAct n
        [⟨n, 0x53, 0, 0, Config.serial, fr.body.take 8 ++ leBytes 8 turn.toNat⟩] fun p => { p with lastRx := s.now, lastBusy := s.now }) := by
      change Host.Outcome.next (s.receive n 0x52 fr _) = _
      rw [State.receive_arrives _ arrives (by decide) (by decide), State.heard_eq, State.sendOn_eq _ _ _ (by decide), State.portAct_portAct, eight,
        full, List.replicate_zero, List.append_nil]
      rfl
    refine ⟨_, runs, State.portAct_only .., ?_, rfl⟩
    rw [State.portAct_at]
  case echo => exact fun s n fr rt arrives align calls => alignEcho_completes arrives align calls

end Sys2Proof.Claims

namespace Sys2Proof.Machine

/-! ## Discovery, idling and tests of a rope port (R292 to R302) -/

section
variable {s : State}

theorem fieldAt_one (b : List Byte) (o : Nat) : fieldAt b o 1 = (byteAt b o).toNat := by
  rw [fieldAt, List.take_one, List.head?_drop, byteAt, List.getD_eq_getElem?_getD]
  cases b[o]? with
  | none => rfl
  | some x => simp [leNat]

theorem bitOf_byteAt (b : List Byte) (o i : Nat) : bitOf (fieldAt b o 1) i = (byteAt b o).getLsbD i := by
  rw [fieldAt_one, bitOf_eq_one, ← BitVec.testBit_toNat, Nat.testBit_eq_decide_div_mod_eq]

/-- An IDENT is heard (R290, R292). -/
theorem State.receive_ident {n : Port} {fr : Frame} (f : State → State) (arrives : Claims.Arrives s n 0x40 fr) :
    s.receive n 0x40 fr f = f (s.portAct n [] fun p => { p with lastRx := s.now }) := by
  obtain ⟨takes, crc, hops, level⟩ := arrives
  have far : ¬ 4 < crossed fr := by rw [crossed]; omega
  have plain : fixedLatency 0x40 = false := by decide
  simp only [State.receive, PortState.hears_of_takes takes, crc, far, level, takes, plain, Bool.not_true, Bool.false_eq_true,
    if_false, ne_eq, not_true_eq_false, decide_false, Bool.or_self, Bool.false_and, State.updPort_eq, if_true]

/-- What a partner's own IDENT makes of a port in IDENT (R283, R294). -/
def RopePort.met (p : RopePort) (fr : Frame) (level now : Nat) : RopePort :=
  { p with partner := some ⟨fr.src, fieldAt fr.body 5 1, (byteAt fr.body 6).getLsbD 0, (byteAt fr.body 6).getLsbD 1⟩, level := level,
           state := .up, lastBusy := now }

theorem State.meet_eq {n : Port} {fr : Frame} (ident : (s.rope.ports[n]).state = .ident) (topo : s.rope.topo = [])
    (calls : ((s.rope.ports[n]).test.running && (s.rope.ports[n]).test.waiting) = false) :
    s.meet n fr = s.portAct n [] fun p => p.met fr (min (s.offer n) (fieldAt fr.body 5 1)) s.now := by
  unfold State.meet
  dsimp only
  rw [State.rise_quiet _ _ (by rw [State.updPort_at]; exact calls), State.updPort_eq, bitOf_byteAt, bitOf_byteAt]
  have none_ : (s.portAct n [] fun p => { p with
      partner := some ⟨fr.src, fieldAt fr.body 5 1, (byteAt fr.body 6).getLsbD 0, (byteAt fr.body 6).getLsbD 1⟩
      level := min (s.offer n) (fieldAt fr.body 5 1), state := if p.state = .ident then .up else p.state
      lastBusy := if p.state = .ident then s.now else p.lastBusy }).rope.topo = [] := topo
  rw [none_, List.filter_nil, List.foldl_nil]
  refine Eq.trans (b := s.portAct n [] _) rfl (State.portAct_congr _ _ _ _ ?_)
  rw [ident]
  rfl

/-- The topology entry of an IDENT is taken in, or the port is known to be looped (R296, R297). -/
def State.placed (s : State) (n : Port) (fr : Frame) : State :=
  if fr.src = Config.serial then s.portAct n [] fun p => { p with looped := true } else { s with rope := s.rope.learn (s.entryOf n fr) }

/-- The frames a relayed IDENT leaves in (R295). -/
def State.relays (s : State) (n : Port) (fr : Frame) (e : TopoEntry) : List Sent :=
  ((List.finRange 4).filter fun m => m ≠ n && (s.rope.ports[m]).state = PortState.up).map fun m =>
    (⟨m, 0x40, BitVec.ofNat 8 (crossed fr), 0, fr.src, relayedIdent fr.body e⟩ : Sent)

/-- What an IDENT leads to once its own partner is known (R295 to R297). -/
def State.identRest (s : State) (n : Port) (fr : Frame) : State :=
  let e := s.entryOf n fr
  let s := if fr.src = Config.serial then s.updPort n fun p => { p with looped := true } else { s with rope := s.rope.learn e }
  if 4 ≤ crossed fr then s
  else { s with rope := { s.rope with sent := s.rope.sent ++ s.relays n fr e } }

theorem State.exec_ident {n : Port} {fr : Frame} (arrives : Claims.Arrives s n 0x40 fr) : exec (.ident n fr) s =
    .next (State.identRest (if fr.hops = 0 then (s.portAct n [] fun p => { p with lastRx := s.now }).meet n fr
      else s.portAct n [] fun p => { p with lastRx := s.now }) n fr) := by
  change Host.Outcome.next (s.receive n 0x40 fr _) = _
  rw [State.receive_ident _ arrives]
  rfl

/-- An IDENT from beyond, or this device's own, goes on to the ports that are up (R295). -/
theorem State.identRest_own {n : Port} {fr : Frame} (near : fr.hops.toNat < 3) (own : fr.src = Config.serial) :
    s.identRest n fr = s.portAct n (s.relays n fr (s.entryOf n fr)) fun p => { p with looped := true } := by
  have far : ¬ 4 ≤ crossed fr := by rw [crossed]; omega
  have same : (s.portAct n [] fun p => { p with looped := true }).relays n fr (s.entryOf n fr) = s.relays n fr (s.entryOf n fr) := by
    unfold State.relays
    refine congrArg (List.map _) (List.filter_congr fun m _ => ?_)
    by_cases here : m = n
    · simp [here]
    · rw [State.portAct_other _ _ _ _ here]
  unfold State.identRest
  dsimp only
  rw [if_pos own, if_neg far, State.updPort_eq, same]
  simp only [State.portAct, List.append_nil]

/-- An IDENT of another device makes its entry first (R295, R296). -/
theorem State.identRest_other {n : Port} {fr : Frame} (near : fr.hops.toNat < 3) (other : fr.src ≠ Config.serial) :
    let r : Rope := s.rope.learn (s.entryOf n fr)
    s.identRest n fr = { s with rope := { r with sent := r.sent ++ ({ s with rope := r } : State).relays n fr (s.entryOf n fr) } } := by
  have far : ¬ 4 ≤ crossed fr := by rw [crossed]; omega
  unfold State.identRest
  dsimp only
  rw [if_neg other, if_neg far]

/-- An unknown device gets a new entry while there is room (R296). -/
theorem Rope.learn_new {r : Rope} {e : TopoEntry} (unknown : r.find e.serial = none) (room : r.topo.length < 64) :
    r.learn e = { r with topo := r.topo ++ [e], topoChange := r.topoChange + 1 } := by
  unfold Rope.learn
  rw [unknown]
  exact if_pos room

theorem State.relays_eq {t : State} {n : Port} {fr : Frame} {e : TopoEntry} (same : ∀ m : Port, m ≠ n → t.rope.ports[m] = s.rope.ports[m]) :
    t.relays n fr e = ((List.finRange 4).filter fun m => decide (m ≠ n) && decide ((s.rope.ports[m]).state = .up)).map fun m =>
      ⟨m, 0x40, BitVec.ofNat 8 (crossed fr), 0, fr.src, relayedIdent fr.body e⟩ := by
  refine congrArg (List.map _) (List.filter_congr fun m _ => ?_)
  by_cases here : m = n
  · simp [here]
  · rw [same m here]

/-- An IDENT's own path is over when no other port is up (R295). -/
theorem State.relays_none {t : State} {n : Port} {fr : Frame} {e : TopoEntry} (same : ∀ m : Port, m ≠ n → t.rope.ports[m] = s.rope.ports[m])
    (alone : ∀ m : Port, m ≠ n → (s.rope.ports[m]).state ≠ .up) : t.relays n fr e = [] := by
  rw [State.relays_eq same]
  refine List.map_eq_nil_iff.2 (List.filter_eq_nil_iff.2 fun m _ => ?_)
  by_cases here : m = n
  · simp [here]
  · rw [decide_eq_false (alone m here), Bool.and_false]
    exact Bool.false_ne_true

/-- What the time in IDLE adds to the ages of what is reached through the port (R292, R296). -/
def State.aged (s : State) (n : Port) : List TopoEntry :=
  s.rope.topo.map fun e => if e.port = n then { e with seen := e.seen + (s.now - (s.rope.ports[n]).idleAt) } else e

/-- The end of a test that has not begun leaves the port where it is (R300, R301). -/
theorem State.endTest_waiting (n : Port) (other : (s.rope.ports[n]).state ≠ .test) : s.endTest n = s.portAct n [] fun p => p.ended n s.now := by
  have kept : ((s.portAct n [] fun p => p.ended n s.now).rope.ports[n]).state ≠ .test := by rw [State.portAct_at]; exact other
  have ends : s.endTest n = if ((s.portAct n [] fun p => p.ended n s.now).rope.ports[n]).state = .test then
      (s.portAct n [] fun p => p.ended n s.now).portTo n .detect else s.portAct n [] fun p => p.ended n s.now := by
    rw [← State.updPort_eq]
    rfl
  rw [ends, if_neg kept]

theorem State.mayIdle_iff (n : Port) :
    s.mayIdle n = true ↔ (s.time.source ≠ .rope ∨ s.time.port ≠ n) ∧ s.portInUse n = false := by
  rw [State.mayIdle, Bool.and_eq_true, Bool.not_eq_true', Bool.not_eq_true', Bool.and_eq_false_iff, decide_eq_false_iff_not, decide_eq_false_iff_not]

/-- A port in UP goes idle, or to a test, and reports nothing (R284, R292, R301). -/
theorem State.portTo_from_up (n : Port) (x : PortState) (up : (s.rope.ports[n]).state = .up) (still : x = .idle ∨ x = .test) :
    s.portTo n x = s.portAct n [] fun p => p.moved x := by
  have awake : decide (PortState.up = .idle) = false := rfl
  simp only [State.portTo, up, awake, Bool.false_and, Bool.false_eq_true, if_false, State.updPort_eq]
  obtain rfl | rfl := still <;> rfl

theorem State.enterIdle_eq (n : Port) (up : (s.rope.ports[n]).state = .up) : s.enterIdle n =
    s.portAct n [] fun p => { p.moved .idle with idleAt := s.now } := by
  rw [State.enterIdle, State.portTo_from_up n .idle up (.inl rfl), State.updPort_eq, State.portAct_portAct]
  rfl

end

end Sys2Proof.Machine

namespace Sys2Proof.Claims
open Sys2Proof.Machine

theorem ident_meets {s : State} {n : Port} {fr : Frame} (arrives : Arrives s n 0x40 fr) (own : fr.hops = 0)
    (ident : (s.rope.ports[n]).state = .ident) (topo : s.rope.topo = [])
    (calls : ((s.rope.ports[n]).test.running && (s.rope.ports[n]).test.waiting) = false)
    (alone : ∀ m : Port, m ≠ n → (s.rope.ports[m]).state ≠ .up) :
    Completes (.ident n fr) s fun t => let p := t.rope.ports[n]
      let lv := min (s.offer n) (fieldAt fr.body 5 1)
      OnlyPort s { t with rope := { t.rope with topo := s.rope.topo, topoChange := s.rope.topoChange } } n ∧ p.state = .up ∧ p.level = lv ∧
      p.partner = some ⟨fr.src, fieldAt fr.body 5 1, (byteAt fr.body 6).getLsbD 0, (byteAt fr.body 6).getLsbD 1⟩ ∧ t.rope.sent = s.rope.sent ∧
      t.rope.topo = (if fr.src = Config.serial then [] else
        [⟨fr.src, n, 1, min (fieldAt fr.body 5 1) lv, fieldAt fr.body 4 1 % 4, u32At fr.body 0, (byteAt fr.body 6).getLsbD 0 && t.flOk n, s.now⟩]) ∧
      t.rope.topoChange = if fr.src = Config.serial then s.rope.topoChange else s.rope.topoChange + 1 := by
  have near : fr.hops.toNat < 3 := by rw [own]; decide
  have once : crossed fr = 1 := by rw [crossed, own]; rfl
  have runs := State.exec_ident arrives
  rw [if_pos own] at runs
  generalize hears : (s.portAct n [] fun p => { p with lastRx := s.now }) = h at runs
  have port : h.rope.ports[n] = { s.rope.ports[n] with lastRx := s.now } := by rw [← hears, State.portAct_at]
  have offer : h.offer n = s.offer n := by
    rw [State.offer, State.offer, port, ← hears]
    rfl
  have now : h.now = s.now := by
    rw [← hears]
    rfl
  rw [State.meet_eq (s := h) (by rw [port]; exact ident) (by rw [← hears]; exact topo) (by rw [port]; exact calls), offer, now, ← hears,
    State.portAct_portAct] at runs
  generalize level : min (s.offer n) (fieldAt fr.body 5 1) = lv at runs
  generalize met : (s.portAct n ([] ++ []) fun p => ({ p with lastRx := s.now } : RopePort).met fr lv s.now) = m at runs
  have at_ : m.rope.ports[n] = ({ s.rope.ports[n] with lastRx := s.now } : RopePort).met fr lv s.now := by rw [← met, State.portAct_at]
  have others (j : Port) (ne : j ≠ n) : m.rope.ports[j] = s.rope.ports[j] := by rw [← met, State.portAct_other _ _ _ _ ne]
  have sent : m.rope.sent = s.rope.sent := by rw [← met]; exact List.append_nil _
  have empty : m.rope.topo = [] := by rw [← met]; exact topo
  have change : m.rope.topoChange = s.rope.topoChange := by rw [← met]; rfl
  by_cases self : fr.src = Config.serial
  · rw [State.identRest_own near self, State.relays_none others alone] at runs
    refine ⟨_, runs, ?_⟩
    dsimp only
    rw [State.portAct_at, at_, if_pos self, if_pos self]
    refine ⟨⟨?_, fun j ne => ?_⟩, rfl, rfl, rfl, ?_, empty, change⟩
    · rw [← met]
      rfl
    · exact (m.portAct_other n [] _ j ne).trans (others j ne)
    · exact (List.append_nil _).trans sent
  · have runs := runs.trans (congrArg Host.Outcome.next (State.identRest_other near self))
    have entry : m.entryOf n fr = ⟨fr.src, n, 1, min (fieldAt fr.body 5 1) lv, fieldAt fr.body 4 1 % 4, u32At fr.body 0,
        (byteAt fr.body 6).getLsbD 0 && m.flOk n, s.now⟩ := by
      rw [State.entryOf, at_, once, bitOf_byteAt, ← met]
      rfl
    have learnt : m.rope.learn (m.entryOf n fr) = { m.rope with topo := m.rope.topo ++ [m.entryOf n fr], topoChange := m.rope.topoChange + 1 } :=
      Rope.learn_new (by rw [Rope.find, empty]; rfl) (by rw [empty]; decide)
    rw [State.relays_none (s := s) (by rw [learnt]; exact others) alone, learnt, List.append_nil] at runs
    refine ⟨_, runs, ?_⟩
    dsimp only
    rw [at_, if_neg self, if_neg self, entry, empty, change]
    refine ⟨⟨?_, others⟩, rfl, rfl, rfl, sent, rfl, rfl⟩
    rw [← met]
    rfl

theorem relayedIdent_eq (b : List Byte) (e : TopoEntry) : relayedIdent b e = b.take 5 ++ [BitVec.ofNat 8 e.level,
    (if e.flPath then 1 else 0) + (if (byteAt b 6).getLsbD 1 then 2 else 0)] ++ b.drop 7 := by
  have flags (x y : Bool) : BitVec.ofNat 8 (bitAt x 0 + bitAt y 1) = (if x then 1 else 0) + (if y then 2 else 0) := by
    cases x <;> cases y <;> rfl
  simp only [relayedIdent, bitOf_byteAt, leBytes, flags, List.append_assoc, List.cons_append, List.nil_append]

theorem ident_relayed {s : State} {n m : Port} {fr : Frame} (arrives : Arrives s n 0x40 fr) (hops : fr.hops.toNat = 1 ∨ fr.hops.toNat = 2)
    (one : ((List.finRange 4).filter fun j => decide (j ≠ n) && decide ((s.rope.ports[j]).state = .up)) = [m])
    (unknown : s.rope.find fr.src = none) (room : s.rope.topo.length < 64) :
    Completes (.ident n fr) s fun t => let lv := min (fieldAt fr.body 5 1) (s.rope.ports[n]).level
      let fl := (byteAt fr.body 6).getLsbD 0 && s.flOk n
      (t.rope.ports[n]).partner = (s.rope.ports[n]).partner ∧
      t.rope.sent = s.rope.sent ++ [⟨m, 0x40, fr.hops + 1, 0, fr.src,
        fr.body.take 5 ++ [BitVec.ofNat 8 lv, (if fl then 1 else 0) + (if (byteAt fr.body 6).getLsbD 1 then 2 else 0)] ++ fr.body.drop 7⟩] ∧
      t.rope.topo = (if fr.src = Config.serial then s.rope.topo else
        s.rope.topo ++ [⟨fr.src, n, fr.hops.toNat + 1, lv, fieldAt fr.body 4 1 % 4, u32At fr.body 0, fl, s.now⟩]) := by
  have near : fr.hops.toNat < 3 := by omega
  have far : fr.hops ≠ 0 := by
    rintro zero
    rw [zero] at hops
    exact absurd hops (by decide)
  have further : BitVec.ofNat 8 (crossed fr) = fr.hops + 1 := by
    apply BitVec.eq_of_toNat_eq
    rw [crossed, BitVec.toNat_ofNat, BitVec.toNat_add]
    rfl
  have runs := State.exec_ident arrives
  rw [if_neg far] at runs
  generalize hears : (s.portAct n [] fun p => { p with lastRx := s.now }) = h at runs
  have port : h.rope.ports[n] = { s.rope.ports[n] with lastRx := s.now } := by rw [← hears, State.portAct_at]
  have others (j : Port) (ne : j ≠ n) : h.rope.ports[j] = s.rope.ports[j] := by rw [← hears, State.portAct_other _ _ _ _ ne]
  have locked : h.flOk n = s.flOk n := by
    rw [State.flOk, State.flOk, State.timeLocked, State.timeLocked, port, ← hears]
    rfl
  have entry : h.entryOf n fr = ⟨fr.src, n, fr.hops.toNat + 1, min (fieldAt fr.body 5 1) (s.rope.ports[n]).level, fieldAt fr.body 4 1 % 4,
      u32At fr.body 0, (byteAt fr.body 6).getLsbD 0 && s.flOk n, s.now⟩ := by
    rw [State.entryOf, port, bitOf_byteAt, locked, ← hears]
    rfl
  have sent : h.rope.sent = s.rope.sent := by rw [← hears]; exact List.append_nil _
  have topo : h.rope.topo = s.rope.topo := by rw [← hears]; rfl
  by_cases self : fr.src = Config.serial
  · rw [State.identRest_own near self, State.relays_eq others, one, entry, List.map_cons, List.map_nil, relayedIdent_eq, further] at runs
    refine ⟨_, runs, ?_⟩
    dsimp only
    rw [State.portAct_at, port, if_pos self]
    exact ⟨rfl, congrArg (· ++ _) sent, topo⟩
  · have runs := runs.trans (congrArg Host.Outcome.next (State.identRest_other near self))
    have learnt : h.rope.learn (h.entryOf n fr) = { h.rope with topo := h.rope.topo ++ [h.entryOf n fr], topoChange := h.rope.topoChange + 1 } :=
      Rope.learn_new (by rw [Rope.find, topo]; exact unknown) (by rw [topo]; exact room)
    rw [State.relays_eq (s := s) (by rw [learnt]; exact others), one, learnt, entry, List.map_cons, List.map_nil, relayedIdent_eq, further] at runs
    refine ⟨_, runs, ?_⟩
    dsimp only
    rw [port, if_neg self, sent, topo]
    exact ⟨rfl, rfl, rfl⟩

theorem identTimer_completes {s : State} {n : Port} {u : Nat} (due : u = (s.rope.ports[n]).identAt + 100 * usUnits)
    (state : (s.rope.ports[n]).state = .up ∨ (s.rope.ports[n]).state = .ident) (later : s.now ≤ u) (calm : Calm s) :
    Completes (.identTimer n) s fun t => t.now = u ∧ t.rope.ports[n] = { s.rope.ports[n] with identAt := t.now } ∧
      t.rope.sent.take s.rope.sent.length = s.rope.sent ∧
      (t.rope.sent.drop s.rope.sent.length).map (fun x => (x.port, x.ctype, x.hops, (x.body.drop 4).take 2)) =
        [(n, 0x40, 0, [BitVec.ofNat 8 n.val, BitVec.ofNat 8 (s.offer n)])] := by
  have frame := advance_to calm later
  generalize reached : s.advance u = w at frame
  have open_ : (decide ((s.rope.ports[n]).state = .up) || decide ((s.rope.ports[n]).state = .ident)) = true := by
    rw [Bool.or_eq_true, decide_eq_true_eq, decide_eq_true_eq]
    exact state
  have runs : exec (.identTimer n) s = .next (w.sendIdent n) := by
    change execIdentTimer n s = _
    unfold execIdentTimer
    dsimp only
    rw [open_, if_pos rfl, ← due, reached]
  rw [State.sendIdent_body] at runs
  have sent : w.rope.sent = s.rope.sent := by rw [frame]
  have offer : w.offer n = s.offer n := by rw [frame]; rfl
  refine ⟨_, runs, by rw [frame]; rfl, ?_, ?_, ?_⟩
  · rw [State.portAct_at, frame]
    rfl
  · rw [← sent]
    exact List.take_left ..
  · rw [← offer, ← sent]
    exact congrArg (List.map _) (List.drop_left ..)

theorem topoAgeOut_completes {s : State} {i : Fin 64} {e : TopoEntry} {u : Nat}
    (due : u = (if e.hops = 1 then (s.rope.ports[e.port]).lastRx else e.seen) + msUnits) (entry : s.rope.topo[i.val]? = some e)
    (awake : (s.rope.ports[e.port]).state ≠ .idle) (later : s.now ≤ u) (calm : Calm s) :
    Completes (.topoAgeOut i) s fun t => t.now = u ∧ t.rope.topo = s.rope.topo.filter (fun x => x.serial ≠ e.serial) ∧
      t.rope.topoChange = s.rope.topoChange + 1 ∧ t.rope.ports = s.rope.ports := by
  have frame := advance_to calm later
  generalize reached : s.advance u = w at frame
  have ages : s.agesAt e = some u := by
    rw [State.agesAt, if_neg awake, ← due]
  have runs : exec (.topoAgeOut i) s = .next { w with rope := w.rope.forget e.serial } := by
    change execTopoAgeOut i s = _
    unfold execTopoAgeOut
    rw [entry]
    dsimp only
    rw [ages]
    dsimp only
    rw [reached]
  refine ⟨_, runs, ?_⟩
  rw [frame]
  exact ⟨rfl, rfl, rfl, rfl⟩

theorem idleEntry_completes {s : State} {n : Port} {u : Nat} (due : u = (s.rope.ports[n]).lastBusy + msUnits) (up : (s.rope.ports[n]).state = .up)
    (lone : s.mayIdle n = true) (later : s.now ≤ u) (calm : Calm s) :
    Completes (.idleEntry n) s fun t => t.now = u ∧ (t.rope.ports[n]).state = .idle ∧
      (t.rope.ports[n]).idleAt = t.now ∧ (t.rope.ports[n]).partner = (s.rope.ports[n]).partner ∧ (t.rope.ports[n]).level = (s.rope.ports[n]).level ∧
      (t.rope.ports[n]).loss = (s.rope.ports[n]).loss ∧ t.flt = s.flt ∧
      t.rope.sent = s.rope.sent ++ [⟨n, 0x60, 0, 0, Config.serial, List.replicate 16 0⟩] := by
  have frame := advance_to calm later
  generalize reached : s.advance u = w at frame
  have up' : (w.rope.ports[n]).state = .up := by rw [frame]; exact up
  have open_ : (decide ((s.rope.ports[n]).state ≠ .up) || !s.mayIdle n) = false := by
    rw [up, lone]
    rfl
  have runs : exec (.idleEntry n) s = .next (w.portAct n [⟨n, 0x60, 0, 0, Config.serial, List.replicate 16 0⟩] fun p =>
      { ({ p with lastBusy := w.now } : RopePort).moved .idle with idleAt := w.now }) := by
    change execIdleEntry n s = _
    unfold execIdleEntry
    rw [open_, if_neg Bool.false_ne_true, ← due, reached, State.sendOn_eq _ _ _ (by decide),
      State.enterIdle_eq _ (by rw [State.portAct_at]; exact up'), State.portAct_portAct]
    rfl
  refine ⟨_, runs, ?_⟩
  dsimp only
  rw [State.portAct_at, frame]
  exact ⟨rfl, rfl, rfl, rfl, rfl, rfl, rfl, rfl⟩

/-- A port in UP hears a frame that is no probe. -/
theorem up_of_arrives {s : State} {n : Port} {c : Byte} {fr : Frame} (arrives : Arrives s n c fr) (work : 0x60 ≤ c.toNat) :
    (s.rope.ports[n]).state = .up := by
  obtain ⟨takes, -⟩ := arrives
  have no (x : Byte) (low : x.toNat < 0x60) : decide (c = x) = false := decide_eq_false fun h => by rw [h] at work; omega
  generalize (s.rope.ports[n]).state = x at takes
  cases x with
  | up => rfl
  | train =>
    simp only [PortState.takes, no 0x50 (by decide), no 0x51 (by decide)] at takes
    cases takes
  | align =>
    simp only [PortState.takes, no 0x40 (by decide), no 0x50 (by decide), no 0x52 (by decide), no 0x53 (by decide)] at takes
    cases takes
  | ident =>
    simp only [PortState.takes, no 0x40 (by decide), no 0x52 (by decide)] at takes
    cases takes
  | disabled => cases takes
  | detect => cases takes
  | idle => cases takes
  | test => cases takes

/-- A port in UP, having heard a frame, is in UP. -/
theorem heard_up {s : State} {n : Port} (up : (s.rope.ports[n]).state = .up) : ((s.heard n).rope.ports[n]).state = .up := by
  rw [State.heard_eq, State.portAct_at]
  exact up

theorem exec_idleNotice {s : State} {n : Port} {fr : Frame} (arrives : Arrives s n 0x60 fr) : exec (.idleNotice n fr) s =
    .next (s.portAct n [] fun p => { ({ p with lastRx := s.now, lastBusy := s.now } : RopePort).moved .idle with idleAt := s.now }) := by
  change Host.Outcome.next (s.receive n 0x60 fr _) = _
  rw [State.receive_arrives _ arrives (by decide) (by decide), State.enterIdle_eq _ (heard_up (up_of_arrives arrives (by decide))), State.heard_eq, State.portAct_portAct]
  rfl

theorem exec_loopReq_lone {s : State} {n : Port} {fr : Frame} (arrives : Arrives s n 0x61 fr) (lone : s.mayIdle n = true) :
    exec (.loopReq n fr) s = .next (s.portAct n [⟨n, 0x62, 0, 0, Config.serial, List.replicate 16 0⟩] fun p =>
      { ({ p with lastRx := s.now, lastBusy := s.now } : RopePort).moved .test with remoteLoop := true }) := by
  have may : (s.heard n).mayIdle n = true := lone
  change Host.Outcome.next (s.receive n 0x61 fr _) = _
  rw [State.receive_arrives _ arrives (by decide) (by decide), may, if_neg (by decide), State.sendOn_eq _ _ _ (by decide),
    State.portTo_from_up _ _ (by rw [State.portAct_at]; exact heard_up (up_of_arrives arrives (by decide))) (.inr rfl), State.updPort_eq, State.heard_eq,
    State.portAct_portAct, State.portAct_portAct, State.portAct_portAct]
  rfl

theorem exec_loopReq_busy {s : State} {n : Port} {fr : Frame} (arrives : Arrives s n 0x61 fr) (busy : s.mayIdle n = false) :
    exec (.loopReq n fr) s = .next (s.portAct n [⟨n, 0x62, 0, 0, Config.serial, 1 :: List.replicate 15 0⟩] fun p =>
      { p with lastRx := s.now, lastBusy := s.now }) := by
  have may : (s.heard n).mayIdle n = false := busy
  change Host.Outcome.next (s.receive n 0x61 fr _) = _
  rw [State.receive_arrives _ arrives (by decide) (by decide), may, if_pos (by decide), State.sendOn_eq _ _ _ (by decide), State.heard_eq, State.portAct_portAct]
  rfl

theorem exec_loopAck {s : State} {n : Port} {fr : Frame} (arrives : Arrives s n 0x62 fr) (running : (s.rope.ports[n]).test.running = true)
    (waiting : (s.rope.ports[n]).test.waiting = true) : exec (.loopAck n fr) s = .next (s.portAct n [] fun p =>
      let p := { p with lastRx := s.now, lastBusy := s.now }
      if byteAt fr.body 0 = 0 then { p.moved .test with test := { p.test with waiting := false } }
      else { p.ended n s.now with test := { (p.ended n s.now).test with refused := true } }) := by
  have up := heard_up (up_of_arrives arrives (by decide))
  have test : ((s.heard n).rope.ports[n]).test = (s.rope.ports[n]).test := by rw [State.heard_eq, State.portAct_at]
  have zero : fieldAt fr.body 0 1 ≠ 0 ↔ ¬ byteAt fr.body 0 = 0 := by
    rw [fieldAt_one, ne_eq, not_iff_not]
    exact ⟨fun h => BitVec.eq_of_toNat_eq h, fun h => by rw [h]; rfl⟩
  change Host.Outcome.next (s.receive n 0x62 fr _) = _
  rw [State.receive_arrives _ arrives (by decide) (by decide)]
  dsimp only
  rw [test, running, waiting, if_neg (by decide)]
  by_cases ok : byteAt fr.body 0 = 0
  · rw [if_neg fun h => zero.1 h ok, State.portTo_from_up _ _ up (.inr rfl), State.updPort_eq, State.heard_eq, State.portAct_portAct,
      State.portAct_portAct]
    refine congrArg Host.Outcome.next (State.portAct_congr _ _ _ _ ?_)
    rw [if_pos ok]
    rfl
  · have ends : (s.heard n).endTest n = (s.heard n).portAct n [] fun p => p.ended n s.now :=
      State.endTest_waiting (s := s.heard n) n (by rw [up]; decide)
    rw [if_pos (zero.2 ok), ends, State.updPort_eq, State.heard_eq, State.portAct_portAct, State.portAct_portAct]
    refine congrArg Host.Outcome.next (State.portAct_congr _ _ _ _ ?_)
    rw [if_neg ok]

theorem testEnd_completes {s : State} {n : Port} {u : Nat} (endAt : (s.rope.ports[n]).test.endAt = some u) (test : (s.rope.ports[n]).state = .test)
    (later : s.now ≤ u) (calm : Calm s) :
    Completes (.testEnd n) s fun t => t.now = u ∧ (t.rope.ports[n]).state = .detect ∧ (t.rope.ports[n]).test.running = false ∧ (t.rope.ports[n]).test.done = true ∧
      (t.rope.ports[n]).test.bits = (s.rope.ports[n]).test.checked u ∧ (t.rope.ports[n]).test.errs = (s.rope.ports[n]).test.errsAt n u ∧
      (t.rope.ports[n]).test.endAt = none ∧ ∀ m : Port, m ≠ n → t.rope.ports[m] = s.rope.ports[m] := by
  have frame := advance_to calm later
  generalize reached : s.advance u = w at frame
  have runs : exec (.testEnd n) s = .next (w.portAct n [] fun p => (p.ended n w.now).moved .detect) := by
    change execTestEnd n s = _
    unfold execTestEnd
    rw [endAt]
    dsimp only
    rw [reached, State.endTest_eq _ (by rw [frame]; exact test)]
  refine ⟨_, runs, ?_⟩
  dsimp only
  rw [State.portAct_at, frame]
  exact ⟨rfl, rfl, rfl, rfl, rfl, rfl, rfl, fun m ne => State.portAct_other _ _ _ _ ne⟩

theorem leaveIdle_fast {s : State} {n : Port} (idle : (s.rope.ports[n]).state = .idle)
    (short : s.now < (s.rope.ports[n]).idleAt + 100 * msUnits) (low : -15 ≤ s.hotDegrees - (s.rope.ports[n]).trainTemp.toInt)
    (high : s.hotDegrees - (s.rope.ports[n]).trainTemp.toInt ≤ 15) :
    ∃ f : RopePort → RopePort, s.leaveIdle n = { s with rope := { s.rope with topo := s.aged n, ports := upd s.rope.ports n f } } ∧
      (f s.rope.ports[n]).state = .up ∧ (f s.rope.ports[n]).lastBusy = s.now ∧
      (f s.rope.ports[n]).lastRx = (s.rope.ports[n]).lastRx + (s.now - (s.rope.ports[n]).idleAt) := by
  have fast : (decide ((s.rope.ports[n]).idleAt + 100 * msUnits ≤ s.now) || decide (15 < s.hotDegrees - (s.rope.ports[n]).trainTemp.toInt) ||
      decide (s.hotDegrees - (s.rope.ports[n]).trainTemp.toInt < -15)) = false := by
    rw [decide_eq_false (Nat.not_le.2 short), decide_eq_false (by omega), decide_eq_false (by omega)]
    rfl
  unfold State.leaveIdle
  dsimp only
  rw [if_neg (by rw [idle]; decide), fast]
  simp only [Bool.false_eq_true, if_false, State.holdAges, upd_upd]
  exact ⟨_, rfl, rfl, rfl, rfl⟩

theorem leaveIdle_slow {s : State} {n : Port} (idle : (s.rope.ports[n]).state = .idle)
    (slow : s.now ≥ (s.rope.ports[n]).idleAt + 100 * msUnits ∨ s.hotDegrees - (s.rope.ports[n]).trainTemp.toInt < -15 ∨
      s.hotDegrees - (s.rope.ports[n]).trainTemp.toInt > 15) :
    ∃ f : RopePort → RopePort, s.leaveIdle n = { s with rope := { s.rope with topo := s.aged n, ports := upd s.rope.ports n f } } ∧
      (f s.rope.ports[n]).state = .train ∧ (f s.rope.ports[n]).training = some { began := s.now, lastReq := s.now } ∧
      (f s.rope.ports[n]).partner = none := by
  have slow' : (decide ((s.rope.ports[n]).idleAt + 100 * msUnits ≤ s.now) || decide (15 < s.hotDegrees - (s.rope.ports[n]).trainTemp.toInt) ||
      decide (s.hotDegrees - (s.rope.ports[n]).trainTemp.toInt < -15)) = true := by
    simp only [Bool.or_eq_true, decide_eq_true_eq]
    obtain h | h | h := slow
    · exact .inl (.inl h)
    · exact .inr h
    · exact .inl (.inr h)
  unfold State.leaveIdle
  dsimp only
  rw [if_neg (by rw [idle]; decide), slow']
  simp only [if_true, State.holdAges, upd_upd]
  exact ⟨_, rfl, rfl, rfl, rfl⟩

/-- One injection of a running test (R302). -/
theorem injectOnce_eq (x : PortTest) : let k := if x.inject = 2 then 16 else 1
    x.injectOnce = { x with injected := satAdd x.injected k, errs := if x.lockAt.isSome ∧ x.loop ≠ 0 then satAdd x.errs k else x.errs,
                            lockInj := if x.lockAt.isSome ∧ x.loop ≠ 0 then x.lockInj + k else x.lockInj } := by
  simp only [PortTest.injectOnce, Bool.and_eq_true, decide_eq_true_eq]

theorem exec_checkerLock_unfit {s : State} {n : Port} {bits : List Bool} (fits : prbsLocks (s.rope.ports[n]).test.prbs bits = false) :
    exec (.checkerLock n bits) s = .next s := by
  have shut : (!(s.rope.ports[n]).tests || (s.rope.ports[n]).test.lockAt.isSome || !prbsLocks (s.rope.ports[n]).test.prbs bits) = true := by
    rw [fits, Bool.not_false, Bool.or_true]
  change execCheckerLock n s bits = _
  unfold execCheckerLock
  exact if_pos shut

theorem exec_checkerLock_fit {s : State} {n : Port} {bits : List Bool} (tests : (s.rope.ports[n]).tests = true)
    (free : (s.rope.ports[n]).test.lockAt = none) (fits : prbsLocks (s.rope.ports[n]).test.prbs bits = true) :
    exec (.checkerLock n bits) s = .next (s.portAct n [] fun p => { p with test := { p.test with
      lockAt := some s.now, everLock := true, lockInj := 0,
      firstAt := if (s.rope.ports[n]).test.everLock = false ∧ (s.rope.ports[n]).test.inject ≠ 0 then some (s.now + usUnits)
        else (s.rope.ports[n]).test.firstAt } }) := by
  have open_ : ¬(!(s.rope.ports[n]).tests || (s.rope.ports[n]).test.lockAt.isSome || !prbsLocks (s.rope.ports[n]).test.prbs bits) = true := by
    rw [tests, free, fits]
    decide
  have first : (if (s.rope.ports[n]).test.everLock || decide ((s.rope.ports[n]).test.inject = 0) then (s.rope.ports[n]).test.firstAt
      else some (s.now + usUnits)) =
      if (s.rope.ports[n]).test.everLock = false ∧ (s.rope.ports[n]).test.inject ≠ 0 then some (s.now + usUnits)
        else (s.rope.ports[n]).test.firstAt := by
    cases (s.rope.ports[n]).test.everLock with
    | true => simp
    | false => simp
  change execCheckerLock n s bits = _
  unfold execCheckerLock
  refine (if_neg open_).trans ?_
  dsimp only
  rw [first, State.updPort_eq]

theorem exec_checkerLockLoss {s : State} {n : Port} {bits errs u : Nat} (locked : (s.rope.ports[n]).test.lockAt = some u) (many : 256 ≤ errs)
    (among : errs ≤ bits) : exec (.checkerLockLoss n bits errs) s = .next (s.portAct n [] fun p => { p with test := { p.test with
      lockAt := none, lockLoss := satInc p.test.lockLoss, bits := p.test.bits + BitVec.ofNat 64 bits, errs := satAdd p.test.errs (errs - p.test.lockInj) } }) := by
  have open_ : ¬((s.rope.ports[n]).test.lockAt.isNone || decide (errs < 256) || decide (bits < errs)) = true := by
    rw [locked, decide_eq_false (Nat.not_lt.2 many), decide_eq_false (Nat.not_lt.2 among)]
    exact Bool.false_ne_true
  change execCheckerLockLoss n bits errs s = _
  unfold execCheckerLockLoss
  rw [if_neg open_, State.updPort_eq]

theorem exec_testInject {s : State} {n : Port} {w : Word} (bar : s.barOpen 0 = true) (now : w.getLsbD 0 = true)
    (tests : (s.rope.ports[n]).tests = true) (kind : (s.rope.ports[n]).test.inject ≠ 0) :
    exec (.testInject n w) s = .next (s.portAct n [] fun p => { p with test := p.test.injectOnce }) := by
  have open_ : ¬(!s.barOpen 0 || !w.getLsbD 0 || !(s.rope.ports[n]).tests || decide ((s.rope.ports[n]).test.inject = 0)) = true := by
    rw [bar, now, tests, decide_eq_false kind]
    decide
  change execTestInject n w s = _
  unfold execTestInject
  refine (if_neg open_).trans ?_
  rw [State.updPort_eq]

theorem exec_testFirstInjection {s : State} {n : Port} {u : Nat} (first : (s.rope.ports[n]).test.firstAt = some u) :
    exec (.testFirstInjection n) s = .next ((s.advance u).portAct n [] fun p => { p with test := { p.test.injectOnce with firstAt := none } }) := by
  change execTestFirstInjection n s = _
  unfold execTestFirstInjection
  rw [first]
  dsimp only
  rw [State.updPort_eq]

/-- Settles O53: each frame, timer and write moves one port by its rule; an IDENT makes its entry besides and goes on to the ports that are up. -/
theorem discoveryIdlingAndTests : Obligations.DiscoveryIdlingAndTests := by
  unfold Obligations.DiscoveryIdlingAndTests
  intro offer drift lone
  have notLone (s : State) (n : Port) (h : ¬ lone s n) : s.mayIdle n = false := by
    rw [← Bool.not_eq_true, State.mayIdle_iff]
    exact h
  refine ⟨?meets, ?relayed, ?timer, ?ages, ?idles, ?notice, ?fast, ?slow, ?granted, ?denied, ?ack, ?ends, ?unlocked, ?locked, ?loss, ?first, ?inject⟩
  case meets => exact fun s n fr arrives own ident topo calls alone => ident_meets arrives own ident topo calls alone
  case relayed => exact fun s n m fr arrives hops _ _ one unknown room => ident_relayed arrives hops one unknown room
  case timer => exact fun s n state later calm => identTimer_completes (hundredUs _) state later calm
  case ages => exact fun s i e entry awake later calm => topoAgeOut_completes (oneMs _) entry awake later calm
  case idles => exact fun s n up alone later calm => idleEntry_completes (oneMs _) up ((State.mayIdle_iff n).2 alone) later calm
  case notice =>
    intro s n fr arrives
    refine ⟨_, exec_idleNotice arrives, State.portAct_only .., List.append_nil _, ?_⟩
    rw [State.portAct_at]
    exact ⟨rfl, rfl, rfl⟩
  case fast =>
    intro s n idle short low high
    rw [hundredMs] at short
    obtain ⟨f, leaves, state, busy, rx⟩ := leaveIdle_fast idle short low high
    have runs : exec (.idleExit n) s = .next (s.leaveIdle n) := rfl
    rw [leaves] at runs
    refine ⟨_, runs, ?_⟩
    dsimp only
    rw [upd_get_same]
    exact ⟨state, busy, rx, rfl, rfl, fun m ne => upd_get_other _ _ _ _ (Ne.symm ne)⟩
  case slow =>
    intro s n idle why
    rw [hundredMs] at why
    obtain ⟨f, leaves, state, training, partner⟩ := leaveIdle_slow idle why
    have runs : exec (.idleExit n) s = .next (s.leaveIdle n) := rfl
    rw [leaves] at runs
    refine ⟨_, runs, ?_⟩
    dsimp only
    rw [upd_get_same]
    exact ⟨state, training, partner, rfl, fun m ne => upd_get_other _ _ _ _ (Ne.symm ne)⟩
  case granted =>
    intro s n fr arrives alone
    refine ⟨_, exec_loopReq_lone arrives ((State.mayIdle_iff n).2 alone), State.portAct_only .., ?_⟩
    rw [State.portAct_at]
    exact ⟨rfl, rfl, rfl, rfl⟩
  case denied =>
    intro s n fr arrives busy
    refine ⟨_, exec_loopReq_busy arrives (notLone s n busy), State.portAct_only .., ?_⟩
    rw [State.portAct_at]
    exact ⟨up_of_arrives arrives (by decide), rfl⟩
  case ack =>
    intro s n fr arrives running waiting
    refine ⟨_, exec_loopAck arrives running waiting, State.portAct_only .., List.append_nil _, ?_⟩
    rw [State.portAct_at]
    dsimp only
    by_cases ok : byteAt fr.body 0 = 0
    · rw [if_pos ok, if_pos ok]
      exact ⟨rfl, rfl, rfl⟩
    · rw [if_neg ok, if_neg ok]
      have up := up_of_arrives arrives (by decide)
      exact ⟨rfl, up, rfl, rfl⟩
  case ends => exact fun s n u => testEnd_completes
  case unlocked => exact fun s n bits fits => ⟨s, exec_checkerLock_unfit fits, rfl⟩
  case locked =>
    intro s n bits tests free fits
    refine ⟨_, exec_checkerLock_fit tests free fits, State.portAct_only .., List.append_nil _, ?_⟩
    rw [State.portAct_at]
    exact ⟨rfl, rfl⟩
  case loss =>
    intro s n bits errs u locked many among
    refine ⟨_, exec_checkerLockLoss locked many among, State.portAct_only .., List.append_nil _, ?_⟩
    rw [State.portAct_at]
    exact ⟨rfl, rfl⟩
  case first =>
    intro s n u first later calm
    have frame := advance_to calm later
    have runs := exec_testFirstInjection first
    generalize s.advance u = w at frame runs
    refine ⟨_, runs, by rw [frame]; rfl, ?_⟩
    rw [State.portAct_at, frame, injectOnce_eq]
  case inject =>
    intro s n w bar now tests kind
    refine ⟨_, exec_testInject bar now tests kind, State.portAct_only .., List.append_nil _, ?_⟩
    rw [State.portAct_at, injectOnce_eq]

end Sys2Proof.Claims

namespace Sys2Proof.Machine
variable (s : State)

/-! ## Arming (R10, R66) -/

theorem SiteRec.pends_none (r : SiteRec) (b : BitVec 8) (req : r.req = 0) : r.pends b = false := by
  simp [SiteRec.pends, req]

theorem State.foldl_swap_gens (l : List Cluster) (f : State → Cluster → State) (h : ∀ u c, (f u c).gens = (u.updGen c GenSlots.swap).gens) :
    (l.foldl f s).gens = (l.foldl (fun u c => u.updGen c GenSlots.swap) s).gens := by
  suffices same : ∀ u v : State, u.gens = v.gens → (l.foldl f u).gens = (l.foldl (fun u c => u.updGen c GenSlots.swap) v).gens from same s s rfl
  induction l with
  | nil => exact fun _ _ e => e
  | cons c l ih =>
    refine fun u v e => ih _ _ ?_
    rw [h, State.updGen_gens, State.updGen_gens, e]

/-- `t` is `s` but for what an arm point of site `k` touches; the generations of its clusters are swapped. -/
def ArmFrame (k : Cluster) (t : State) : Prop :=
  t = { s with cl := t.cl, gens := t.gens, cal := t.cal, flt := t.flt, present := t.present, rejoin := t.rejoin, rope := t.rope, seqs := t.seqs,
               sites := t.sites } ∧
  (∀ c : Cluster, t.gens[c] = if s.siteOf[c] = k then (s.gens[c]).swap else s.gens[c]) ∧ (∀ j : Cluster, j ≠ k → t.seqs[j] = s.seqs[j])

/-- An arm point with no stop or abort pending: the site is armed, and its start is no longer pending (R66). -/
theorem State.doArm_armed (k : Cluster) (a : Armed) (d : Descriptor) (quiet : (s.sites[k]).pends (reqStop ||| reqAbort) = false) :
    let t := s.doArm k a d
    ArmFrame s k t ∧ (∃ m n, t.sites[k] = { s.sites[k] with state := .armed, curGen := m, pendGen := n }) ∧ (t.seqs[k]).start = none ∧
    (t.seqs[k]).desc = some d ∧ ((t.seqs[k]).armed.map fun x => { x with ready := true }) = some { a with ready := true } := by
  unfold State.doArm
  extract_lets at_ s1 first s2 g hops ready s3 s4 rope s5 t
  obtain ⟨v, due⟩ : ∃ v, s1 = { s with cal := v } := ⟨_, s.accountDue_eq k⟩
  have loop : s2 = { s1 with cl := s2.cl, gens := s2.gens, cal := s2.cal, flt := s2.flt, present := s2.present, rejoin := s2.rejoin } := by
    refine foldl_frame s1 _ _ (fun s t : State => t = { s with cl := t.cl, gens := t.gens, cal := t.cal, flt := t.flt, present := t.present, rejoin := t.rejoin })
      (fun _ => rfl) (fun a b c hb hc => ?_) fun _ _ => rfl
    rw [hc, hb]
  have gens (c : Cluster) : s2.gens[c] = if s.siteOf[c] = k then (s.gens[c]).swap else s.gens[c] := by
    have swapped : s2.gens = _ := s1.foldl_swap_gens (s1.members k) _ fun _ _ => rfl
    rw [swapped, s1.foldl_updGen_get _ _ (s1.members_nodup k) c, due]
    simp only [State.mem_members]
  have seqs : s2.seqs = s.seqs := by rw [loop, due]
  have sites : s2.sites = s.sites := by rw [loop, due]
  clear_value s2 s1
  have levelled : s5 = { s4 with rope := s5.rope } := by
    dsimp only [s5]
    split <;> rfl
  obtain ⟨m, n, here⟩ : ∃ m n, s5.sites[k] = { s.sites[k] with state := .armed, curGen := m, pendGen := n } := by
    rw [levelled, ← sites]
    exact ⟨_, _, upd_get_same ..⟩
  have calm : (s5.sites[k]).pends (reqStop ||| reqAbort) = false := by
    rw [here]
    exact quiet
  have armed : t = s5 := if_neg (by rw [calm]; exact Bool.false_ne_true)
  rw [armed]
  refine ⟨⟨?_, fun c => ?_, fun j ne => ?_⟩, ⟨m, n, here⟩, ?_, ?_, ?_⟩
  · have shape : s4 = { s2 with seqs := s4.seqs, sites := s4.sites } := rfl
    rw [levelled, shape, loop, due]
  · rw [← gens, levelled]
    rfl
  · rw [levelled, ← seqs]
    exact (upd_get_other _ _ _ _ (Ne.symm ne))
  · rw [levelled]
    change (upd s2.seqs k _)[k].start = none
    rw [upd_get_same]
  · rw [levelled]
    change (upd s2.seqs k _)[k].desc = some d
    rw [upd_get_same]
  · rw [levelled]
    change ((upd s2.seqs k _)[k].armed.map _) = _
    rw [upd_get_same]
    rfl

theorem State.doArm_frame (k : Cluster) (a : Armed) (d : Descriptor) (req : (s.sites[k]).req = 0) : let t := s.doArm k a d
    ArmFrame s k t ∧ (t.sites[k]).state = .armed ∧ (t.sites[k]).req = 0 ∧ (t.seqs[k]).start = none ∧
    ((t.seqs[k]).armed.map fun x => { x with ready := true }) = some { a with ready := true } := by
  obtain ⟨frame, ⟨m, n, site⟩, start, -, armed⟩ := s.doArm_armed k a d (SiteRec.pends_none _ _ req)
  refine ⟨frame, ?_, ?_, start, armed⟩
  · rw [site]
  · rw [site]
    exact req

/-- With nothing published in the instant's own cycle, the site is as the sequencer sees it (R243). -/
theorem State.holdBack_same (k : Cluster) (d : Int) (front : s.earlier (s.recent[k]).frontAt d = true)
    (commits : ∀ c ∈ s.members k, s.earlier (s.recent[c]).commitAt d = true) : s.holdBack k d = s := by
  unfold State.holdBack
  rw [if_pos front]
  refine List.foldlRecOn (motive := fun u : State => u = s) _ _ rfl fun u same c mem => ?_
  rw [same, if_pos (commits c mem)]

theorem State.giveBack_same (s s0 : State) (k : Cluster) (d : Int) (front : s0.earlier (s0.recent[k]).frontAt d = true)
    (commits : ∀ c ∈ s.members k, s0.earlier (s0.recent[c]).commitAt d = true) : ∃ n, s.giveBack s0 k d = s.updSite k fun r => { r with pendGen := n } := by
  unfold State.giveBack
  rw [if_pos front]
  extract_lets t u
  have same : u = s := by
    refine List.foldlRecOn (motive := fun u : State => u = s) _ _ rfl fun u same c mem => ?_
    rw [same, if_pos (commits c mem)]
  rw [same]
  exact ⟨_, rfl⟩

/-! ## The site records as time passes (R441) -/

/-- Time alone moves the requests of a site, and nothing else of its record. -/
theorem State.handshakes_site (n : Nat) (k : Cluster) : (State.handshakes n s).sites[k] =
    { s.sites[k] with req := ((State.handshakes n s).sites[k]).req, reqAck := ((State.handshakes n s).sites[k]).reqAck } := by
  induction n generalizing s with
  | zero => rfl
  | succ n ih =>
    have step : s.handshakeStep.sites[k] = (handshake s.sites[k] s.reqWait[k]).1 := Vector.getElem_ofFn ..
    refine (ih s.handshakeStep).trans ?_
    rw [step]
    rfl

/-- A site without a request gets none as time passes. -/
theorem State.handshakes_quiet (n : Nat) (k : Cluster) (req : (s.sites[k]).req = 0) (wait : s.reqWait[k] = 0) :
    ((State.handshakes n s).sites[k]).req = 0 := by
  induction n generalizing s with
  | zero => exact req
  | succ n ih =>
    refine ih s.handshakeStep ?_ ?_
    · have step : s.handshakeStep.sites[k] = (handshake s.sites[k] s.reqWait[k]).1 := Vector.getElem_ofFn ..
      rw [step]
      unfold handshake
      dsimp only
      rw [req, wait]
      simp
    · have step : s.handshakeStep.reqWait[k] = (handshake s.sites[k] s.reqWait[k]).2 := Vector.getElem_ofFn ..
      rw [step]
      unfold handshake
      dsimp only
      rw [wait]
      simp

theorem State.handshakes_congr {u v : State} (n : Nat) (sites : u.sites = v.sites) (wait : u.reqWait = v.reqWait) :
    (State.handshakes n u).sites = (State.handshakes n v).sites ∧ (State.handshakes n u).reqWait = (State.handshakes n v).reqWait := by
  induction n generalizing u v with
  | zero => exact ⟨sites, wait⟩
  | succ n ih => exact ih (by simp only [State.handshakeStep, sites, wait]) (by simp only [State.handshakeStep, sites, wait])

theorem State.advance_handshakes {t : Nat} (calm : Claims.Calm s) : ∃ n, (s.advance t).sites = (State.handshakes n s).sites := by
  by_cases past : t ≤ s.now
  · have same : s.advance t = s := if_pos past
    exact ⟨0, by rw [same]; rfl⟩
  · refine ⟨min 3 (t / nsUnits - s.now / nsUnits), ?_⟩
    have still : s.endCycle t = s := by simp [State.endCycle, calm.2]
    unfold State.advance
    rw [if_neg past, calm.1, List.isEmpty_nil, if_pos rfl, still]
    exact (State.handshakes_congr (u := { s with now := t }) (v := s) _ rfl rfl).1

/-- Network time goes on to an instant that is not past, with nothing under way. -/
theorem State.advanceNet_to {d : Int} (calm : Claims.Calm s) (later : s.net ≤ d) : let u := s.advanceNet d
    u = { s with now := u.now, sites := u.sites, reqWait := u.reqWait } ∧ u.net = d := by
  have past : s.now ≤ (d - s.netOff).toNat := by
    unfold State.net at later
    omega
  have reached : s.advanceNet d = _ := Claims.advance_to calm past
  have now : (s.advanceNet d).now = (d - s.netOff).toNat := Claims.advance_now calm past
  have off : (s.advanceNet d).netOff = s.netOff := by rw [reached]
  refine ⟨by rw [reached], ?_⟩
  unfold State.net at later ⊢
  rw [now, off]
  omega

theorem State.advanceNet_site {d : Int} (calm : Claims.Calm s) (k : Cluster) :
    ∃ req ack, (s.advanceNet d).sites[k] = { s.sites[k] with req := req, reqAck := ack } := by
  obtain ⟨n, sites⟩ := s.advance_handshakes (t := (d - s.netOff).toNat) calm
  have same : (s.advanceNet d).sites[k] = (State.handshakes n s).sites[k] := congrArg (·[k]) sites
  rw [same]
  exact ⟨_, _, s.handshakes_site n k⟩

theorem State.advanceNet_leaves (calm : Claims.Calm s) (d : Int) :
    (s.advanceNet d).seqs = s.seqs ∧ (s.advanceNet d).gens = s.gens ∧ (s.advanceNet d).gangs = s.gangs := by
  unfold State.advanceNet
  rw [State.advance_calm s _ calm.1 calm.2]
  split <;> exact ⟨rfl, rfl, rfl⟩

theorem State.advanceNet_quiet {d : Int} (calm : Claims.Calm s) (k : Cluster) (req : (s.sites[k]).req = 0) (wait : s.reqWait[k] = 0) :
    ((s.advanceNet d).sites[k]).req = 0 := by
  obtain ⟨n, sites⟩ := s.advance_handshakes (t := (d - s.netOff).toNat) calm
  have same : (s.advanceNet d).sites[k] = (State.handshakes n s).sites[k] := congrArg (·[k]) sites
  rw [same]
  exact s.handshakes_quiet n k req wait

/-! ## Arm points of a single-device site (R65 to R67) -/

theorem State.armSingle_arms {k : Cluster} {st : Start} {d : Descriptor} {t : Int} (early : st.late = false) (timed : st.mode = .atTime)
    (held : s.holdBack k t = s) (front : (s.seqs[k]).front = some d) (ready : s.canArm k st = true) (free : s.blockedAt t = false) :
    let due := st.sched.getD (t + 600 * nsUnits)
    s.armSingle k st t = (s.doArm k { mode := .atTime, desc := d, sched := due, armedAt := t, due := due,
                                      entry := some (d.candidates.headD 0) } d).giveBack s k t := by
  unfold State.armSingle
  simp only [timed, reduceCtorEq, if_false, held, front, early, ready, free, Bool.not_false, Bool.and_true, if_true]

theorem State.tryLate_stays {k : Cluster} {st : Start} (start : (s.seqs[k]).start = some st) (shut : s.canArm k st = false ∨ s.armBlocked = true) :
    s.tryLate k = s := by
  unfold State.tryLate
  rw [start]
  split
  · next e _ =>
      obtain rfl : st = _ := Option.some.inj e
      refine if_neg fun open_ => ?_
      simp only [Bool.and_eq_true, Bool.not_eq_true'] at open_
      obtain ⟨⟨⟨-, can⟩, free⟩, -⟩ := open_
      obtain h | h := shut
      · rw [h] at can
        exact Bool.false_ne_true can
      · rw [h] at free
        cases free
  · rfl

theorem State.holdBack_eq (k : Cluster) (t : Int) : ∃ q g, s.holdBack k t = { s with seqs := q, gens := g } := by
  unfold State.holdBack
  refine List.foldlRecOn (motive := fun u : State => ∃ q g, u = { s with seqs := q, gens := g }) _ _ ?_ fun u ⟨q, g, same⟩ c _ => ?_
  · split
    · exact ⟨_, _, rfl⟩
    · exact ⟨_, _, rfl⟩
  · subst same
    dsimp only
    split
    · exact ⟨_, _, rfl⟩
    · exact ⟨_, _, rfl⟩

theorem State.canArm_shut {k : Cluster} {st : Start} (shut : s.powered k = false ∨ (s.siteState k).rests = false) : s.canArm k st = false := by
  unfold State.canArm
  obtain h | h := shut <;> simp [h]

/-- A start that cannot arm at its instant is late (R67). -/
theorem State.armSingle_late {k : Cluster} {st : Start} {t : Int} (timed : st.mode = .atTime)
    (shut : s.powered k = false ∨ (s.blockedAt t = true ∧ s.armBlocked = true) ∨ (s.siteState k).rests = false) :
    s.armSingle k st t = s.updSeq k fun q => { q with start := some { st with late := true } } := by
  obtain ⟨q, g, held⟩ := s.holdBack_eq k t
  unfold State.armSingle
  rw [if_neg (by rw [timed]; decide : ¬ st.mode = .asap), held]
  extract_lets h
  split
  · refine (if_neg ?_).trans (State.tryLate_stays _ (st := { st with late := true }) (congrArg Seqr.start (upd_get_same ..)) ?_)
    · intro open_
      simp only [Bool.and_eq_true, Bool.not_eq_true'] at open_
      obtain ⟨⟨-, can⟩, free⟩ := open_
      obtain off | ⟨blocked, -⟩ | busy := shut
      · exact Bool.false_ne_true ((h.canArm_shut (.inl off)).symm.trans can)
      · rw [blocked] at free
        cases free
      · exact Bool.false_ne_true ((h.canArm_shut (.inr busy)).symm.trans can)
    · obtain off | ⟨-, blocked⟩ | busy := shut
      · exact .inl (State.canArm_shut _ (.inl off))
      · exact .inr blocked
      · exact .inl (State.canArm_shut _ (.inr busy))
  · rfl

/-! ## Event latches (R57, R58) -/

/-- An edge latched reaches the latches of its cluster and may count as late in the sequencer of its site. -/
theorem State.latchEvt_frame (c : Cluster) (line : Fin 2) : let t := s.latchEvt c line
    t = { s with cl := t.cl, seqs := t.seqs } ∧ (∀ k : Cluster, k ≠ s.siteOf[c] → t.seqs[k] = s.seqs[k]) ∧
    t.cl = upd s.cl c fun e => { e with io := e.io.latchEvt line s.now } := by
  unfold State.latchEvt
  rw [State.noteLate_eq]
  refine ⟨rfl, fun k ne => ?_, rfl⟩
  obtain h | h := (s.updCl c fun e => { e with io := e.io.latchEvt line s.now }).noteLate_cases (s.siteOf[c]) line.val c.val
  · have same := congrArg (fun u : State => u.seqs[k]) h
    exact same
  · have late := congrArg (fun u : State => u.seqs[k]) h
    exact late.trans (upd_get_other _ _ _ _ (Ne.symm ne))

/-! ## Votes (R68) -/

/-- A multi-device start that is skipped while it is armed leaves the site at rest, without a start (R68, R70). -/
theorem State.skipBurst_frame (k : Cluster) (d : BitVec 16) (armed : s.siteState k = .armed) : let t := s.skipBurst k d
    (t.sites[k]).state = .idle ∧ (t.seqs[k]).armed = none ∧ (t.seqs[k]).start = none ∧ (t.seqs[k]).notRun = true ∧
    (t.sites[k]).burstId = (s.sites[k]).burstId ∧ t.gens = s.gens := by
  have idle : (s.cancelStart k).siteState k = .idle := by
    rw [State.cancelStart_eq, if_pos armed]
    exact congrArg SiteRec.state (upd_get_same ..)
  have burst : ((s.cancelStart k).sites[k]).burstId = (s.sites[k]).burstId := by
    rw [State.cancelStart_eq, if_pos armed]
    change ((upd s.sites k _)[k]).burstId = _
    rw [upd_get_same]
  have gone : ((s.cancelStart k).seqs[k]).armed = none ∧ ((s.cancelStart k).seqs[k]).start = none := by
    rw [State.cancelStart_eq]
    exact ⟨congrArg Seqr.armed (upd_get_same ..), congrArg Seqr.start (upd_get_same ..)⟩
  have gens : (s.cancelStart k).gens = s.gens := by rw [State.cancelStart_eq]
  unfold State.skipBurst
  generalize s.cancelStart k = v at *
  dsimp only [State.fresh]
  have rests : (if SiteState.idle.rests then v.setState k .idle else v) = v.setState k .idle := if_pos rfl
  rw [idle, rests, State.releaseHeads_eq, State.setState_eq]
  refine ⟨?_, ?_, ?_, ?_, ?_, gens⟩
  · exact congrArg SiteRec.state (upd_get_same ..)
  · exact (congrArg Seqr.armed (upd_get_same ..)).trans gone.1
  · exact (congrArg Seqr.start (upd_get_same ..)).trans gone.2
  · exact congrArg Seqr.notRun (upd_get_same ..)
  · exact (congrArg SiteRec.burstId (upd_get_same ..)).trans burst

end Sys2Proof.Machine

namespace Sys2Proof.Claims
open Sys2Proof.Machine

/-- ARM_POINT of a pending start of a single-device site, at its instant (R66). -/
theorem exec_armPoint {s : State} {k : Cluster} {seq : BitVec 16} {sched : Int} (start : (s.seqs[k]).start = some ⟨.atTime, seq, some sched, false⟩)
    (single : s.gangs[k] = none) (later : s.net ≤ ceilTo (sched - 600 * nsUnits) datapathUnits) (calm : Calm s) :
    let at_ := ceilTo (sched - 600 * nsUnits) datapathUnits
    exec (.armPoint k) s = .next ((((s.advanceNet at_).armSingle k ⟨.atTime, seq, some sched, false⟩ at_).noteLevel k).repick) := by
  obtain ⟨frame, net⟩ := s.advanceNet_to calm later
  intro at_
  have alone : (s.advanceNet at_).multi k = false := by
    rw [frame]
    exact congrArg Option.isSome single
  change execArmPoint k s = _
  unfold execArmPoint
  rw [start]
  dsimp only
  rw [if_neg Bool.false_ne_true, alone, if_neg Bool.false_ne_true, net]

theorem armPoint_arms {s : State} {k : Cluster} {d : Descriptor} {seq : BitVec 16} {sched at_ : Int}
    (due : at_ = ceilTo (sched - 600 * nsUnits) datapathUnits) (start : (s.seqs[k]).start = some ⟨.atTime, seq, some sched, false⟩)
    (front : (s.seqs[k]).front = some d) (named : d.seq = seq) (single : s.gangs[k] = none) (rests : (s.siteState k).rests = true)
    (powered : s.powered k = true) (free : s.blockedAt at_ = false) (req : (s.sites[k]).req = 0) (wait : s.reqWait[k] = 0)
    (later : s.net ≤ at_) (calm : Calm s) (published : s.earlier (s.recent[k]).frontAt at_ = true)
    (committed : ∀ c ∈ s.members k, s.earlier (s.recent[c]).commitAt at_ = true) :
    Completes (.armPoint k) s fun t => t.net = at_ ∧ (t.sites[k]).state = .armed ∧ (t.seqs[k]).start = none ∧
      ((t.seqs[k]).armed.map fun a => { a with ready := true }) = some { mode := .atTime, desc := d, sched := sched, armedAt := at_, due := sched,
                                                                         entry := some (d.candidates.headD 0) } ∧
      (∀ c : Cluster, s.siteOf[c] = k → (s.gens[c]).pend.isSome = true → t.gens[c] = { s.gens[c] with
        cur := (s.gens[c]).pend.getD (s.gens[c]).cur, pend := none, pendRevert := false,
        prev := if (s.gens[c]).pendRevert then none else some (s.gens[c]).cur }) ∧
      (∀ c : Cluster, s.siteOf[c] ≠ k ∨ (s.gens[c]).pend = none → t.gens[c] = s.gens[c]) ∧
      (∀ j : Cluster, j ≠ k → t.seqs[j] = s.seqs[j]) ∧ t.host = s.host := by
  subst due
  refine ⟨_, exec_armPoint start single later calm, ?_⟩
  obtain ⟨frame, net⟩ := s.advanceNet_to calm later
  obtain ⟨r, b, site⟩ := s.advanceNet_site calm k (d := ceilTo (sched - 600 * nsUnits) datapathUnits)
  have quiet := s.advanceNet_quiet calm k req wait (d := ceilTo (sched - 600 * nsUnits) datapathUnits)
  generalize ceilTo (sched - 600 * nsUnits) datapathUnits = at_ at *
  generalize s.advanceNet at_ = u at *
  have resting : (u.siteState k).rests = true := by
    unfold State.siteState
    rw [site]
    exact rests
  have can : u.canArm k ⟨.atTime, seq, some sched, false⟩ = true := by
    unfold State.canArm
    have powered : u.powered k = true := by rw [frame]; exact powered
    have front : (u.seqs[k]).front = some d := by rw [frame]; exact front
    rw [resting, powered, front]
    simpa using named
  have held : u.holdBack k at_ = u := u.holdBack_same k at_ (by rw [frame]; exact published) (by rw [frame]; exact committed)
  have arms := u.armSingle_arms (st := ⟨.atTime, seq, some sched, false⟩) rfl rfl held (d := d) (by rw [frame]; exact front) can
    (by rw [frame]; exact free)
  rw [arms]
  dsimp only [Option.getD_some]
  obtain ⟨⟨armed, gens, seqs⟩, state, -, started, arm⟩ := u.doArm_frame k { mode := .atTime, desc := d, sched := sched, armedAt := at_, due := sched, entry := some (d.candidates.headD 0) } d quiet
  generalize u.doArm k _ d = v at *
  obtain ⟨n, back⟩ := v.giveBack_same u k at_ (by rw [frame]; exact published) (by rw [armed, frame]; exact committed)
  rw [back]
  refine ⟨?_, ?_, started, arm, fun c own pend => ?_, fun c other => ?_, fun j ne => ?_, ?_⟩
  · change v.net = at_
    rw [armed]
    exact net
  · change ((upd v.sites k _)[k]).state = _
    rw [upd_get_same]
    exact state
  · obtain ⟨p, pend⟩ := Option.isSome_iff_exists.1 pend
    change v.gens[c] = _
    rw [gens, frame, if_pos own, pend]
    unfold GenSlots.swap
    rw [pend]
    rfl
  · change v.gens[c] = _
    rw [gens, frame]
    obtain ne | none := other
    · exact if_neg ne
    · have still : (s.gens[c]).swap = s.gens[c] := by
        unfold GenSlots.swap
        rw [none]
      rw [still, ite_self]
  · change v.seqs[j] = _
    rw [seqs j ne, frame]
  · change v.host = _
    rw [armed, frame]

theorem armPoint_late {s : State} {k : Cluster} {seq : BitVec 16} {sched at_ : Int}
    (due : at_ = ceilTo (sched - 600 * nsUnits) datapathUnits) (start : (s.seqs[k]).start = some ⟨.atTime, seq, some sched, false⟩)
    (single : s.gangs[k] = none) (later : s.net ≤ at_) (calm : Calm s)
    (shut : s.powered k = false ∨ (s.blockedAt at_ = true ∧ s.armBlocked = true) ∨ (s.siteState k).rests = false) :
    Completes (.armPoint k) s fun t => t.net = at_ ∧ (t.seqs[k]).start = some ⟨.atTime, seq, some sched, true⟩ ∧ t.gens = s.gens ∧
      (t.sites[k]).state = (s.sites[k]).state ∧ (t.seqs[k]).armed = (s.seqs[k]).armed := by
  subst due
  refine ⟨_, exec_armPoint start single later calm, ?_⟩
  obtain ⟨frame, net⟩ := s.advanceNet_to calm later
  obtain ⟨r, b, site⟩ := s.advanceNet_site calm k (d := ceilTo (sched - 600 * nsUnits) datapathUnits)
  generalize ceilTo (sched - 600 * nsUnits) datapathUnits = at_ at *
  generalize s.advanceNet at_ = u at *
  have late := u.armSingle_late (k := k) (st := ⟨.atTime, seq, some sched, false⟩) (t := at_) rfl (by
    obtain off | blocked | busy := shut
    · exact .inl (by rw [frame]; exact off)
    · exact .inr (.inl (by rw [frame]; exact blocked))
    · exact .inr (.inr (by unfold State.siteState; rw [site]; exact busy)))
  rw [late]
  refine ⟨net, ?_, ?_, ?_, ?_⟩
  · exact congrArg Seqr.start (upd_get_same ..)
  · change u.gens = _
    rw [frame]
  · change (u.sites[k]).state = _
    rw [site]
  · refine (congrArg Seqr.armed (upd_get_same ..)).trans ?_
    change (u.seqs[k]).armed = _
    rw [frame]

/-- Settles O38: latches take their edges, arm points arm or are late, votes are counted, and trigger pulses end. -/
theorem eventsArmAndVote : Obligations.EventsArmAndVote := by
  unfold Obligations.EventsArmAndVote
  refine ⟨?edge, ?pulse, ?arms, ?late, ?ready, ?skips, ?ends⟩
  case edge =>
    intro s c w ready wide
    refine ⟨s.latchEvt c 0, ?_, ?_⟩
    · change execEvtEdge c 0 _ w s = _
      unfold execEvtEdge
      simp [isReady_of ready, wide]
    · obtain ⟨frame, seqs, cl⟩ := s.latchEvt_frame c 0
      refine ⟨frame, seqs, fun d => ?_⟩
      rw [cl, upd_at, upd_get_same]
      simp [EventIo.latchEvt]
  case pulse =>
    intro s c w ready narrow
    obtain ⟨frame, -, cl⟩ := s.fresh.1.latchEvt_frame c 1
    have reads : exec (.evtEdge c 1 (s.cl[c]).io.ctlIn.evt1Fall w) s =
        .next (if (Config.freeValue s.free).getLsbD 0 then s.fresh.1.latchEvt c 1 else s.fresh.1) := by
      change execEvtEdge c 1 _ w s = _
      unfold execEvtEdge
      simp only [isReady_of ready, Bool.not_true, Fin.one_eq_zero_iff, OfNat.ofNat_ne_one, if_false, ne_eq, not_true, decide_false, Bool.or_false,
        Bool.false_eq_true, Nat.not_le.2 narrow]
      rfl
    by_cases latched : (Config.freeValue s.free).getLsbD 0 = true
    · rw [if_pos latched] at reads
      refine ⟨_, reads, by rw [frame]; rfl, ?_, fun d ne => ?_⟩
      · rw [latched, cl, upd_get_same]
        simp [EventIo.latchEvt, State.fresh]
      · rw [cl]
        exact upd_get_other _ _ _ _ (Ne.symm ne)
    · rw [if_neg latched] at reads
      refine ⟨_, reads, rfl, ?_, fun d ne => rfl⟩
      rw [Bool.eq_false_of_not_eq_true latched, Bool.or_false]
      rfl
  case arms =>
    exact fun s k d seq sched start front named single rests powered free req wait later calm published committed =>
      armPoint_arms rfl start front named single rests powered free req wait later calm published committed
  case late => exact fun s k seq sched start single later calm shut => armPoint_late rfl start single later calm shut
  case ready =>
    intro s k a multi armed vote votes later calm
    obtain ⟨frame, net⟩ := s.advanceNet_to calm later
    refine ⟨(s.advanceNet (a.sched - 400 * nsUnits)).updSeq k fun q => { q with armed := some { a with vote := none } }, ?_, net, ?_, ?_, ?_⟩
    · change execVoteCount k s = _
      have counted : (s.advanceNet (a.sched - 400 * nsUnits)).votesIn k a.sched = true := by
        rw [frame]
        exact votes
      unfold execVoteCount State.multi
      rw [multi, armed]
      dsimp only
      rw [vote]
      dsimp only
      rw [counted]
      rfl
    · have same : (s.advanceNet (a.sched - 400 * nsUnits)).seqs = s.seqs := by rw [frame]
      exact congrArg (fun v => upd v k fun q : Seqr => { q with armed := some { a with vote := none } }) same
    · change (s.advanceNet (a.sched - 400 * nsUnits)).gens = _
      rw [frame]
    · change (s.advanceNet (a.sched - 400 * nsUnits)).host = _
      rw [frame]
  case skips =>
    intro s k a multi armed state votes calm
    obtain ⟨seqs, gens, gangs⟩ := s.advanceNet_leaves calm (a.sched - 400 * nsUnits)
    obtain ⟨r, b, site⟩ := s.advanceNet_site calm k (d := a.sched - 400 * nsUnits)
    obtain ⟨idle, none_, gone, notRun, burst, kept⟩ := (s.advanceNet (a.sched - 400 * nsUnits)).skipBurst_frame k a.desc.seq
      (by unfold State.siteState; rw [site]; exact state)
    refine ⟨_, ?_, idle, none_, gone, notRun, burst.trans (by rw [site]), kept.trans gens⟩
    change execVoteCount k s = _
    unfold execVoteCount State.multi
    rw [multi, armed]
    obtain own | ⟨own, missing⟩ := votes
    · dsimp only
      rw [own]
      rfl
    · have counted : (s.advanceNet (a.sched - 400 * nsUnits)).votesIn k a.sched = false := by
        unfold State.votesIn
        rw [gangs, seqs]
        exact missing
      dsimp only
      rw [own]
      dsimp only
      rw [counted]
      rfl
  case ends =>
    intro s c u until_ later calm
    obtain ⟨frame, net⟩ := s.advanceNet_to calm later
    refine ⟨(s.advanceNet u).updCl c fun e => { e with io := { e.io with trig0Until := none } }, ?_, net, fun d => ?_⟩
    · change execTrigPulseEnd c 0 s = _
      unfold execTrigPulseEnd
      simp only [if_true, until_]
    · have cl : (s.advanceNet u).cl = s.cl := by rw [frame]
      refine (upd_at ..).trans ?_
      rw [cl]

end Sys2Proof.Claims

namespace Sys2Proof.Machine
variable (s : State)

/-! ## Frames on the rope ports (R284) -/

theorem State.leaveIdle_only (n : Port) : ∃ r, s.leaveIdle n = { s with rope := r } := by
  dsimp only [State.leaveIdle]
  split
  · exact ⟨_, rfl⟩
  · exact ⟨_, rfl⟩

theorem State.emit_only (ports : List Port) (ctype hops : Byte) (tick : BitVec 16) (src : BitVec 64) (body : Nat → List Byte) :
    ∃ r, s.emit ports ctype hops tick src body = { s with rope := r } := by
  have awake : ∃ r, ports.foldl State.leaveIdle s = { s with rope := r } :=
    List.foldlRecOn (motive := fun t : State => ∃ r, t = { s with rope := r }) _ _ ⟨s.rope, rfl⟩ fun t ⟨r, same⟩ n _ => by
      obtain ⟨r', left⟩ := t.leaveIdle_only n
      exact ⟨r', by rw [left, same]⟩
  obtain ⟨r, awake⟩ := awake
  unfold State.emit
  rw [awake]
  exact ⟨_, rfl⟩

theorem State.issue_only (c : Bool) (ctype : Byte) (body : Nat → List Byte) : ∃ r, (if c then s.issue ctype body else s) = { s with rope := r } := by
  split
  · exact State.emit_only ..
  · exact ⟨_, rfl⟩

/-! ## A play begins (R48, R55, R95, R99) -/

/-- `t` is `s` but for what the start of a play of site `k` touches. -/
def PlayStarts (t : State) (k : Cluster) : Prop :=
  t = { s with cl := t.cl, seqs := t.seqs, mem := { s.mem with srExit := t.mem.srExit }, rope := t.rope } ∧
  (∀ j : Cluster, j ≠ k → t.seqs[j] = s.seqs[j]) ∧
  t.seqs[k] = { s.seqs[k] with play := (t.seqs[k]).play, stall := (t.seqs[k]).stall, curEntry := (t.seqs[k]).curEntry, spans := (t.seqs[k]).spans,
                               vectors := (t.seqs[k]).vectors }

/-- The play entry `i` begins at `t` (R48). -/
def State.playOf (k : Cluster) (i : Nat) (e : Entry) (t : Int) (va : Nat) (belay : Bool) : Play :=
  { entry := i, start := t, vaddr := va, len := s.segLen k e.segment, period := ((s.config k).timing[e.tset]).period,
    tset := BitVec.ofNat 6 e.tset.val, lset := BitVec.ofNat 4 e.lset.val, belay := belay }

theorem State.askHbm_only (c : Bool) : ∃ x, (if c then s.askHbm else s) = { s with mem := { s.mem with srExit := x } } := by
  unfold State.askHbm
  split
  · split
    · exact ⟨_, rfl⟩
    · exact ⟨_, rfl⟩
  · exact ⟨_, rfl⟩

theorem State.startPlay_eq {k : Cluster} {i : Nat} {e : Entry} (entry : s.entry k i = some e) (t : Int) (va : Nat) (belay first : Bool) :
    let p := s.playOf k i e t va belay
    ∃ x v r, s.startPlay k i t va belay first = State.playTo { s with
      mem := { s.mem with srExit := x }, cl := v, rope := r,
      seqs := upd s.seqs k fun q => { q with play := some p, stall := none, curEntry := BitVec.ofNat 16 i,
                                             spans := q.spans ++ [⟨t, p.period, va, p.len⟩] } } k t := by
  obtain ⟨x, asked⟩ := s.askHbm_only (s.readsHbm k e.segment)
  unfold State.startPlay
  rw [entry]
  dsimp only
  rw [asked]
  obtain ⟨v, cl⟩ := State.updMembers_only { s with mem := { s.mem with srExit := x } } k fun c eng =>
    eng.startPlay (State.config { s with mem := { s.mem with srExit := x } } c) e t
      (!first && decide ((s.cl[k]).tim.curTset ≠ BitVec.ofNat 6 e.tset.val))
  rw [cl]
  generalize begun : State.updSeq _ k _ = u
  obtain ⟨r, sent⟩ := u.issue_only e.ropeTrig 0x30 fun l => leBytes 1 k.val ++ [0] ++ leBytes 2 i ++ sendTime t l
  refine ⟨x, v, r, ?_⟩
  rw [sent, ← begun]
  rfl

theorem State.startPlay_frame {k : Cluster} {i : Nat} {e : Entry} (entry : s.entry k i = some e) (at_ : Int) (va : Nat) (belay first : Bool) :
    let t := s.startPlay k i at_ va belay first
    let per := ((s.config k).timing[e.tset]).period
    PlayStarts s t k ∧ ((t.seqs[k]).play.map fun p => (p.entry, p.start, p.vaddr, p.len, p.period)) = some (i, at_, va, s.segLen k e.segment, per) ∧
    (t.seqs[k]).curEntry = BitVec.ofNat 16 i ∧ (t.seqs[k]).spans = (s.seqs[k]).spans ++ [⟨at_, per, va, s.segLen k e.segment⟩] := by
  obtain ⟨x, v, r, begun⟩ := s.startPlay_eq entry at_ va belay first
  dsimp only
  rw [begun]
  generalize reached : ({ s with
      mem := { s.mem with srExit := x }, cl := v, rope := r,
      seqs := upd s.seqs k fun q => { q with play := some (s.playOf k i e at_ va belay), stall := none, curEntry := BitVec.ofNat 16 i,
                                             spans := q.spans ++ [⟨at_, (s.playOf k i e at_ va belay).period, va, (s.playOf k i e at_ va belay).len⟩] } } : State) = u
  obtain ⟨frame, others, counts, ⟨n, play⟩, -⟩ := u.playTo_frame k at_
  have here : u.seqs[k] = { s.seqs[k] with play := some (s.playOf k i e at_ va belay), stall := none, curEntry := BitVec.ofNat 16 i,
                                           spans := (s.seqs[k]).spans ++ [⟨at_, ((s.config k).timing[e.tset]).period, va, s.segLen k e.segment⟩] } := by
    rw [← reached]
    exact upd_get_same ..
  have there (j : Cluster) (ne : j ≠ k) : u.seqs[j] = s.seqs[j] := by
    rw [← reached]
    exact upd_get_other _ _ _ _ (Ne.symm ne)
  have base : u = { s with mem := { s.mem with srExit := x }, cl := u.cl, rope := u.rope, seqs := u.seqs } := by rw [← reached]
  refine ⟨⟨?_, fun j ne => (others j ne).trans (there j ne), ?_⟩, ?_, ?_, ?_⟩
  · rw [frame, base]
  · rw [counts, here]
  · rw [play, here]
    rfl
  · rw [counts, here]
  · rw [counts, here]

/-! ## The first vector of a burst (R70, R75) -/

theorem ceilTo_whole {t : Int} {m : Nat} (whole : t % (m : Int) = 0) : ceilTo t m = t := by
  obtain ⟨q, rfl⟩ := Int.dvd_of_emod_eq_zero whole
  unfold ceilTo
  obtain rfl | pos := Nat.eq_zero_or_pos m
  · simp
  · rw [← Int.mul_neg, Int.mul_ediv_cancel_left _ (by omega), Int.neg_neg, Int.mul_comm]

/-- `u` is `s` at the instant `d` with the burst of site `k` begun and no play yet. -/
def Begun (u : State) (k : Cluster) (d : Int) : Prop :=
  u = { s with now := u.now, sites := u.sites, reqWait := u.reqWait, seqs := u.seqs, cl := u.cl } ∧ u.net = d ∧
  (u.sites[k]).burstId = (s.sites[k]).burstId + 1 ∧ (u.seqs[k]).armed = none ∧ (u.seqs[k]).vec0 = d

theorem State.startBurst_begins {k : Cluster} {a : Armed} (i : Nat) (free : ∀ c ∈ s.members k, (s.cl[c]).lvl.busyUntil = none)
    (tick : a.due % (tickUnits : Int) = 0) (later : s.net ≤ a.due) (calm : Claims.Calm s) : ∃ u, Begun s u k a.due ∧
    s.startBurst k a i = if a.ready then (u.setState k .running).startPlay k i a.due 0 false true
      else match u.entry k i with
        | none => u
        | some e =>
          let stream := u.lateStream k none i
          let st : Stall := { since := a.readAt.getD a.armedAt, start := a.due, period := ((u.config k).timing[e.tset]).period, vaddr := 0, next := i,
                              stream := stream, firstPlay := true, chained := a.mode = .chained, tset := BitVec.ofNat 6 e.tset.val }
          (u.updSeq k fun q => { q with stall := some st, vectors := 0 }).noteUnderrun k 0 stream := by
  obtain ⟨frame, net⟩ := s.advanceNet_to calm later
  obtain ⟨req, ack, site⟩ := s.advanceNet_site calm k (d := a.due)
  unfold State.startBurst
  extract_lets busy t u1 slipped u2 u3 u4
  have at_ : t = a.due := by
    dsimp only [t, busy]
    refine (congrArg (ceilTo · tickUnits) (?_ : _ = a.due)).trans (ceilTo_whole tick)
    refine List.foldlRecOn (motive := fun m : Int => m = a.due) _ _ rfl fun m same c mem => ?_
    rw [free c mem]
    exact same
  have members : u4 = { u3 with cl := u4.cl } := by
    obtain ⟨v, cl⟩ := u3.updMembers_only k fun c e => { e with cap := { e.cap with nextPeriodic := (u3.config c).firstCairn t } }
    have only : u4 = { u3 with cl := v } := cl
    rw [only]
  have begun : Begun s u4 k a.due := by
    have reached : u1 = s.advanceNet a.due := congrArg s.advanceNet at_
    rw [members]
    refine ⟨?_, ?_, ?_, ?_, ?_⟩
    · have shape : u3 = { u1 with sites := u3.sites, seqs := u3.seqs } := rfl
      rw [shape, reached, frame]
    · change u1.net = a.due
      rw [reached]
      exact net
    · change ((upd u1.sites k _)[k]).burstId = _
      rw [upd_get_same, reached, site]
    · exact congrArg Seqr.armed (upd_get_same ..)
    · exact (congrArg Seqr.vec0 (upd_get_same ..)).trans at_
  clear_value u4
  refine ⟨u4, begun, ?_⟩
  rw [at_] <;> rfl

/-- An underrun stalls the site and reports itself (R182, R186). -/
theorem State.noteUnderrun_frame (k : Cluster) (va : Nat) (stream : Fin 24) (idle : s.flt.taking = none) : let t := s.noteUnderrun k va stream
    (t.sites[k]).state = .stalled ∧ (t.sites[k]).burstId = (s.sites[k]).burstId ∧ t.seqs = s.seqs ∧ t.gens = s.gens ∧
    (t.flt.history.map (·.source)).head? = some 16 := by
  unfold State.noteUnderrun
  extract_lets u
  have noted : ∃ m, u = { s with mem := m } :=
    List.foldlRecOn (motive := fun t : State => ∃ m, t = { s with mem := m }) _ _ ⟨s.mem, rfl⟩ fun t ⟨m, same⟩ c _ => by
      subst same
      exact ⟨_, rfl⟩
  obtain ⟨m, noted⟩ := noted
  have stalls := u.setState_eq k .stalled
  have quiet : (u.setState k .stalled).flt.taking = none := by
    rw [stalls, noted]
    exact idle
  obtain ⟨⟨frame, sites, -⟩, newest, -⟩ := (u.setState k .stalled).report_idle quiet 16 (u.maskOf k) (BitVec.ofNat 32 stream.val)
  have here : (u.setState k .stalled).sites[k] = { s.sites[k] with state := .stalled } := by
    rw [stalls, noted]
    exact upd_get_same ..
  clear_value u
  refine ⟨?_, ?_, ?_, ?_, ?_⟩
  · rw [sites, here]
  · rw [sites, here]
  · refine (congrArg State.seqs frame).trans ?_
    rw [stalls, noted]
  · refine (congrArg State.gens frame).trans ?_
    rw [stalls, noted]
  · have source := congrArg (Option.map Prod.fst) newest
    unfold Claims.newest at source
    rw [Option.map_map] at source
    rw [List.head?_map]
    exact source

/-- The start of a play leaves the rest of the state. -/
theorem PlayStarts.rest {t : State} {k : Cluster} (h : PlayStarts s t k) : t.sites = s.sites ∧ t.net = s.net ∧ t.gens = s.gens ∧ t.host = s.host ∧
    t.sched = s.sched := by
  obtain ⟨frame, -, -⟩ := h
  unfold State.net
  rw [frame]
  exact ⟨rfl, rfl, rfl, rfl, rfl⟩

/-! ## What a play has consumed of its stream (R162) -/

theorem findSeg_updSeg_len (l : List Seg) (id x : Word) (f : Seg → Seg) (keeps : ∀ g, (f g).id = g.id ∧ (f g).len = g.len) :
    (findSeg (updSeg l id f) x).map (·.len) = (findSeg l x).map (·.len) := by
  have kept (g : Seg) : (if g.id = id then f g else g).id = g.id ∧ (if g.id = id then f g else g).len = g.len := by
    split
    · exact keeps g
    · exact ⟨rfl, rfl⟩
  unfold findSeg updSeg
  rw [List.find?_map, Option.map_map]
  have same : ((fun g : Seg => decide (g.id = x)) ∘ fun g => if g.id = id then f g else g) = fun g => decide (g.id = x) := by
    funext g
    exact congrArg (fun i => decide (i = x)) (kept g).1
  rw [same]
  exact congrArg (Option.map · _) (funext fun g => (kept g).2)

/-- What is consumed leaves the lengths of the segments. -/
theorem State.consumeInst_frame (k : Cluster) (i : Nat) : ∃ m, s.consumeInst k i = { s with mem := m } ∧
    ∀ (j : Cluster) (x : Word), (s.consumeInst k i).segLen j x = s.segLen j x := by
  unfold State.consumeInst
  split
  · exact ⟨s.mem, rfl, fun _ _ => rfl⟩
  next e _ =>
    refine List.foldlRecOn (motive := fun t : State => ∃ m, t = { s with mem := m } ∧ ∀ (j : Cluster) (x : Word), t.segLen j x = s.segLen j x) _ _
      ⟨s.mem, rfl, fun _ _ => rfl⟩ fun t ⟨m, only, lens⟩ c _ => ?_
    beta_reduce
    extract_lets held u
    have unstaged : ∃ v, u = { t with mem := { t.mem with ins := v } } := by
      dsimp only [u, State.unstage]
      split
      · exact ⟨_, rfl⟩
      · exact ⟨_, rfl⟩
    obtain ⟨v, unstaged⟩ := unstaged
    clear_value u
    subst unstaged only
    refine ⟨_, rfl, fun j x => ?_⟩
    rw [← lens]
    unfold State.segLen
    refine congrArg (Option.getD · 512) ?_
    change (findSeg (upd m.segs c _)[j] x).map _ = _
    rw [upd_get]
    split
    · next here =>
      subst here
      refine findSeg_updSeg_len _ _ _ _ fun g => ?_
      split
      · exact ⟨rfl, rfl⟩
      · exact ⟨rfl, rfl⟩
    · rfl

end Sys2Proof.Machine

namespace Sys2Proof.Claims
open Sys2Proof.Machine

/-- What the first vector of a ready burst leaves (R70). -/
theorem burst_plays {s : State} {k : Cluster} {a : Armed} {i : Nat} {e : Entry} (ready : a.ready = true) (entry : s.entry k i = some e)
    (free : ∀ c ∈ s.members k, (s.cl[c]).lvl.busyUntil = none) (tick : a.due % (tickUnits : Int) = 0) (later : s.net ≤ a.due) (calm : Calm s) :
    let t := s.startBurst k a i
    ((t.sites[k]).state = .running ∧ ((t.seqs[k]).play.map fun p => (p.entry, p.start, p.vaddr, p.len, p.period))
        = some (i, a.due, 0, s.segLen k e.segment, ((s.config k).timing[e.tset]).period) ∧
    (t.seqs[k]).curEntry = BitVec.ofNat 16 i ∧
    (t.seqs[k]).spans.getLast? = some ⟨a.due, ((s.config k).timing[e.tset]).period, 0, s.segLen k e.segment⟩ ∧
    t.net = a.due ∧ t.gens = s.gens ∧ t.host = s.host) ∧ (t.sites[k]).burstId = (s.sites[k]).burstId + 1 ∧
      (t.seqs[k]).armed = none ∧ (t.seqs[k]).vec0 = a.due ∧ t.sched = s.sched := by
  obtain ⟨u, ⟨frame, net, burst, armed, vec0⟩, begins⟩ := s.startBurst_begins i free tick later calm
  rw [begins, if_pos ready]
  have runs := u.setState_eq k .running
  have same : (u.setState k .running).entry k i = some e ∧ (u.setState k .running).segLen k e.segment = s.segLen k e.segment ∧
      (u.setState k .running).config k = s.config k ∧ (u.setState k .running).seqs = u.seqs ∧ (u.setState k .running).net = u.net ∧
      (u.setState k .running).gens = s.gens ∧ (u.setState k .running).host = s.host ∧ (u.setState k .running).sched = s.sched := by
    refine ⟨?_, ?_, ?_, ?_, ?_, ?_, ?_, ?_⟩
    · rw [runs, frame]
      exact entry
    · rw [runs, frame]
      rfl
    · rw [runs, frame]
      rfl
    · rw [runs]
    · rw [runs]
      rfl
    · rw [runs, frame]
    · rw [runs, frame]
    · rw [runs, frame]
  obtain ⟨entry, len, config, seqs, now, gens, host, sched⟩ := same
  have site : (u.setState k .running).sites[k] = { u.sites[k] with state := .running } := by
    rw [runs]
    exact upd_get_same ..
  obtain ⟨starts, play, cur, spans⟩ := (u.setState k .running).startPlay_frame entry a.due 0 false true
  rw [len, config] at play spans
  obtain ⟨sites', net', gens', host', sched'⟩ := starts.rest
  obtain ⟨-, -, counts⟩ := starts
  rw [seqs] at counts
  generalize (u.setState k .running).startPlay k i a.due 0 false true = t at *
  refine ⟨⟨?_, play, cur, ?_, net'.trans (now.trans net), gens'.trans gens, host'.trans host⟩, ?_, ?_, ?_, sched'.trans sched⟩
  · rw [sites', site]
  · rw [spans, List.getLast?_concat]
  · rw [sites', site]
    exact burst
  · rw [counts]
    exact armed
  · rw [counts]
    exact vec0

theorem burst_stalls {s : State} {k : Cluster} {a : Armed} {i : Nat} {e : Entry} (late : a.ready = false) (entry : s.entry k i = some e)
    (free : ∀ c ∈ s.members k, (s.cl[c]).lvl.busyUntil = none) (tick : a.due % (tickUnits : Int) = 0) (later : s.net ≤ a.due) (calm : Calm s) :
    let t := s.startBurst k a i
    (t.sites[k]).state = .stalled ∧ (t.sites[k]).burstId = (s.sites[k]).burstId + 1 ∧
      ((t.seqs[k]).stall.map fun x => (x.start, x.vaddr, x.next, x.firstPlay)) = some (a.due, 0, i, true) ∧
      (t.flt.history.map (·.source)).head? = some 16 ∧ t.gens = s.gens := by
  obtain ⟨u, ⟨frame, net, burst, armed, vec0⟩, begins⟩ := s.startBurst_begins i free tick later calm
  have same : u.entry k i = some e := by
    rw [frame]
    exact entry
  rw [late, if_neg Bool.false_ne_true, same] at begins
  rw [begins]
  dsimp only
  have idle : u.flt.taking = none := by
    rw [frame]
    exact calm.2
  obtain ⟨state, kept, seqs, gens, history⟩ := State.noteUnderrun_frame (u.updSeq k fun q => { q with
    stall := some { since := a.readAt.getD a.armedAt, start := a.due, period := ((u.config k).timing[e.tset]).period, vaddr := 0, next := i,
                    stream := u.lateStream k none i, firstPlay := true, chained := a.mode = .chained, tset := BitVec.ofNat 6 e.tset.val },
    vectors := 0 }) k 0 (u.lateStream k none i) idle
  refine ⟨state, kept.trans burst, ?_, history, gens.trans (by rw [frame]; rfl)⟩
  rw [seqs]
  exact congrArg (fun q : Seqr => q.stall.map fun x => (x.start, x.vaddr, x.next, x.firstPlay)) (upd_get_same ..)

theorem exec_firstVector {s : State} {k : Cluster} {a : Armed} {i : Nat} (armed : (s.seqs[k]).armed = some a) (entry : a.entry = some i)
    (plain : a.mode ≠ .chained) (counted : a.vote = none) : exec (.firstVector k) s = .next (s.startBurst k a i) := by
  change execFirstVector k s = _
  unfold execFirstVector
  rw [armed]
  dsimp only
  rw [entry]
  refine if_neg ?_
  simp [plain, counted]

theorem exec_chainedStart {s : State} {k : Cluster} {a : Armed} {i : Nat} (armed : (s.seqs[k]).armed = some a) (entry : a.entry = some i)
    (chained : a.mode = .chained) (ready : a.ready = true) : exec (.chainedStart k) s = .next ((s.startBurst k a i).rechainFrom k) := by
  change execChainedStart k s = _
  unfold execChainedStart
  rw [armed]
  dsimp only
  rw [entry]
  exact (if_neg (not_not.2 chained)).trans (if_pos ready)

theorem rechainFrom_eq (s : State) (k : Cluster) : s.rechainFrom k = { s with sched := { s.sched with
    rechain := if (s.sched.flow k.val).rechain && !s.sched.rechainOff.getLsbD k.val then setBit s.sched.rechain k.val else s.sched.rechain } } := by
  unfold State.rechainFrom
  split
  · rfl
  · rfl

/-- Settles O39: the first vector of a burst, plain or chained, and the first vector of the successor. -/
theorem playsStart : Obligations.PlaysStart := by
  unfold Obligations.PlaysStart
  intro plays
  refine ⟨?plain, ?stalls, ?chained, ?successor⟩
  case plain =>
    exact fun s k a i e armed entry plain counted ready known free tick later calm =>
      ⟨_, exec_firstVector armed entry plain counted, burst_plays ready known free tick later calm⟩
  case stalls =>
    exact fun s k a i e armed entry plain counted late known free tick later calm =>
      ⟨_, exec_firstVector armed entry plain counted, burst_stalls late known free tick later calm⟩
  case chained =>
    intro s k a i e armed entry chained ready known free tick later calm
    obtain ⟨started, burst, gone, -, sched⟩ := burst_plays ready known free tick later calm
    refine ⟨_, exec_chainedStart armed entry chained ready, ?_⟩
    rw [rechainFrom_eq, sched]
    exact ⟨started, burst, gone, rfl⟩
  case successor =>
    intro s k p j e play succ first running hold stall abort ending known later calm
    obtain ⟨frame, net⟩ := s.advanceNet_to calm later
    obtain ⟨req, ack, site⟩ := s.advanceNet_site calm k (d := p.stop)
    obtain ⟨played, -, counts, -, -⟩ := (s.advanceNet p.stop).playTo_frame k (p.stop - 1)
    obtain ⟨m, consumed, lens⟩ := ((s.advanceNet p.stop).playTo k (p.stop - 1)).consumeInst_frame k p.entry
    generalize reached : ((s.advanceNet p.stop).playTo k (p.stop - 1)).consumeInst k p.entry = u at *
    have exec : exec (.segmentStart k) s = .next (u.startPlay k j p.stop (p.vaddr + p.len) false false) := by
      change execSegmentStart k s = _
      unfold execSegmentStart
      simp only [play, stall, abort, ending, succ, hold, first, Option.isSome_none, Bool.or_false, Bool.false_eq_true, if_false]
      rw [reached]
    have only : u = { s with now := u.now, sites := (s.advanceNet p.stop).sites, reqWait := u.reqWait, cl := u.cl, seqs := u.seqs, mem := m } := by
      rw [consumed, played, frame]
    have entry : u.entry k j = some e := by
      rw [only]
      exact known
    have len : u.segLen k e.segment = s.segLen k e.segment := by
      rw [lens, played, frame]
      rfl
    have config : u.config k = s.config k := by
      rw [only]
      rfl
    have now : u.net = p.stop := by
      rw [consumed, played]
      exact net
    obtain ⟨starts, begun, cur, spans⟩ := u.startPlay_frame entry p.stop (p.vaddr + p.len) false false
    rw [len, config] at begun spans
    obtain ⟨sites, net', gens, host, -⟩ := starts.rest
    refine ⟨_, exec, ⟨?_, begun, cur, by rw [spans, List.getLast?_concat], net'.trans now, ?_, ?_⟩, ?_⟩
    · rw [sites, only]
      exact (congrArg SiteRec.state site).trans running
    · rw [gens, only]
    · rw [host, only]
    · rw [sites, only]
      exact (congrArg SiteRec.burstId site).trans rfl

end Sys2Proof.Claims

namespace Sys2Proof.Machine
variable (s : State)

/-! ## Requests that stay pending (R441) -/

/-- A request that is pending stays so as time passes, until it is consumed. -/
theorem State.handshakes_pending (n : Nat) (k : Cluster) (i : Nat) (req : ((s.sites[k]).req).getLsbD i = true)
    (open_ : ((s.sites[k]).reqAck).getLsbD i = false) :
    (((State.handshakes n s).sites[k]).req).getLsbD i = true := by
  induction n generalizing s with
  | zero => exact req
  | succ n ih =>
    have step : s.handshakeStep.sites[k] = (handshake s.sites[k] s.reqWait[k]).1 := Vector.getElem_ofFn ..
    refine ih s.handshakeStep ?_ ?_
    · rw [step]
      unfold handshake
      have inside : i < 8 := BitVec.lt_of_getLsbD req
      simp only [BitVec.getLsbD_or, BitVec.getLsbD_and, BitVec.getLsbD_not, req, open_, inside]
      simp
    · rw [step]
      unfold handshake
      simp only [BitVec.getLsbD_and, req, open_, Bool.false_and]

theorem four_getLsbD (i : Nat) : (4 : BitVec 8).getLsbD i = decide (i = 2) := by
  have bit : (4 : BitVec 8) = BitVec.twoPow 8 2 := rfl
  rw [bit, BitVec.getLsbD_twoPow]
  simp [eq_comm]

theorem SiteRec.pends_resume {r : SiteRec} (pends : r.pends 4 = true) : r.req.getLsbD 2 = true ∧ r.reqAck.getLsbD 2 = false := by
  by_contra none_
  refine absurd (?_ : r.req &&& 4 &&& ~~~r.reqAck = 0) (of_decide_eq_true pends)
  refine BitVec.eq_of_getLsbD_eq fun i inside => ?_
  rw [BitVec.getLsbD_and, BitVec.getLsbD_and, four_getLsbD, BitVec.getLsbD_not]
  by_cases two : i = 2
  · subst two
    simpa using none_
  · simp [two]

theorem acks_resume {req ack : BitVec 8} (set : req.getLsbD 2 = true) : (ack ||| (req &&& 4)) &&& 4 = 4 := by
  refine BitVec.eq_of_getLsbD_eq fun i inside => ?_
  rw [BitVec.getLsbD_and, BitVec.getLsbD_or, BitVec.getLsbD_and, four_getLsbD]
  by_cases two : i = 2
  · subst two
    simp [set]
  · simp [two]

/-- RESUME stays pending as time passes. -/
theorem State.advanceNet_resume {d : Int} (calm : Claims.Calm s) (k : Cluster) (pends : (s.sites[k]).pends 4 = true) :
    (((s.advanceNet d).sites[k]).req).getLsbD 2 = true := by
  obtain ⟨n, sites⟩ := s.advance_handshakes (t := (d - s.netOff).toNat) calm
  have same : (s.advanceNet d).sites[k] = (State.handshakes n s).sites[k] := congrArg (·[k]) sites
  obtain ⟨req, open_⟩ := SiteRec.pends_resume pends
  rw [same]
  exact s.handshakes_pending n k 2 req open_

/-! ## The play before a stall is over (R182) -/

/-- `t` is `s` but for the engines, the memory, and, in the sequencer of site `k`, the play and the counts of vectors. -/
def Settled (k : Cluster) (t : State) : Prop :=
  t = { s with cl := t.cl, seqs := t.seqs, mem := t.mem } ∧ (∃ n, (t.seqs[k]).stall = (s.seqs[k]).stall.map fun st => { st with played := n }) ∧
  (t.seqs[k]).abortAt = (s.seqs[k]).abortAt

theorem Settled.trans {s t u : State} {k : Cluster} (h : Settled s k t) (h' : Settled t k u) : Settled s k u := by
  obtain ⟨frame, ⟨n, stall⟩, abort⟩ := h
  obtain ⟨frame', ⟨n', stall'⟩, abort'⟩ := h'
  refine ⟨?_, ⟨n', ?_⟩, abort'.trans abort⟩
  · rw [frame', frame]
  · rw [stall', stall, Option.map_map]
    rfl

theorem State.playTo_settled (k : Cluster) (t : Int) : Settled s k (s.playTo k t) := by
  obtain ⟨frame, -, counts, -, ⟨n, stall⟩⟩ := s.playTo_frame k t
  refine ⟨?_, ⟨n, stall⟩, ?_⟩
  · rw [frame]
  · rw [counts]

theorem State.settleStall_settled (k : Cluster) (t : Int) : Settled s k (s.settleStall k t) := by
  have same : Settled s k s := ⟨rfl, (Seqr.SameButCounts.refl _).2.2, rfl⟩
  unfold State.settleStall
  split
  · next p st play stall =>
    split
    · obtain ⟨m, consumed, -⟩ := (s.playTo k (p.stop - 1)).consumeInst_frame k p.entry
      refine (s.playTo_settled k (p.stop - 1)).trans ?_
      rw [consumed]
      have here := upd_get_same (s.playTo k (p.stop - 1)).seqs k fun q => { q with play := none }
      refine ⟨rfl, ?_, (congrArg Seqr.abortAt here).trans rfl⟩
      obtain ⟨n, stall⟩ := (Seqr.SameButCounts.refl ((s.playTo k (p.stop - 1)).seqs[k])).2.2
      exact ⟨n, (congrArg Seqr.stall here).trans stall⟩
    · exact same
  · exact same

/-- The successor of a stall has not become ready within its stream's limit (R185). -/
def State.streamOver (k : Cluster) (i : Fin 24) : State :=
  let u := { s.abortNow k with mem := { (s.abortNow k).mem with ins := upd (s.abortNow k).mem.ins i fun x => { x with tmo := true } } }
  u.report 17 (u.maskOf k) (BitVec.ofNat 32 i.val)

theorem State.streamOver_frame (k : Cluster) (i : Fin 24) {st : Stall} (stall : (s.seqs[k]).stall = some st) (busy : s.siteState k ≠ .armed)
    (idle : s.flt.taking = none) : let t := s.streamOver k i
    t = { s with sites := t.sites, seqs := t.seqs, mem := t.mem, flt := t.flt } ∧ (t.seqs[k]).abortAt.isSome = true ∧ (t.mem.ins[i]).tmo = true ∧
    (t.flt.history.map fun h => (h.source, h.detail)).head? = some (17, BitVec.ofNat 32 i.val) := by
  have aborts : ∃ q : Seqr, q.abortAt.isSome = true ∧ s.abortNow k = s.updSeq k fun _ => q := by
    unfold State.abortNow
    rw [if_neg busy]
    refine ⟨_, ?_, rfl⟩
    have kept : ((s.seqs[k]).enterStall s.net).stall = some st := by
      rw [← stall]
      unfold Seqr.enterStall
      split
      · split <;> rfl
      · rfl
    dsimp only
    split
    · rfl
    · rfl
    · next _ gone => exact absurd (kept.symm.trans gone) nofun
  obtain ⟨q, set, aborts⟩ := aborts
  unfold State.streamOver
  rw [aborts]
  dsimp only
  generalize reached : ({ s.updSeq k fun _ => q with
    mem := { (s.updSeq k fun _ => q).mem with ins := upd (s.updSeq k fun _ => q).mem.ins i fun x => { x with tmo := true } } } : State) = u
  have quiet : u.flt.taking = none := by
    rw [← reached]
    exact idle
  obtain ⟨⟨frame, -, -⟩, newest, -⟩ := u.report_idle quiet 17 (u.maskOf k) (BitVec.ofNat 32 i.val)
  refine ⟨?_, ?_, ?_, ?_⟩
  · rw [frame, ← reached]
    rfl
  · rw [frame, ← reached]
    exact (congrArg (fun q : Seqr => q.abortAt.isSome) (upd_get_same ..)).trans set
  · rw [frame, ← reached]
    exact congrArg InStream.tmo (upd_get_same ..)
  · unfold Claims.newest at newest
    rw [List.head?_map]
    obtain ⟨h, head, same⟩ := Option.map_eq_some_iff.1 newest
    rw [head]
    exact congrArg (fun x : Nat × BitVec 12 × Word => some (x.1, x.2.2)) same

/-- The site leaves a stall at `out` for the successor (R183). -/
def State.unstall (k : Cluster) (st : Stall) (out : Int) : State :=
  let s := (((s.consumeReq k reqResume).markNext k 2).markNext k 3).setState k .running
  let s := if st.chained then s.rechainFrom k else s
  if st.firstPlay then
    (s.updSeq k fun q => { q with vec0 := out }).updMembers k fun c e => { e with cap := { e.cap with nextPeriodic := (s.config c).firstCairn out } }
  else s

theorem State.updMembers_keeps {P : State → Prop} (k : Cluster) (f : Cluster → ClusterEng → ClusterEng) (h : ∀ v, P { s with cl := v }) :
    P (s.updMembers k f) := by
  obtain ⟨v, only⟩ := s.updMembers_only k f
  rw [only]
  exact h v

theorem State.markNext_only (k : Cluster) (bit : Nat) : ∃ v, s.markNext k bit = { s with cl := v } :=
  s.updMembers_only k fun _ e => { e with cap := { e.cap with cause := e.cap.cause ||| 2 ^ bit } }

theorem State.rechain_only (c : Bool) (k : Cluster) : ∃ x, (if c then s.rechainFrom k else s) = { s with sched := x } := by
  unfold State.rechainFrom
  split
  · split
    · exact ⟨_, rfl⟩
    · exact ⟨_, rfl⟩
  · exact ⟨_, rfl⟩

/-- `t` is `s` but for what the end of a stall of site `k` touches; RESUME is consumed, and the site runs. -/
def Unstalled (k : Cluster) (t : State) : Prop :=
  t = { s with sites := t.sites, cl := t.cl, cal := t.cal, rope := t.rope, sched := t.sched, seqs := t.seqs } ∧
  t.sites[k] = { s.sites[k] with reqAck := (s.sites[k]).reqAck ||| ((s.sites[k]).req &&& reqResume), state := .running }

theorem State.unstall_frame (k : Cluster) (st : Stall) (out : Int) : Unstalled s k (s.unstall k st out) := by
  unfold State.unstall
  obtain ⟨v, second⟩ := (s.consumeReq k reqResume).markNext_only k 2
  obtain ⟨w, third⟩ := ((s.consumeReq k reqResume).markNext k 2).markNext_only k 3
  have runs := (((s.consumeReq k reqResume).markNext k 2).markNext k 3).setState_eq k .running
  have here : ((((s.consumeReq k reqResume).markNext k 2).markNext k 3).setState k .running).sites[k] =
      { s.sites[k] with reqAck := (s.sites[k]).reqAck ||| ((s.sites[k]).req &&& reqResume), state := .running } := by
    rw [runs, third, second]
    refine (upd_get_same ..).trans ?_
    change { (upd s.sites k _)[k] with state := SiteState.running } = _
    rw [upd_get_same]
  have base (z : State) (is : z = (((s.consumeReq k reqResume).markNext k 2).markNext k 3).setState k .running) :
      z = { s with sites := z.sites, cl := z.cl, cal := z.cal, rope := z.rope } := by
    rw [is, runs, third, second]
    rfl
  replace base := base _ rfl
  generalize (((s.consumeReq k reqResume).markNext k 2).markNext k 3).setState k .running = z at base here ⊢
  obtain ⟨x, chained⟩ := z.rechain_only st.chained k
  dsimp only
  rw [chained]
  split
  · refine State.updMembers_keeps (P := Unstalled s k) _ k _ fun v => ⟨?_, here⟩
    dsimp only [State.updSeq]
    rw [base]
  · refine ⟨?_, here⟩
    rw [base]

theorem State.startPlay_stall {k : Cluster} {i : Nat} {e : Entry} (entry : s.entry k i = some e) (at_ : Int) (va : Nat) (belay first : Bool) :
    ((s.startPlay k i at_ va belay first).seqs[k]).stall = none := by
  obtain ⟨x, v, r, begun⟩ := s.startPlay_eq entry at_ va belay first
  rw [begun]
  generalize reached : State.mk .. = u
  obtain ⟨-, -, -, -, ⟨n, stall⟩⟩ := u.playTo_frame k at_
  rw [stall, ← reached]
  exact congrArg (fun q : Seqr => q.stall.map fun st => { st with played := n }) (upd_get_same ..)

end Sys2Proof.Machine

namespace Sys2Proof.Claims
open Sys2Proof.Machine

theorem selectionRead_reads {s : State} {k : Cluster} {a : Armed} {i : Nat} (armed : (s.seqs[k]).armed = some a) (chained : a.mode = .chained)
    (open_ : a.entry = none) (first : (s.seqs[k]).selTaken = false) (valid : (s.sites[k]).scFlags.getLsbD 27 = true)
    (burst : ((s.sites[k]).scFlags.extractLsb' 28 4).toNat = (s.sites[k]).burstId.toNat % 16)
    (named : a.desc.candidates[((s.sites[k]).scFlags.extractLsb' 24 2).toNat]? = some i) :
    exec (.selectionRead k) s = .next (s.updSeq k fun q => { q with selTaken := true, armed := some { a with
      entry := some i, due := max (s.net + 100 * nsUnits) (a.armedAt + 600 * nsUnits), ready := s.ready k i, readAt := some s.net } }) := by
  have bits (i n : Nat) : ((s.sites[k]).scFlags.extractLsb' i n).toNat = bitsOf (s.sites[k]).scFlags.toNat i n := by
    unfold bitsOf
    rw [BitVec.extractLsb'_toNat, Nat.shiftRight_eq_div_pow]
  rw [bits] at burst named
  have flag : bitOf (s.sites[k]).scFlags.toNat 27 = true := by
    unfold bitOf bitsOf
    rw [BitVec.getLsbD, Nat.testBit_eq_decide_div_mod_eq] at valid
    simpa using valid
  change execSelectionRead k s = _
  unfold execSelectionRead
  simp only [armed, chained, open_, first, flag, burst, named, ne_eq, not_true, decide_false, Option.isSome_none, Bool.or_false, Bool.not_true,
    Bool.false_eq_true, if_false]

theorem chainTimeout_lapses {s : State} {k : Cluster} {a : Armed} {u : Int} (armed : (s.seqs[k]).armed = some a) (chained : a.mode = .chained)
    (open_ : a.entry = none) (state : s.siteState k = .armed) (limited : (s.cl[k]).io.ctlIn.chainTmo.toNat ≠ 0)
    (due : u = a.armedAt + ((s.cl[k]).io.ctlIn.chainTmo.toNat * usUnits : Nat)) (later : s.net ≤ u) (calm : Calm s) :
    Completes (.chainTimeout k) s fun t => t.net = u ∧ (t.sites[k]).state = .idle ∧ (t.seqs[k]).armed = none ∧
      (t.seqs[k]).chainTmo = true ∧ (t.sites[k]).burstId = (s.sites[k]).burstId ∧ t.sched = s.sched ∧ t.gens = s.gens ∧ t.host = s.host := by
  obtain ⟨frame, net⟩ := s.advanceNet_to calm later
  obtain ⟨req, ack, site⟩ := s.advanceNet_site calm k (d := u)
  refine ⟨((((s.advanceNet u).cancelStart k).releaseHeads k).updSeq k fun q => { q with chainTmo := true }).repick, ?_, ?_⟩
  · change execChainTimeout k s = _
    unfold execChainTimeout
    rw [armed, due]
    exact if_neg (by simpa [chained, open_] using limited)
  · generalize s.advanceNet u = v at *
    have still : v.siteState k = .armed := (congrArg SiteRec.state site).trans state
    rw [State.releaseHeads_eq, State.cancelStart_eq, if_pos still]
    have here : (upd v.sites k fun r => { r with state := .idle })[k] = { v.sites[k] with state := .idle } := upd_get_same ..
    refine ⟨net, congrArg SiteRec.state here, ?_, congrArg Seqr.chainTmo (upd_get_same ..), ?_, ?_, ?_, ?_⟩
    · refine (congrArg Seqr.armed (upd_get_same ..)).trans ?_
      exact congrArg Seqr.armed (upd_get_same ..)
    · exact (congrArg SiteRec.burstId here).trans ((congrArg SiteRec.burstId site).trans rfl)
    · exact (congrArg State.sched frame).trans rfl
    · exact (congrArg State.gens frame).trans rfl
    · exact (congrArg State.host frame).trans rfl

theorem streamTimeout_aborts {s : State} {k : Cluster} {st : Stall} {u : Int} (stall : (s.seqs[k]).stall = some st) (running : (s.seqs[k]).abortAt = none)
    (waits : s.awaited k st.next = false) (limited : (s.mem.ins[st.stream]).tmoMs ≠ 0)
    (due : u = st.since + ((s.mem.ins[st.stream]).tmoMs * msUnits : Nat)) (later : s.net ≤ u) (state : s.siteState k = .stalled) (calm : Calm s) :
    Completes (.streamTimeout k) s fun t => t.net = u ∧ (t.mem.ins[st.stream]).tmo = true ∧ (t.seqs[k]).abortAt.isSome = true ∧
      (t.flt.history.map fun h => (h.source, h.detail)).head? = some (17, BitVec.ofNat 32 st.stream.val) ∧ t.gens = s.gens ∧ t.host = s.host := by
  obtain ⟨frame, net⟩ := s.advanceNet_to calm later
  obtain ⟨req, ack, site⟩ := s.advanceNet_site calm k (d := u)
  obtain ⟨settled, ⟨n, stalls⟩, -⟩ := ((s.advanceNet u).settleStall_settled k u).trans (State.playTo_settled _ k ((s.advanceNet u).settleStall k u).net)
  have exec : exec (.streamTimeout k) s =
      .next (State.streamOver (((s.advanceNet u).settleStall k u).playTo k ((s.advanceNet u).settleStall k u).net) k st.stream) := by
    change execStreamTimeout k s = _
    unfold execStreamTimeout
    dsimp only
    rw [stall]
    simp only [Option.map_some, Option.some_or, limited, running, waits, decide_false, Option.isSome_none, Bool.or_false, Bool.false_eq_true,
      if_false]
    rw [← due]
    rfl
  generalize ((s.advanceNet u).settleStall k u).playTo k ((s.advanceNet u).settleStall k u).net = v at *
  generalize s.advanceNet u = w at *
  have there : (v.seqs[k]).stall = some { st with played := n } := by
    rw [stalls, frame]
    exact congrArg _ stall
  have busy : v.siteState k ≠ .armed := by
    unfold State.siteState
    rw [settled]
    exact fun armed => SiteState.noConfusion ((state.symm.trans ((congrArg SiteRec.state site).trans rfl).symm).trans armed)
  have idle : v.flt.taking = none := by
    rw [settled, frame]
    exact calm.2
  obtain ⟨only, aborts, tmo, history⟩ := v.streamOver_frame k st.stream there busy idle
  refine ⟨_, exec, ?_, tmo, aborts, history, ?_, ?_⟩
  · refine (?_ : _ = w.net).trans net
    unfold State.net
    rw [only, settled]
  · rw [only, settled, frame]
  · rw [only, settled, frame]

/-- A stall ends at `out`: the state in which its successor begins. -/
theorem stallExit_starts {s : State} {k : Cluster} {st : Stall} {e : Entry} {out : Int} (stall : (s.seqs[k]).stall = some st)
    (running : (s.seqs[k]).abortAt = none) (pends : (s.sites[k]).pends 4 = true) (ready : s.awaited k st.next = true) (known : s.entry k st.next = some e)
    (from_ : s.resumeAt k st = out) (later : s.net ≤ out) (calm : Calm s) :
    Completes (.stallExit k) s fun t => t.net = out ∧ (t.sites[k]).state = .running ∧ (t.sites[k]).reqAck &&& 4 = 4 ∧ (t.seqs[k]).stall = none ∧
      ((t.seqs[k]).play.map fun p => (p.entry, p.start, p.vaddr)) = some (st.next, out, st.vaddr) ∧
      (t.sites[k]).burstId = (s.sites[k]).burstId ∧ t.gens = s.gens ∧ t.host = s.host := by
  obtain ⟨frame, net⟩ := s.advanceNet_to calm later
  obtain ⟨req, ack, site⟩ := s.advanceNet_site calm k (d := out)
  have asked := s.advanceNet_resume (d := out) calm k pends
  obtain ⟨settled, -, -⟩ := ((s.advanceNet out).settleStall_settled k out).trans (State.playTo_settled _ k (out - 1))
  generalize reached : ((s.advanceNet out).settleStall k out).playTo k (out - 1) = v at *
  have exec : exec (.stallExit k) s = .next ((v.unstall k st out).startPlay k st.next out st.vaddr false st.firstPlay) := by
    change execStallExit k s = _
    unfold execStallExit
    dsimp only
    rw [stall]
    dsimp only
    rw [from_, reached]
    refine if_neg ?_
    have latched : (s.sites[k]).pends reqResume = true := pends
    rw [running, latched, ready]
    exact Bool.false_ne_true
  obtain ⟨only, here⟩ := v.unstall_frame k st out
  generalize v.unstall k st out = w at *
  generalize s.advanceNet out = u at *
  have site' : v.sites[k] = u.sites[k] := by rw [settled]
  have entry : w.entry k st.next = some e := by
    unfold State.entry State.config
    rw [only, settled, frame]
    exact known
  obtain ⟨starts, play, -, -⟩ := w.startPlay_frame entry out st.vaddr false st.firstPlay
  have gone := w.startPlay_stall entry out st.vaddr false st.firstPlay
  obtain ⟨sites, now, gens, host, -⟩ := starts.rest
  refine ⟨_, exec, ?_, ?_, ?_, gone, ?_, ?_, ?_, ?_⟩
  · refine now.trans ((?_ : _ = u.net).trans net)
    unfold State.net
    rw [only, settled]
  · rw [sites, here]
  · rw [sites, here]
    exact acks_resume (by rw [site']; exact asked)
  · have first := congrArg (Option.map fun x : Nat × Int × Nat × Nat × Nat => (x.1, x.2.1, x.2.2.1)) play
    rw [Option.map_map] at first
    exact first
  · rw [sites, here, site']
    exact (congrArg SiteRec.burstId site).trans rfl
  · rw [gens, only, settled, frame]
  · rw [host, only, settled, frame]

/-- Settles O42: selections, lapsed starts, and the ways out of a stall. -/
theorem selectionsAndStalls : Obligations.SelectionsAndStalls := by
  unfold Obligations.SelectionsAndStalls
  refine ⟨?reads, ?lapses, ?resumes, ?limit⟩
  case reads =>
    intro s k a i armed chained open_ first valid burst named
    refine ⟨_, selectionRead_reads armed chained open_ first valid burst named, rfl, fun j ne => upd_get_other _ _ _ _ (Ne.symm ne), ?_⟩
    exact upd_get_same ..
  case lapses =>
    intro s k a tmo armed chained open_ state limited later calm
    exact chainTimeout_lapses armed chained open_ state limited (by rw [usUnits_eq]) later calm
  case resumes =>
    intro s k st e stall running pends ready known later calm out
    have from_ : s.resumeAt k st = out := by
      unfold State.resumeAt
      dsimp only
      rw [if_pos later]
      rfl
    refine stallExit_starts stall running pends ready known from_ ?_ calm
    have pos : 0 ≤ st.step := Int.natCast_nonneg _
    dsimp only [out]
    split
    · exact later
    · omega
  case limit =>
    intro s k st stall running waits limited later state calm
    exact streamTimeout_aborts stall running waits limited (by rw [msUnits_eq, Nat.mul_assoc]) later state calm

end Sys2Proof.Claims

namespace Sys2Proof.Machine

/-! ## What writing a record leaves (R122, R138) -/

/-- `d` is `c` but for its open block, its queue of blocks and whether it drops observations. -/
def Capture.Wrote (c d : Capture) : Prop :=
  d = { c with open_ := d.open_, fifo := d.fifo, nextSeq := d.nextSeq, blkCnt := d.blkCnt, highWater := d.highWater, firstBlk := d.firstBlk,
               dropping := d.dropping }

variable (c : Capture)

theorem Capture.Wrote.trans {c d e : Capture} (h : c.Wrote d) (h' : d.Wrote e) : c.Wrote e := by
  unfold Capture.Wrote at *
  rw [h', h]

theorem Capture.close_wrote (last : Bool) : c.Wrote (c.close last) := by
  unfold Capture.close
  split
  · exact rfl
  · exact rfl

theorem Capture.room_wrote (need va mode : Nat) (t : Int) (bid : Word) : c.Wrote (c.room need va mode t bid).1 ∧
    (c.room need va mode t bid).1.dropping = c.dropping := by
  have closes : (c.close false).dropping = c.dropping := by
    rw [c.close_wrote false]
    unfold Capture.close
    split
    · rfl
    · rfl
  unfold Capture.room
  dsimp only
  split
  · exact ⟨rfl, rfl⟩
  · split
    · exact ⟨rfl, rfl⟩
    · refine ⟨(c.close_wrote false).trans rfl, closes⟩

theorem Capture.record_wrote (ws : List Word) (va mode : Nat) (t : Int) (bid : Word) : c.Wrote (c.record ws va mode t bid) := by
  unfold Capture.record
  split
  · exact rfl
  · split
    · exact rfl
    · have flushed : c.Wrote { c with open_ := c.open_.map OpenBlock.flush } := rfl
      exact (flushed.trans (Capture.room_wrote { c with open_ := c.open_.map OpenBlock.flush } (4 * ws.length) va mode t bid).1).trans rfl

/-- With room, nothing is dropped. -/
theorem Capture.record_dropping (ws : List Word) (va mode : Nat) (t : Int) (bid : Word) (free : c.dropping = none)
    (room : c.full (4 * ws.length) va mode bid = false) : (c.record ws va mode t bid).dropping = none := by
  unfold Capture.record
  rw [free, room, if_neg (by decide), if_neg (by decide)]
  exact (Capture.room_wrote _ _ _ _ _ _).2.trans rfl

theorem Capture.pushRaw_wrote (w : BitVec 16) (va mode : Nat) (t : Int) (bid : Word) : c.Wrote (c.pushRaw w va mode t bid) := by
  unfold Capture.pushRaw
  split
  · exact rfl
  · split
    · exact rfl
    · dsimp only
      split
      · exact rfl
      · have flushed : c.Wrote { c with open_ := c.open_.map OpenBlock.flush } := rfl
        exact (flushed.trans (Capture.room_wrote { c with open_ := c.open_.map OpenBlock.flush } 8 va mode t bid).1).trans rfl

/-! ## What the window of an acquisition leaves (R136) -/

/-- What an acquisition shows of its trigger. -/
structure Capture.TriggerKept (c d : Capture) : Prop where
  acqTrig : d.acqTrig = c.acqTrig
  boundary : d.boundary = c.boundary
  trigIgn : d.trigIgn = c.trigIgn
  trig : d.acq.trig = c.acq.trig
  forced : d.acq.forced = c.acq.forced

theorem Capture.TriggerKept.refl : c.TriggerKept c := ⟨rfl, rfl, rfl, rfl, rfl⟩

theorem Capture.TriggerKept.trans {c d e : Capture} (h : c.TriggerKept d) (h' : d.TriggerKept e) : c.TriggerKept e :=
  ⟨h'.acqTrig.trans h.acqTrig, h'.boundary.trans h.boundary, h'.trigIgn.trans h.trigIgn, h'.trig.trans h.trig, h'.forced.trans h.forced⟩

theorem Capture.Wrote.triggerKept {c d : Capture} (h : c.Wrote d) : c.TriggerKept d := by
  unfold Capture.Wrote at h
  rw [h]
  exact ⟨rfl, rfl, rfl, rfl, rfl⟩

theorem Capture.windowVec_kept (h : HistVec) (t : Int) (bid : Word) : c.TriggerKept (c.windowVec h t bid) := by
  unfold Capture.windowVec
  extract_lets a b
  have cairn : c.Wrote a := by
    dsimp only [a]
    split
    · exact rfl
    · exact c.record_wrote ..
  have raw : c.TriggerKept b := (cairn.trans (a.pushRaw_wrote ..)).triggerKept
  split
  · exact raw.trans ⟨rfl, rfl, rfl, rfl, rfl⟩
  · exact raw.trans ⟨rfl, rfl, rfl, rfl, rfl⟩

theorem Capture.openAcq_kept (t : Int) (bid : Word) : c.TriggerKept (c.openAcq t bid) := by
  unfold Capture.openAcq
  split
  · exact .refl c
  · next ws _ =>
    have wrote := (c.record_wrote ws c.acq.written 4 t bid).triggerKept
    dsimp only
    split
    · exact ⟨rfl, rfl, rfl, rfl, rfl⟩
    · exact wrote.trans ⟨rfl, rfl, rfl, rfl, rfl⟩

theorem Capture.windowUpTo_kept (stop : Nat) (t : Int) (bid : Word) : c.TriggerKept (c.windowUpTo stop t bid) := by
  unfold Capture.windowUpTo
  extract_lets a
  have opened : c.TriggerKept a := c.openAcq_kept t bid
  split
  · exact opened
  · exact List.foldlRecOn (motive := c.TriggerKept) _ _ opened fun d kept h _ => kept.trans (d.windowVec_kept h t bid)

/-- A triggered acquisition shows its trigger vector (R132, R136). -/
theorem Capture.begin_shows (g : AcqConfig) (source tv : Nat) (forced bnd : Bool) (tt t : Int) (bid : Word) :
    let d := c.begin_ g source tv forced bnd tt t bid
    d.acqTrig = some tv ∧ d.acq.trig = some tv ∧ d.acq.forced = forced ∧ d.boundary = (c.boundary || bnd) ∧ d.trigIgn = c.trigIgn := by
  unfold Capture.begin_
  extract_lets ws b d
  have kept : Capture.TriggerKept _ d := Capture.windowUpTo_kept ..
  exact ⟨kept.acqTrig, kept.trig, kept.forced, kept.boundary, kept.trigIgn⟩

/-- A complete acquisition with room for its record (R136). -/
theorem Capture.acqEnd_done {tv : Nat} (a : AcqConfig) (t : Int) (bid : Word) (trig : c.acq.trig = some tv) (written : tv + a.post ≤ c.acq.written)
    (free : c.dropping = none) (room : c.full 8 tv 4 bid = false) : let d := c.acqEnd a t bid
    d.acqDone = true ∧ d.acq.active = false ∧ d.acq.trig = none ∧ d.trunc = c.trunc ∧ d.acq.doneIds = a.armId :: c.acq.doneIds := by
  have short : decide (c.acq.written < tv + a.post) = false := decide_eq_false (Nat.not_lt.2 written)
  have wrote := c.record_wrote [recWord 6 (bitAt false 0), BitVec.ofNat 32 c.acq.posted] tv 4 t bid
  have goes := c.record_dropping [recWord 6 (bitAt false 0), BitVec.ofNat 32 c.acq.posted] tv 4 t bid free room
  unfold Capture.acqEnd
  rw [trig]
  dsimp only
  rw [short, goes, Option.isSome_none, if_neg Bool.false_ne_true, wrote]
  exact ⟨rfl, rfl, rfl, Bool.or_false _, rfl⟩

/-! ## What a change of the capture engine leaves (R136, R171) -/

/-- The engines of a cluster after some blocks of their queues have moved on. -/
def ClusterEng.drained (n m : Nat) (e : ClusterEng) : ClusterEng :=
  { e with cap := { e.cap with fifo := e.cap.fifo.drop n }, stamp := { e.stamp with fifo := e.stamp.fifo.drop m } }

/-- Draining takes blocks from the queues of a cluster, and nothing else of its engines. -/
theorem State.drain_cap (s : State) (c : Cluster) : ((s.drain c).cl[c]).cap = { (s.cl[c]).cap with fifo := ((s.drain c).cl[c]).cap.fifo } := by
  by_cases asleep : s.mem.selfRef = true
  · have still : (s.drain c).cl = s.cl := by
      unfold State.drain
      dsimp only
      rw [if_pos asleep]
      split
      · rfl
      · obtain ⟨x, asked⟩ := s.askHbm_only true
        rw [if_pos rfl] at asked
        rw [asked]
    rw [still]
  · obtain ⟨n, m, drained⟩ : ∃ n m, (s.drain c).cl = upd s.cl c (ClusterEng.drained n m) := by
      unfold State.drain
      dsimp only
      rw [if_neg asleep]
      exact ⟨_, _, rfl⟩
    rw [drained, upd_get_same]
    rfl

theorem State.afterCap_frame (s : State) (c : Cluster) (f : Capture → Capture) : let t := s.afterCap c f
    t = { s with cl := t.cl, mem := t.mem } ∧ (t.cl[c]).cap = { f (s.cl[c]).cap with fifo := (t.cl[c]).cap.fifo } := by
  unfold State.afterCap
  obtain ⟨frame, -⟩ := (s.updCl c fun e => { e with cap := f e.cap }).drain_frame c
  have cap := (s.updCl c fun e => { e with cap := f e.cap }).drain_cap c
  have here : ((s.updCl c fun e => { e with cap := f e.cap }).cl[c]).cap = f (s.cl[c]).cap := congrArg ClusterEng.cap (upd_get_same ..)
  rw [here] at cap
  refine ⟨?_, cap⟩
  rw [frame]
  rfl

end Sys2Proof.Machine

namespace Sys2Proof.Claims
open Sys2Proof.Machine

/-- A capture engine with some other queue shows the same trigger. -/
theorem capture_eq {x y : Capture} (h : x = { y with fifo := x.fifo }) : y.TriggerKept x ∧ x.acq = y.acq ∧ x.burstOpen = y.burstOpen ∧
    x.acqDone = y.acqDone ∧ x.trunc = y.trunc := by
  rw [h]
  exact ⟨⟨rfl, rfl, rfl, rfl, rfl⟩, rfl, rfl, rfl, rfl⟩

theorem afterCap_rest (s : State) (c : Cluster) (f : Capture → Capture) : let t := s.afterCap c f
    t.seqs = s.seqs ∧ t.gens = s.gens ∧ t.now = s.now ∧ t.host = s.host := by
  obtain ⟨frame, -⟩ := s.afterCap_frame c f
  dsimp only
  rw [frame]
  exact ⟨rfl, rfl, rfl, rfl⟩

/-- What a triggered acquisition leaves of the state. -/
theorem afterCap_begins (s : State) (c : Cluster) {f : Capture → Capture} {g : AcqConfig} {source tv : Nat} {forced bnd : Bool} {tt t : Int} {bid : Word}
    (begins : f (s.cl[c]).cap = (s.cl[c]).cap.begin_ g source tv forced bnd tt t bid) : let y := ((s.afterCap c f).cl[c]).cap
    y.acqTrig = some tv ∧ y.acq.trig = some tv ∧ y.acq.forced = forced ∧ y.boundary = ((s.cl[c]).cap.boundary || bnd) ∧
    y.trigIgn = (s.cl[c]).cap.trigIgn := by
  obtain ⟨-, cap⟩ := s.afterCap_frame c f
  obtain ⟨kept, -⟩ := capture_eq cap
  rw [begins] at kept
  obtain ⟨trig, acq, forced', boundary, ignored⟩ := (s.cl[c]).cap.begin_shows g source tv forced bnd tt t bid
  exact ⟨kept.acqTrig.trans trig, kept.trig.trans acq, kept.forced.trans forced', kept.boundary.trans boundary, kept.trigIgn.trans ignored⟩

/-- A trigger that is ignored is counted, and the search goes on behind it (R134). -/
theorem afterCap_ignores (s : State) (c : Cluster) {f : Capture → Capture} {v : Nat} (ignores : f (s.cl[c]).cap =
      { (s.cl[c]).cap with trigIgn := satInc (s.cl[c]).cap.trigIgn, acq := { (s.cl[c]).cap.acq with scan := v } }) :
    let y := ((s.afterCap c f).cl[c]).cap
    y.acqTrig = (s.cl[c]).cap.acqTrig ∧ y.acq.trig = (s.cl[c]).cap.acq.trig ∧ y.trigIgn = satInc (s.cl[c]).cap.trigIgn ∧ y.acq.scan = v := by
  obtain ⟨-, cap⟩ := s.afterCap_frame c f
  obtain ⟨kept, acq, -⟩ := capture_eq cap
  rw [ignores] at kept acq
  exact ⟨kept.acqTrig, kept.trig, kept.trigIgn, congrArg AcqState.scan acq⟩

theorem watching_trig {x : Capture} (watching : x.watching = true) : x.acq.trig = none := by
  simp only [Capture.watching, Capture.pending, Bool.and_eq_true, Option.isNone_iff_eq_none] at watching
  exact watching.1.1.1.2

theorem exec_acqTrigger {s : State} {c : Cluster} {x : AcqEvent} (plain : (s.config c).acq.plain x = true) (watching : (s.cl[c]).cap.watching = true) :
    exec (.acqTrigger c x) s = .next (s.afterCap c fun y => y.plainTrigger (s.config c).acq s.net (s.bidOf c)) := by
  change Host.Outcome.next (s.acqEvent c x) = _
  unfold State.acqEvent
  dsimp only
  rw [watching, if_neg (by decide), if_pos plain]

/-- An unstamped condition that a recorded vector meets (R133, R134). -/
theorem plainTrigger_hit {x : Capture} {g : AcqConfig} {h : HistVec} {base : Nat} {t0 t : Int} {bid : Word} (plain : g.source ≠ .force)
    (hit : (x.hits g).getLast? = some h) (fill : x.acq.fillBase = some (base, t0)) :
    x.plainTrigger g t bid = if h.vaddr < base + g.pre then { x with trigIgn := satInc x.trigIgn, acq := { x.acq with scan := h.vaddr + 1 } }
      else x.begin_ g g.source.code h.vaddr false false h.start t bid := by
  unfold Capture.plainTrigger Capture.fillFrom
  rw [if_neg plain, fill, hit]
  rfl

theorem plainTrigger_force {x : Capture} {g : AcqConfig} {h : HistVec} {base : Nat} {t0 t : Int} {bid : Word} (force : g.source = .force)
    (hit : (x.acq.history.filter fun h => decide (base + g.pre ≤ h.vaddr)).getLast? = some h) (fill : x.acq.fillBase = some (base, t0)) :
    x.plainTrigger g t bid = x.begin_ g g.source.code h.vaddr true false h.start t bid := by
  unfold Capture.plainTrigger Capture.fillFrom
  rw [if_pos force, fill]
  dsimp only [Option.map_some, Option.getD_some]
  rw [hit]

/-- The vector whose span holds an instant of a play (R129). -/
theorem spanAt_play {p : Play} {te : Int} (after : p.start ≤ te) (before : te < p.stop) :
    let j := ((te - p.start) / (p.period * fuUnits : Nat)).toNat
    ∃ v, spanAt false [⟨p.start, p.period, p.vaddr, p.len⟩] te = some v ∧ v.vaddr = p.vaddr + j ∧ v.start = p.startOf j ∧
      v.stop = some (p.startOf (j + 1)) ∧ v.start ≤ te ∧ te ≤ p.startOf (j + 1) := by
  intro j
  have whole : p.stop = p.start + (p.len : Int) * (p.period * fuUnits : Nat) := rfl
  have starts (n : Nat) : p.startOf n = p.start + (n : Int) * (p.period * fuUnits : Nat) := rfl
  have pos : (0 : Int) < (p.period * fuUnits : Nat) := by
    refine lt_of_le_of_ne (Int.natCast_nonneg _) fun zero => ?_
    rw [whole, ← zero, Int.mul_zero, Int.add_zero] at before
    omega
  have span : Span.stop ⟨p.start, p.period, p.vaddr, p.len⟩ = p.stop := by
    rw [whole]
    unfold Span.stop
    rw [Nat.mul_assoc, Int.natCast_mul]
  have index : (te - p.start) / (p.period * fuUnits : Nat) = (j : Int) := (Int.toNat_of_nonneg (Int.ediv_nonneg (by omega) pos.le)).symm
  have ends : Span.final ⟨p.start, p.period, p.vaddr, p.len⟩ (some p.stop) =
      ⟨p.vaddr + p.len - 1, p.stop - (p.period * fuUnits : Nat), some p.stop⟩ := by
    unfold Span.final
    rw [span]
  unfold spanAt
  dsimp only
  rw [if_neg (Int.not_lt.2 after), index, span, if_neg Bool.false_ne_true, if_pos before, ends, starts, starts, whole, Nat.cast_add, Nat.cast_one]
  rw [whole] at before
  clear_value j
  generalize ((p.period * fuUnits : Nat) : Int) = w at *
  have lower : (j : Int) * w ≤ te - p.start := by
    rw [← index]
    exact Int.ediv_mul_le _ pos.ne'
  have upper : te - p.start < ((j : Int) + 1) * w := by
    rw [← index]
    exact Int.lt_ediv_add_one_mul_self _ pos
  have inside : (j : Int) < p.len := lt_of_mul_lt_mul_right (by omega : (j : Int) * w < p.len * w) pos.le
  by_cases last : (j : Int) + 1 < p.len
  · rw [if_pos last]
    exact ⟨_, rfl, by rw [Int.toNat_natCast], rfl, rfl, by dsimp only; omega, by omega⟩
  · have final : p.len = j + 1 := by omega
    have length : (p.len : Int) * w = j * w + w := by
      rw [final, Nat.cast_add, Nat.cast_one, Int.add_mul, Int.one_mul]
    have next : ((j : Int) + 1) * w = j * w + w := by rw [Int.add_mul, Int.one_mul]
    rw [if_neg last]
    refine ⟨_, rfl, ?_, ?_, ?_, ?_, ?_⟩
    · dsimp only
      omega
    · dsimp only
      omega
    · dsimp only
      rw [length, next]
    · dsimp only
      omega
    · omega

theorem nearEdge_of {a b te : Int} (after : a ≤ te) (before : te ≤ b) :
    (nearEdge te a || nearEdge te b) = decide (te - a ≤ 4 * fuUnits ∨ b - te ≤ 4 * fuUnits) := by
  unfold nearEdge
  have pos : (0 : Int) ≤ 4 * fuUnits := by decide
  generalize (4 * fuUnits : Int) = w at pos ⊢
  rw [Bool.eq_iff_iff]
  simp only [Bool.or_eq_true, Bool.and_eq_true, decide_eq_true_eq]
  omega

/-- An event of a stamped source whose time `te` falls into the play in hand (R130, R133). -/
theorem exec_stamped {s : State} {c : Cluster} {x : AcqEvent} {te : Int} {p : Play} (time : (s.config c).acq.eventTime x = some te)
    (stamped : (s.config c).acq.plain x = false) (watching : (s.cl[c]).cap.watching = true) (play : (s.seqs[s.site c]).play = some p)
    (stall : (s.seqs[s.site c]).stall = none) (armed : (s.seqs[s.site c]).armed = none)
    (spans : (s.seqs[s.site c]).spans = [⟨p.start, p.period, p.vaddr, p.len⟩]) (before : te + 4 * fuUnits < p.stop) (calm : Calm s) :
    let u := (s.advanceNet te).playTo (s.site c) te
    exec (.acqTrigger c x) s = .next (u.afterCap c fun y => y.stampedTrigger (s.config c).acq false [⟨p.start, p.period, p.vaddr, p.len⟩] te u.net (s.bidOf c)) := by
  intro u
  have seqs : (s.advanceNet te).seqs = s.seqs := (s.advanceNet_leaves calm te).1
  obtain ⟨-, -, counts, ⟨n, plays⟩, ⟨m, stalls⟩⟩ := (s.advanceNet te).playTo_frame (s.site c) te
  rw [seqs] at counts plays stalls
  have same (w : State) (h : w = u) : (w.seqs[s.site c]).play = some { p with played := n } ∧ (w.seqs[s.site c]).stall = none ∧
      (w.seqs[s.site c]).spans = [⟨p.start, p.period, p.vaddr, p.len⟩] := by
    rw [h]
    refine ⟨plays.trans (by rw [play]; rfl), stalls.trans (by rw [stall]; rfl), ?_⟩
    rw [counts]
    exact spans
  obtain ⟨play', stall', spans'⟩ := same u rfl
  have ahead : u.peek (s.site c) (te + 4 * fuUnits) = u.playTo (s.site c) (te + 4 * fuUnits) := by
    unfold State.peek
    dsimp only
    rw [stall', play']
    refine congrArg (State.playTo · (s.site c) (te + 4 * fuUnits)) (if_neg ?_)
    exact Int.not_le.2 before
  obtain ⟨-, -, counts', -, ⟨m', stalls'⟩⟩ := u.playTo_frame (s.site c) (te + 4 * fuUnits)
  change Host.Outcome.next (s.acqEvent c x) = _
  unfold State.acqEvent
  dsimp only
  rw [watching, if_neg (by decide), stamped, if_neg Bool.false_ne_true, time]
  dsimp only
  rw [armed, Option.any_none, if_neg Bool.false_ne_true]
  change Host.Outcome.next (u.afterCap c fun y => y.stampedTrigger (s.config c).acq ((u.peek (s.site c) (te + 4 * fuUnits)).inStall (s.site c))
    ((u.peek (s.site c) (te + 4 * fuUnits)).seqs[s.site c]).spans te u.net (s.bidOf c)) = _
  have open_ : (u.playTo (s.site c) (te + 4 * fuUnits)).inStall (s.site c) = false := by
    unfold State.inStall
    rw [stalls', stall']
    rfl
  rw [ahead, open_, counts']
  dsimp only
  rw [spans']

/-- A stamped trigger on a vector of the play (R130, R133, R134). -/
theorem stampedTrigger_cases {x : Capture} {g : AcqConfig} {p : Play} {te t : Int} {base : Nat} {bid : Word} (after : p.start ≤ te)
    (before : te < p.stop) (fill : x.acq.fillBase.map (·.1) = some base) :
    let j := ((te - p.start) / (p.period * fuUnits : Nat)).toNat
    let bnd := decide (te - p.startOf j ≤ 4 * fuUnits ∨ p.startOf (j + 1) - te ≤ 4 * fuUnits)
    x.stampedTrigger g false [⟨p.start, p.period, p.vaddr, p.len⟩] te t bid =
      if p.vaddr + j < base + g.pre then x.ignore g
      else if x.acq.history.any (fun h => h.vaddr = p.vaddr + j) then x.begin_ g g.source.code (p.vaddr + j) false bnd te t bid
      else { x with acq := { x.acq with waiting := some (p.vaddr + j, bnd, te) } } := by
  intro j bnd
  obtain ⟨v, at_, vaddr, start, stop, from_, to_⟩ := spanAt_play after before
  unfold Capture.stampedTrigger Capture.fillStart
  rw [at_, fill]
  simp only [Option.some_or, stop, Option.any_some]
  rw [nearEdge_of from_ to_, vaddr, start]

/-- What a stamped trigger on the play in hand leaves of the engine (R130, R133, R134). -/
theorem afterCap_stamped (u : State) (c : Cluster) {f : Capture → Capture} {g : AcqConfig} {p : Play} {te t : Int} {base : Nat} {bid : Word}
    (after : p.start ≤ te) (before : te < p.stop) (fill : (u.cl[c]).cap.acq.fillBase.map (·.1) = some base)
    (trigger : f (u.cl[c]).cap = (u.cl[c]).cap.stampedTrigger g false [⟨p.start, p.period, p.vaddr, p.len⟩] te t bid) :
    let x := (u.cl[c]).cap
    let y := ((u.afterCap c f).cl[c]).cap
    let j := ((te - p.start) / (p.period * fuUnits : Nat)).toNat
    let bnd := decide (te - p.startOf j ≤ 4 * fuUnits ∨ p.startOf (j + 1) - te ≤ 4 * fuUnits)
    (p.vaddr + j < base + g.pre → (y.trigIgn = satInc x.trigIgn ∧ y.acqTrig = x.acqTrig ∧ y.acq.trig = x.acq.trig) ∧
      y.watching = (x.ignore g).watching) ∧
    (base + g.pre ≤ p.vaddr + j → y.trigIgn = x.trigIgn ∧
      if x.acq.history.any (fun h => h.vaddr = p.vaddr + j) then
        y.acqTrig = some (p.vaddr + j) ∧ y.acq.trig = some (p.vaddr + j) ∧ y.acq.forced = false ∧ y.boundary = (x.boundary || bnd)
      else y.acq.waiting = some (p.vaddr + j, bnd, te) ∧ y.acq.trig = x.acq.trig) := by
  have does := trigger.trans (stampedTrigger_cases after before fill)
  obtain ⟨-, cap⟩ := u.afterCap_frame c f
  obtain ⟨kept, acq, burst, -⟩ := capture_eq cap
  intro x y j bnd
  constructor
  · intro early
    rw [if_pos early] at does
    rw [does] at kept acq burst
    refine ⟨⟨kept.trigIgn, kept.acqTrig, kept.trig⟩, ?_⟩
    unfold Capture.watching Capture.pending
    rw [acq, burst]
  · intro full
    rw [if_neg (Nat.not_lt.2 full)] at does
    split
    · next found =>
      rw [if_pos found] at does
      obtain ⟨trig, acq, forced, boundary, ignored⟩ := afterCap_begins u c does
      exact ⟨ignored, trig, acq, forced, boundary⟩
    · next missed =>
      rw [if_neg missed] at does
      rw [does] at kept acq
      exact ⟨kept.trigIgn, congrArg AcqState.waiting acq, kept.trig⟩

/-- AUTO expires (R135): forced, unless `own`, the source's condition, selects the vector. -/
theorem acqAutoExpire_forces {s : State} {c : Cluster} {h : HistVec} {base : Nat} {t0 at_ : Int} {own : Bool}
    (fill : (s.cl[c]).cap.acq.fillBase = some (base, t0))
    (played : playedBy (s.seqs[s.site c]).spans t0 ((s.config c).acq.autoUs * usUnits - (s.cl[c]).cap.acq.autoAcc) = some at_)
    (found : ((s.cl[c]).cap.acq.history.filter fun h => base + (s.config c).acq.pre ≤ h.vaddr && at_ ≤ h.start).getLast? = some h)
    (auto : (s.config c).acq.auto = true) (pending : (s.cl[c]).cap.pending = true)
    (condition : (decide ((s.config c).acq.source ≠ .force) && (s.config c).acq.met h) = own) (calm : Calm s) :
    Completes (.acqAutoExpire c) s fun t => (t.cl[c]).cap.acqTrig = some h.vaddr ∧ (t.cl[c]).cap.acq.trig = some h.vaddr ∧
      (t.cl[c]).cap.acq.forced = !own ∧ t.gens = s.gens ∧ t.host = s.host := by
  obtain ⟨-, gens, host⟩ := s.advanceNet_calm calm at_
  obtain ⟨frame, -⟩ := (s.advanceNet at_).playTo_frame (s.site c) at_
  generalize reached : (s.advanceNet at_).playTo (s.site c) at_ = u at frame
  have exec : exec (.acqAutoExpire c) s = .next (u.afterCap c fun x => x.begin_ (s.config c).acq (s.config c).acq.source.code h.vaddr (!own) false
      h.start u.net (u.bidOf c)) := by
    change execAcqAutoExpire c s = _
    unfold execAcqAutoExpire
    dsimp only
    rw [fill]
    dsimp only
    rw [played]
    dsimp only
    rw [found]
    dsimp only
    rw [auto, pending, condition, reached]
    rfl
  obtain ⟨trig, acq, forced, -⟩ := afterCap_begins u c (f := fun x => x.begin_ (s.config c).acq (s.config c).acq.source.code h.vaddr (!own) false
      h.start u.net (u.bidOf c)) rfl
  obtain ⟨-, rgens, -, rhost⟩ := afterCap_rest u c fun x => x.begin_ (s.config c).acq (s.config c).acq.source.code h.vaddr (!own) false
      h.start u.net (u.bidOf c)
  exact ⟨_, exec, trig, acq, forced, rgens.trans ((congrArg State.gens frame).trans gens), rhost.trans ((congrArg State.host frame).trans host)⟩

/-- Settles O44: conditions of every source trigger or are counted, AUTO expires, and acquisitions complete. -/
theorem acquisitionsTriggerAndComplete : Obligations.AcquisitionsTriggerAndComplete := by
  unfold Obligations.AcquisitionsTriggerAndComplete
  intro oldest meets names reached index onPlay stamped
  have condition (g : AcqConfig) (h : HistVec) : (decide (g.source ≠ .force) && g.met h) = meets g h := by
    unfold AcqConfig.met
    cases source : g.source <;> simp [meets, source]
  have triggers (s : State) (c : Cluster) (x : AcqEvent) (te : Int) (p : Play) (base : Nat) (time : (s.config c).acq.eventTime x = some te)
      (plain : (s.config c).acq.plain x = false) (on : onPlay s c p te base) : Completes (.acqTrigger c x) s fun t => stamped s t c p te base ∧
        (p.vaddr + index p te < base + (s.config c).acq.pre →
          ((t.cl[c]).cap).watching = (((reached s c te).cl[c]).cap.ignore (s.config c).acq).watching) := by
    obtain ⟨watching, play, stall, armed, abort, spans, after, before, -, fill, calm⟩ := on
    obtain ⟨-, gens, host⟩ := s.advanceNet_calm calm te
    obtain ⟨played, -⟩ := (s.advanceNet te).playTo_frame (s.site c) te
    have pos : (0 : Int) ≤ 4 * fuUnits := by decide
    obtain ⟨early, full⟩ := afterCap_stamped (reached s c te) c (f := fun y => y.stampedTrigger (s.config c).acq false
      [⟨p.start, p.period, p.vaddr, p.len⟩] te (reached s c te).net (s.bidOf c)) after (by omega) fill rfl
    obtain ⟨-, rgens, -, rhost⟩ := afterCap_rest (reached s c te) c fun y => y.stampedTrigger (s.config c).acq false
      [⟨p.start, p.period, p.vaddr, p.len⟩] te (reached s c te).net (s.bidOf c)
    have gens' : (reached s c te).gens = s.gens := (congrArg State.gens played).trans gens
    have host' : (reached s c te).host = s.host := (congrArg State.host played).trans host
    exact ⟨_, exec_stamped time plain watching play stall armed spans before calm,
      ⟨fun h => (early h).1, full, rgens.trans gens', rhost.trans host'⟩, fun h => (early h).2⟩
  refine ⟨?taken, ?early, ?expires, ?completes, ?meeting, ?forcing, ?edge, ?instant, ?frame, ?nothing⟩
  case taken =>
    intro s c h base t0 source watching hit fill full
    have hits := plainTrigger_hit (t := s.net) (bid := s.bidOf c) (by rw [source]; decide) hit fill
    rw [if_neg (Nat.not_lt.2 full)] at hits
    obtain ⟨trig, acq, forced, -, ignored⟩ := afterCap_begins s c (f := fun y => y.plainTrigger (s.config c).acq s.net (s.bidOf c)) hits
    obtain ⟨seqs, gens, now, -⟩ := afterCap_rest s c fun y => y.plainTrigger (s.config c).acq s.net (s.bidOf c)
    exact ⟨_, exec_acqTrigger (by simp [AcqConfig.plain, source]) watching, trig, acq, ignored, forced, seqs, gens, now⟩
  case early =>
    intro s c h base t0 source watching hit fill full
    have hits := plainTrigger_hit (t := s.net) (bid := s.bidOf c) (by rw [source]; decide) hit fill
    rw [if_pos full] at hits
    obtain ⟨trig, acq, ignored, -⟩ := afterCap_ignores s c (f := fun y => y.plainTrigger (s.config c).acq s.net (s.bidOf c)) hits
    refine ⟨_, exec_acqTrigger (by simp [AcqConfig.plain, source]) watching, trig, ?_, ignored⟩
    rw [acq]
    exact watching_trig watching
  case expires =>
    intro s c h base t0 at_ g fill played found auto pending calm
    exact acqAutoExpire_forces fill (by rw [usUnits_eq, Nat.mul_assoc]; exact played) found auto pending
      (condition g h) calm
  case completes =>
    intro s c tv trig written free room
    obtain ⟨done, active, gone, trunc, ids⟩ := (s.cl[c]).cap.acqEnd_done (s.config c).acq s.net (s.bidOf c) trig written free room
    obtain ⟨-, cap⟩ := s.afterCap_frame c fun x => x.acqEnd (s.config c).acq s.net (s.bidOf c)
    obtain ⟨-, gens, -⟩ := afterCap_rest s c fun x => x.acqEnd (s.config c).acq s.net (s.bidOf c)
    obtain ⟨-, acq, -, isDone, isTrunc⟩ := capture_eq cap
    refine ⟨_, ?_, isDone.trans done, by rw [acq]; exact active, by rw [acq]; exact gone, isTrunc.trans trunc, by rw [acq]; exact ids, gens⟩
    change execAcqComplete c s = _
    unfold execAcqComplete
    dsimp only
    rw [trig]
    dsimp only
    rw [free, decide_eq_false (Nat.not_lt.2 written)]
    exact if_neg Bool.false_ne_true
  case meeting =>
    intro s c x h base t0 g name oldest watching fill
    have hit : (((s.cl[c]).cap.hits g).getLast?) = some h := by
      rw [← oldest]
      refine congrArg List.getLast? (List.filter_congr fun h _ => congrArg (decide ((s.cl[c]).cap.acq.scan ≤ h.vaddr) && ·) ?_)
      obtain ⟨source, -⟩ | ⟨source, -⟩ | ⟨source, -⟩ | ⟨source, -⟩ := name
      all_goals simp [AcqConfig.met, meets, source]
    have plain : g.plain x = true ∧ g.source ≠ .force := by
      obtain ⟨source, rfl⟩ | ⟨source, rfl⟩ | ⟨source, rfl⟩ | ⟨source, rfl⟩ := name
      all_goals simp [AcqConfig.plain, source]
    have hits := plainTrigger_hit (t := s.net) (bid := s.bidOf c) plain.2 hit fill
    obtain ⟨seqs, gens, now, -⟩ := afterCap_rest s c fun y => y.plainTrigger (s.config c).acq s.net (s.bidOf c)
    refine ⟨_, exec_acqTrigger plain.1 watching, seqs, gens, now, ?_⟩
    split
    · next full =>
      rw [if_neg (Nat.not_lt.2 full)] at hits
      obtain ⟨trig, acq, forced, boundary, ignored⟩ := afterCap_begins s c (f := fun y => y.plainTrigger (s.config c).acq s.net (s.bidOf c)) hits
      exact ⟨trig, acq, forced, boundary.trans (Bool.or_false _), ignored⟩
    · next early =>
      rw [if_pos (Nat.not_le.1 early)] at hits
      obtain ⟨trig, acq, ignored, scan⟩ := afterCap_ignores s c (f := fun y => y.plainTrigger (s.config c).acq s.net (s.bidOf c)) hits
      exact ⟨trig, acq, scan, ignored⟩
  case forcing =>
    intro s c h base t0 g force watching fill hit
    have hits := plainTrigger_force (x := (s.cl[c]).cap) (t := s.net) (bid := s.bidOf c) force hit fill
    obtain ⟨trig, acq, forced, -, ignored⟩ := afterCap_begins s c (f := fun y => y.plainTrigger (s.config c).acq s.net (s.bidOf c)) hits
    obtain ⟨seqs, gens, now, -⟩ := afterCap_rest s c fun y => y.plainTrigger (s.config c).acq s.net (s.bidOf c)
    exact ⟨_, exec_acqTrigger (by simp [AcqConfig.plain, force, g]) watching, trig, acq, forced, ignored, seqs, gens, now⟩
  case edge =>
    intro s c line falling at_ p base g te source named edge on
    refine (triggers s c (.evt line falling at_) te p base ?_ ?_ on).imp fun t h => ⟨h.1, h.2.1⟩
    · unfold AcqConfig.eventTime
      have clock : 5 * nsUnits / 4 = datapathUnits := by decide
      rw [source]
      simp [named, edge, te, g, clock]
    · simp [AcqConfig.plain, source, g]
  case instant =>
    intro s c p base g te source on
    refine (triggers s c .time te p base ?_ ?_ on).imp fun t h => ⟨h.1, h.2.1, fun early => ?_⟩
    · unfold AcqConfig.eventTime
      rw [source]
    · simp [AcqConfig.plain, source, g]
    · rw [h.2.2 early]
      simp [Capture.ignore, Capture.watching, source, g]
  case frame =>
    intro s c serial cl entry te p base g source own cluster entries on
    refine (triggers s c (.rope serial cl entry te) te p base ?_ ?_ on).imp fun t h => ⟨h.1, h.2.1⟩
    · unfold AcqConfig.eventTime
      rw [source]
      refine if_pos ?_
      simp only [Bool.and_eq_true, Bool.or_eq_true, decide_eq_true_eq]
      exact ⟨⟨own, cluster⟩, entries⟩
    · simp [AcqConfig.plain, source, g]
  case nothing =>
    intro s c x g other
    have nothing : g.plain x = false ∧ g.eventTime x = none := by
      have other_line (falling : Bool) (t : Int) (source : g.source = .evt) (line : bitOf (fieldAt g.sparam 0 1) 0 = true) :
          g.plain (.evt 0 falling t) = false ∧ g.eventTime (.evt 0 falling t) = none := by
        have one : bitsOf (fieldAt g.sparam 0 1) 0 1 = 1 := by
          unfold bitOf at line
          exact eq_of_beq line
        unfold AcqConfig.plain AcqConfig.eventTime
        rw [source]
        dsimp only
        rw [one]
        exact ⟨rfl, rfl⟩
      obtain ⟨source, ⟨rfl | rfl, line⟩ | rfl⟩ | ⟨source, rfl | rfl⟩ := other
      · exact other_line _ _ source line
      · exact other_line _ _ source line
      all_goals
        unfold AcqConfig.plain AcqConfig.eventTime
        rw [source]
        exact ⟨rfl, rfl⟩
    refine ⟨s, ?_, rfl⟩
    change Host.Outcome.next (s.acqEvent c x) = _
    unfold State.acqEvent
    dsimp only
    split
    · rfl
    · rw [nothing.1, if_neg Bool.false_ne_true, nothing.2]

end Sys2Proof.Claims

namespace Sys2Proof.Machine

/-! ## Microwords (R267 to R269, R277) -/

/-- A word with its two parity bits `a` and `b`. -/
theorem storedWord_bits (w : Word) : ∃ a b : Nat, a = bitAt (ones 16 (bitsOf w.toNat 0 16) % 2 = 0) 0 ∧
    b = bitAt (ones 16 (bitsOf w.toNat 16 16) % 2 = 0) 0 ∧ a < 2 ∧ b < 2 ∧ (storedWord w).toNat = w.toNat + a * 2 ^ 32 + b * 2 ^ 33 := by
  have bit (c : Bool) (i : Nat) : bitAt c i = bitAt c 0 * 2 ^ i := by
    unfold bitAt
    split <;> simp
  have small (c : Bool) : bitAt c 0 < 2 := by
    unfold bitAt
    split <;> decide
  refine ⟨_, _, rfl, rfl, small _, small _, ?_⟩
  have low := w.isLt
  have a := small (ones 16 (bitsOf w.toNat (16 * 0) 16) % 2 = 0)
  have b := small (ones 16 (bitsOf w.toNat (16 * 1) 16) % 2 = 0)
  unfold storedWord
  dsimp only
  rw [BitVec.toNat_ofNat, bit _ (32 + 0), bit _ (32 + 1)]
  exact Nat.mod_eq_of_lt (by omega)

theorem storedWord_sound (w : Word) : StoredWord.fails (storedWord w) 0 = false ∧ StoredWord.fails (storedWord w) 1 = false ∧
    (storedWord w).setWidth 32 = w := by
  obtain ⟨a, b, low, high, la, lb, whole⟩ := storedWord_bits w
  have inside := w.isLt
  have halves : bitsOf (storedWord w).toNat (16 * 0) 16 = bitsOf w.toNat 0 16 ∧ bitsOf (storedWord w).toNat (16 * 1) 16 = bitsOf w.toNat 16 16 ∧
      bitsOf (storedWord w).toNat (32 + 0) 1 = a ∧ bitsOf (storedWord w).toNat (32 + 1) 1 = b := by
    unfold bitsOf
    rw [whole]
    omega
  obtain ⟨h0, h1, p0, p1⟩ := halves
  refine ⟨?_, ?_, ?_⟩
  · unfold StoredWord.fails
    rw [h0, p0, low]
    unfold bitAt
    split
    · next even => simp at even ⊢; omega
    · next odd => simp at odd ⊢; omega
  · unfold StoredWord.fails
    rw [h1, p1, high]
    unfold bitAt
    split
    · next even => simp at even ⊢; omega
    · next odd => simp at odd ⊢; omega
  · refine BitVec.eq_of_toNat_eq ?_
    rw [BitVec.toNat_setWidth, whole]
    omega

theorem Micro.step_stored (m : Micro) (w : Word) (draw : Nat) (uop : Nat) (small : uop < 8) (is : w.toNat / 2 ^ 26 = uop) :
    m.step (storedWord w) draw = m.sequence uop w := by
  obtain ⟨low, high, word⟩ := storedWord_sound w
  have op : uopOf w = uop := by
    unfold uopOf bitsOf
    have := w.isLt
    omega
  unfold Micro.step
  rw [low, high, if_neg Bool.false_ne_true, if_neg Bool.false_ne_true, word]
  dsimp only
  rw [op]
  have group : MicroGroup.of uop = .sequencing := if_pos small
  rw [group]

end Sys2Proof.Machine

namespace Sys2Proof.Machine

/-! ## What the collector and its reactions leave alone (R345, R349) -/

/-- What no fault changes: the host port, the command engine, power, security, memory, the pins there are, the time, and whether the log
has been read. -/
def State.aside (s : State) : HostPort × CmdEngine × Power × Security × Memory × BitVec 96 × Nat × Bool :=
  (s.host, s.cmd, s.pwr, s.sec, s.mem, s.present, s.now, s.flt.read)

variable (s : State)

@[simp] theorem State.cancelStart_aside (k : Cluster) : (s.cancelStart k).aside = s.aside := by
  rw [State.cancelStart_eq]
  rfl

@[simp] theorem State.abortNow_aside (k : Cluster) : (s.abortNow k).aside = s.aside := by
  unfold State.abortNow
  split
  · exact s.cancelStart_aside k
  · rfl

@[simp] theorem State.touchPaths_aside (k : Cluster) : (s.touchPaths k).aside = s.aside := by
  rw [State.touchPaths_eq]
  rfl

@[simp] theorem State.leaveIdle_aside (n : Port) : (s.leaveIdle n).aside = s.aside := by
  dsimp only [State.leaveIdle]
  split <;> rfl

@[simp] theorem State.sendAbort_aside (k : Cluster) (cause : Nat) : (s.sendAbort k cause).aside = s.aside := by
  unfold State.sendAbort
  split
  · exact foldl_keeps State.aside _ State.leaveIdle_aside _ _
  · rfl

theorem State.haltSite_aside (k : Cluster) : (s.haltSite k).aside = s.aside := by
  unfold State.haltSite
  rw [State.sendAbort_aside, State.touchPaths_aside]
  exact s.abortNow_aside k

theorem State.react_aside (r : Reaction) (m : BitVec 12) : (s.react r m).aside = s.aside := by
  have halt (l : List Cluster) (s : State) : (l.foldl State.haltSite s).aside = s.aside :=
    foldl_keeps State.aside _ State.haltSite_aside _ _
  have park (f : State → Cluster → ClusterEng → ClusterEng) (l : List Cluster) (s : State) :
      (l.foldl (fun s c => s.updCl c (f s c)) s).aside = s.aside := foldl_keeps State.aside _ (by intros; rfl) _ _
  have flt (u : State) (f : Faults) (read : f.read = u.flt.read) : ({ u with flt := f } : State).aside = u.aside := by
    unfold State.aside
    rw [read]
  unfold State.react
  cases r <;> simp [Reaction.code, halt, park, flt]

theorem State.taintFor_aside (e : CycleEvent) : (s.taintFor e).aside = s.aside := by
  unfold State.taintFor
  split
  · exact foldl_keeps State.aside _ (by intros; rfl) _ _
  · rfl

theorem State.serve_aside (c : FaultCycle) : (s.serve c).aside = s.aside := by
  have read : (s.serve c).flt.read = s.flt.read := by
    refine foldl_keeps (fun x : Faults × List CycleEvent => x.1.read) _ (fun x e => ?_) c.events _
    exact (congrArg Faults.read (s.take_frame x.1 e) :)
  unfold State.aside
  rw [read]
  rfl

theorem State.collectOne_aside (e : FaultEvent × Bool) : (s.collectOne e).aside = s.aside := by
  unfold State.collectOne
  extract_lets c x t
  exact ((t.serve _).taintFor_aside x).trans (t.serve_aside _)

theorem State.endCycle_aside (t : Nat) : (s.endCycle t).aside = s.aside := by
  unfold State.endCycle State.issueFaults
  split
  · split
    · rfl
    · exact foldl_keeps State.aside _ (fun s _ => s.react_aside _ _) _ _
  · rfl

theorem State.report_aside (source : Nat) (mask : BitVec 12) (detail : Word) : (s.report source mask detail).aside = s.aside :=
  (foldl_keeps State.aside _ State.collectOne_aside _ _).trans (s.endCycle_aside s.now)

/-- The entry a report makes in the history, and its class. -/
theorem State.report_top (idle : s.flt.taking = none) (source : Nat) (mask : BitVec 12) (detail : Word) : ∃ h : HistEntry,
    (s.report source mask detail).flt.history.head? = some h ∧ h.source = source ∧ h.mask = mask ∧ h.cls = classOf ⟨source, mask, detail⟩ := by
  rw [s.report_eq idle]
  obtain ⟨-, same⟩ := (s.opened source mask detail).taintFor_frame (s.reported source mask detail)
  obtain ⟨h, history, entry, -, cls, -⟩ := State.take_history { s with flt := s.flt.tally (s.reported source mask detail) }
    (s.flt.tally (s.reported source mask detail)) (s.reported source mask detail)
  refine ⟨h, ?_, congrArg Prod.fst entry, congrArg (fun x => x.2.1) entry, cls⟩
  rw [same]
  exact congrArg List.head? history

/-! ## What a lost run leaves (R272) -/

/-- The generations and the rings. -/
def State.rings (s : State) : Vector GenSlots 12 × Vector HostFunc 13 := (s.gens, s.host.fn)

theorem State.reserveReport_rings (p : Packet) : (s.reserveReport p).rings = s.rings := by
  unfold State.reserveReport
  split <;> rfl

theorem State.residue_rings (r : Routine) : (s.residue r).rings = s.rings := by
  unfold State.residue
  dsimp only
  split
  · split
    · exact s.reserveReport_rings r.packet
    · split <;> exact s.reserveReport_rings r.packet
  · split
    · rfl
    · split <;> rfl
  · split <;> rfl
  · rfl

end Sys2Proof.Machine

namespace Sys2Proof.Machine

/-! ## A chained start (R195, R256) -/

/-- A chained start of a site in use waits for the end of its burst (R195, R256). -/
theorem State.burstStart_chained (s : State) {k : Cluster} (time : Int) (seq : BitVec 16) (running : (s.siteState k).rests = false) :
    s.burstStart k seq .chained time =
      (s.updSite k fun r => { r with taint := false }).updSeq k fun q => { q with start := some ⟨.chained, seq, none, false⟩ } := by
  have same : (s.updSite k fun r => { r with taint := false }).siteState k = s.siteState k := by
    rw [State.siteState, State.updSite_get, if_pos rfl]
    rfl
  unfold State.burstStart State.makePending
  dsimp only
  rw [same, running]
  rfl

/-! ## A SET_LEVEL of an internal command (R200) -/

/-- A cluster's configuration with the code of one level of one rail set. -/
def ClusterConfig.setLevel (g : ClusterConfig) (p : BitVec 16) (v : Int) : ClusterConfig :=
  { g with levels := updN g.levels (bitsOf p.toNat 4 4) fun l => updN l (bitsOf p.toNat 0 3) fun r => { r with code := BitVec.ofInt 16 v } }

theorem ClusterConfig.setLevel_levels (g : ClusterConfig) (p : BitVec 16) (v : Int) (l : Fin 16) (r : Lane) :
    ((g.setLevel p v).levels[l])[r] =
      if l.val = bitsOf p.toNat 4 4 ∧ r.val = bitsOf p.toNat 0 3 then { (g.levels[l])[r] with code := BitVec.ofInt 16 v } else (g.levels[l])[r] := by
  unfold ClusterConfig.setLevel
  rw [updN_get]
  by_cases level : l.val = bitsOf p.toNat 4 4
  · rw [if_pos level.symm, updN_get]
    simp only [level, true_and, eq_comm]
  · rw [if_neg (Ne.symm level), if_neg fun both => level both.1]

theorem State.writeActions_level (s : State) {x : InternalCommand} {p : BitVec 16} {v : Int} {c : Cluster} (levels : x.levels = [(p, v)])
    (edges : x.edges = []) (cluster : bitsOf p.toNat 8 4 = c.val) : s.writeActions x = s.writeShadow [c] fun g => g.setLevel p v := by
  unfold State.writeActions
  rw [levels, edges]
  change s.writeShadow [Fin.ofNat 12 (bitsOf p.toNat 8 4)] (fun g => g.setLevel p v) = _
  rw [Claims.fin_ofNat_val c cluster]

end Sys2Proof.Machine

namespace Sys2Proof.Claims
open Sys2Proof.Machine

variable {s : State}

/-- The state an internal command of function `f` runs in: it has left the list, and the tie's pointer has moved (R20, R200). -/
def tookInternal (s : State) (f : Func) (rest : List InternalCommand) : State :=
  { s with sched := { s.sched with internal := rest }, cmd := (s.movePtr f 0).cmd }

/-- An internal command whose turn it is runs at once where no routine is in hand (R200, R225). -/
theorem exec_internal {x : InternalCommand} {rest : List InternalCommand} (ready : s.pwr.phase = .ready) (goes : s.cmd.halted = false)
    (queue : s.sched.internal = x :: rest) (turn : s.tieWinner 0 = some (s.flowOwner x.flow)) :
    exec (.scInternalCommand none) s = .next (match (tookInternal s (s.flowOwner x.flow) rest).internal x with
      | .ok t => t
      | .error (c, t) => t.internalRefused x c) := by
  change execScInternalCommand none s = _
  have run : s.runInternal = match (tookInternal s (s.flowOwner x.flow) rest).internal x with
      | .ok t => t
      | .error (c, t) => t.internalRefused x c := by
    have found : (x :: rest).find? (fun y => s.flowOwner y.flow = s.flowOwner x.flow) = some x := List.find?_cons_of_pos (by simp)
    have gone : (let t := s.movePtr (s.flowOwner x.flow) 0
        { t with sched := { t.sched with internal := t.sched.internal.erase x } } : State) = tookInternal s (s.flowOwner x.flow) rest := by
      change ({ s.movePtr (s.flowOwner x.flow) 0 with sched := { s.sched with internal := s.sched.internal.erase x } } : State) = _
      rw [queue, List.erase_cons_head]
      rfl
    unfold State.runInternal
    rw [turn]
    dsimp only
    rw [queue, found]
    dsimp only at gone ⊢
    rw [gone] <;> rfl
  unfold execScInternalCommand
  rw [queue, isReady_of ready, goes, if_neg (by simp)]
  dsimp only [State.preempt]
  rw [goes, if_neg Bool.false_ne_true, run]

theorem exec_internal_acts {x : InternalCommand} {rest : List InternalCommand} {t : State} (ready : s.pwr.phase = .ready)
    (goes : s.cmd.halted = false) (queue : s.sched.internal = x :: rest) (turn : s.tieWinner 0 = some (s.flowOwner x.flow))
    (acts : (tookInternal s (s.flowOwner x.flow) rest).internal x = .ok t) : exec (.scInternalCommand none) s = .next t := by
  rw [exec_internal ready goes queue turn, acts]

theorem exec_internal_refuses {x : InternalCommand} {rest : List InternalCommand} {t : State} {code : Nat} (ready : s.pwr.phase = .ready)
    (goes : s.cmd.halted = false) (queue : s.sched.internal = x :: rest) (turn : s.tieWinner 0 = some (s.flowOwner x.flow))
    (refuses : (tookInternal s (s.flowOwner x.flow) rest).internal x = .error (code, t)) :
    exec (.scInternalCommand none) s = .next (t.internalRefused x code) := by
  rw [exec_internal ready goes queue turn, refuses]

/-- An internal command that only stops or writes, all of whose shadow numbers are the expected ones, is not refused (R200). -/
theorem internalFault_none {x : InternalCommand} {k : Cluster} (site : x.site = some k) (restart : x.restart = none)
    (inside : ∀ c ∈ x.names (s.members k), ∃ d ∈ s.members k, d.val = c)
    (same : ∀ c ∈ s.members k, c.val ∈ x.compared (s.members k) → (s.gens[c]).shadow.number = x.expectGen[c]) : s.internalFault x = none := by
  have named : (x.names (s.members k)).all (fun c => (s.members k).any fun d => decide (d.val = c)) = true := by
    simpa [List.all_eq_true, List.any_eq_true] using inside
  have fresh : (s.members k).any (fun c => (x.compared (s.members k)).contains c.val && decide ((s.gens[c]).shadow.number ≠ getN x.expectGen c.val 0))
      = false := by
    refine List.any_eq_false.2 fun c member => ?_
    have number := same c member
    have at_ : getN x.expectGen c.val 0 = x.expectGen[c] := by simp [getN]
    rw [at_]
    simpa using number
  unfold State.internalFault
  rw [site, restart]
  dsimp only [Option.map_some, Option.getD_some]
  rw [named, fresh]
  simp

/-- An internal command without a RESTART whose SET_EDGEs are none acts by its SET_LEVELs and its stop (R200). -/
theorem internal_acts {x : InternalCommand} {k : Cluster} (site : x.site = some k) (restart : x.restart = none) (edges : x.edges = [])
    (allowed : s.internalFault x = none) :
    s.internal x = .ok (if x.stop then ((s.writeActions x).stopRequest k).state else s.writeActions x) := by
  unfold State.internal
  rw [allowed, site, restart, edges]
  rfl

/-- An internal command with a shadow number that is not the expected one is stale (R200). -/
theorem internal_stale {x : InternalCommand} {k : Cluster} (site : x.site = some k)
    (inside : ∀ c ∈ x.names (s.members k), ∃ d ∈ s.members k, d.val = c)
    (stale : ∃ c ∈ s.members k, c.val ∈ x.compared (s.members k) ∧ (s.gens[c]).shadow.number ≠ x.expectGen[c]) :
    s.internal x = .error (0x14, s) := by
  have named : (x.names (s.members k)).all (fun c => (s.members k).any fun d => decide (d.val = c)) = true := by
    simpa [List.all_eq_true, List.any_eq_true] using inside
  obtain ⟨c, member, compared, number⟩ := stale
  have moved : (s.members k).any (fun c => (x.compared (s.members k)).contains c.val && decide ((s.gens[c]).shadow.number ≠ getN x.expectGen c.val 0))
      = true := by
    have at_ : getN x.expectGen c.val 0 = x.expectGen[c] := by simp [getN]
    refine List.any_eq_true.2 ⟨c, member, ?_⟩
    rw [at_]
    simpa using ⟨compared, number⟩
  have fault : s.internalFault x = some 0x14 := by
    unfold State.internalFault
    rw [site]
    dsimp only [Option.map_some, Option.getD_some]
    rw [named, moved]
    simp
  unfold State.internal
  rw [fault]

/-- A refused command of no search reports itself (R200). -/
theorem internalRefused_reports {x : InternalCommand} (code : Nat) (search : x.search = false) (idle : s.flt.taking = none) :
    let t := s.internalRefused x code
    t = { s with sites := t.sites, flt := t.flt, sched := { s.sched with refused := true, lastFlow := BitVec.ofNat 12 x.flow } } ∧
    (t.flt.history.map fun h => (h.source, h.detail)).head? = some (37, BitVec.ofNat 32 (x.flow + code * 2 ^ 16)) := by
  intro t
  let u : State := { s with sched := { s.sched with refused := true, lastFlow := BitVec.ofNat 12 x.flow } }
  have ends : u.endSearch x = u := by
    unfold State.endSearch
    rw [search]
  have reported : t = u.report 37 ((x.site.map s.maskOf).getD 0) (BitVec.ofNat 32 (x.flow + code * 2 ^ 16)) := by
    change (u.endSearch x).report _ _ _ = _
    rw [ends]
  obtain ⟨⟨frame, -, -⟩, top, -⟩ := u.report_idle (idle := idle) 37 ((x.site.map s.maskOf).getD 0) (BitVec.ofNat 32 (x.flow + code * 2 ^ 16))
  rw [← reported] at frame top
  refine ⟨frame, ?_⟩
  rw [newest, Option.map_eq_some_iff] at top
  obtain ⟨h, first, entry⟩ := top
  rw [List.head?_map, first, Option.map_some]
  exact congrArg (fun e : Nat × BitVec 12 × Word => some (e.1, e.2.2)) entry

/-- What a stop of a site that plays leaves: its bit of REQ, a late stop counted (R60, R257). -/
theorem stopRequest_latches {k : Cluster} (plays : (s.siteState k).busy = true) (free : (s.sites[k]).reqAck &&& 2 = 0) :
    let t := (s.stopRequest k).state
    t = { s with sites := t.sites, seqs := t.seqs, recent := t.recent, reqWait := t.reqWait } ∧
    t.sites[k] = { s.sites[k] with req := (s.sites[k]).req ||| 2 } ∧ ∀ j : Cluster, j ≠ k → t.sites[j] = s.sites[j] := by
  intro t
  have latched : t = (s.latchReq k reqStop).noteStop k := by
    change (s.stopRequest k).state = _
    unfold State.stopRequest
    exact congrArg Ending.state (if_pos plays)
  have records : t.sites = (s.latchReq k reqStop).sites := by
    rw [latched, State.noteStop_eq]
  refine ⟨?_, ?_, fun j other => ?_⟩
  · rw [latched, State.noteStop_eq, State.latchReq_eq]
  · rw [records, State.latchReq_sites]
    exact if_pos ⟨rfl, free⟩
  · rw [records, State.latchReq_sites]
    exact if_neg fun same => other same.1

theorem bitMask_own (k : Cluster) : (bitMask 12 k.val).getLsbD k.val = true := by
  revert k
  decide

/-- The state RECHAIN acts in: its request is taken, and the tie's pointer has moved (R20, R195). -/
def tookRechain (s : State) (k : Cluster) : State :=
  { s with sched := { s.sched with rechain := s.sched.rechain &&& ~~~(bitMask 12 k.val) }, cmd := (s.movePtr (s.flowOwner k.val) 0).cmd }

theorem exec_rechain {k : Cluster} (ready : s.pwr.phase = .ready) (goes : s.cmd.halted = false) (asked : s.sched.rechain.getLsbD k.val = true)
    (turn : s.tieWinner 0 = some (s.flowOwner k.val)) : exec (.rechain k none) s = .next (s.runRechain k) := by
  change execRechain k s none = _
  unfold execRechain
  rw [asked, isReady_of ready, goes, if_neg (by simp)]
  dsimp only [State.preempt]
  rw [goes, turn]
  exact if_neg (by simp)

theorem runRechain_eq {k : Cluster} (wanted : (s.sched.flow k.val).rechain = true) (on : s.sched.rechainOff.getLsbD k.val = false) :
    let u := tookRechain s k
    s.runRechain k =
      if (s.sched.flow k.val).rechainDesc = 0 || u.multi k || u.startHeld k || u.flt.device || u.ids.diag.active
          || (u.members k).any (fun c => u.flt.halted.getLsbD c.val || u.limCal c) then
        { u with sched := { u.sched with refused := true, lastFlow := BitVec.ofNat 12 k.val,
                                         rechainOff := s.sched.rechainOff ||| bitMask 12 k.val } }
      else (u.burstStart k (s.sched.flow k.val).rechainDesc .chained 0).repick := by
  intro u
  unfold State.runRechain
  dsimp only
  rw [wanted]
  have stays : (!true || (s.movePtr (s.flowOwner k.val) 0).sched.rechainOff.getLsbD k.val) = false := on
  rw [if_neg (by rw [stays]; exact Bool.false_ne_true)]
  rfl

/-- The engine of `u` where a machine check has halted it at `at_`, with a packet in hand or not (R277). -/
def checkedAt (u : State) (m : MCheck) (at_ : Micro) (busy : Bool) : State :=
  { u with cmd := { ({ u.cmd with micro := at_ } : CmdEngine).halt m.uaddr m.postCrux m.stack m.half with running := busy } }

theorem exec_machineCheck_idle (ready : s.pwr.phase = .ready) (goes : s.cmd.halted = false) (m : MCheck) :
    exec (.machineCheck m.postCrux m.stack m.half m.uaddr none) s =
      .next ((checkedAt { s with cmd := { s.cmd with mcheck := some m } } m s.cmd.micro false).report 0 0 m.word) := by
  change execMachineCheck m.postCrux m.stack m.half m.uaddr none s = _
  unfold execMachineCheck
  rw [isReady_of ready, goes]
  rfl

theorem exec_machineCheck_loses (ready : s.pwr.phase = .ready) (goes : s.cmd.halted = false) (m : MCheck) (before : m.postCrux = false)
    {r : Routine} (could : s.couldRun r.opcode.toNat r.packet = true) :
    let u := (({ s with cmd := { s.cmd with mcheck := some m } } : State).fetch r.opcode.toNat r.packet).residue r
    exec (.machineCheck false m.stack m.half m.uaddr (some r)) s =
      .next ((checkedAt u m (s.cmd.words r.opcode (some m.uaddr)) true).report 0 0 m.word) := by
  obtain ⟨post, stack, half, uaddr⟩ := m
  obtain rfl : post = false := before
  have runs : ({ s with cmd := { s.cmd with mcheck := some ⟨false, stack, half, uaddr⟩ } } : State).couldRun r.opcode.toNat r.packet = true := could
  change execMachineCheck false stack half uaddr (some r) s = _
  unfold execMachineCheck
  rw [isReady_of ready, goes]
  dsimp only
  rw [runs]
  rfl

/-- Settles O36: internal commands act or are refused, RECHAIN submits the next start, a machine check halts the engine, and the microwords step as
R267 to R269 give. -/
theorem internalCommandsAndMachineChecks : Obligations.InternalCommandsAndMachineChecks := by
  unfold Obligations.InternalCommandsAndMachineChecks
  refine ⟨?stops, ?levels, ?stale, ?chains, ?held, ?checks, ?loses, storedWord_sound, ?parity, ?sequencing⟩
  case stops =>
    intro s x rest k ready goes queue turn is plays free number
    obtain ⟨flow, site, gen, levels, edges, restart, stop, search⟩ := x
    obtain ⟨-, rfl, -, rfl, rfl, rfl, rfl, rfl⟩ := InternalCommand.mk.injEq .. ▸ is
    have allowed : (tookInternal s (s.flowOwner flow) rest).internalFault ⟨flow, some k, gen, [], [], none, true, false⟩ = none := by
      refine internalFault_none rfl rfl (fun c named => absurd named List.not_mem_nil) fun c _ compared => ?_
      obtain rfl : c = k := Fin.ext (List.mem_singleton.1 compared)
      exact number
    obtain ⟨frame, own, others⟩ := stopRequest_latches (s := tookInternal s (s.flowOwner flow) rest) plays free
    refine ⟨((tookInternal s (s.flowOwner flow) rest).stopRequest k).state,
      exec_internal_acts ready goes queue turn (internal_acts rfl rfl rfl allowed), ?_⟩
    generalize ((tookInternal s (s.flowOwner flow) rest).stopRequest k).state = t at frame own others ⊢
    exact ⟨own, others, (congrArg State.sched frame).trans rfl, (congrArg State.host frame).trans rfl, (congrArg State.gens frame).trans rfl⟩
  case levels =>
    intro s x rest k c p v ready goes queue turn is site cluster number
    obtain ⟨flow, home, gen, levels, edges, restart, stop, search⟩ := x
    obtain ⟨-, rfl, -, rfl, rfl, rfl, rfl, -⟩ := InternalCommand.mk.injEq .. ▸ is
    have allowed : (tookInternal s (s.flowOwner flow) rest).internalFault ⟨flow, some k, gen, [(p, v)], [], none, false, search⟩ = none := by
      refine internalFault_none rfl rfl (fun d named => ?_) fun d _ compared => ?_
      · obtain rfl : d = bitsOf p.toNat 8 4 := List.mem_singleton.1 named
        exact ⟨c, (s.mem_members k c).2 site, cluster.symm⟩
      · obtain rfl : d = c := Fin.ext ((List.mem_singleton.1 compared).trans cluster)
        exact number
    have wrote := (tookInternal s (s.flowOwner flow) rest).writeActions_level (x := ⟨flow, some k, gen, [(p, v)], [], none, false, search⟩)
      rfl rfl cluster
    have acts := (internal_acts rfl rfl rfl allowed).trans (congrArg Except.ok wrote)
    have slots := fun d => (tookInternal s (s.flowOwner flow) rest).writeShadow_get [c] (fun g => g.setLevel p v) (List.nodup_singleton c) d
    have frame := (tookInternal s (s.flowOwner flow) rest).writeShadow_eq [c] fun g => g.setLevel p v
    refine ⟨_, exec_internal_acts ready goes queue turn acts, ?_⟩
    generalize (tookInternal s (s.flowOwner flow) rest).writeShadow [c] (fun g => g.setLevel p v) = t at slots frame ⊢
    have own : t.gens[c] = (s.gens[c]).rewrite fun g => g.setLevel p v := (slots c).trans (if_pos (List.mem_singleton_self c))
    refine ⟨?_, fun d other => (slots d).trans (if_neg fun same => other (List.mem_singleton.1 same)), ?_, ?_, ?_, fun l r => ?_⟩
    · rw [frame]
      rfl
    · rw [own]
      rfl
    · rw [own]
      rfl
    · rw [own]
      rfl
    · rw [own]
      exact ClusterConfig.setLevel_levels _ p v l r
  case stale =>
    intro s x rest k c p v ready goes queue turn is site cluster number calm
    obtain ⟨flow, home, gen, levels, edges, restart, stop, search⟩ := x
    obtain ⟨-, rfl, -, rfl, rfl, rfl, rfl, rfl⟩ := InternalCommand.mk.injEq .. ▸ is
    have refuses : (tookInternal s (s.flowOwner flow) rest).internal ⟨flow, some k, gen, [(p, v)], [], none, false, false⟩
        = .error (0x14, tookInternal s (s.flowOwner flow) rest) := by
      refine internal_stale (k := k) rfl (fun d named => ?_) ⟨c, (s.mem_members k c).2 site, ?_, number⟩
      case refine_2 => exact List.mem_singleton.2 cluster.symm
      obtain rfl : d = bitsOf p.toNat 8 4 := List.mem_singleton.1 named
      exact ⟨c, (s.mem_members k c).2 site, cluster.symm⟩
    obtain ⟨frame, first⟩ := internalRefused_reports (s := tookInternal s (s.flowOwner flow) rest)
      (x := ⟨flow, some k, gen, [(p, v)], [], none, false, false⟩) 0x14 rfl calm.2
    refine ⟨_, exec_internal_refuses ready goes queue turn refuses, ?_⟩
    generalize (tookInternal s (s.flowOwner flow) rest).internalRefused ⟨flow, some k, gen, [(p, v)], [], none, false, false⟩ 0x14 = t
      at frame first ⊢
    have sched := congrArg State.sched frame
    refine ⟨congrArg Sched.refused sched, congrArg Sched.lastFlow sched, congrArg Sched.internal sched, first, (congrArg State.gens frame).trans rfl,
      (congrArg State.host frame).trans rfl⟩
  case chains =>
    intro s k ready goes asked wanted desc single free device diag unlimited running on turn
    have clear : (tookRechain s k).members k = s.members k := rfl
    have limits : ((tookRechain s k).members k).any (fun c => (tookRechain s k).flt.halted.getLsbD c.val || (tookRechain s k).limCal c) = false := by
      refine List.any_eq_false.2 fun c member => ?_
      obtain ⟨halted, cal⟩ := unlimited c member
      change ¬(s.flt.halted.getLsbD c.val || s.limCal c) = true
      rw [halted, cal]
      exact Bool.false_ne_true
    have passes : (decide ((s.sched.flow k.val).rechainDesc = 0) || (tookRechain s k).multi k || (tookRechain s k).startHeld k
        || (tookRechain s k).flt.device || (tookRechain s k).ids.diag.active
        || ((tookRechain s k).members k).any fun c => (tookRechain s k).flt.halted.getLsbD c.val || (tookRechain s k).limCal c) = false := by
      have multi : (tookRechain s k).multi k = false := congrArg Option.isSome single
      have held : (tookRechain s k).startHeld k = false := free
      have whole : (tookRechain s k).flt.device = false := device
      have idle : (tookRechain s k).ids.diag.active = false := diag
      rw [limits, multi, held, whole, idle, decide_eq_false desc]
      rfl
    have run := (exec_rechain ready goes asked turn).trans (congrArg _ (runRechain_eq wanted on))
    rw [if_neg (by rw [passes]; exact Bool.false_ne_true), (tookRechain s k).burstStart_chained 0 _ running] at run
    refine ⟨_, run, congrArg Seqr.start (upd_get_same ..), ?_, upd_get_same .., rfl, rfl⟩
    change (s.sched.rechain &&& ~~~(bitMask 12 k.val)).getLsbD k.val = false
    rw [BitVec.getLsbD_and, BitVec.getLsbD_not, bitMask_own, Bool.not_true, Bool.and_false, Bool.and_false]
  case held =>
    intro s k ready goes asked wanted free on turn
    have run := (exec_rechain ready goes asked turn).trans (congrArg _ (runRechain_eq wanted on))
    have held : (tookRechain s k).startHeld k = true := free
    rw [if_pos (by rw [held]; simp)] at run
    refine ⟨_, run, rfl, rfl, rfl, ?_⟩
    rw [BitVec.getLsbD_or, bitMask_own, Bool.or_true]
  case checks =>
    intro s post stack half u ready goes calm
    let m : MCheck := ⟨post, stack, half, u⟩
    let v := checkedAt { s with cmd := { s.cmd with mcheck := some m } } m s.cmd.micro false
    obtain ⟨⟨frame, -, -⟩, -⟩ := v.report_idle (idle := calm.2) 0 0 m.word
    obtain ⟨h, top, source, mask, cls⟩ := v.report_top (idle := calm.2) 0 0 m.word
    refine ⟨_, exec_machineCheck_idle ready goes m, ?_⟩
    generalize v.report 0 0 m.word = t at frame top ⊢
    refine ⟨?_, ?_, (congrArg State.host frame).trans rfl, (congrArg State.gens frame).trans rfl⟩
    · rw [frame]
      rfl
    · rw [List.head?_map, top, Option.map_some, source, mask, cls]
      rfl
  case loses =>
    intro s stack half u r ready goes could fresh
    let m : MCheck := ⟨false, stack, half, u⟩
    let s1 : State := { s with cmd := { s.cmd with mcheck := some m } }
    let v := checkedAt ((s1.fetch r.opcode.toNat r.packet).residue r) m (s.cmd.words r.opcode (some u)) true
    have side := v.report_aside 0 0 m.word
    have kept := v.report_kept 0 0 m.word
    have rings := State.residue_rings (s1.fetch r.opcode.toNat r.packet) r
    refine ⟨_, exec_machineCheck_loses ready goes m rfl could, ?_⟩
    generalize v.report 0 0 m.word = t at side kept ⊢
    have fn : t.host.fn = (s1.fetch r.opcode.toNat r.packet).host.fn := (congrArg (fun x => x.1.fn) side).trans (congrArg Prod.snd rings)
    have gens : t.gens = (s1.fetch r.opcode.toNat r.packet).gens := (congrArg (fun x => x.2.1) kept).trans (congrArg Prod.fst rings)
    have ring := s1.fetch_of_ring_fn r.opcode.toNat r.packet fresh
    refine ⟨congrArg (fun x => x.2.1.halted) side, ?_, fun f => ?_, ?_⟩
    · rw [gens, State.fetch_gens]
    · rw [fn]
      exact s1.fetch_replies _ _ f
    · rw [fn, ring, if_pos rfl]
      exact congrArg SubRing.head (upd_get_same ..)
  case parity =>
    intro m x draw
    constructor
    · intro low
      exact if_pos low
    · intro low high
      exact (if_neg (by rw [low]; exact Bool.false_ne_true)).trans (if_pos high)
  case sequencing =>
    intro m w draw alt next go op
    have target : altOf w = alt := by
      refine congrArg (· ++ opndOf w) ?_
      unfold nextOf
      ext i
      rw [BitVec.getElem_extractLsb', BitVec.getLsbD_extractLsb', BitVec.getElem_extractLsb']
      have inside : 12 + i < 14 := by omega
      rw [decide_eq_true inside, Bool.true_and, Nat.zero_add]
    have seq (n : Nat) (small : n < 8) (is : w.toNat / 2 ^ 26 = n) : m.step (storedWord w) draw = m.sequence n w :=
      m.step_stored w draw n small is
    refine ⟨fun is => ?_, fun is => ?_, fun is => ?_, fun is => ?_, fun is => ?_, fun is => ?_⟩
    · rw [seq 1 (by decide) is, Micro.sequence, target]
      rfl
    · rw [seq 2 (by decide) is, Micro.sequence, target]
      rfl
    · rw [seq 3 (by decide) is, Micro.sequence, target]
      rfl
    · rw [seq 4 (by decide) is, Micro.sequence, target]
      rfl
    · rw [seq 5 (by decide) is, Micro.sequence, target]
      by_cases full : 4 ≤ m.stack.length
      · exact (if_pos full).trans (if_neg (Nat.not_lt.2 full)).symm
      · exact (if_neg full).trans (if_pos (Nat.not_le.1 full)).symm
    · rw [seq 6 (by decide) is]
      rfl

end Sys2Proof.Claims

namespace Sys2Proof.Machine
variable (s : State)

theorem State.fetch_powered (op : Nat) (p : Packet) (k : Cluster) : (s.fetch op p).powered k = s.powered k := by
  unfold State.powered
  rw [State.fetch_members, State.fetch_pwr]

theorem State.fetch_blockedAt (op : Nat) (p : Packet) (t : Int) : (s.fetch op p).blockedAt t = s.blockedAt t := by
  unfold State.blockedAt State.earlier State.armBlocked
  rw [State.fetch_pwr, State.fetch_netOff]

/-! ## BURST_START at its crux point (R256) -/

theorem State.wakePaths_only (k : Cluster) : ∃ r, s.wakePaths k = { s with rope := r } :=
  List.foldlRecOn (motive := fun t : State => ∃ r, t = { s with rope := r }) _ _ ⟨s.rope, rfl⟩ fun t ⟨r, same⟩ n _ => by
    obtain ⟨r', left⟩ := t.leaveIdle_only n
    exact ⟨r', by rw [left, same]⟩

theorem State.wakePaths_single (k : Cluster) (single : s.gangs[k] = none) : s.wakePaths k = s := by
  unfold State.wakePaths
  rw [single]
  rfl

/-- The DATA of a reply to BURST_START: the S of its start, where it has one. -/
def State.startData (mode : StartMode) (time : BitVec 96) : List Byte :=
  match mode with
  | .atTime => leBytes 12 time.toNat
  | .asap => leBytes 12 (stampOf (s.net + 600 * nsUnits)).toNat
  | .chained => []

/-- The start a BURST_START makes. -/
def State.started (k : Cluster) (seq : BitVec 16) (mode : StartMode) (time : BitVec 96) : State :=
  ((s.burstStart k seq mode (timeOf time)).wakePaths k).repick

theorem State.startPacket_starts {b : List Byte} {k : Cluster} {seq : BitVec 16} {mode : StartMode} {time : BitVec 96}
    (parse : parseStart b (s.multi k) = .ok (seq, mode, time)) (free : s.startHeld k = false) (limits : ∀ c ∈ s.members k, s.limCal c = false)
    (early : s.multi k = true → s.net < timeOf time - 600 * nsUnits) :
    s.startPacket b k = { (s.started k seq mode time).accepted with data := s.startData mode time } := by
  have open_ : (s.startHeld k || (s.members k).any s.limCal) = false := by
    rw [free, Bool.false_or]
    exact List.any_eq_false.2 fun c member => by rw [limits c member]; exact Bool.false_ne_true
  have timely : (s.multi k && decide (timeOf time - 600 * nsUnits ≤ s.net)) = false := by
    cases multi : s.multi k with
    | false => rfl
    | true => exact decide_eq_false (not_le.2 (early multi))
  unfold State.startPacket
  rw [s.parsed_ok _ _ _ parse]
  dsimp only
  rw [open_, timely]
  rfl

theorem State.startPacket_busy {b : List Byte} {k : Cluster} {seq : BitVec 16} {mode : StartMode} {time : BitVec 96}
    (parse : parseStart b (s.multi k) = .ok (seq, mode, time)) (held : s.startHeld k = true) : s.startPacket b k = s.busy := by
  unfold State.startPacket
  rw [s.parsed_ok _ _ _ parse]
  dsimp only
  rw [held]
  rfl

theorem State.startPacket_late {b : List Byte} {k : Cluster} {seq : BitVec 16} {mode : StartMode} {time : BitVec 96}
    (parse : parseStart b (s.multi k) = .ok (seq, mode, time)) (free : s.startHeld k = false) (limits : ∀ c ∈ s.members k, s.limCal c = false)
    (multi : s.multi k = true) (late : timeOf time - 600 * nsUnits ≤ s.net) : s.startPacket b k = { code := 0x15, state := s } := by
  have open_ : (s.startHeld k || (s.members k).any s.limCal) = false := by
    rw [free, Bool.false_or]
    exact List.any_eq_false.2 fun c member => by rw [limits c member]; exact Bool.false_ne_true
  unfold State.startPacket
  rw [s.parsed_ok _ _ _ parse]
  dsimp only
  rw [open_, multi, decide_eq_true late]
  rfl

/-- A chained start is a single-device one (R256). -/
theorem parseStart_single {b : List Byte} {multi : Bool} {seq : BitVec 16} {mode : StartMode} {time : BitVec 96}
    (parse : parseStart b multi = .ok (seq, mode, time)) (other : mode ≠ .atTime) : multi = false := by
  unfold parseStart at parse
  dsimp only at parse
  obtain ⟨all, is⟩ := (checked_eq_ok_iff _ _ _).1 parse
  have field := all (2, _) (List.mem_cons_of_mem _ (List.mem_cons_self ..))
  have chosen : (StartMode.ofCode (fieldAt b 2 1)).getD .atTime = mode := congrArg (fun x => x.2.1) is
  cases named : StartMode.ofCode (fieldAt b 2 1) with
  | none => exact absurd (chosen.symm.trans (by rw [named]; rfl)) other
  | some m =>
    obtain rfl : m = mode := by rw [← chosen, named]; rfl
    rw [named] at field
    cases m
    · exact absurd rfl other
    · simpa using field
    · simpa using field

/-- A timed start that is not late already waits for its arm point (R66, R256). -/
theorem State.burstStart_timed (k : Cluster) (seq : BitVec 16) (time : Int) (early : s.net < time - 600 * nsUnits) :
    s.burstStart k seq .atTime time =
      (s.updSite k fun r => { r with taint := false }).updSeq k fun q => { q with start := some ⟨.atTime, seq, some time, false⟩ } := by
  have timely : decide (time - 600 * nsUnits < s.net) = false := decide_eq_false (by omega)
  unfold State.burstStart State.makePending
  dsimp only
  rw [Option.getD_some, timely, Bool.and_false]
  rfl

/-- An ASAP start that finds its descriptor arms at the crux point (R66, R256). -/
theorem State.burstStart_asap (k : Cluster) (seq : BitVec 16) (time : Int) {d : Descriptor} (front : (s.seqs[k]).front = some d) (named : d.seq = seq)
    (rests : (s.siteState k).rests = true) (powered : s.powered k = true) (open_ : s.blockedAt s.net = false) :
    s.burstStart k seq .asap time = (s.updSite k fun r => { r with taint := false }).doArm k
      { mode := .asap, desc := d, sched := s.net + 600 * nsUnits, armedAt := s.net, due := s.net + 600 * nsUnits, entry := some (d.candidates.headD 0) } d := by
  let u := s.updSite k fun r => { r with taint := false }
  have state : u.siteState k = s.siteState k := by
    rw [State.siteState, State.updSite_get, if_pos rfl]
    rfl
  have can : u.canArm k { mode := .asap, seq := seq, sched := some (s.net + 600 * nsUnits) } = true := by
    have here : (u.seqs[k]).front = some d := front
    have on : u.powered k = true := powered
    unfold State.canArm
    rw [here, state, rests, on]
    simpa using named
  have shut : u.blockedAt s.net = false := open_
  unfold State.burstStart State.makePending
  change u.armSingle k _ s.net = _
  unfold State.armSingle
  have here : (u.seqs[k]).front = some d := front
  dsimp only
  rw [if_pos rfl]
  rw [here]
  dsimp only
  rw [can, shut]
  rfl

/-- What a start that waits leaves (R66, R256). -/
theorem State.started_waits {k : Cluster} {seq : BitVec 16} {mode : StartMode} {time : BitVec 96} {st : Start}
    (made : s.burstStart k seq mode (timeOf time) = (s.updSite k fun r => { r with taint := false }).updSeq k fun q => { q with start := some st }) :
    let u := s.started k seq mode time
    u = { s with seqs := u.seqs, sites := u.sites, rope := u.rope, pwr := { s.pwr with cl := u.pwr.cl } } ∧
    u.sites = upd s.sites k (fun r => { r with taint := false }) ∧ u.seqs = upd s.seqs k (fun q => { q with start := some st }) ∧
    (s.gangs[k] = none → u.rope = s.rope) := by
  intro u
  obtain ⟨r, woken⟩ := (s.burstStart k seq mode (timeOf time)).wakePaths_only k
  have whole : u = ({ s.burstStart k seq mode (timeOf time) with rope := r } : State).repick := congrArg State.repick woken
  refine ⟨?_, ?_, ?_, fun single => ?_⟩
  · rw [whole, made]
    rfl
  · rw [whole, made]
    rfl
  · rw [whole, made]
    rfl
  · have alone : (s.burstStart k seq mode (timeOf time)).gangs[k] = none := by
      rw [made]
      exact single
    have plain : u = (s.burstStart k seq mode (timeOf time)).repick := congrArg State.repick (State.wakePaths_single _ k alone)
    rw [plain, made]
    rfl

end Sys2Proof.Machine

namespace Sys2Proof.Claims
open Sys2Proof.Machine

variable {s : State} {p : Packet} {cl : List Cluster}

/-- BURST_START's row of the table (R244). -/
def startSpec : OpSpec := { opcode := 0x0211, form := .site, units := 3, gen := .pend, notInDiag := true, haltSites := true }

/-- The body of a BURST_START the stages let through, and what it replies. -/
theorem exec_burstStart (hp : Passes s startSpec p cl) {e : Ending} (body : (s.fetch 0x0211 p).startPacket p.payload (siteIn s cl) = e) :
    exec (.burstStart p) s = .next (e.state.reply p.func (e.reply startSpec p cl)) := by
  change Host.Outcome.next (s.runPacket startSpec p none fun cl s => s.startPacket p.payload (s.site (cl.headD 0))) = _
  rw [runPacket_of_passes hp]
  have here : (s.fetch 0x0211 p).startPacket p.payload ((s.fetch 0x0211 p).site (cl.headD 0)) = e := by
    rw [State.fetch_site]
    exact body
  exact congrArg (fun e : Ending => Host.Outcome.next (e.state.reply p.func (e.reply startSpec p cl))) here

/-- A BURST_START that makes a start: what it replies to is the fetched packet's state with the records of sites changed. -/
theorem startMade_reply (hp : Passes s startSpec p cl) {u : State} {data : List Byte}
    (frame : u = { s.fetch 0x0211 p with seqs := u.seqs, sites := u.sites, rope := u.rope, pwr := { (s.fetch 0x0211 p).pwr with cl := u.pwr.cl } })
    (gen : (u.sites[siteIn s cl]).pendGen = (s.sites[siteIn s cl]).pendGen) :
    u.reply p.func (Ending.reply { u.accepted with data := data } startSpec p cl) =
      { served s 0x0211 p (answer p 0x0211 0x01 (s.sites[siteIn s cl]).pendGen data) with
        seqs := u.seqs, sites := u.sites, rope := u.rope, pwr := { s.pwr with quiet := s.now, cl := u.pwr.cl } } := by
  have here : u.genField .pend cl = (s.sites[siteIn s cl]).pendGen := by
    have same : siteIn u cl = siteIn s cl := by
      have : u.siteOf = (s.fetch 0x0211 p).siteOf := (congrArg State.siteOf frame).trans rfl
      rw [siteIn, State.site, this, State.fetch_siteOf, siteIn, State.site]
    simp only [genField_pend (target_site_ne_nil hp.2.2.2.1), same]
    exact gen
  have goes : u.cmd.mcheck = none := by
    have : u.cmd = (s.fetch 0x0211 p).cmd := (congrArg State.cmd frame).trans rfl
    rw [this, State.fetch_mcheck]
    exact hp.2.1
  have pwr := s.fetch_pwr 0x0211 p
  have now := s.fetch_now 0x0211 p
  rw [Ending.reply, State.accepted]
  change u.reply p.func { answer p 0x0211 0x01 (u.genField .pend cl) data with } = _
  rw [here, State.reply_eq_posted _ _ _ goes, served_eq_posted hp.2.1, frame]
  simp only [State.posted, State.updFn, State.writeHost, State.endRoutine]
  rw [pwr, now]

/-- What the crux point of a BURST_START reads, before the fetch. -/
theorem start_before (hp : Passes s startSpec p cl) {seq : BitVec 16} {mode : StartMode} {time : BitVec 96}
    (parse : parseStart p.payload (s.multi (siteIn s cl)) = .ok (seq, mode, time)) (free : s.startHeld (siteIn s cl) = false)
    (limits : ∀ c ∈ s.members (siteIn s cl), s.limCal c = false)
    (early : s.multi (siteIn s cl) = true → s.net < timeOf time - 600 * nsUnits) :
    exec (.burstStart p) s = .next ((((s.fetch 0x0211 p).started (siteIn s cl) seq mode time)).reply p.func
      (Ending.reply { ((s.fetch 0x0211 p).started (siteIn s cl) seq mode time).accepted with data := s.startData mode time } startSpec p cl)) := by
  have multi : (s.fetch 0x0211 p).multi (siteIn s cl) = s.multi (siteIn s cl) := by rw [State.multi, State.fetch_gangs, State.multi]
  have net := s.fetch_net 0x0211 p
  have data : (s.fetch 0x0211 p).startData mode time = s.startData mode time := by
    unfold State.startData
    rw [net]
  rw [← data]
  refine exec_burstStart hp (e := { ((s.fetch 0x0211 p).started (siteIn s cl) seq mode time).accepted with
    data := (s.fetch 0x0211 p).startData mode time }) ?_
  refine State.startPacket_starts _ (by rw [multi]; exact parse) ?_ (fun c member => ?_) fun more => ?_
  · rw [← free, State.startHeld, State.startPending, State.fetch_siteState, State.fetch_seqs, State.startHeld, State.startPending]
  · rw [State.limCal, State.fetch_cal]
    exact limits c (by rwa [State.fetch_members] at member)
  · rw [net]
    exact early (by rwa [multi] at more)

/-- Settles O11: a start is made pending, arms at the crux point, or is refused. -/
theorem burstStartMakesStartPending : Obligations.BurstStartMakesStartPending := by
  unfold Obligations.BurstStartMakesStartPending
  intro o
  refine ⟨?timed, ?chained, ?asap, ?refused⟩
  case timed =>
    intro s p cl seq time hp k parse free limits early
    have timely : (s.fetch 0x0211 p).net < timeOf time - 600 * nsUnits := by
      rw [State.fetch_net]
      exact early
    obtain ⟨frame, sites, seqs, rope⟩ := State.started_waits _ (seq := seq) (time := time)
      ((s.fetch 0x0211 p).burstStart_timed k seq (timeOf time) timely)
    refine ⟨_, start_before hp parse free limits fun _ => early, ?_⟩
    generalize (s.fetch 0x0211 p).started (siteIn s cl) seq .atTime time = u at frame sites seqs rope ⊢
    rw [State.fetch_sites] at sites
    rw [State.fetch_seqs] at seqs
    have gen : (u.sites[siteIn s cl]).pendGen = (s.sites[siteIn s cl]).pendGen := by rw [sites, upd_get_same]
    rw [startMade_reply hp frame gen]
    refine ⟨rfl, fun j => ?_, fun j => ?_, fun single => ?_⟩
    · exact (congrArg (fun v : Vector Seqr 12 => v[j]) seqs).trans (upd_apply ..)
    · exact (congrArg (fun v : Vector SiteRec 12 => v[j]) sites).trans (upd_apply ..)
    · exact (rope (by rw [State.fetch_gangs]; exact single)).trans (s.fetch_rope _ _)
  case chained =>
    intro s p cl seq time hp k parse free limits running
    have single : s.gangs[k] = none := by
      have alone : s.multi k = false := parseStart_single parse (by decide)
      rw [State.multi] at alone
      exact Option.isSome_eq_false_iff.1 alone |> Option.isNone_iff_eq_none.1
    have busy : ((s.fetch 0x0211 p).siteState k).rests = false := by
      rw [State.fetch_siteState]
      exact running
    obtain ⟨frame, sites, seqs, rope⟩ := State.started_waits _ (seq := seq) (time := time)
      ((s.fetch 0x0211 p).burstStart_chained (timeOf time) seq busy)
    refine ⟨_, start_before hp parse free limits fun more => ?_, ?_⟩
    · rw [State.multi, single] at more
      cases more
    generalize (s.fetch 0x0211 p).started (siteIn s cl) seq .chained time = u at frame sites seqs rope ⊢
    rw [State.fetch_sites] at sites
    rw [State.fetch_seqs] at seqs
    have gen : (u.sites[siteIn s cl]).pendGen = (s.sites[siteIn s cl]).pendGen := by rw [sites, upd_get_same]
    have same : u.rope = (served s 0x0211 p (answer p 0x0211 0x01 (s.sites[siteIn s cl]).pendGen [])).rope := by
      rw [rope (by rw [State.fetch_gangs]; exact single), served, State.reply_rope]
    rw [startMade_reply hp frame gen]
    refine ⟨?_, fun j => ?_, fun j => ?_⟩
    · rw [same]
      rfl
    · exact (congrArg (fun v : Vector Seqr 12 => v[j]) seqs).trans (upd_apply ..)
    · exact (congrArg (fun v : Vector SiteRec 12 => v[j]) sites).trans (upd_apply ..)
  case asap =>
    intro s p cl seq time d hp k parse free limits front named rests powered open_ quiet
    let s1 := s.fetch 0x0211 p
    have net : s1.net = s.net := s.fetch_net _ _
    let a : Armed := { mode := .asap, desc := d, sched := s1.net + 600 * nsUnits, armedAt := s1.net, due := s1.net + 600 * nsUnits,
                       entry := some (d.candidates.headD 0) }
    let w := s1.updSite k fun r => { r with taint := false }
    have made : s1.burstStart k seq .asap (timeOf time) = w.doArm k a d :=
      s1.burstStart_asap k seq (timeOf time) (by rw [State.fetch_seqs]; exact front) named (by rw [State.fetch_siteState]; exact rests)
        (by rw [State.fetch_powered]; exact powered) (by rw [State.fetch_net, State.fetch_blockedAt]; exact open_)
    have calm : (w.sites[k]).pends (reqStop ||| reqAbort) = false := by
      have here : w.sites[k] = { s.sites[k] with taint := false } := by
        rw [State.updSite_get, if_pos rfl, State.fetch_sites]
      rw [here]
      exact quiet
    obtain ⟨⟨frame, -, -⟩, ⟨m, n, site⟩, start, desc, armed⟩ := w.doArm_armed k a d calm
    obtain ⟨r, woken⟩ := (s1.burstStart k seq .asap (timeOf time)).wakePaths_only k
    have whole : s1.started k seq .asap time = ({ w.doArm k a d with rope := r } : State).repick := by
      rw [← made]
      exact congrArg State.repick woken
    refine ⟨_, start_before hp parse free limits fun more => ?_, ?_⟩
    · have alone : s.multi k = false := parseStart_single parse (by decide)
      rw [alone] at more
      cases more
    generalize w.doArm k a d = x at frame site start desc armed whole
    have host : (s1.started k seq .asap time).host = s1.host := by
      rw [whole]
      exact (congrArg State.host frame).trans rfl
    have goes : (s1.started k seq .asap time).cmd.mcheck = none := by
      have cmd : (s1.started k seq .asap time).cmd = s1.cmd := by
        rw [whole]
        exact (congrArg State.cmd frame).trans rfl
      rw [cmd, State.fetch_mcheck]
      exact hp.2.1
    have sites : (s1.started k seq .asap time).sites = x.sites := by
      rw [whole]
      rfl
    have seqs : (s1.started k seq .asap time).seqs = x.seqs := by
      rw [whole]
      rfl
    rw [State.reply_sites, State.reply_seqs, sites, seqs]
    refine ⟨?_, ?_, start, desc, ?_, (s1.started k seq .asap time).genField .pend cl, ?_⟩
    · rw [site]
    · rw [site, State.updSite_get, if_pos rfl]
    · have same := congrArg (Option.map fun a : Armed => (a.sched, a.armedAt, a.due)) armed
      rw [Option.map_map] at same
      exact same.trans (by rw [Option.map_some]; dsimp only [a]; rw [net])
    · rw [State.reply_eq_posted _ _ _ goes, State.posted_fn, if_pos rfl, host]
      exact congrArg (· ++ _) (s.fetch_replies 0x0211 p p.func)
  case refused =>
    intro s p cl seq mode time hp k parse
    have multi : (s.fetch 0x0211 p).multi k = s.multi k := by rw [State.multi, State.fetch_gangs, State.multi]
    have here : parseStart p.payload ((s.fetch 0x0211 p).multi k) = .ok (seq, mode, time) := by
      rw [multi]
      exact parse
    have gen : (s.fetch 0x0211 p).genField .pend cl = (s.sites[k]).pendGen := by
      rw [State.fetch_genField, genField_pend (target_site_ne_nil hp.2.2.2.1)]
    constructor
    · intro held
      refine ⟨_, exec_burstStart hp (State.startPacket_busy _ here ?_), ?_⟩
      · rw [← held, State.startHeld, State.startPending, State.fetch_siteState, State.fetch_seqs, State.startHeld, State.startPending]
      · rw [Ending.reply, State.busy]
        dsimp only [startSpec]
        rw [gen]
        rfl
    · intro free limits more late
      refine ⟨_, exec_burstStart hp (State.startPacket_late _ here ?_ (fun c member => ?_) ?_ ?_), ?_⟩
      · rw [← free, State.startHeld, State.startPending, State.fetch_siteState, State.fetch_seqs, State.startHeld, State.startPending]
      · rw [State.limCal, State.fetch_cal]
        exact limits c (by rwa [State.fetch_members] at member)
      · rw [multi]
        exact more
      · rw [State.fetch_net]
        exact late
      · rw [Ending.reply]
        dsimp only [startSpec]
        rw [gen]
        rfl

end Sys2Proof.Claims

namespace Sys2Proof.Machine

/-! ## Folds over the state -/

/-- A fold whose steps keep `P`, one of whose steps makes `Q`, and whose steps keep `Q`, ends in `Q`. -/
theorem foldl_reaches {α : Type} (l : List α) (f : State → α → State) (P Q : State → Prop) (a : α) (mem : a ∈ l)
    (keeps : ∀ s b, P s → P (f s b)) (makes : ∀ s, P s → Q (f s a)) (stays : ∀ s b, P s → Q s → Q (f s b)) (s : State) (start : P s) :
    Q (l.foldl f s) := by
  induction l generalizing s with
  | nil => cases mem
  | cons b l ih =>
    by_cases here : a ∈ l
    · exact ih here (f s b) (keeps s b start)
    · obtain rfl : a = b := (List.mem_cons.1 mem).resolve_right here
      have done : P (f s a) ∧ Q (f s a) := ⟨keeps s a start, makes s start⟩
      exact (List.foldlRecOn (motive := fun t => P t ∧ Q t) l f done fun t both b _ => ⟨keeps t b both.1, stays t b both.1 both.2⟩).2

variable (s : State)

/-! ## A function reset's sites (R247) -/

/-- What a function reset does at one site of the function: its start is cancelled, an ABORT is latched for a burst, its front buffer is emptied. -/
def State.resetSite (k : Cluster) : State :=
  let t := s.cancelStart k
  (if t.playing k then t.latchAbort k else t).dropFront k

/-- The segments of a cluster keep their IDs. -/
def SameIds (s t : State) : Prop := ∀ c : Cluster, (t.mem.segs[c]).map (·.id) = (s.mem.segs[c]).map (·.id)

theorem SameIds.trans {s t u : State} (h : SameIds s t) (h' : SameIds t u) : SameIds s u := fun c => (h' c).trans (h c)

theorem sameIds_upd (c : Cluster) (f : List Seg → List Seg) (ids : ∀ l, (f l).map (·.id) = l.map (·.id)) :
    SameIds s { s with mem := { s.mem with segs := upd s.mem.segs c f } } := by
  intro d
  refine (congrArg (List.map Seg.id) (upd_apply s.mem.segs c d f)).trans ?_
  split
  · exact ids _
  · rfl

theorem updSeg_ids (l : List Seg) (id : Word) (f : Seg → Seg) (same : ∀ g, (f g).id = g.id) : (updSeg l id f).map (·.id) = l.map (·.id) := by
  unfold updSeg
  rw [List.map_map]
  refine List.map_congr_left fun g _ => ?_
  change (if g.id = id then f g else g).id = g.id
  split
  · exact same g
  · rfl

theorem State.releaseHeads_ids (k : Cluster) : SameIds s (s.releaseHeads k) := by
  unfold State.releaseHeads
  extract_lets kept
  refine List.foldlRecOn (motive := fun t => SameIds s t) _ _ (fun _ => rfl) fun t same c _ => same.trans (sameIds_upd t c _ fun l => ?_)
  unfold Machine.releaseHeads
  rw [List.map_map]
  refine List.map_congr_left fun g _ => ?_
  dsimp only [Function.comp]
  split <;> rfl

theorem State.dropFront_frame (k : Cluster) : let t := s.dropFront k
    t = { s with recent := (s.noteFront k).recent, seqs := upd s.seqs k fun q => { q with front := none }, mem := { s.mem with segs := t.mem.segs } } ∧ SameIds s t := by
  intro t
  have released := State.releaseHeads_eq ((s.noteFront k).updSeq k fun q => { q with front := none }) k
  have ids := State.releaseHeads_ids ((s.noteFront k).updSeq k fun q => { q with front := none }) k
  exact ⟨released, ids⟩

/-- An ABORT now leaves the start of a site that is not ARMED. -/
theorem State.abortNow_start (k : Cluster) (h : s.siteState k ≠ .armed) : ((s.abortNow k).seqs[k]).start = (s.seqs[k]).start := by
  have stall : ((s.seqs[k]).enterStall s.net).start = (s.seqs[k]).start := by
    unfold Seqr.enterStall
    split
    · split <;> rfl
    · rfl
  unfold State.abortNow
  rw [if_neg h, State.updSeq_get, if_pos rfl]
  dsimp only
  split <;> exact stall

/-- An ABORT latched for a burst in progress (R60, R257). -/
theorem State.latchAbort_frame (k : Cluster) (busy : (s.siteState k).busy = true) : let t := s.latchAbort k
    t = { s with seqs := t.seqs, sites := t.sites, reqWait := t.reqWait, recent := t.recent } ∧
    (∀ j : Cluster, j ≠ k → t.sites[j] = s.sites[j] ∧ t.seqs[j] = s.seqs[j]) ∧ (t.seqs[k]).start = (s.seqs[k]).start ∧
    (∀ j : Cluster, t.siteState j = s.siteState j) ∧
    ((s.sites[k]).reqAck &&& reqAbort = 0 → (t.sites[k]).req = (s.sites[k]).req ||| reqAbort) := by
  have latched := s.latchReq_eq k reqAbort
  have sites := s.latchReq_sites k reqAbort
  have state := s.latchReq_siteState k reqAbort
  have run : (s.latchReq k reqAbort).siteState k ≠ .armed := by
    rw [state]
    intro armed
    rw [armed] at busy
    cases busy
  have now := (s.latchReq k reqAbort).abortNow_eq k run
  have others := (s.latchReq k reqAbort).abortNow_others k run
  have start := (s.latchReq k reqAbort).abortNow_start k run
  have seqs : (s.latchReq k reqAbort).seqs = s.seqs := (congrArg State.seqs latched).trans rfl
  intro t
  have records : t.sites = (s.latchReq k reqAbort).sites := (congrArg State.sites now).trans rfl
  refine ⟨?_, fun j other => ⟨?_, ?_⟩, ?_, fun j => ?_, fun free => ?_⟩
  · have wait : t.reqWait = (s.latchReq k reqAbort).reqWait := (congrArg State.reqWait now).trans rfl
    have recent : t.recent = (s.latchReq k reqAbort).recent := (congrArg State.recent now).trans rfl
    rw [records, wait, recent]
    exact now.trans (congrArg (fun u : State => { u with seqs := t.seqs }) latched)
  · rw [records, sites]
    exact if_neg fun same => other same.1
  · rw [← seqs]
    exact others j other
  · rw [← seqs]
    exact start
  · rw [State.siteState, records, ← state]
    rfl
  · rw [records, sites, if_pos ⟨rfl, free⟩]

/-- `t` is `s` with the sites `l` of a function reset, and nothing else of the sites changed. -/
def SitesReset (l : List Cluster) (t : State) : Prop :=
  t = { s with seqs := t.seqs, sites := t.sites, reqWait := t.reqWait, recent := t.recent, rope := t.rope, cal := t.cal,
               mem := { s.mem with segs := t.mem.segs } } ∧
  (∀ k : Cluster, k ∉ l → t.sites[k] = s.sites[k] ∧ t.seqs[k] = s.seqs[k]) ∧
  (∀ k ∈ l, (t.seqs[k]).start = none ∧ (t.seqs[k]).front = none ∧
    ((s.sites[k]).state.busy = true → (s.sites[k]).reqAck &&& reqAbort = 0 → (t.sites[k]).req = (s.sites[k]).req ||| reqAbort)) ∧
  (∀ k : Cluster, (s.siteState k).rests = true → (t.siteState k).rests = true) ∧ SameIds s t

theorem State.resetSite_frame (k : Cluster) : SitesReset s [k] (s.resetSite k) := by
  have cancelled := s.cancelStart_eq k
  have state : (s.cancelStart k).siteState k = if s.siteState k = .armed then .idle else s.siteState k := by
    rw [State.siteState, cancelled]
    dsimp only
    split
    · exact congrArg SiteRec.state (upd_get_same ..)
    · rfl
  have others (j : Cluster) (other : j ≠ k) : (s.cancelStart k).sites[j] = s.sites[j] ∧ (s.cancelStart k).seqs[j] = s.seqs[j] := by
    rw [cancelled]
    refine ⟨?_, upd_get_other _ _ _ _ (Ne.symm other)⟩
    dsimp only
    split
    · exact upd_get_other _ _ _ _ (Ne.symm other)
    · rfl
  unfold State.resetSite
  dsimp only
  generalize s.cancelStart k = t at cancelled state others ⊢
  have calm (j : Cluster) (rests : (s.siteState j).rests = true) : (t.siteState j).rests = true := by
    by_cases same : j = k
    · subst same
      rw [state]
      split
      · rfl
      · exact rests
    · rw [State.siteState, (others j same).1]
      exact rests
  have cancelledStart : (t.seqs[k]).start = none := by
    rw [cancelled]
    exact congrArg Seqr.start (upd_get_same ..)
  have plays : t.playing k = (s.sites[k]).state.busy := by
    rw [State.playing, state]
    split
    · next armed => exact (congrArg SiteState.busy armed).symm
    · rfl
  have acks : (t.sites[k]).reqAck = (s.sites[k]).reqAck ∧ (t.sites[k]).req = (s.sites[k]).req := by
    rw [cancelled]
    dsimp only
    split
    · rw [upd_get_same]
      exact ⟨rfl, rfl⟩
    · exact ⟨rfl, rfl⟩
  obtain ⟨u, aborted⟩ : ∃ u, u = if t.playing k then t.latchAbort k else t := ⟨_, rfl⟩
  have frame : u = { t with seqs := u.seqs, sites := u.sites, reqWait := u.reqWait, recent := u.recent } ∧
      (∀ j : Cluster, j ≠ k → u.sites[j] = t.sites[j] ∧ u.seqs[j] = t.seqs[j]) ∧ (u.seqs[k]).start = (t.seqs[k]).start ∧
      (∀ j : Cluster, u.siteState j = t.siteState j) ∧
      ((s.sites[k]).state.busy = true → (s.sites[k]).reqAck &&& reqAbort = 0 → (u.sites[k]).req = (s.sites[k]).req ||| reqAbort) := by
    by_cases busy : t.playing k = true
    · rw [if_pos busy] at aborted
      obtain ⟨frame, others, start, state, req⟩ := t.latchAbort_frame k busy
      rw [aborted]
      refine ⟨frame, others, start, state, fun _ free => ?_⟩
      rw [← acks.1] at free
      rw [← acks.2]
      exact req free
    · rw [if_neg busy] at aborted
      rw [aborted]
      refine ⟨rfl, fun _ _ => ⟨rfl, rfl⟩, rfl, fun _ => rfl, fun runs => ?_⟩
      rw [plays] at busy
      exact absurd runs busy
  obtain ⟨frame, others', start, state', req⟩ := frame
  rw [← aborted]
  obtain ⟨dropped, ids⟩ := u.dropFront_frame k
  generalize u.dropFront k = w at dropped ids ⊢
  have sites : w.sites = u.sites := (congrArg State.sites dropped).trans rfl
  have seqs : w.seqs = upd u.seqs k fun q => { q with front := none } := (congrArg State.seqs dropped).trans rfl
  refine ⟨?_, fun j other => ?_, fun j here => ?_, fun j rests => ?_, ?_⟩
  · rw [dropped, frame, cancelled]
  · rw [List.mem_singleton] at other
    rw [sites, seqs, upd_get_other _ _ _ _ (Ne.symm other)]
    exact ⟨(others' j other).1.trans (others j other).1, (others' j other).2.trans (others j other).2⟩
  · obtain rfl := List.mem_singleton.1 here
    rw [sites, seqs, upd_get_same]
    exact ⟨start.trans cancelledStart, rfl, req⟩
  · rw [State.siteState, sites]
    exact (congrArg SiteState.rests (state' j)).trans (calm j rests)
  · refine SameIds.trans ?_ ids
    have segs : u.mem.segs = s.mem.segs := by rw [frame, cancelled]
    intro c
    rw [segs]

theorem sitesReset_cons {k : Cluster} {l : List Cluster} {t u : State} (fresh : k ∉ l) (first : SitesReset s [k] t) (rest : SitesReset t l u) :
    SitesReset s (k :: l) u := by
  obtain ⟨frame, others, own, resting, ids⟩ := first
  obtain ⟨frame', others', own', resting', ids'⟩ := rest
  refine ⟨?_, fun j out => ?_, fun j member => ?_, fun j rests => resting' j (resting j rests), ids.trans ids'⟩
  · rw [frame', frame]
  · rw [List.mem_cons, not_or] at out
    obtain ⟨here, later⟩ := out
    obtain ⟨site, seq⟩ := others j fun same => here (List.mem_singleton.1 same)
    obtain ⟨site', seq'⟩ := others' j later
    exact ⟨site'.trans site, seq'.trans seq⟩
  · obtain rfl | member := List.mem_cons.1 member
    · obtain ⟨site', seq'⟩ := others' j fresh
      rw [site', seq']
      exact own j (List.mem_singleton_self j)
    · obtain ⟨site, -⟩ := others j fun same => fresh (List.mem_singleton.1 same ▸ member)
      rw [← site]
      exact own' j member

theorem State.resetSites_frame (l : List Cluster) (distinct : l.Nodup) : SitesReset s l (l.foldl State.resetSite s) := by
  induction l generalizing s with
  | nil => exact ⟨rfl, fun _ _ => ⟨rfl, rfl⟩, fun _ out => absurd out List.not_mem_nil, fun _ rests => rests, fun _ => rfl⟩
  | cons k l ih =>
    obtain ⟨fresh, later⟩ := List.nodup_cons.1 distinct
    exact sitesReset_cons s fresh (s.resetSite_frame k) (ih _ later)

/-! ## Streams a function reset closes (R247) -/

/-- `t` is `s` with some streams closed. -/
def Closing (t : State) : Prop :=
  t = { s with mem := { s.mem with segs := t.mem.segs, ins := t.mem.ins, outs := t.mem.outs }, cl := t.cl,
               pwr := { s.pwr with hbmIdle := t.pwr.hbmIdle } } ∧ SameIds s t ∧
  (∀ i : Fin 24, t.mem.ins[i] = s.mem.ins[i] ∨ (t.mem.ins[i]).isOpen = false) ∧
  ∀ i : Fin 24, t.mem.outs[i] = s.mem.outs[i] ∨ (t.mem.outs[i]).isOpen = false

theorem Closing.refl : Closing s s := ⟨rfl, fun _ => rfl, fun _ => .inl rfl, fun _ => .inl rfl⟩

theorem Closing.trans {s t u : State} (h : Closing s t) (h' : Closing t u) : Closing s u := by
  obtain ⟨frame, ids, ins, outs⟩ := h
  obtain ⟨frame', ids', ins', outs'⟩ := h'
  refine ⟨?_, ids.trans ids', fun i => ?_, fun i => ?_⟩
  · rw [frame', frame]
  · obtain same | closed := ins' i
    · rw [same]
      exact ins i
    · exact .inr closed
  · obtain same | closed := outs' i
    · rw [same]
      exact outs i
    · exact .inr closed

theorem Closing.siteState {s t : State} (h : Closing s t) (c : Cluster) : t.siteState (t.site c) = s.siteState (s.site c) := by
  rw [h.1]
  rfl

theorem State.dropInstances_ids (i : Fin 24) : SameIds s (s.dropInstances i) := by
  unfold State.dropInstances
  dsimp only
  split
  · refine List.foldlRecOn (motive := fun t => SameIds s t) _ _ (fun _ => rfl) fun t same c _ => same.trans (sameIds_upd t c _ fun l => ?_)
    refine updSeg_ids l _ _ fun g => ?_
    split <;> rfl
  · exact fun _ => rfl

theorem State.closeIn_closing (i : Fin 24) : Closing s (s.closeIn i) ∧ ((s.closeIn i).mem.ins[i]).isOpen = false := by
  have ids := s.dropInstances_ids i
  obtain ⟨v, dropped⟩ := s.dropInstances_only i
  have closed : s.closeIn i = { s with mem := { s.mem with segs := v, ins := upd s.mem.ins i InStream.closed }, pwr := { s.pwr with hbmIdle := s.now } } := by
    unfold State.closeIn
    rw [dropped]
    rfl
  rw [dropped] at ids
  rw [closed]
  refine ⟨⟨rfl, ids, fun j => ?_, fun _ => .inl rfl⟩, congrArg InStream.isOpen (upd_get_same ..)⟩
  by_cases same : i = j
  · subst same
    exact .inr (congrArg InStream.isOpen (upd_get_same ..))
  · exact .inl (upd_get_other _ _ _ _ same)

theorem State.discardOut_closing (i : Fin 24) : Closing s (s.discardOut i) ∧ ((s.discardOut i).mem.outs[i]).isOpen = false := by
  have closed : (s.discardOut i).mem.outs = upd s.mem.outs i OutStream.closed := rfl
  refine ⟨⟨rfl, fun _ => rfl, fun _ => .inl rfl, fun j => ?_⟩, ?_⟩
  · rw [closed]
    by_cases same : i = j
    · subst same
      exact .inr (congrArg OutStream.isOpen (upd_get_same ..))
    · exact .inl (upd_get_other _ _ _ _ same)
  · rw [closed]
    exact congrArg OutStream.isOpen (upd_get_same ..)

/-- A stream's cluster rests, so that a stream marked on it closes (R247). -/
def State.quietStream (i : Fin 24) : Bool := (s.siteState (s.site (streamCluster i))).rests

/-- A marked inbound stream closes. -/
def State.shutIn (i : Fin 24) : State := if (s.mem.ins[i]).shut && s.quietStream i then s.closeIn i else s

/-- A marked outbound stream closes. -/
def State.shutOut (i : Fin 24) : State := if (s.mem.outs[i]).shut && s.quietStream i then s.discardOut i else s

def State.shutIns : State := (List.finRange 24).foldl State.shutIn s

def State.shutOuts : State := (List.finRange 24).foldl State.shutOut s

theorem State.closeShut_eq : s.closeShut = s.shutIns.shutOuts := rfl

theorem State.shutIn_closing (i : Fin 24) : Closing s (s.shutIn i) := by
  unfold State.shutIn
  split
  · exact (s.closeIn_closing i).1
  · exact Closing.refl s

theorem State.shutOut_closing (i : Fin 24) : Closing s (s.shutOut i) := by
  unfold State.shutOut
  split
  · exact (s.discardOut_closing i).1
  · exact Closing.refl s

theorem State.shutIns_closing : Closing s s.shutIns :=
  List.foldlRecOn (motive := fun t => Closing s t) _ _ (Closing.refl s) fun t before i _ => before.trans (t.shutIn_closing i)

theorem State.shutOuts_closing : Closing s s.shutOuts :=
  List.foldlRecOn (motive := fun t => Closing s t) _ _ (Closing.refl s) fun t before i _ => before.trans (t.shutOut_closing i)

theorem State.shutIns_closes (i : Fin 24) (marked : (s.mem.ins[i]).isOpen = true → (s.mem.ins[i]).shut = true) (quiet : s.quietStream i = true) :
    (s.shutIns.mem.ins[i]).isOpen = false := by
  have mem := List.mem_finRange i
  unfold State.shutIns
  generalize List.finRange 24 = l at mem ⊢
  refine foldl_reaches l State.shutIn (fun t => Closing s t) (fun t => (t.mem.ins[i]).isOpen = false) i mem
    (fun t j before => before.trans (t.shutIn_closing j)) (fun t before => ?_) (fun t j _ closed => ?_) s (Closing.refl s)
  · obtain same | closed := before.2.2.1 i
    · have calm : t.quietStream i = true := (congrArg SiteState.rests (before.siteState _)).trans quiet
      by_cases shut : (t.mem.ins[i]).shut = true
      · rw [State.shutIn, shut, calm]
        exact (t.closeIn_closing i).2
      · rw [State.shutIn, if_neg fun both => shut (Bool.and_eq_true_iff.1 both).1, same]
        exact Bool.eq_false_iff.2 fun isOpen => shut (by rw [same]; exact marked isOpen)
    · obtain same | closed' := (t.shutIn_closing i).2.2.1 i
      · rw [same]
        exact closed
      · exact closed'
  · obtain same | closed' := (t.shutIn_closing j).2.2.1 i
    · rw [same]
      exact closed
    · exact closed'

theorem State.shutOuts_closes (i : Fin 24) (marked : (s.mem.outs[i]).isOpen = true → (s.mem.outs[i]).shut = true) (quiet : s.quietStream i = true) :
    (s.shutOuts.mem.outs[i]).isOpen = false := by
  have mem := List.mem_finRange i
  unfold State.shutOuts
  generalize List.finRange 24 = l at mem ⊢
  refine foldl_reaches l State.shutOut (fun t => Closing s t) (fun t => (t.mem.outs[i]).isOpen = false) i mem
    (fun t j before => before.trans (t.shutOut_closing j)) (fun t before => ?_) (fun t j _ closed => ?_) s (Closing.refl s)
  · obtain same | closed := before.2.2.2 i
    · have calm : t.quietStream i = true := (congrArg SiteState.rests (before.siteState _)).trans quiet
      by_cases shut : (t.mem.outs[i]).shut = true
      · rw [State.shutOut, shut, calm]
        exact (t.discardOut_closing i).2
      · rw [State.shutOut, if_neg fun both => shut (Bool.and_eq_true_iff.1 both).1, same]
        exact Bool.eq_false_iff.2 fun isOpen => shut (by rw [same]; exact marked isOpen)
    · obtain same | closed' := (t.shutOut_closing i).2.2.2 i
      · rw [same]
        exact closed
      · exact closed'
  · obtain same | closed' := (t.shutOut_closing j).2.2.2 i
    · rw [same]
      exact closed
    · exact closed'

/-! ## Flows, and the whole of a function reset (R247) -/

theorem State.resetFlows_flow (f : Func) (n : Nat) : (s.resetFlows f).sched.flow n =
    if s.flowOwner n = f then { s.sched.flow n with prio := if n < 12 then 0 else 2, rechain := false, bdTable := 0xFFFF, maxPending := 256, rechainDesc := 0 }
    else s.sched.flow n := by
  unfold Sched.flow State.resetFlows
  dsimp only
  rw [List.find?_map]
  have key : ((fun p : Nat × Flow => decide (p.1 = n)) ∘ fun x : Nat × Flow => if s.flowOwner x.1 = f then
      (x.1, { x.2 with prio := (flowReset x.1).prio, rechain := false, bdTable := 0xFFFF, maxPending := 256, rechainDesc := 0 }) else x)
      = fun p : Nat × Flow => decide (p.1 = n) := by
    funext p
    dsimp only [Function.comp]
    split <;> rfl
  rw [key]
  cases found : s.sched.flows.find? fun p => decide (p.1 = n) with
  | none => split <;> rfl
  | some x =>
    obtain rfl : x.1 = n := of_decide_eq_true (List.find?_some (p := fun p : Nat × Flow => decide (p.1 = n)) found)
    dsimp only [Option.map_some, Option.getD_some]
    split <;> rfl

/-- The streams of the function's clusters marked to close (R247). -/
@[irreducible] def State.markedIns (f : Func) : Vector InStream 24 := Vector.ofFn fun (i : Fin 24) =>
  { s.mem.ins[i] with shut := (s.mem.ins[i]).isOpen && (s.owns f (streamCluster i) || (s.mem.ins[i]).shut) }

@[irreducible] def State.markedOuts (f : Func) : Vector OutStream 24 := Vector.ofFn fun (i : Fin 24) =>
  { s.mem.outs[i] with shut := (s.mem.outs[i]).isOpen && (s.owns f (streamCluster i) || (s.mem.outs[i]).shut) }

def State.markStreams (f : Func) : State := { s with mem := { s.mem with ins := s.markedIns f, outs := s.markedOuts f } }

theorem State.markedIns_get (f : Func) (i : Fin 24) : (s.markedIns f)[i] =
    { s.mem.ins[i] with shut := (s.mem.ins[i]).isOpen && (s.owns f (streamCluster i) || (s.mem.ins[i]).shut) } := by
  unfold State.markedIns
  exact Vector.getElem_ofFn ..

theorem State.markedOuts_get (f : Func) (i : Fin 24) : (s.markedOuts f)[i] =
    { s.mem.outs[i] with shut := (s.mem.outs[i]).isOpen && (s.owns f (streamCluster i) || (s.mem.outs[i]).shut) } := by
  unfold State.markedOuts
  exact Vector.getElem_ofFn ..

theorem State.resetStreams_eq (f : Func) : s.resetStreams f = (s.markStreams f).closeShut := by
  unfold State.resetStreams State.markStreams State.markedIns State.markedOuts
  rfl

theorem State.markStreams_quiet (f : Func) (i : Fin 24) : (s.markStreams f).quietStream i = s.quietStream i := by
  have sites : (s.markStreams f).sites = s.sites := rfl
  have siteOf : (s.markStreams f).siteOf = s.siteOf := rfl
  unfold State.quietStream State.siteState State.site
  rw [sites, siteOf]

/-- What a function reset leaves of the streams it has marked (R247). -/
theorem State.resetStreams_frame (f : Func) : let t := s.resetStreams f
    t = { s with mem := { s.mem with segs := t.mem.segs, ins := t.mem.ins, outs := t.mem.outs }, cl := t.cl,
                 pwr := { s.pwr with hbmIdle := t.pwr.hbmIdle } } ∧ SameIds s t ∧
    ∀ i : Fin 24, s.owns f (streamCluster i) = true → (s.siteState (s.site (streamCluster i))).rests = true →
      (t.mem.ins[i]).isOpen = false ∧ (t.mem.outs[i]).isOpen = false := by
  have ins := s.markedIns_get f
  have outs := s.markedOuts_get f
  have shape : s.markStreams f = { s with mem := { s.mem with ins := s.markedIns f, outs := s.markedOuts f } } := rfl
  have rest := s.markStreams_quiet f
  have ids : SameIds s (s.markStreams f) := by
    have segs : (s.markStreams f).mem.segs = s.mem.segs := rfl
    intro c
    rw [segs]
  rw [s.resetStreams_eq f]
  have insHere : (s.markStreams f).mem.ins = s.markedIns f := rfl
  have outsHere : (s.markStreams f).mem.outs = s.markedOuts f := rfl
  rw [← insHere] at ins
  rw [← outsHere] at outs
  generalize s.markedIns f = x at shape
  generalize s.markedOuts f = y at shape
  generalize s.markStreams f = u at ins outs shape rest ids ⊢
  rw [State.closeShut_eq]
  have first := u.shutIns_closing
  have second := u.shutIns.shutOuts_closing
  refine ⟨?_, ids.trans (first.trans second).2.1, fun i own quiet => ?_⟩
  · rw [(first.trans second).1, shape]
  · have calm : u.quietStream i = true := (rest i).trans quiet
    constructor
    · have closed := u.shutIns_closes i (fun isOpen => by rw [ins] at isOpen ⊢; rw [own]; simpa using isOpen) calm
      obtain same | done := second.2.2.1 i
      · rw [same]
        exact closed
      · exact done
    · refine u.shutIns.shutOuts_closes i (fun isOpen => ?_) ((congrArg SiteState.rests (first.siteState _)).trans calm)
      obtain same | done := first.2.2.2 i
      · rw [same, outs] at isOpen ⊢
        rw [own]
        simpa using isOpen
      · rw [done] at isOpen
        cases isOpen

/-- A reset of flows reads owners, sites and the scheduler alone. -/
theorem State.resetFlows_congr {u : State} (host : u.host = s.host) (siteOf : u.siteOf = s.siteOf) (sched : u.sched = s.sched) (f : Func) :
    (u.resetFlows f).sched = (s.resetFlows f).sched := by
  have owner (n : Nat) : u.flowOwner n = s.flowOwner n := by
    simp only [State.flowOwner, State.site, host, siteOf, sched]
  have num (i : Item) : u.tableNum i = s.tableNum i := by
    unfold State.tableNum
    rw [sched]
  have table (i : Item) : u.tableFor i = s.tableFor i := by
    unfold State.tableFor
    rw [num, sched, owner]
  unfold State.resetFlows
  simp only [owner, num, table, sched]

/-- What RESET_FUNCTION, or a function level reset, leaves (R234, R247). -/
def FunctionReset (f : Func) (t : State) : Prop :=
  t = { s with seqs := t.seqs, sites := t.sites, reqWait := t.reqWait, recent := t.recent, rope := t.rope, cal := t.cal, gens := t.gens,
               sched := (s.resetFlows f).sched, mem := { s.mem with segs := t.mem.segs, ins := t.mem.ins, outs := t.mem.outs }, cl := t.cl,
               pwr := { s.pwr with hbmIdle := t.pwr.hbmIdle, cl := t.pwr.cl } } ∧
  (∀ k ∈ s.siteIdxs, s.owns f k = true → (t.seqs[k]).start = none ∧ (t.seqs[k]).front = none ∧
    ((s.sites[k]).state.busy = true → (s.sites[k]).reqAck &&& reqAbort = 0 → (t.sites[k]).req = (s.sites[k]).req ||| reqAbort)) ∧
  (∀ k ∈ s.siteIdxs, s.owns f k = false → t.sites[k] = s.sites[k] ∧ t.seqs[k] = s.seqs[k]) ∧
  (∀ c : Cluster, t.gens[c] = if s.owns f c then (s.gens[c]).discard else s.gens[c]) ∧
  (∀ i : Fin 24, s.owns f (streamCluster i) = true → (s.siteState (s.site (streamCluster i))).rests = true →
    (t.mem.ins[i]).isOpen = false ∧ (t.mem.outs[i]).isOpen = false) ∧ SameIds s t

/-- The shadows of the function's clusters rebuilt (R247, R249). -/
def State.discardOwned (f : Func) : State :=
  ((List.finRange 12).filter fun c => s.owns f c).foldl (fun s c => s.updGen c GenSlots.discard) s

theorem State.discardOwned_eq (f : Func) : s.discardOwned f = { s with gens := (s.discardOwned f).gens } := s.foldl_updGen_eq _ _

theorem State.discardOwned_gens (f : Func) (c : Cluster) :
    (s.discardOwned f).gens[c] = if s.owns f c then (s.gens[c]).discard else s.gens[c] := by
  refine (s.foldl_updGen_get _ _ ((List.nodup_finRange 12).filter _) c).trans ?_
  simp only [List.mem_filter, List.mem_finRange, true_and]

theorem State.resetFunction_frame (f : Func) : FunctionReset s f (s.resetFunction f) := by
  let l := s.siteIdxs.filter fun k => s.owns f k
  have first := s.resetSites_frame l (((List.nodup_finRange 12).filter _).filter _)
  have whole : s.resetFunction f = ((((l.foldl State.resetSite s).discardOwned f).resetFlows f).resetStreams f).repick := rfl
  rw [whole]
  generalize l.foldl State.resetSite s = u at first ⊢
  obtain ⟨frame, others, own, resting, ids⟩ := first
  have gens := u.discardOwned_eq f
  have slots := u.discardOwned_gens f
  generalize u.discardOwned f = v at gens slots ⊢
  obtain ⟨streams, ids', closed⟩ := (v.resetFlows f).resetStreams_frame f
  generalize (v.resetFlows f).resetStreams f = x at streams ids' closed ⊢
  have owner : u.host = s.host := by rw [frame]
  have where_ : u.siteOf = s.siteOf := by rw [frame]
  have flows : (v.resetFlows f).sched = (s.resetFlows f).sched :=
    s.resetFlows_congr (by rw [gens, frame]) (by rw [gens, frame]) (by rw [gens, frame]) f
  have shape : v.resetFlows f = { v with sched := (v.resetFlows f).sched } := rfl
  rw [flows] at shape
  have sites : x.sites = u.sites := by rw [streams, shape, gens]
  have seqs : x.seqs = u.seqs := by rw [streams, shape, gens]
  have owns (c : Cluster) : u.owns f c = s.owns f c := by
    unfold State.owns
    rw [owner]
  refine ⟨?_, fun k site mine => ?_, fun k site other => ?_, fun c => ?_, fun i mine quiet => ?_, ?_⟩
  · rw [State.repick_eq, streams, shape, gens, frame]
  · change (x.seqs[k]).start = none ∧ (x.seqs[k]).front = none ∧ (_ → _ → (x.sites[k]).req = _)
    rw [sites, seqs]
    exact own k (List.mem_filter.2 ⟨site, mine⟩)
  · change x.sites[k] = _ ∧ x.seqs[k] = _
    rw [sites, seqs]
    refine others k fun member => ?_
    rw [(List.mem_filter.1 member).2] at other
    cases other
  · have same : x.repick.gens = v.gens := by
      change x.gens = v.gens
      rw [streams, shape]
    rw [same, slots, owns]
    rw [frame]
  · refine closed i ?_ ?_
    · rw [shape, gens]
      exact (owns _).trans mine
    · rw [shape, gens]
      change (u.siteState (u.site (streamCluster i))).rests = true
      rw [State.site, where_]
      exact resting _ quiet
  · refine ids.trans ?_
    have before : SameIds u (v.resetFlows f) := by
      intro c
      rw [shape, gens]
    exact before.trans ids'

/-! ## What a fetch leaves of the host port -/

theorem State.fetch_fn_other (op : Nat) (p : Packet) (f : Func) (other : f ≠ p.func) : (s.fetch op p).host.fn[f] = s.host.fn[f] := by
  cases slot : s.restartOf op p with
  | none => rw [State.fetch_of_ring_fn s op p slot, if_neg (Ne.symm other)]
  | some x => rw [State.fetch_of_slot s op p x.1 x.2 slot]

theorem State.fetch_flowOwner (op : Nat) (p : Packet) (n : Nat) : (s.fetch op p).flowOwner n = s.flowOwner n := by
  have owner : (s.fetch op p).host.owner = s.host.owner := by rw [s.fetch_host op p]
  simp only [State.flowOwner, State.site, owner, State.fetch_siteOf, State.fetch_sched]

end Sys2Proof.Machine

namespace Sys2Proof.Claims
open Sys2Proof.Machine

variable {s : State} {p : Packet}

/-- Settles O27: the mirror's place is the sender's alone; a function reset reaches every site, shadow, flow and stream of the function. -/
theorem mirrorSetAndFunctionReset : Obligations.MirrorSetAndFunctionReset := by
  unfold Obligations.MirrorSetAndFunctionReset
  refine ⟨?mirror, ?reset⟩
  case mirror =>
    intro s p hp b en small aligned off zero
    have bit : bitOf (fieldAt b 8 1) 0 = en := bitOf_zero_eq small
    have checks : ∀ x ∈ [(0, (u64At b 0).toNat % 4096 == 0 && (en || u64At b 0 == 0)), below b 8 1 2, isZero b 9 7], x.2 = true := by
      have place : ((u64At b 0).toNat % 4096 == 0 && (en || u64At b 0 == 0)) = true := by
        rw [Bool.and_eq_true_iff, Bool.or_eq_true_iff, beq_iff_eq, beq_iff_eq]
        exact ⟨aligned, off⟩
      simp only [List.mem_cons, List.not_mem_nil, or_false, forall_eq_or_imp, forall_eq]
      exact ⟨place, decide_eq_true small, zero⟩
    let put := fun h : HostFunc => { h with mirrorOn := en, mirrorAddr := u64At b 0, mirrorSeq := 0, page := [] }
    refine Completes.done hp rfl rfl ((s.fetch 0x0010 p).updFn p.func put) ?_ rfl ?_
    · dsimp only
      rw [bit]
      exact State.parsed_checked _ _ _ _ checks
    · rw [served_eq_posted hp.2.1]
      refine ⟨rfl, ?_, fun f other => ?_⟩
      · rw [State.posted_fn, if_pos rfl, State.updFn_get, if_pos rfl, State.posted_fn, if_pos rfl]
        rfl
      · rw [State.posted_fn, if_neg (Ne.symm other), State.updFn_get, if_neg (Ne.symm other)]
        exact s.fetch_fn_other 0x0010 p f other
  case reset =>
    intro s p f hp target
    have named : Fin.ofNat 13 (targetFunc p) = f := by
      refine fin_ofNat_val f ?_
      unfold targetFunc
      rw [target, Nat.mul_div_cancel_left _ (by decide)]
    have run : exec (.resetFunction p) s = .next (s.runPacket { opcode := 0x0003, form := .func, units := 1 } p
        (if p.func = 0 ∨ p.func = f then none else some 0x0A) fun _ s => (s.resetFunction f).accepted) := by
      change execResetFunction p s = _
      unfold execResetFunction
      rw [named]
      simp only [Bool.or_eq_true, decide_eq_true_eq]
    obtain ⟨frame, own, others, gens, streams, -⟩ := (s.fetch 0x0003 p).resetFunction_frame f
    have cmd : ((s.fetch 0x0003 p).resetFunction f).cmd = (s.fetch 0x0003 p).cmd := (congrArg State.cmd frame).trans rfl
    refine Completes.accepted hp run rfl _ rfl cmd ?_
    generalize (s.fetch 0x0003 p).resetFunction f = t at frame own others gens streams ⊢
    have host : t.host = (s.fetch 0x0003 p).host := (congrArg State.host frame).trans rfl
    have sched : t.sched = ((s.fetch 0x0003 p).resetFlows f).sched := (congrArg State.sched frame).trans rfl
    have sites : (s.fetch 0x0003 p).siteIdxs = s.siteIdxs := by
      simp only [State.siteIdxs, State.isSite, State.fetch_siteOf]
    have same := s.fetch_owns 0x0003 p f
    refine ⟨?_, fun k site mine => ?_, fun k site other => ?_, fun c => ?_, fun x member => ?_, fun i member => ?_, ?_, fun i mine quiet => ?_⟩
    · rw [State.posted_fn, if_pos rfl, host]
      exact congrArg (· ++ _) (s.fetch_replies 0x0003 p p.func)
    · have here := own k (by rw [sites]; exact site) (by rw [same]; exact mine)
      rwa [State.fetch_sites] at here
    · have here := others k (by rw [sites]; exact site) (by rw [same]; exact other)
      rwa [State.fetch_sites, State.fetch_seqs] at here
    · have here := gens c
      rwa [State.fetch_gens, same] at here
    · change x ∈ t.sched.tables at member
      rw [sched] at member
      simpa using (List.mem_filter.1 member).2
    · change i ∈ t.sched.queue at member
      rw [sched] at member
      have kept := (List.mem_filter.1 member).2
      rw [State.fetch_flowOwner] at kept
      simpa using kept
    · change t.sched.due = _
      rw [sched]
      exact (congrArg Sched.due (s.fetch_sched 0x0003 p) :)
    · refine streams i (by rw [same]; exact mine) ?_
      rw [State.fetch_siteState, State.fetch_site]
      exact quiet

end Sys2Proof.Claims

namespace Sys2Proof.Machine

/-! ## Folds whose steps each change their own element -/

/-- A fold over distinct elements whose step changes only its own element's part `g`, by `h`. -/
theorem foldl_each {α β : Type} (f : State → α → State) (g : α → State → β) (h : β → β) (own : ∀ s a, g a (f s a) = h (g a s))
    (other : ∀ s a b, a ≠ b → g b (f s a) = g b s) (l : List α) (distinct : l.Nodup) (s : State) :
    ∀ a ∈ l, g a (l.foldl f s) = h (g a s) := by
  have stays (l : List α) (b : α) (s : State) (out : b ∉ l) : g b (l.foldl f s) = g b s := by
    induction l generalizing s with
    | nil => rfl
    | cons a l ih =>
      rw [List.mem_cons, not_or] at out
      rw [List.foldl_cons, ih _ out.2, other s a b (Ne.symm out.1)]
  induction l generalizing s with
  | nil => exact fun a out => absurd out List.not_mem_nil
  | cons b l ih =>
    obtain ⟨fresh, later⟩ := List.nodup_cons.1 distinct
    intro a member
    rw [List.foldl_cons]
    obtain rfl | inside := List.mem_cons.1 member
    · rw [stays l a _ fresh, own]
    · rw [ih later _ a inside, other s b a fun same => fresh (same ▸ inside)]

variable (s : State)

/-! ## What time leaves of power (R18, R371) -/

theorem State.report_power (source : Nat) (mask : BitVec 12) (detail : Word) : (s.report source mask detail).pwr = s.pwr :=
  congrArg (fun x => x.2.2.1) (s.report_aside source mask detail)

theorem State.postNow_pwr (i : Item) : (s.postNow i).pwr = s.pwr := by
  dsimp only [State.postNow]
  split
  · rfl
  split
  · exact State.report_power _ _ _ _
  · split <;> rfl

theorem State.settlePosts_pwr (t : Nat) : (s.settlePosts t).pwr = s.pwr := by
  have posts (l : List Item) (s : State) : (l.foldl State.postNow s).pwr = s.pwr := foldl_keeps State.pwr _ State.postNow_pwr _ _
  dsimp only [State.settlePosts]
  split
  · rfl
  · exact foldl_keeps State.pwr _ (by intros; exact posts _ _) _ _

theorem State.advance_pwr (t : Nat) : (s.advance t).pwr = s.pwr := by
  unfold State.advance
  split
  · rfl
  · rw [State.handshakes_eq]
    have ends (u : State) : (u.endCycle t).pwr = u.pwr := congrArg (fun x => x.2.2.1) (u.endCycle_aside t)
    dsimp only
    rw [ends]
    split
    · rfl
    · exact s.settlePosts_pwr _

theorem State.advance_clock {t : Nat} (later : s.now ≤ t) : (s.advance t).now = t := by
  unfold State.advance
  split
  · next early => exact Nat.le_antisymm later early
  · rw [State.handshakes_eq]

/-! ## Companion chips (R406) -/

theorem setBit_get {n : Nat} (m : BitVec n) (i j : Nat) (inside : i < n) : (setBit m i).getLsbD j = (m.getLsbD j || decide (i = j)) := by
  unfold setBit bitMask
  rw [BitVec.getLsbD_or, BitVec.getLsbD_ofNat, Nat.testBit_two_pow]
  by_cases same : i = j
  · subst same
    simp [inside]
  · simp [same]

/-- A pin's chip qualifies. -/
def qualifies (chips : BitVec 96) (others : List Chip) (p : Pin) : Bool :=
  match (if chips.getLsbD p.val then [⟨Fin.ofNat 2 (p.val / 48), BitVec.ofNat 12 p.val, 1⟩] else []) ++ others.filter (fun x => x.id.toNat = p.val) with
  | [x] => decide (x.bus.val = p.val / 48) && decide (x.contract = 1)
  | _ => false

theorem foldl_setBit {n : Nat} (c : Fin n → Bool) (l : List (Fin n)) (m : BitVec n) (q : Fin n) :
    (l.foldl (fun m p => if c p then setBit m p.val else m) m).getLsbD q.val = (m.getLsbD q.val || (decide (q ∈ l) && c q)) := by
  induction l generalizing m with
  | nil => simp
  | cons p l ih =>
    rw [List.foldl_cons, ih]
    by_cases same : p = q
    · subst same
      cases holds : c p with
      | false => simp
      | true =>
        rw [if_pos rfl, setBit_get _ _ _ p.isLt, decide_eq_true rfl, Bool.or_true, Bool.true_or, decide_eq_true (List.mem_cons_self ..)]
        exact (Bool.or_true _).symm
    · have apart : p.val ≠ q.val := fun e => same (Fin.ext e)
      have out : (if c p then setBit m p.val else m).getLsbD q.val = m.getLsbD q.val := by
        split
        · rw [setBit_get _ _ _ p.isLt, decide_eq_false apart, Bool.or_false]
        · rfl
      simp only [out, List.mem_cons, Ne.symm same, false_or]

theorem qualified_get (chips : BitVec 96) (others : List Chip) (q : Pin) : (qualified chips others).getLsbD q.val = qualifies chips others q := by
  have whole : qualified chips others = (List.finRange 96).foldl (fun m p => if qualifies chips others p then setBit m p.val else m) 0 := by
    unfold qualified
    refine congrArg (fun f => List.foldl f 0 (List.finRange 96)) (funext fun m => funext fun p => ?_)
    unfold qualifies
    dsimp only
    generalize (if chips.getLsbD p.val then [⟨Fin.ofNat 2 (p.val / 48), BitVec.ofNat 12 p.val, 1⟩] else []) ++
      others.filter (fun x => decide (x.id.toNat = p.val)) = l
    match l with
    | [] => rfl
    | [x] => simp only [Bool.and_eq_true, decide_eq_true_eq]
    | x :: y :: l => rfl
  rw [whole, foldl_setBit]
  simp

/-- A chip that shows no other claims the index itself; else the one that does, on the index's bus. -/
theorem qualifies_iff (chips : BitVec 96) (others : List Chip) (q : Pin) : qualifies chips others q =
    if chips.getLsbD q.val then decide (∀ x ∈ others, x.id.toNat ≠ q.val)
    else match others.filter fun x => decide (x.id.toNat = q.val) with
      | [x] => decide (x.bus.val = q.val / 48) && decide (x.contract = 1)
      | _ => false := by
  unfold qualifies
  by_cases own : chips.getLsbD q.val = true
  · have bus : (Fin.ofNat 2 (q.val / 48)).val = q.val / 48 := Nat.mod_eq_of_lt (by have := q.isLt; omega)
    rw [if_pos own, if_pos own]
    cases rest : others.filter fun x => decide (x.id.toNat = q.val) with
    | nil =>
      have clear : ∀ x ∈ others, x.id.toNat ≠ q.val := by simpa [List.filter_eq_nil_iff] using rest
      rw [decide_eq_true clear]
      change (decide ((Fin.ofNat 2 (q.val / 48)).val = q.val / 48) && decide ((1 : Byte) = 1)) = true
      rw [bus]
      simp
    | cons y l =>
      have claims : y ∈ others ∧ decide (y.id.toNat = q.val) = true := List.mem_filter.1 (rest ▸ List.mem_cons_self)
      have taken : ¬∀ x ∈ others, x.id.toNat ≠ q.val := fun clear => clear y claims.1 (of_decide_eq_true claims.2)
      rw [decide_eq_false taken]
      rfl
  · rw [if_neg own, if_neg own, List.nil_append]

/-! ## Boot from a slot (R373, R384, R385) -/

/-- The state a boot from the bundle `sec` leaves once its firmware is loaded, HBM and calibration apart (R373). -/
def State.loadedFw (slot : Fin 2) (fromTry : Bool) (chips : BitVec 96) (sec : Security) : State :=
  { s with sec := { sec with next := sec.end_, nextHi := BitVec.ofNat 8 (sec.end_ / 2 ^ 32) }.readCert,
                     cmd := { s.cmd with store := sec.slots[sec.bootSlot] }, sched := { s.sched with code := sec.slots[sec.bootSlot] },
                     rope := { s.rope with code := sec.slots[sec.bootSlot] }, present := chips, ids := { s.ids with assigned := chips },
                     pwr := { s.pwr with phase := .booting s.now (fromTry && sec.bootSlot = slot) } }

/-- The same with the HBM, which a WARM boot leaves as it is. -/
def State.loaded (slot : Fin 2) (fromTry hbmOk : Bool) (chips : BitVec 96) (sec : Security) : State :=
  let s1 := s.loadedFw slot fromTry chips sec
  if s.pwr.cause = 4 then s1
  else { s1 with netOff := -(s1.now : Int), mem := { s1.mem with ready := hbmOk }, pwr := { s1.pwr with hbm := if hbmOk then 1 else 3 } }

theorem State.loaded_warm (slot : Fin 2) (fromTry hbmOk : Bool) (chips : BitVec 96) (sec : Security) (warm : s.pwr.cause = 4) :
    s.loaded slot fromTry hbmOk chips sec = s.loadedFw slot fromTry chips sec := if_pos warm

theorem State.loaded_cold (slot : Fin 2) (fromTry hbmOk : Bool) (chips : BitVec 96) (sec : Security) (cold : s.pwr.cause ≠ 4) :
    s.loaded slot fromTry hbmOk chips sec =
      let s1 := s.loadedFw slot fromTry chips sec
      { s1 with netOff := -(s1.now : Int), mem := { s1.mem with ready := hbmOk }, pwr := { s1.pwr with hbm := if hbmOk then 1 else 3 } } := if_neg cold

theorem State.loadCal_only : ∃ c d, s.loadCal = { s with cal := c, sec := s.sec.extend 5 d } := by
  unfold State.loadCal
  split
  · exact ⟨_, _, rfl⟩
  · exact ⟨_, _, rfl⟩

/-- A boot that has a bundle leaves what it loaded, however the HBM is (R373). -/
theorem State.boot_aside {slot : Fin 2} {fromTry hbmOk : Bool} {chips : BitVec 96} {sec : Security} (load : s.sec.load s.now slot = some sec) :
    (s.boot slot fromTry hbmOk chips).aside = (s.loaded slot fromTry hbmOk chips sec).loadCal.aside := by
  have whole : s.boot slot fromTry hbmOk chips =
      let x := (s.loaded slot fromTry hbmOk chips sec).loadCal
      if (decide (s.pwr.cause = 4) || hbmOk) = true then x else x.report 4 0 0 := by
    unfold State.boot State.loaded State.loadedFw
    rw [load] <;> rfl
  rw [whole]
  dsimp only
  split
  · rfl
  · exact State.report_aside _ 4 0 0

theorem State.boot_none {slot : Fin 2} {fromTry hbmOk : Bool} {chips : BitVec 96} (load : s.sec.load s.now slot = none) :
    s.boot slot fromTry hbmOk chips =
      { s with sec := { s.sec with noImage := true, bootSlot := 0 }, pwr := { s.pwr with phase := .stopped } } := by
  unfold State.boot
  rw [load]

/-- What a boot that has a bundle shows (R371, R373). -/
theorem State.boot_shows {slot : Fin 2} {fromTry hbmOk : Bool} {chips : BitVec 96} {sec : Security} (load : s.sec.load s.now slot = some sec) :
    let t := s.boot slot fromTry hbmOk chips
    t.pwr.phase = .booting s.now (fromTry && decide (sec.bootSlot = slot)) ∧ t.pwr.cause = s.pwr.cause ∧ t.now = s.now ∧
    t.present = chips ∧ t.cmd.store = sec.slots[sec.bootSlot] ∧ t.flt.read = s.flt.read ∧
    (s.pwr.cause ≠ 4 → t.mem.ready = hbmOk ∧ t.pwr.hbm = if hbmOk then 1 else 3) ∧
    ∃ c d, t.sec = { sec with next := sec.end_, nextHi := BitVec.ofNat 8 (sec.end_ / 2 ^ 32), cert := c, certBad := c.isNone, mr := d } := by
  have aside := s.boot_aside (fromTry := fromTry) (hbmOk := hbmOk) (chips := chips) load
  obtain ⟨c, d, calibrated⟩ := (s.loaded slot fromTry hbmOk chips sec).loadCal_only
  rw [calibrated] at aside
  intro t
  change t.aside = _ at aside
  clear_value t
  simp only [State.aside, Prod.mk.injEq] at aside
  obtain ⟨-, cmd, pwr, security, mem, present, now, read⟩ := aside
  by_cases warm : s.pwr.cause = 4
  · have base := State.loaded_warm s slot fromTry hbmOk chips sec warm
    rw [base] at cmd pwr security mem present now read
    rw [cmd, pwr, security, present, now, read]
    exact ⟨rfl, rfl, rfl, rfl, rfl, rfl, fun cold => absurd warm cold, _, _, rfl⟩
  · have base := State.loaded_cold s slot fromTry hbmOk chips sec warm
    rw [base] at cmd pwr security mem present now read
    rw [cmd, pwr, security, mem, present, now, read]
    exact ⟨rfl, rfl, rfl, rfl, rfl, rfl, fun _ => ⟨rfl, rfl⟩, _, _, rfl⟩

theorem Security.measured_only (x : Security) (slot : Fin 2) :
    ∃ m, x.measured slot = { x with bootSlot := slot, header := (x.slots[slot]).header, mr := m } := ⟨_, rfl⟩

theorem Security.load_own {x : Security} {slot : Fin 2} (now : Nat) (valid : (x.slots[slot]).valid x.rollback = true) :
    x.load now slot = some (x.measured slot) := if_pos valid

theorem Security.load_other {x : Security} {slot : Fin 2} (now : Nat) (invalid : ¬(x.slots[slot]).valid x.rollback = true)
    (valid : (x.slots[slot + 1]).valid x.rollback = true) :
    x.load now slot = some ((({ x with fallback := true } : Security).bootRecord now (slot + 1) none).measured (slot + 1)) :=
  (if_neg invalid).trans (if_pos valid)

theorem Security.load_none {x : Security} {slot : Fin 2} (now : Nat) (invalid : ¬(x.slots[slot]).valid x.rollback = true)
    (invalid' : ¬(x.slots[slot + 1]).valid x.rollback = true) : x.load now slot = none := (if_neg invalid).trans (if_neg invalid')

/-- A boot that falls back already stays so, and TRY stays cancelled (R385). -/
theorem State.boot_fallen {slot : Fin 2} {hbmOk : Bool} {chips : BitVec 96} (fallback : s.sec.fallback = true) (try_ : s.sec.try_ = none) :
    let t := s.boot slot false hbmOk chips
    t.sec.fallback = true ∧ t.sec.try_ = none ∧ t.now = s.now ∧ t.pwr.cause = s.pwr.cause := by
  intro t
  by_cases valid : ((s.sec.slots[slot]).valid s.sec.rollback) = true
  · obtain ⟨-, cause, now, -, -, -, -, c, d, sec⟩ := s.boot_shows (fromTry := false) (hbmOk := hbmOk) (chips := chips) (Security.load_own s.now valid)
    obtain ⟨m, measured⟩ := s.sec.measured_only slot
    refine ⟨?_, ?_, now, cause⟩
    · rw [sec, measured]
      exact fallback
    · rw [sec, measured]
      exact try_
  by_cases valid' : ((s.sec.slots[slot + 1]).valid s.sec.rollback) = true
  · obtain ⟨-, cause, now, -, -, -, -, c, d, sec⟩ := s.boot_shows (fromTry := false) (hbmOk := hbmOk) (chips := chips)
      (Security.load_other s.now valid valid')
    obtain ⟨m, measured⟩ := (({ s.sec with fallback := true } : Security).bootRecord s.now (slot + 1) none).measured_only (slot + 1)
    rw [measured] at sec
    refine ⟨?_, ?_, now, cause⟩
    · rw [sec]
      rfl
    · rw [sec]
      rfl
  · have stopped := s.boot_none (fromTry := false) (hbmOk := hbmOk) (chips := chips) (Security.load_none s.now valid valid')
    refine ⟨?_, ?_, ?_, ?_⟩
    · exact (congrArg (fun u : State => u.sec.fallback) stopped).trans fallback
    · exact (congrArg (fun u : State => u.sec.try_) stopped).trans try_
    · exact (congrArg State.now stopped).trans rfl
    · exact (congrArg (fun u : State => u.pwr.cause) stopped).trans rfl

/-! ## Targets come into force with boot (R336, R373) -/

/-- One cluster's target comes into force. -/
def State.forceTarget (c : Cluster) : State :=
  let t := s.calTarget c
  let s := s.updCl c fun e => e.putCoeffs t
  { s with cal := { s.cal with cl := upd s.cal.cl c fun x => { x with target := t, applied := satInc x.applied } } }

theorem State.forceTargets_frame : let t := s.forceTargets
    t = { s with cl := t.cl, cal := t.cal } ∧
    ∀ c : Cluster, (t.cal.cl[c]).applied = satInc (s.cal.cl[c]).applied ∧ (t.cl[c]).coeffs = (t.cal.cl[c]).target := by
  have whole : s.forceTargets = (List.finRange 12).foldl State.forceTarget s := rfl
  intro t
  refine ⟨?_, fun c => ⟨?_, ?_⟩⟩
  · refine foldl_frame s _ _ (fun s t : State => t = { s with cl := t.cl, cal := t.cal }) (fun _ => rfl) (fun a b c hb hc => ?_) fun _ _ => rfl
    rw [hc, hb]
  · refine foldl_each State.forceTarget (fun c s => (s.cal.cl[c]).applied) satInc (fun s c => ?_) (fun s a b apart => ?_) _ (List.nodup_finRange 12) s c
      (List.mem_finRange c)
    · exact congrArg CalCluster.applied (upd_get_same ..)
    · exact congrArg CalCluster.applied (upd_get_other _ _ _ _ apart)
  · have forced (s : State) : ((s.forceTarget c).cl[c]).coeffs = ((s.forceTarget c).cal.cl[c]).target := by
      have put : ((s.forceTarget c).cl[c]).coeffs = s.calTarget c :=
        congrArg ClusterEng.coeffs (upd_get_same s.cl c fun e => e.putCoeffs (s.calTarget c))
      have kept : ((s.forceTarget c).cal.cl[c]).target = s.calTarget c := congrArg CalCluster.target (upd_get_same s.cal.cl c _)
      exact put.trans kept.symm
    refine foldl_reaches (List.finRange 12) State.forceTarget (fun _ => True) (fun s => (s.cl[c]).coeffs = (s.cal.cl[c]).target) c (List.mem_finRange c)
      (fun _ _ _ => trivial) (fun s _ => forced s) (fun s b _ same => ?_) s trivial
    by_cases here : b = c
    · subst here
      exact forced s
    · exact (congrArg ClusterEng.coeffs (upd_get_other _ _ _ _ here)).trans
        (same.trans (congrArg CalCluster.target (upd_get_other _ _ _ _ here)).symm)

/-! ## Two reports of one source in one cycle (R23, R347) -/

theorem State.collect_aside (es : List (FaultEvent × Bool)) : (s.collect es).aside = s.aside :=
  (foldl_keeps State.aside _ State.collectOne_aside _ _).trans (s.endCycle_aside s.now)

theorem State.collect_two (idle : s.flt.taking = none) (source : Nat) (m₁ m₂ : BitVec 12) (d₁ d₂ : Word)
    (alike : classOf ⟨source, m₁, d₁⟩ = classOf ⟨source, m₂, d₂⟩) : let t := s.collect [(⟨source, m₁, d₁⟩, false), (⟨source, m₂, d₂⟩, false)]
    t.flt.count = s.flt.count + 2 ∧ (t.flt.history.map fun h => (h.source, h.detail)).take 2 = [(source, d₂), (source, d₁)] := by
  let s₁ := s.report source m₁ d₁
  have first : s₁.flt = (s.opened source m₁ d₁).flt := by
    change (s.report source m₁ d₁).flt = _
    rw [s.report_eq idle]
    exact ((s.opened source m₁ d₁).taintFor_frame (s.reported source m₁ d₁)).2
  have whole : s.collect [(⟨source, m₁, d₁⟩, false), (⟨source, m₂, d₂⟩, false)] = s₁.collectOne (⟨source, m₂, d₂⟩, false) := by
    unfold State.collect
    rw [s.endCycle_idle idle]
    change (s.collectOne (⟨source, m₁, d₁⟩, false)).collectOne _ = (s.report source m₁ d₁).collectOne _
    unfold State.report State.collect
    rw [s.endCycle_idle idle]
    rfl
  intro t
  change t = _ at whole
  clear_value t s₁
  let x₁ : CycleEvent := { s.reported source m₁ d₁ with
    issued := (State.take { s with flt := s.flt.tally (s.reported source m₁ d₁) } (s.flt.tally (s.reported source m₁ d₁)) (s.reported source m₁ d₁)).2 }
  have open_ : s₁.openCycle = { s.openCycle with events := [x₁] } := by
    rw [State.openCycle, first]
    rfl
  obtain ⟨v, x₂, named, flt⟩ : ∃ (v : State) (x₂ : CycleEvent), x₂.event = ⟨source, m₂, d₂⟩ ∧
      t.flt = (v.serve { s.openCycle with events := [x₁, x₂] }).flt := by
    let x₂ : CycleEvent := ⟨⟨source, m₂, d₂⟩, false, s₁.flt.reaction source, s₁.net, false⟩
    have order : insertFault x₂ [x₁] = [x₁, x₂] := by
      have ahead : before x₁ x₂ = true := by
        change (_ || (decide (classOf ⟨source, m₁, d₁⟩ = classOf ⟨source, m₂, d₂⟩) && (_ || (decide (source = source) && true)))) = true
        rw [alike, decide_eq_true rfl, decide_eq_true rfl]
        simp
      exact if_pos ahead
    refine ⟨{ s₁ with flt := s₁.flt.tally x₂ }, x₂, rfl, ?_⟩
    rw [whole]
    unfold State.collectOne
    dsimp only
    rw [open_]
    refine (State.taintFor_frame _ x₂).2.trans ?_
    rw [← order]
  let base : Faults := { v.flt with first := s.openCycle.first, history := s.openCycle.history, count := s.openCycle.count, plogPend := s.openCycle.plogPend }
  have fresh : base.count = s.flt.count := by
    change s.openCycle.count = _
    rw [State.openCycle, idle]
    rfl
  have count : t.flt.count = base.count + 1 + 1 := by
    rw [flt]
    have one := congrArg Faults.count (v.take_frame base x₁)
    have two := congrArg Faults.count (v.take_frame (v.take base x₁).1 x₂)
    exact (two : _).trans (congrArg (· + 1) one)
  obtain ⟨h₁, history₁, entry₁, -⟩ := v.take_history base x₁
  obtain ⟨h₂, history₂, entry₂, -⟩ := v.take_history (v.take base x₁).1 x₂
  have history : t.flt.history = (h₂ :: (h₁ :: base.history).take 32).take 32 := by
    rw [flt, ← history₁, ← history₂]
    rfl
  refine ⟨count.trans (fresh ▸ BitVec.add_assoc _ 1 1), ?_⟩
  rw [history]
  have newest : (h₂.source, h₂.detail) = (source, d₂) := congrArg (fun e => (e.1, e.2.2)) (entry₂.trans (by rw [named]))
  have older : (h₁.source, h₁.detail) = (source, d₁) := congrArg (fun e => (e.1, e.2.2)) entry₁
  rw [← newest, ← older]
  rfl

/-- With no start late, nothing is tried again (R66). -/
theorem State.retryLate_none (none_ : ∀ k ∈ s.siteIdxs, ((s.seqs[k]).start.any (·.late)) = false) : s.retryLate = s := by
  refine List.foldlRecOn (motive := fun t => t = s) _ _ rfl fun t same k member => ?_
  subst same
  have timely := none_ k member
  unfold State.tryLate
  split
  · next st d start front =>
    rw [start, Option.any_some] at timely
    rw [timely]
    rfl
  · rfl

end Sys2Proof.Machine

namespace Sys2Proof.Claims
open Sys2Proof.Machine

variable {s : State}

/-- BOOT_START from the slot TRY or ACTIVE names (R373, R384, R385). -/
theorem bootStart_boots (ok : Bool) (chips : BitVec 96) (others : List Chip) (porst : s.pwr.porst = false) (phase : s.pwr.phase = .held)
    (clock : s.pwr.refclkOk = true) (cold : s.pwr.cause ≠ 4) : let slot := s.sec.try_.getD s.sec.active
    Completes (.bootStart ok chips others) s fun t =>
      if (s.sec.slots[slot]).valid s.sec.rollback then
        t.pwr.phase = .booting s.now s.sec.try_.isSome ∧ t.sec.bootSlot = slot ∧ t.sec.fallback = s.sec.fallback ∧
          (∀ q : Pin, t.present.getLsbD q.val = qualifies chips others q) ∧ t.mem.ready = ok ∧ t.pwr.hbm = (if ok then 1 else 3) ∧
          t.cmd.store = s.sec.slots[slot] ∧ t.sec.next = s.sec.end_ ∧ t.sec.nextHi = BitVec.ofNat 8 (s.sec.end_ / 2 ^ 32) ∧ t.flt.read = true
      else if (s.sec.slots[slot + 1]).valid s.sec.rollback then
        t.pwr.phase = .booting s.now false ∧ t.sec.bootSlot = slot + 1 ∧ t.sec.fallback = true ∧ t.sec.active = slot + 1 ∧ t.sec.try_ = none
      else t.pwr.phase = .stopped ∧ t.sec.noImage = true := by
  intro slot
  let u : State := { s with pwr := { s.pwr with perst := false }, flt := if s.flt.read then s.flt else s.flt.readLog }
  have run : exec (.bootStart ok chips others) s = .next (u.boot slot s.sec.try_.isSome ok (qualified chips others)) := by
    change execBootStart ok chips s others = _
    exact (if_neg (by rw [porst, phase]; decide)).trans ((if_neg (by rw [clock]; decide)).trans (if_neg cold))
  have read : u.flt.read = true := by
    change (if s.flt.read then s.flt else s.flt.readLog).read = true
    split
    · next read => exact read
    · rfl
  refine ⟨_, run, ?_⟩
  beta_reduce
  by_cases valid : ((s.sec.slots[slot]).valid s.sec.rollback) = true
  · rw [if_pos valid]
    obtain ⟨phase, -, -, present, store, was, hbm, c, d, sec⟩ := u.boot_shows (fromTry := s.sec.try_.isSome) (hbmOk := ok)
      (chips := qualified chips others) (Security.load_own s.now valid)
    obtain ⟨m, measured⟩ := s.sec.measured_only slot
    generalize u.boot slot s.sec.try_.isSome ok (qualified chips others) = t at phase present store was hbm sec ⊢
    rw [measured] at phase store sec
    obtain ⟨ready, hbm⟩ := hbm cold
    refine ⟨?_, ?_, ?_, fun q => ?_, ready, hbm, store, ?_, ?_, was.trans read⟩
    · rw [phase]
      dsimp only
      rw [decide_eq_true rfl, Bool.and_true]
    · rw [sec]
    · rw [sec]
    · rw [present, qualified_get]
    · rw [sec]
    · rw [sec]
  · rw [if_neg valid]
    by_cases valid' : ((s.sec.slots[slot + 1]).valid s.sec.rollback) = true
    · rw [if_pos valid']
      obtain ⟨phase, -, -, -, -, -, -, c, d, sec⟩ := u.boot_shows (fromTry := s.sec.try_.isSome) (hbmOk := ok)
        (chips := qualified chips others) (Security.load_other s.now valid valid')
      obtain ⟨m, measured⟩ := (({ s.sec with fallback := true } : Security).bootRecord s.now (slot + 1) none).measured_only (slot + 1)
      generalize u.boot slot s.sec.try_.isSome ok (qualified chips others) = t at phase sec ⊢
      rw [measured] at phase sec
      have apart : (slot + 1 : Fin 2) ≠ slot := by
        generalize slot = n
        revert n
        decide
      refine ⟨?_, ?_, ?_, ?_, ?_⟩
      · rw [phase]
        dsimp only
        rw [decide_eq_false apart, Bool.and_false]
      · rw [sec]
      · rw [sec]
        rfl
      · rw [sec]
        rfl
      · rw [sec]
        rfl
    · rw [if_neg valid']
      have stopped := u.boot_none (fromTry := s.sec.try_.isSome) (hbmOk := ok) (chips := qualified chips others)
        (Security.load_none s.now valid valid')
      exact ⟨(congrArg (fun t : State => t.pwr.phase) stopped).trans rfl, (congrArg (fun t : State => t.sec.noImage) stopped).trans rfl⟩

/-- Power once boot has completed (R233, R373). -/
def bootedPower (v : State) : Power :=
  { v.pwr with phase := .ready, bootDone := true, aliveRun := !v.devFault, quiet := v.now, hbmIdle := v.now,
               cl := v.pwr.cl.map fun (p : PwrCl) => { p with state := 1, goal := 1, since := v.now } }

/-- The security unit once boot has completed: a TRY that has booted is made ACTIVE, the rollback floor rises (R385, R386). -/
def bootedSec (s : State) (fromTry : Bool) : Security :=
  let x := if fromTry then s.sec.bootRecord s.now s.sec.bootSlot none else s.sec
  ({ x with rollback := max x.rollback (epochOf x.header) } : Security).plant

theorem bootedSec_shows (fromTry : Bool) : s.sec.rollback ≤ (bootedSec s fromTry).rollback ∧
    (fromTry = true → (bootedSec s fromTry).active = s.sec.bootSlot ∧ (bootedSec s fromTry).try_ = none) := by
  cases fromTry with
  | false => exact ⟨le_max_left .., fun no => absurd no Bool.false_ne_true⟩
  | true => exact ⟨le_max_left .., fun _ => ⟨rfl, rfl⟩⟩

theorem exec_bootComplete {since : Nat} {fromTry : Bool} (phase : s.pwr.phase = .booting since fromTry) (clock : s.pwr.refclkOk = true)
    (lost : s.pwr.pllLost = false) : let v := ({ s with sec := bootedSec s fromTry } : State).forceTargets
    exec .bootComplete s = .next ({ v with pwr := bootedPower v } : State).repick := by
  have stands : s.locked = true := by
    unfold State.locked
    rw [clock, lost]
    rfl
  change execBootComplete s = _
  unfold execBootComplete
  rw [phase, stands]
  rfl

theorem cancelTry_none (x : Security) (now : Nat) : (x.cancelTry now).try_ = none := by
  unfold Security.cancelTry
  split
  · next none_ => exact Option.isNone_iff_eq_none.1 none_
  · rfl

/-- The state a boot from TRY that has not completed restarts from (R385). -/
def retried (s : State) (t : Nat) : State :=
  let u := s.advance t
  let v := u.cleared (if u.pwr.cause = 1 then .perst else if u.pwr.cause = 2 then .perst else .warm)
  { v with sec := { v.sec.cancelTry v.now with fallback := true }, pwr := { v.pwr with cause := u.pwr.cause } }

/-- TRY_BOOT_TIMEOUT falls back to the other slot (R385). -/
theorem tryBootTimeout_falls {since u : Nat} (ok : Bool) (chips : BitVec 96) (others : List Chip) (phase : s.pwr.phase = .booting since true)
    (due : u = since + 1000 * msUnits) (early : s.now ≤ u) :
    Completes (.tryBootTimeout ok chips others) s fun t => t.sec.fallback = true ∧ t.sec.try_ = none ∧ t.now = u ∧ t.pwr.cause = s.pwr.cause := by
  have run : exec (.tryBootTimeout ok chips others) s = .next (let v := retried s u
      if v.pwr.refclkOk then v.boot ((s.advance u).sec.bootSlot + 1) false ok (qualified chips others) else v) := by
    change execTryBootTimeout ok chips s others = _
    unfold execTryBootTimeout
    rw [phase, due]
    rfl
  have now : (retried s u).now = u := s.advance_clock early
  have cause : (retried s u).pwr.cause = s.pwr.cause := (congrArg Power.cause (s.advance_pwr u) :)
  have try_ : (retried s u).sec.try_ = none := cancelTry_none _ _
  have fallback : (retried s u).sec.fallback = true := rfl
  refine ⟨_, run, ?_⟩
  generalize retried s u = v at now cause try_ fallback ⊢
  dsimp only
  split
  · obtain ⟨fell, cancelled, still, kept⟩ := v.boot_fallen (slot := (s.advance u).sec.bootSlot + 1) (hbmOk := ok) (chips := qualified chips others)
      fallback try_
    exact ⟨fell, cancelled, still.trans now, kept.trans cause⟩
  · exact ⟨fallback, try_, now, cause⟩

/-- Settles O35: boot goes by the bundle it loads; the targets, clocks and late starts by the steps each takes. -/
theorem bootAndClocks : Obligations.BootAndClocks := by
  unfold Obligations.BootAndClocks
  refine ⟨?starts, ?waits, ?locks, ?completes, ?times, ?function, ?loses, ?returns, ?ocxo⟩
  case starts =>
    intro s ok chips others porst phase clock cold slot
    obtain ⟨t, run, shows⟩ := bootStart_boots (s := s) ok chips others porst phase clock cold
    refine ⟨t, run, ?_⟩
    simp only [qualifies_iff] at shows
    exact shows
  case waits =>
    intro s ok chips others porst phase clock read
    refine ⟨_, ?_, rfl⟩
    change execBootStart ok chips s others = _
    unfold execBootStart
    rw [porst, phase, read]
    dsimp only
    rw [clock]
    rfl
  case locks =>
    intro s since try_ phase unlocked
    have stands : s.locked = false := by
      unfold State.locked
      obtain clock | lost := unlocked
      · rw [clock]
        rfl
      · rw [lost]
        exact Bool.and_false _
    refine ⟨s, ?_, rfl⟩
    change execBootComplete s = _
    unfold execBootComplete
    rw [phase, stands]
    rfl
  case completes =>
    intro s since try_ phase clock lost
    obtain ⟨frame, forced⟩ := State.forceTargets_frame { s with sec := bootedSec s try_ }
    refine ⟨_, exec_bootComplete phase clock lost, ?_⟩
    generalize ({ s with sec := bootedSec s try_ } : State).forceTargets = v at frame forced ⊢
    have same : v.devFault = s.devFault := by
      unfold State.devFault
      rw [frame]
    have sec : v.sec = bootedSec s try_ := (congrArg State.sec frame).trans rfl
    obtain ⟨floor, tried⟩ := bootedSec_shows (s := s) try_
    rw [← sec] at floor tried
    exact ⟨rfl, rfl, congrArg (! ·) same, floor, tried, (congrArg State.now frame).trans rfl, (congrArg State.sites frame).trans rfl,
      (congrArg State.gens frame).trans rfl, (congrArg State.host frame).trans rfl, forced⟩
  case times => exact fun s since ok chips others phase early => tryBootTimeout_falls ok chips others phase rfl early
  case function =>
    intro s f phase here
    obtain ⟨frame, own, others, gens, streams, ids⟩ := s.resetFunction_frame f
    have run : exec (.functionLevelReset f) s = .next (s.resetFunction f) := by
      change execFunctionLevelReset f s = _
      unfold execFunctionLevelReset
      rw [isReady_of phase, decide_eq_false (not_lt.2 here)]
      rfl
    refine ⟨_, run, ?_⟩
    generalize s.resetFunction f = t at frame own others gens streams ids ⊢
    have sched : t.sched = (s.resetFlows f).sched := (congrArg State.sched frame).trans rfl
    refine ⟨own, others, gens, fun x member => ?_, fun i member => ?_, fun n => ?_, streams, ids, ?_, (congrArg State.host frame).trans rfl,
      (congrArg State.siteOf frame).trans rfl, (congrArg State.gangs frame).trans rfl, (congrArg State.cmd frame).trans rfl,
      (congrArg State.now frame).trans rfl⟩
    · rw [sched] at member
      simpa using (List.mem_filter.1 member).2
    · rw [sched] at member
      simpa using (List.mem_filter.1 member).2
    · rw [sched]
      exact s.resetFlows_flow f n
    · rw [sched]
      rfl
  case loses =>
    intro s phase clock pll calm
    let t : State := { s with pwr := { s.pwr with refclkOk := false, bcIntosc := true, pllLost := s.pwr.pllLost || s.pwr.phase ≠ .held } }
    have runs : s.clockRuns .control = true := by
      unfold State.clockRuns
      rw [phase, pll]
      rfl
    have run : exec (.refclkLoss none) s = .next (t.collect [(⟨2, 0, 0⟩, false), (⟨2, 0, 1⟩, false)]) := by
      change execRefclkLoss s none = _
      unfold execRefclkLoss
      rw [clock, runs]
      rfl
    obtain ⟨count, history⟩ := t.collect_two calm.2 2 0 0 0 1 rfl
    have aside := t.collect_aside [(⟨2, 0, 0⟩, false), (⟨2, 0, 1⟩, false)]
    refine ⟨_, run, ?_⟩
    generalize t.collect [(⟨2, 0, 0⟩, false), (⟨2, 0, 1⟩, false)] = u at count history aside ⊢
    simp only [State.aside, Prod.mk.injEq] at aside
    obtain ⟨-, -, pwr, -, -, -, now, -⟩ := aside
    refine ⟨?_, ?_, count, now.symm, history⟩
    · rw [pwr]
    · rw [pwr]
  case returns => exact fun s => ⟨_, rfl, rfl⟩
  case ocxo =>
    intro s b porst timely
    have run : exec (.ocxoReadyChange b) s = .next (s.setPower { s.pwr with ocxo := b, tbWarm := !b }).retryLate := by
      change execOcxoReadyChange b s = _
      unfold execOcxoReadyChange
      rw [porst]
      rfl
    have set : ∃ n w, s.setPower { s.pwr with ocxo := b, tbWarm := !b } =
        { s with pwr := { s.pwr with ocxo := b, tbWarm := !b, blockAt := n, blockWas := w } } := by
      unfold State.setPower
      dsimp only
      split
      · exact ⟨_, _, rfl⟩
      · exact ⟨_, _, rfl⟩
    obtain ⟨n, w, set⟩ := set
    have still (p : Power) : ({ s with pwr := p } : State).retryLate = { s with pwr := p } := State.retryLate_none _ timely
    rw [set, still] at run
    exact ⟨_, run, rfl, rfl, rfl⟩

end Sys2Proof.Claims

namespace Sys2Proof.Machine

/-! ## Packets of a sequence load (R251, R252) -/

/-- Entry `i` of a load's packet that carries entries from `first` on, at offset `off` of its payload. -/
def carried (b : List Byte) (off first total i : Nat) : Option Entry := parseEntry ((b.drop (off + 16 * (i - first))).take 16) total

/-- Where the entries of a load's packet begin. -/
def entriesAt (masks : Bool) : Nat := if masks then 208 else 16

theorem find?_below_first (old : List (Nat × Entry)) (first n i : Nat) :
    (old.filter fun e => e.1 < first || first + n ≤ e.1).find? (fun e => e.1 = i)
      = if first ≤ i ∧ i < first + n then none else old.find? fun e => e.1 = i := by
  rw [List.find?_filter]
  split
  next inside =>
    rw [List.find?_eq_none]
    intro e _
    simp only [Bool.and_eq_true, Bool.or_eq_true, decide_eq_true_eq]
    omega
  next outside =>
    congr 1
    funext e
    by_cases h : e.1 = i
    · simp only [h, decide_true, and_true, Bool.or_eq_true, decide_eq_true_eq]
      omega
    · simp [h]

theorem find?_carried (here : Nat → Option Entry) (first n i : Nat) (whole : ∀ k, k < n → (here (first + k)).isSome = true) :
    (((List.range n).filterMap fun k => (here (first + k)).map fun x => (first + k, x)).find? fun e => e.1 = i).map (·.2)
      = if first ≤ i ∧ i < first + n then here i else none := by
  rw [List.find?_filterMap]
  split
  next inside =>
    obtain ⟨k, rfl⟩ := Nat.exists_eq_add_of_le inside.1
    have hk : k < n := by omega
    obtain ⟨e, he⟩ := Option.isSome_iff_exists.1 (whole k hk)
    have found : (List.range n).find? (fun a => Option.any (fun e => decide (e.1 = first + k)) ((here (first + a)).map fun x => (first + a, x)))
        = some k := by
      rw [List.find?_range_eq_some]
      refine ⟨by simp [he], by simp [hk], fun j hj => ?_⟩
      cases here (first + j) with
      | none => rfl
      | some x =>
        simp
        omega
    rw [found, he]
    simp [he]
  next outside =>
    have absent : (List.range n).find? (fun a => Option.any (fun e => decide (e.1 = i)) ((here (first + a)).map fun x => (first + a, x))) = none := by
      rw [List.find?_eq_none]
      intro a ha
      have ha := List.mem_range.1 ha
      cases here (first + a) with
      | none => simp
      | some x =>
        simp
        omega
    rw [absent]
    rfl

/-- A packet of a load, opening or of the open one, whose entries all pass: what it leaves of the program. -/
theorem Program.load_ok (g : Program) (b : List Byte) (masks : Bool) (total first n : Nat) (htotal : fieldAt b 0 4 = total)
    (hfirst : fieldAt b 4 4 = first) (hn : fieldAt b 8 4 = n) (hmasks : bitOf (fieldAt b 12 1) 0 = masks)
    (opened : first ≠ 0 → g.loadOpen = true ∧ g.total = total)
    (whole : ∀ k, k < n → (carried b (entriesAt masks) first total (first + k)).isSome = true) :
    ∃ q : Program, g.load b = .ok q ∧ q.total = total ∧ q.loadOpen = true ∧
      (∀ i, q.entry i = if first ≤ i ∧ i < first + n then carried b (entriesAt masks) first total i else if first = 0 then none else g.entry i) ∧
      ∀ m : Fin 16, q.masks[m] = if masks then BitVec.ofNat 96 (fieldAt b (16 + 12 * m.val) 12) else if first = 0 then 0 else g.masks[m] := by
  let start : Program := if first = 0 then { total := total, loadOpen := true } else g
  let base : Program := if masks then { start with masks := Vector.ofFn fun m : Fin 16 => u96At b (16 + 12 * m.val) } else start
  let old := base.entries.filter fun e => e.1 < first || first + n ≤ e.1
  let new := (List.range n).filterMap fun k => (carried b (entriesAt masks) first total (first + k)).map fun x => (first + k, x)
  have isOpen : (first ≠ 0 && !g.loadOpen) = false := by
    by_cases h : first = 0
    · simp [h]
    · simp [(opened h).1]
  have sameTotal : (first ≠ 0 && g.total ≠ total) = false := by
    by_cases h : first = 0
    · simp [h]
    · simp [(opened h).2]
  have here : (fun k => parseEntry ((b.drop (entriesAt masks + 16 * k)).take 16) total)
      = fun k => carried b (entriesAt masks) first total (first + k) := by
    funext k
    rw [carried, Nat.add_sub_cancel_left]
  have allThere : (((List.range n).map fun k => (first + k, carried b (entriesAt masks) first total (first + k))).find? fun e => e.2.isNone) = none := by
    rw [List.find?_eq_none]
    intro e he
    obtain ⟨k, hk, rfl⟩ := List.mem_map.1 he
    have := whole k (List.mem_range.1 hk)
    simpa [Option.isSome_iff_ne_none] using this
  have loaded : g.load b = .ok { base with entries := old ++ new } := by
    rw [Program.load]
    simp only [htotal, hfirst, hn, hmasks]
    rw [if_neg (by rw [isOpen]; simp), if_neg (by rw [sameTotal]; simp)]
    have := congrFun here
    simp only [entriesAt] at this allThere
    simp only [this, allThere]
    refine congrArg (fun l => Except.ok { base with entries := old ++ l }) ?_
    rw [List.filterMap_map]
    rfl
  have baseFields : base.total = total ∧ base.loadOpen = true ∧ base.entries = (if first = 0 then [] else g.entries) := by
    have startFields : start.total = total ∧ start.loadOpen = true ∧ start.entries = (if first = 0 then [] else g.entries) := by
      simp only [start]
      split
      next => exact ⟨rfl, rfl, rfl⟩
      next h => exact ⟨(opened h).2, (opened h).1, rfl⟩
    simp only [base]
    split <;> exact startFields
  obtain ⟨hbt, hbo, hbe⟩ := baseFields
  refine ⟨_, loaded, hbt, hbo, fun i => ?_, fun m => ?_⟩
  · have known := find?_carried (carried b (entriesAt masks) first total) first n i whole
    have before := find?_below_first base.entries first n i
    change ((old ++ new).find? fun e => e.1 = i).map (·.2) = _
    rw [List.find?_append]
    simp only [old, new, before]
    split
    next inside =>
      rw [if_pos inside] at known
      exact known
    next outside =>
      rw [if_neg outside, Option.map_eq_none_iff] at known
      rw [known, Option.or_none, hbe]
      split
      next => rfl
      next => rfl
  · change base.masks[m] = _
    cases masks with
    | true => simp [base, u96At]
    | false =>
      simp only [base, start, Bool.false_eq_true, if_false]
      split
      next => simp
      next => rfl

/-- The checks of a LAST packet pass. -/
theorem ClusterConfig.lastFault_none (g : ClusterConfig) (p : Program) (whole : ∀ i, i < p.total → (p.entry i).isSome = true)
    (ends : ((p.entry (p.total - 1)).any Entry.fallsThrough) = false)
    (agree : ∀ i, i < p.total → ((p.entry i).map fun e => (g.levels[e.lset]).map fun r => r.rangeB)
      = (p.entry 0).map fun e => (g.levels[e.lset]).map fun r => r.rangeB) : g.lastFault p = none := by
  have written : ((List.range p.total).find? fun i => (p.entry i).isNone) = none := by
    rw [List.find?_eq_none]
    intro i hi
    simpa [Option.isSome_iff_ne_none] using whole i (List.mem_range.1 hi)
  simp only [ClusterConfig.lastFault, written, ends, Bool.false_eq_true, if_false]
  cases h0 : p.entry 0 with
  | none => rfl
  | some e0 =>
    dsimp only
    rw [List.find?_eq_none]
    intro i hi
    have same := agree i (List.mem_range.1 hi)
    rw [h0] at same
    cases hi : p.entry i with
    | none => simp
    | some e =>
      rw [hi] at same
      have same : (g.levels[e.lset]).map (fun r => r.rangeB) = (g.levels[e0.lset]).map fun r => r.rangeB := Option.some.inj same
      simp only [Option.any_some, decide_not, Bool.not_eq_true', Bool.not_eq_false', decide_eq_true_eq, ne_eq, Bool.not_eq_true, Bool.not_eq_eq_eq_not,
        Bool.not_true, decide_eq_false_iff_not, not_not]
      refine List.map_congr_left fun r _ => ?_
      have := congrArg (fun v : Vector Bool 8 => v[r]) same
      simpa using this

/-- A packet whose entries load, and whose program passes the checks where it is the LAST one (R252). -/
theorem ClusterConfig.seqLoad_ok (g : ClusterConfig) (b : List Byte) (p : Program) (loaded : g.program.load b = .ok p)
    (passes : bitOf (fieldAt b 12 1) 1 = true → g.lastFault p = none) :
    g.seqLoad b = .ok { g with program := { p with loadOpen := if bitOf (fieldAt b 12 1) 1 then false else p.loadOpen } } := by
  rw [ClusterConfig.seqLoad, loaded]
  change (if bitOf (fieldAt b 12 1) 1 = true then _ else _) = _
  split
  next last =>
    simp only [passes last]
  next => rfl

/-- A configuration after a packet of a load; the one it was where the packet is refused. -/
def ClusterConfig.taken (b : List Byte) (g : ClusterConfig) : ClusterConfig := (g.seqLoad b).toOption.getD g

/-- What each cluster's own configuration gives, written cluster by cluster, is what one write of all gives. -/
theorem State.foldl_writeShadow (s : State) (cl : List Cluster) (hn : cl.Nodup) (f : ClusterConfig → ClusterConfig) (r : Cluster → ClusterConfig)
    (hr : ∀ c ∈ cl, r c = f (s.gens[c]).shadow.config) : cl.foldl (fun s c => s.writeShadow [c] fun _ => r c) s = s.writeShadow cl f := by
  induction cl generalizing s with
  | nil => rfl
  | cons c cl ih =>
    obtain ⟨hc, hn⟩ := List.nodup_cons.1 hn
    have one : s.writeShadow [c] (fun _ => r c) = s.writeShadow [c] f :=
      congrArg (fun v => { s with gens := v }) (upd_congr _ _ _ _ (by rw [hr c (List.mem_cons_self ..)]))
    rw [List.foldl_cons, one, ih _ hn fun d hd => ?_]
    · rfl
    · have other : d ≠ c := fun e => hc (e ▸ hd)
      rw [hr d (List.mem_cons_of_mem _ hd), State.writeShadow_get _ _ _ (List.nodup_singleton c), if_neg (by simpa using other)]

/-- A packet that every cluster named takes is written into each. -/
theorem State.seqLoad_taken (s : State) (b : List Byte) (cl : List Cluster) (hn : cl.Nodup)
    (checks : ∀ x ∈ [(0, decide (1 ≤ fieldAt b 0 4) && decide (fieldAt b 0 4 ≤ 65536)), (8, decide (fieldAt b 4 4 + fieldAt b 8 4 ≤ fieldAt b 0 4)),
      below b 12 1 4, isZero b 13 3], x.2 = true)
    (takes : ∀ c ∈ cl, ∃ g, (s.gens[c]).shadow.config.seqLoad b = .ok g) :
    s.seqLoad b cl = (s.writeShadow cl (ClusterConfig.taken b)).done := by
  have res : (cl.map fun c => (c, (s.gens[c]).shadow.config.seqLoad b))
      = cl.map fun c => (c, Except.ok ((s.gens[c]).shadow.config.taken b)) := by
    refine List.map_congr_left fun c hc => ?_
    obtain ⟨g, hg⟩ := takes c hc
    rw [ClusterConfig.taken, hg]
    rfl
  rw [State.seqLoad, State.parsed_checked _ _ _ _ checks]
  dsimp only
  rw [res, List.findSome?_map, List.foldl_map, List.findSome?_eq_none_iff.2 ?none_refused]
  case none_refused => exact fun c _ => rfl
  exact congrArg State.done (s.foldl_writeShadow cl hn (ClusterConfig.taken b) (fun c => (s.gens[c]).shadow.config.taken b) fun _ _ => rfl)

end Sys2Proof.Machine

namespace Sys2Proof.Claims
open Sys2Proof.Machine

/-- Settles O7: the packet's entries and masks make the program of each cluster, and of a LAST packet the checks over the whole pass. -/
theorem seqLoadReplacesProgram : Obligations.SeqLoadReplacesProgram := by
  unfold Obligations.SeqLoadReplacesProgram
  intro s p cl first n total masks last off here old entry range hp hn htotal hpos hmax hfirst hcount hfits hflags hzero hopen hhere hlast
  have maskBit : bitOf (fieldAt p.payload 12 1) 0 = masks := by rw [hflags]; cases masks <;> cases last <;> rfl
  have lastBit : bitOf (fieldAt p.payload 12 1) 1 = last := by rw [hflags]; cases masks <;> cases last <;> rfl
  have takes : ∀ c ∈ cl, ∃ q : Program, (s.gens[c]).shadow.config.seqLoad p.payload = .ok { (s.gens[c]).shadow.config with program := q } ∧
      q.total = total ∧ q.loadOpen = (!last) ∧ (∀ i, q.entry i = entry c i) ∧ ∀ m : Fin 16, q.masks[m] =
        if masks then BitVec.ofNat 96 (fieldAt p.payload (16 + 12 * m.val) 12) else if first = 0 then 0 else (old c).masks[m] := by
    intro c hc
    obtain ⟨q, loaded, qTotal, qOpen, qEntry, qMasks⟩ := (old c).load_ok p.payload masks total first n htotal hfirst hcount maskBit
      (fun h => hopen h c hc) fun k hk => hhere _ (Nat.le_add_right ..) (by omega)
    have qEntry : ∀ i, q.entry i = entry c i := qEntry
    refine ⟨_, ClusterConfig.seqLoad_ok _ _ q loaded fun isLast => ?_, qTotal, ?_, qEntry, qMasks⟩
    · obtain ⟨ends, whole⟩ := hlast (lastBit.symm.trans isLast) c hc
      refine ClusterConfig.lastFault_none _ q (fun i hi => ?_) ?_ fun i hi => ?_
      · rw [qEntry]
        exact (whole i (by omega)).1
      · rw [qEntry, qTotal]
        exact ends
      · rw [qEntry, qEntry]
        exact (whole i (by omega)).2
    · rw [lastBit, qOpen]
      cases last <;> rfl
  have written := Completes.shadowWritten (o := { opcode := 0x0200, form := .sites, units := 2 + (if masks then 12 else 0) + n, gen := .shadow })
    (i := .seqLoad p) (body := fun cl s => s.seqLoad p.payload cl) hp (by
      change execSeqLoad p s = _
      rw [execSeqLoad, maskBit, hcount]
      simp only [if_neg (Nat.not_lt.2 hn)]) (ClusterConfig.taken p.payload) rfl (by
        refine State.seqLoad_taken _ _ _ (s.target_nodup _ _ _ hp.2.2.2.1) ?_ fun c hc => ?_
        · simp [below, isZero, htotal, hfirst, hcount, hpos, hmax, hfits, hzero, hflags]
          cases masks <;> cases last <;> decide
        · obtain ⟨q, hq, -⟩ := takes c hc
          exact ⟨_, by rw [State.fetch_gens]; exact hq⟩)
  obtain ⟨t, ht, only, gens⟩ := written
  refine ⟨t, ht, only, fun c => ?_⟩
  by_cases hc : c ∈ cl
  · obtain ⟨q, hq, qTotal, qOpen, qEntry, qMasks⟩ := takes c hc
    have becomes : (s.gens[c]).shadow.config.taken p.payload = { (s.gens[c]).shadow.config with program := q } := by
      rw [ClusterConfig.taken, hq]
      rfl
    have now_ := gens c
    rw [if_pos hc, becomes] at now_
    have program : (t.gens[c]).shadow.config.program = q := by rw [now_]
    rw [program]
    exact ⟨now_.trans (if_pos hc).symm, fun _ => ⟨qTotal, qOpen, qEntry, qMasks⟩⟩
  · exact ⟨(gens c).trans (by rw [if_neg hc, if_neg hc]), fun h => absurd h hc⟩

end Sys2Proof.Claims

namespace Sys2Proof.Machine

/-! ## Placement of pages (R167, R168) -/

/-- Admission changes the segments and counts pitons, and nothing else of the memory. -/
theorem Memory.tryAdmit_only {m m' : Memory} {site : List Cluster} {config : Cluster → ClusterConfig} {reach : List Nat} {bind : BitVec 24}
    {kept : Cluster → List Word} (h : m.tryAdmit site config reach bind kept = .ok m') : m' = { m with segs := m'.segs, pitons := m'.pitons } := by
  unfold Memory.tryAdmit at h
  extract_lets hz complete bound at h
  split at h
  · cases h
  · refine List.foldlRecOn (motive := fun r : Except AdmitFail Memory => ∀ x, r = .ok x → x = { m with segs := x.segs, pitons := x.pitons }) _ _
      (fun x hx => ?_) (fun r ih c _ x hx => ?_) m' h
    · cases hx
      rfl
    · cases r with
      | error e => cases hx
      | ok y =>
        have hy := ih y rfl
        change (match allocate y.segs[c] y.pitons (config c).program reach (hz c) (kept c) with | .ok (segs, next) => _ | .error e => _) = _ at hx
        split at hx
        · cases hx
          rw [hy]
        · cases hx

/-- The causes of R167 are 1 to 3. -/
theorem Memory.tryAdmit_cause {m : Memory} {f : AdmitFail} {site : List Cluster} {config : Cluster → ClusterConfig} {reach : List Nat} {bind : BitVec 24}
    {kept : Cluster → List Word} (h : m.tryAdmit site config reach bind kept = .error f) : f.cause < 4 := by
  unfold Memory.tryAdmit at h
  extract_lets hz complete bound at h
  have completeCause (f : AdmitFail) (hf : complete = some f) : f.cause = 1 := by
    obtain ⟨c, -, hc⟩ := List.exists_of_findSome?_eq_some hf
    obtain ⟨x, -, hx⟩ := List.exists_of_findSome?_eq_some hc
    split at hx
    · split at hx <;> cases hx
      rfl
    · cases hx
      rfl
  have boundCause (f : AdmitFail) (hf : bound = some f) : f.cause = 2 := by
    obtain ⟨c, -, hc⟩ := List.exists_of_findSome?_eq_some hf
    obtain ⟨x, -, hx⟩ := List.exists_of_findSome?_eq_some hc
    split at hx
    · split at hx <;> cases hx
      rfl
    · cases hx
  split at h
  next g hg =>
    cases h
    rcases Option.or_eq_some_iff.1 hg with hc | ⟨-, hb⟩
    · rw [completeCause f hc]
      decide
    · rw [boundCause f hb]
      decide
  next =>
    refine List.foldlRecOn (motive := fun r : Except AdmitFail Memory => ∀ x, r = .error x → x.cause < 4) _ _
      (fun x hx => by cases hx) (fun r ih c _ x hx => ?_) f h
    cases r with
    | error e => exact ih x hx
    | ok y =>
      change (match allocate y.segs[c] y.pitons (config c).program reach (hz c) (kept c) with | .ok (segs, next) => _ | .error e => _) = _ at hx
      split at hx
      · cases hx
      · cases hx
        exact Nat.lt_succ_self 3

variable (s : State) (k : Cluster)

theorem foldl_updSegs_get (cl : List Cluster) (f : List Seg → List Seg) (hn : cl.Nodup) (c : Cluster) :
    (cl.foldl (fun s c => { s with mem := { s.mem with segs := upd s.mem.segs c f } }) s).mem.segs[c]
      = if c ∈ cl then f s.mem.segs[c] else s.mem.segs[c] := by
  induction cl generalizing s with
  | nil => rfl
  | cons d cl ih =>
    obtain ⟨hd, hn⟩ := List.nodup_cons.1 hn
    rw [List.foldl_cons, ih _ hn]
    have one : (upd s.mem.segs d f)[c] = if c = d then f s.mem.segs[c] else s.mem.segs[c] := upd_apply s.mem.segs d c f
    simp only [one]
    by_cases e : c = d
    · subst e
      simp [hd]
    · simp [e]

/-- The head pages of a site that a horizon does not hold are given back (R168). -/
def heldHeads (kept : List Word) (l : List Seg) : List Seg := l.map fun x => if x.res = .staged ∧ x.id ∉ kept then { x with res := .hbm } else x

theorem releaseHeads_eq_held (l : List Seg) (kept : List Word) : releaseHeads l kept = heldHeads kept l := by
  refine List.map_congr_left fun x _ => ?_
  simp

theorem State.releaseHeads_get (c : Cluster) : (s.releaseHeads k).mem.segs[c] =
    if c ∈ s.members k then heldHeads (s.inForce k ++ s.inFront k) s.mem.segs[c] else s.mem.segs[c] := by
  rw [← releaseHeads_eq_held]
  exact foldl_updSegs_get s (s.members k) _ (s.members_nodup k) c

/-- Placed memory in use: self-refresh begins to be left, and its 100 µs start afresh (R368). -/
theorem State.useHbm_eq : s.useHbm = { s with
    mem := { s.mem with srExit := if s.mem.selfRef = true ∧ s.mem.srExit = none then some s.now else s.mem.srExit }
    pwr := { s.pwr with hbmIdle := s.now } } := by
  simp only [State.useHbm, State.askHbm, State.noteHbm, Bool.and_eq_true, Option.isNone_iff_eq_none]
  split <;> rfl

/-! ## The checks of a descriptor (R255) in two states -/

/-- What the checks of a descriptor read of the state. -/
def State.underCheck : Vector Cluster 12 × Vector (Option Gang) 12 × Rope × Memory × List Word := (s.siteOf, s.gangs, s.rope, s.mem, s.inForce k)

section
variable {s k} {t : State} (same : t.underCheck k = s.underCheck k)
include same

theorem underCheck_members : t.members k = s.members k := by
  have siteOf : t.siteOf = s.siteOf := congrArg (·.1) same
  simp only [State.members, siteOf]

theorem underCheck_mem : t.mem = s.mem := congrArg (·.2.2.2.1) same

theorem underCheck_inForce : t.inForce k = s.inForce k := congrArg (·.2.2.2.2) same

theorem underCheck_multi : t.multi k = s.multi k := by
  have gangs : t.gangs = s.gangs := congrArg (·.2.1) same
  simp only [State.multi, gangs]

theorem underCheck_level : t.siteLevel k = s.siteLevel k := by
  have gangs : t.gangs = s.gangs := congrArg (·.2.1) same
  have rope : t.rope = s.rope := congrArg (·.2.2.1) same
  simp only [State.siteLevel, gangs, rope]

theorem underCheck_programFault (cfg : Cluster → ClusterConfig) (reach : List Nat) : t.programFault k cfg reach = s.programFault k cfg reach := by
  have hops : t.hops k = s.hops k := by
    have gangs : t.gangs = s.gangs := congrArg (·.2.1) same
    simp only [State.hops, gangs]
  have pins : t.sitePins k = s.sitePins k := by simp only [State.sitePins, underCheck_members same]
  simp only [State.programFault, underCheck_members same, underCheck_mem same, underCheck_multi same, underCheck_level same, hops, pins]

theorem underCheck_switchFault (cfg : Cluster → ClusterConfig) (reach : List Nat) : t.switchFault k cfg reach = s.switchFault k cfg reach := by
  simp only [State.switchFault, underCheck_members same]

theorem underCheck_levelFault (cfg : Cluster → ClusterConfig) : t.levelFault k cfg = s.levelFault k cfg := by
  simp only [State.levelFault, underCheck_members same, underCheck_multi same, underCheck_level same]

theorem underCheck_tryAdmit (cfg : Cluster → ClusterConfig) (d : Descriptor) : t.tryAdmit k cfg d = s.tryAdmit k cfg d := by
  simp only [State.tryAdmit, underCheck_members same, underCheck_mem same, underCheck_inForce same]

end

/-- MEM_ADMIT as the reply of a refused descriptor gives it (R167, R238). -/
def Memory.admitted (m : Memory) (detail : Nat) : Memory :=
  { m with admEntry := BitVec.ofNat 16 (detail / 65536), admCl := BitVec.ofNat 4 (detail / 4096), admCause := BitVec.ofNat 2 detail }

theorem Memory.admitted_noteAdmit {f : AdmitFail} (cause : f.cause < 4) :
    (s.noteAdmit f).mem = s.mem.admitted (f.cause + f.cluster.val * 2 ^ 12 + f.entry * 2 ^ 16) := by
  have cluster := f.cluster.isLt
  have entry : (f.cause + f.cluster.val * 2 ^ 12 + f.entry * 2 ^ 16) / 65536 = f.entry := by omega
  have named : BitVec.ofNat 4 ((f.cause + f.cluster.val * 2 ^ 12 + f.entry * 2 ^ 16) / 4096) = BitVec.ofNat 4 f.cluster.val := by
    apply BitVec.eq_of_toNat_eq
    simp only [BitVec.toNat_ofNat]
    omega
  have code : BitVec.ofNat 2 (f.cause + f.cluster.val * 2 ^ 12 + f.entry * 2 ^ 16) = BitVec.ofNat 2 f.cause := by
    apply BitVec.eq_of_toNat_eq
    simp only [BitVec.toNat_ofNat]
    omega
  rw [Memory.admitted, entry, named, code]
  rfl

/-- What a refused descriptor leaves in MEM_ADMIT. -/
def admitMark (e : Ending) (m : Memory) : Memory := if e.dkind = 4 then m.admitted e.detail else m

variable {s k}

theorem State.deepCheck_memory {cfg : Cluster → ClusterConfig} {d : Descriptor} {m : Memory} (h : s.deepCheck k cfg d = .ok m) :
    m = { s.mem with segs := m.segs, pitons := m.pitons } := by
  unfold State.deepCheck at h
  extract_lets reach at h
  (repeat' split at h) <;> cases h
  next h => exact Memory.tryAdmit_only h

/-- Two states that agree in what the checks read give a descriptor the same verdict. -/
theorem State.deepCheck_ok {t : State} (same : t.underCheck k = s.underCheck k) {cfg : Cluster → ClusterConfig} {d : Descriptor} {m : Memory}
    (h : s.deepCheck k cfg d = .ok m) : t.deepCheck k cfg d = .ok m := by
  unfold State.deepCheck at h ⊢
  extract_lets reach at h ⊢
  rw [underCheck_programFault same, underCheck_switchFault same, underCheck_levelFault same, underCheck_tryAdmit same]
  split at h
  · cases h
  next clean =>
    split at h
    · cases h
    next switch =>
      split at h
      · cases h
      next level =>
        split at h
        next admits =>
          cases h
          rfl
        next => cases h

/-- A refused descriptor: the reply's place and detail are the same, and a failed admission is marked in the state's own memory. -/
theorem State.deepCheck_error {t : State} (same : t.underCheck k = s.underCheck k) {cfg : Cluster → ClusterConfig} {d : Descriptor} {e : Ending}
    (h : s.deepCheck k cfg d = .error e) : ∃ e', t.deepCheck k cfg d = .error e' ∧
      (if e'.dkind = 4 then e'.state else t) = { t with mem := admitMark e t.mem } := by
  unfold State.deepCheck at h ⊢
  extract_lets reach at h ⊢
  rw [underCheck_programFault same, underCheck_switchFault same, underCheck_levelFault same, underCheck_tryAdmit same]
  split at h
  · cases h
    exact ⟨_, rfl, rfl⟩
  next clean =>
    split at h
    · cases h
      exact ⟨_, rfl, rfl⟩
    next switch =>
      split at h
      · cases h
        exact ⟨_, rfl, rfl⟩
      next level =>
        split at h
        next => cases h
        next f refused =>
          cases h
          refine ⟨_, rfl, ?_⟩
          have mark := Memory.admitted_noteAdmit t (Memory.tryAdmit_cause refused)
          rw [if_pos rfl, admitMark, if_pos rfl, ← mark]
          rfl

end Sys2Proof.Machine

namespace Sys2Proof.Machine
variable {s : State} {k : Cluster}

/-! ## Generations become pending (R243, R279) -/

theorem State.noteCommit_eq (s : State) (cl : List Cluster) : s.noteCommit cl = { s with recent := (s.noteCommit cl).recent } := by
  unfold State.noteCommit
  extract_lets note
  exact foldl_frame s _ _ (fun s t : State => t = { s with recent := t.recent }) (fun _ => rfl) (fun a b c hb hc => by rw [hc, hb]) fun _ _ => rfl

theorem State.noteCommit_other (s : State) (cl : List Cluster) (c : Cluster) (h : c ∉ cl) : (s.noteCommit cl).recent[c] = s.recent[c] := by
  unfold State.noteCommit
  extract_lets note
  refine List.foldlRecOn (motive := fun t : State => t.recent[c] = s.recent[c]) _ _ rfl fun t same d hd => ?_
  refine (upd_at t.recent d c (note d)).trans ?_
  rw [if_neg fun e : c = d => h (e ▸ hd)]
  exact same

theorem State.commitAll_eq (s : State) (cl : List Cluster) (f : GenSlots → GenSlots) :
    s.commitAll cl f = { s with gens := (s.commitAll cl f).gens, recent := (s.noteCommit cl).recent } := by
  rw [State.commitAll, State.foldl_updGen_eq, State.noteCommit_eq]

theorem State.commitAll_gens (s : State) {cl : List Cluster} (hn : cl.Nodup) (f : GenSlots → GenSlots) (c : Cluster) :
    (s.commitAll cl f).gens[c] = if c ∈ cl then f s.gens[c] else s.gens[c] := by
  rw [State.commitAll, State.foldl_updGen_get _ _ _ hn, State.noteCommit_eq]

/-! ## A descriptor in a front buffer, checked again (R254) -/

/-- What the memory is when `m`, as admission left it, is in use and the head pages not in `kept` are released. -/
def Placed (s : State) (t : Memory) (k : Cluster) (m : Memory) (kept : List Word) : Prop :=
  t = { m with segs := t.segs, srExit := t.srExit } ∧
  t.srExit = (if s.mem.selfRef = true ∧ s.mem.srExit = none then some s.now else s.mem.srExit) ∧
  ∀ c : Cluster, t.segs[c] = if c ∈ s.members k then heldHeads kept m.segs[c] else m.segs[c]

theorem placed_releaseHeads {v : State} {m : Memory} {kept : List Word} (admitted : m = { s.mem with segs := m.segs, pitons := m.pitons })
    (mem : v.mem = { m with srExit := if m.selfRef = true ∧ m.srExit = none then some s.now else m.srExit }) (members : v.members k = s.members k)
    (held : v.inForce k ++ v.inFront k = kept) : Placed s (v.releaseHeads k).mem k m kept := by
  have selfRef : m.selfRef = s.mem.selfRef := by rw [admitted]
  have srExit : m.srExit = s.mem.srExit := by rw [admitted]
  have frame : (v.releaseHeads k).mem = { v.mem with segs := (v.releaseHeads k).mem.segs } := congrArg State.mem (v.releaseHeads_eq k)
  refine ⟨?_, ?_, fun c => ?_⟩
  · rw [frame, mem]
  · rw [frame, mem, ← selfRef, ← srExit]
  · rw [State.releaseHeads_get, members, held, mem]

theorem State.recheck_stays {d : Descriptor} {m : Memory} (front : (s.seqs[k]).front = some d)
    (inside : ∀ i ∈ d.candidates, i < (s.armConfig k).program.total) (passes : s.deepCheck k s.armConfig d = .ok m) :
    (s.recheck k).2 = false ∧ (s.recheck k).1 = { s with mem := (s.recheck k).1.mem, pwr := { s.pwr with hbmIdle := s.now } } ∧
      Placed s (s.recheck k).1.mem k m (s.inForce k ++ (s.armConfig k).program.plays d.candidates) := by
  have result : s.recheck k = (({ s with mem := m } : State).useHbm.releaseHeads k, false) := by
    rw [State.recheck, front]
    dsimp only
    rw [if_neg (by simpa using inside), passes]
  have admitted := State.deepCheck_memory passes
  rw [result]
  refine ⟨rfl, ?_, placed_releaseHeads admitted ?_ ?_ ?_⟩
  · dsimp only
    rw [State.releaseHeads_eq, State.useHbm_eq]
  · rw [State.useHbm_eq]
  · rw [State.useHbm_eq]
    rfl
  · rw [State.useHbm_eq]
    change s.inForce k ++ s.inFront k = _
    rw [State.inFront, front]
    rfl

/-- What dropping the front buffer leaves (R168). -/
theorem State.dropFront_shows : (∀ j : Cluster, (s.dropFront k).seqs[j] = if j = k then { s.seqs[k] with front := none } else s.seqs[j]) ∧
    s.dropFront k = { s with recent := (s.dropFront k).recent, seqs := (s.dropFront k).seqs, mem := { s.mem with segs := (s.dropFront k).mem.segs } } ∧
    ∀ c : Cluster, (s.dropFront k).mem.segs[c] = if c ∈ s.members k then heldHeads (s.inForce k) s.mem.segs[c] else s.mem.segs[c] := by
  obtain ⟨frame, -⟩ := s.dropFront_frame k
  refine ⟨fun j => ?_, ?_, fun c => ?_⟩
  · rw [frame]
    exact upd_at s.seqs k j _
  · rw [frame]
  · let w := (s.noteFront k).updSeq k fun q => { q with front := none }
    have own : w.seqs[k] = { s.seqs[k] with front := none } := (upd_at s.seqs k k _).trans (if_pos rfl)
    have force : w.inForce k = s.inForce k := by
      have state : w.siteState k = s.siteState k := rfl
      have config : w.config k = s.config k := rfl
      simp only [State.inForce, own, state, config]
    have front : w.inFront k = [] := by
      simp only [State.inFront, own]
      rfl
    have got := w.releaseHeads_get k c
    rw [force, front, List.append_nil] at got
    exact got

/-- The same of a state whose memory was marked first. -/
theorem State.dropFront_marked (v : State) (m : Memory) (k : Cluster) : ∃ w : State, ({ v with mem := m } : State).dropFront k = w ∧
    (∀ j : Cluster, w.seqs[j] = if j = k then { v.seqs[k] with front := none } else v.seqs[j]) ∧
    w = { v with recent := w.recent, seqs := w.seqs, mem := { m with segs := w.mem.segs } } ∧
    ∀ c : Cluster, w.mem.segs[c] = if c ∈ v.members k then heldHeads (v.inForce k) m.segs[c] else m.segs[c] :=
  ⟨_, rfl, State.dropFront_shows (s := { v with mem := m })⟩

theorem State.recheck_drops {d : Descriptor} {e : Option Ending} (front : (s.seqs[k]).front = some d)
    (fails : (e = none ∧ ∃ i ∈ d.candidates, (s.armConfig k).program.total ≤ i) ∨
      ∃ (t : State) (x : Ending), t.underCheck k = s.underCheck k ∧ e = some x ∧ (∀ i ∈ d.candidates, i < (s.armConfig k).program.total) ∧ t.deepCheck k s.armConfig d = .error x) :
    s.recheck k = (({ s with mem := (e.map fun x => admitMark x s.mem).getD s.mem } : State).dropFront k, true) := by
  rw [State.recheck, front]
  dsimp only
  rcases fails with ⟨rfl, i, hi, beyond⟩ | ⟨t, x, same, rfl, inside, refused⟩
  · rw [if_pos (by simpa using ⟨i, hi, beyond⟩)]
    rfl
  · obtain ⟨x', refused', mark⟩ := State.deepCheck_error same.symm refused
    rw [if_neg (by simpa using inside), refused']
    dsimp only
    rw [mark]
    rfl

/-! ## GEN_COMMIT and GEN_REVERT publish (R253, R254) -/

theorem State.publishPend_eq (s : State) (k : Cluster) : s.publishPend k = { s with sites := (s.publishPend k).sites } := rfl

theorem State.publishPend_sites (s : State) (k j : Cluster) : (s.publishPend k).sites[j]
    = if j = k then { s.sites[j] with pendGen := ((s.gens[k]).newest).number } else s.sites[j] := s.updSite_get k _ j

/-- The end of a packet that made a generation pending, on one site. -/
theorem State.published_one {cl : List Cluster} (one : s.sitesFor cl = [k]) : s.published cl =
    let t := (s.publishPend k).recheck k
    { t.1.done with data := leBytes 2 (bitAt t.2 k.val), gen := cl.head?.map fun c => ((t.1.gens[c]).newest).number } := by
  rw [State.published, one]
  simp

/-- One site of those a packet publishes (R253, R254): the state and DESC_DROPPED as they were, and after it. -/
def State.publishOne (x : State × Nat) (k : Cluster) : State × Nat :=
  let t := (x.1.publishPend k).recheck k
  (t.1, x.2 + bitAt t.2 k.val)

theorem publishOne_empty (x : State × Nat) (front : (x.1.seqs[k]).front = none) : State.publishOne x k = (x.1.publishPend k, x.2) := by
  have empty : ((x.1.publishPend k).seqs[k]).front = none := front
  simp only [State.publishOne, State.recheck, empty]
  rfl

theorem foldl_publishOne_empty (l : List Cluster) (hn : l.Nodup) (m : Nat) (empty : ∀ k ∈ l, (s.seqs[k]).front = none) :
    ∃ v : Vector SiteRec 12, l.foldl State.publishOne (s, m) = ({ s with sites := v }, m) ∧
      ∀ k : Cluster, v[k] = if k ∈ l then { s.sites[k] with pendGen := ((s.gens[k]).newest).number } else s.sites[k] := by
  induction l generalizing s with
  | nil => exact ⟨s.sites, rfl, fun _ => rfl⟩
  | cons c l ih =>
    obtain ⟨hc, hn⟩ := List.nodup_cons.1 hn
    obtain ⟨v, hv, at_⟩ := ih (s := s.publishPend c) hn fun k hk => empty k (List.mem_cons_of_mem _ hk)
    refine ⟨v, ?_, fun k => ?_⟩
    · rw [List.foldl_cons, publishOne_empty _ (empty c (List.mem_cons_self ..)), hv]
      rfl
    · rw [at_, State.publishPend_sites]
      by_cases e : k = c
      · subst e
        simp [hc]
      · simp only [List.mem_cons, e, false_or, if_false]
        rfl

/-- Sites without a descriptor take their pending number alone. -/
theorem State.published_empty {cl : List Cluster} (empty : ∀ k ∈ s.sitesFor cl, (s.seqs[k]).front = none) :
    ∃ v : Vector SiteRec 12, s.published cl = { ({ s with sites := v } : State).done with
        data := leBytes 2 0, gen := cl.head?.map fun c => ((s.gens[c]).newest).number } ∧
      ∀ k : Cluster, v[k] = if k ∈ s.sitesFor cl then { s.sites[k] with pendGen := ((s.gens[k]).newest).number } else s.sites[k] := by
  have distinct : (s.sitesFor cl).Nodup := ((List.nodup_finRange 12).filter _).filter _
  obtain ⟨v, hv, at_⟩ := foldl_publishOne_empty (s.sitesFor cl) distinct 0 empty
  refine ⟨v, ?_, at_⟩
  exact congrArg (fun x : State × Nat =>
    ({ x.1.done with data := leBytes 2 x.2, gen := cl.head?.map fun c => ((x.1.gens[c]).newest).number } : Ending)) hv

end Sys2Proof.Machine

namespace Sys2Proof.Claims
open Sys2Proof.Machine

/-- The clusters GEN_COMMIT and GEN_REVERT name make whole sites (R244). -/
theorem sitesFor_target {s : State} {cl : List Cluster} {t : BitVec 16} (h : s.target .sites t = some cl) {k : Cluster} (hk : k ∈ s.sitesFor cl) :
    k ∈ cl := by
  obtain ⟨root, c, hc, site⟩ := (s.mem_sitesFor cl k).1 hk
  simp only [State.target] at h
  split at h
  next whole =>
    cases h
    simp only [Bool.and_eq_true, List.all_eq_true] at whole
    have := whole.2 c hc k ((s.mem_members _ k).2 (root.trans site.symm))
    simpa using this
  next => cases h

theorem target_sites_ne_nil {s : State} {cl : List Cluster} {t : BitVec 16} (h : s.target .sites t = some cl) : cl ≠ [] := by
  simp only [State.target] at h
  split at h
  next whole =>
    cases h
    simp only [Bool.and_eq_true, Bool.not_eq_true', List.isEmpty_eq_false_iff] at whole
    exact whole.1.2
  next => cases h

/-- The OpSpec of GEN_COMMIT and GEN_REVERT (R253). -/
abbrev publishSpec (op : Nat) : OpSpec := { opcode := op, form := .sites, units := 1, gen := .pend }

section
variable {s : State} {p : Packet} {cl : List Cluster} {op : Nat} {i : Instr} {body : List Cluster → State → Ending} {f : GenSlots → GenSlots}
  {new : Cluster → Generation}

/-- The state after the stages and the generations' move, before the sites publish. -/
def moved (s : State) (op : Nat) (p : Packet) (cl : List Cluster) (f : GenSlots → GenSlots) : State := (s.fetch op p).commitAll cl f

theorem moved_eq : moved s op p cl f = { s.fetch op p with gens := (moved s op p cl f).gens, recent := (moved s op p cl f).recent } := by
  have h := (s.fetch op p).commitAll_eq cl f
  rw [moved, h]

section
variable (hn : cl.Nodup) (newest : ∀ c ∈ cl, (f s.gens[c]).newest = new c)
include hn

theorem moved_gens (c : Cluster) : (moved s op p cl f).gens[c] = if c ∈ cl then f s.gens[c] else s.gens[c] := by
  rw [moved, State.commitAll_gens _ hn, State.fetch_gens]

include newest in
theorem moved_newest (c : Cluster) : ((moved s op p cl f).gens[c]).newest = if c ∈ cl then new c else (s.gens[c]).newest := by
  rw [moved_gens hn]
  split
  next h => exact newest c h
  next => rfl

include newest in
theorem moved_armConfig (c : Cluster) : (moved s op p cl f).armConfig c = if c ∈ cl then (new c).config else ((s.gens[c]).pend.getD (s.gens[c]).cur).config := by
  change ((moved s op p cl f).gens[c]).newest.config = _
  rw [moved_newest hn newest]
  split <;> rfl

end

theorem moved_sitesFor : (moved s op p cl f).sitesFor cl = s.sitesFor cl := by
  have siteOf : (moved s op p cl f).siteOf = s.siteOf := by rw [moved_eq, State.fetch_eq]
  simp only [State.sitesFor, State.siteIdxs, State.isSite, State.site, siteOf] <;> rfl

theorem moved_seqs : (moved s op p cl f).seqs = s.seqs := by rw [moved_eq, State.fetch_eq]

section
variable {u v w : State} {g : Vector GenSlots 12} {r : Vector Recent 12} {x : Vector SiteRec 12} (published : v = { u with gens := g, recent := r, sites := x })
include published

/-- A reply posted on a state whose sites have published, and keep their descriptors. -/
theorem posted_stays {m : Memory} {h : Nat} (stays : w = { v with mem := m, pwr := { v.pwr with hbmIdle := h } }) {pw : Power}
    (power : { u.pwr with quiet := u.now, hbmIdle := h } = pw) (fn : Func) (y : Reply) :
    w.posted fn y = { u.posted fn y with gens := w.gens, sites := w.sites, recent := w.recent, mem := w.mem, pwr := pw } := by
  rw [← power]
  subst published
  subst stays
  rfl

/-- A reply posted on a state whose sites have published, and dropped a descriptor. -/
theorem posted_drops {r' : Vector Recent 12} {q : Vector Seqr 12} {m : Memory} (drops : w = { v with recent := r', seqs := q, mem := m }) (fn : Func) (y : Reply) :
    w.posted fn y = { u.posted fn y with gens := w.gens, sites := w.sites, recent := w.recent, mem := w.mem, seqs := w.seqs } := by
  subst published
  subst drops
  rfl

end

/-- DESC_DROPPED with no site in it is a reply without data. -/
theorem answer_none_dropped (p : Packet) (op : Nat) (g : BitVec 16) : answer p op 0x00 g (leBytes 2 0) = answer p op 0x00 g [] := by
  have none_ : data16 (leBytes 2 0) = data16 [] := by decide
  simp only [answer, none_]

/-- GEN_COMMIT and GEN_REVERT where no site holds a descriptor. -/
theorem publish_empty (hp : Passes s (publishSpec op) p cl) (hi : exec i s = .next (s.runPacket (publishSpec op) p none body))
    (he : body cl (s.fetch op p) = (moved s op p cl f).published cl) (newest : ∀ c ∈ cl, (f s.gens[c]).newest = new c)
    (empty : ∀ k ∈ s.sitesFor cl, (s.seqs[k]).front = none) :
    Completes i s fun t =>
      t = { served s op p (answer p op 0x00 ((cl.head?.map fun c => (new c).number).getD 0) []) with gens := t.gens, sites := t.sites, recent := t.recent } ∧
      (∀ c : Cluster, t.gens[c] = if c ∈ cl then f s.gens[c] else s.gens[c]) ∧ (∀ c : Cluster, c ∉ cl → t.recent[c] = s.recent[c]) ∧
      ∀ k : Cluster, t.sites[k] = if k ∈ s.sitesFor cl then { s.sites[k] with pendGen := (new k).number } else s.sites[k] := by
  have hn := s.target_nodup _ _ _ hp.2.2.2.1
  have noMcheck : s.cmd.mcheck = none := hp.2.1
  obtain ⟨v, published, sites⟩ := State.published_empty (s := moved s op p cl f) (cl := cl) (by rw [moved_sitesFor, moved_seqs]; exact empty)
  refine Completes.packet hp hi _ (he.trans published) ?_
  have frame := moved_eq (s := s) (op := op) (p := p) (cl := cl) (f := f)
  have cmd : (moved s op p cl f).cmd = (s.fetch op p).cmd := by rw [frame]
  have head : (cl.head?.map fun c => (((moved s op p cl f).gens[c]).newest).number) = cl.head?.map fun c => (new c).number :=
    Option.map_congr fun c hc => by rw [moved_newest hn newest, if_pos (List.mem_of_mem_head? hc)]
  have named : cl ≠ [] := target_sites_ne_nil hp.2.2.2.1
  have reply : Ending.reply { ({ moved s op p cl f with sites := v } : State).done with
      data := leBytes 2 0, gen := cl.head?.map fun c => (((moved s op p cl f).gens[c]).newest).number } (publishSpec op) p cl
      = answer p op 0x00 ((cl.head?.map fun c => (new c).number).getD 0) [] := by
    rw [head]
    obtain ⟨c, l, rfl⟩ := List.exists_cons_of_ne_nil named
    rfl
  rw [reply, State.reply_eq_posted _ _ _ (by change (moved s op p cl f).cmd.mcheck = none; rw [cmd, State.fetch_mcheck, noMcheck]), served_eq_posted noMcheck]
  refine ⟨?_, fun c => moved_gens hn c, fun c hc => ?_, fun k => ?_⟩
  · rw [frame]
    rfl
  · change (moved s op p cl f).recent[c] = _
    rw [moved, State.commitAll_eq]
    exact ((s.fetch op p).noteCommit_other cl c hc).trans (by rw [State.fetch_recent])
  · refine (sites k).trans ?_
    rw [moved_sitesFor]
    split
    next h =>
      rw [moved_newest hn newest, if_pos (sitesFor_target hp.2.2.2.1 h), frame]
      simp only [State.fetch_sites]
    next =>
      rw [frame]
      simp only [State.fetch_sites]

theorem Placed.of_eq {u : State} {k : Cluster} {t m : Memory} {kept : List Word} (h : Placed u t k m kept) (mem : u.mem = s.mem) (clock : u.now = s.now)
    (members : u.members k = s.members k) : Placed s t k m kept := by
  obtain ⟨frame, exits, segs⟩ := h
  rw [mem, clock] at exits
  rw [members] at segs
  exact ⟨frame, exits, segs⟩

section
variable {k : Cluster}

/-- The state a packet leaves to the second check of site `k`. -/
def shown (s : State) (op : Nat) (p : Packet) (cl : List Cluster) (f : GenSlots → GenSlots) (k : Cluster) : State := (moved s op p cl f).publishPend k

theorem shown_eq : shown s op p cl f k = { s.fetch op p with
    gens := (shown s op p cl f k).gens, recent := (shown s op p cl f k).recent, sites := (shown s op p cl f k).sites } := by
  unfold shown
  rw [State.publishPend_eq, moved_eq]

theorem shown_mem : (shown s op p cl f k).mem = s.mem := by
  rw [shown_eq]
  exact s.fetch_mem op p

theorem shown_now : (shown s op p cl f k).now = s.now := by
  rw [shown_eq]
  exact s.fetch_now op p

theorem shown_seqs : (shown s op p cl f k).seqs = s.seqs := by
  rw [shown_eq]
  exact s.fetch_seqs op p

variable (hn : cl.Nodup) (cur : ∀ c ∈ cl, (f s.gens[c]).cur = (s.gens[c]).cur)
include hn cur

/-- Making a generation pending changes nothing the checks of a descriptor read. -/
theorem shown_underCheck : (shown s op p cl f k).underCheck k = s.underCheck k := by
  have state : (shown s op p cl f k).siteState k = s.siteState k := by
    have own := (moved s op p cl f).publishPend_sites k k
    rw [if_pos rfl] at own
    have same : (moved s op p cl f).sites = s.sites := by rw [moved_eq]; exact s.fetch_sites op p
    rw [same] at own
    exact (congrArg SiteRec.state own :)
  have config : (shown s op p cl f k).config k = s.config k := by
    change (((moved s op p cl f).gens[k]).cur).config = _
    rw [moved_gens hn]
    split
    next h => rw [cur k h, State.config]
    next => rfl
  have force : (shown s op p cl f k).inForce k = s.inForce k := by simp only [State.inForce, state, config, shown_seqs]
  have siteOf : (shown s op p cl f k).siteOf = s.siteOf := by rw [shown_eq]; exact s.fetch_siteOf op p
  have gangs : (shown s op p cl f k).gangs = s.gangs := by rw [shown_eq]; exact s.fetch_gangs op p
  have rope : (shown s op p cl f k).rope = s.rope := by rw [shown_eq]; exact s.fetch_rope op p
  simp only [State.underCheck, siteOf, gangs, rope, shown_mem, force]

end

/-- A reply that carries the number of a generation which became pending. -/
theorem publish_reply (hp : Passes s (publishSpec op) p cl) (newest : ∀ c ∈ cl, (f s.gens[c]).newest = new c) {w : State}
    (gens : w.gens = (moved s op p cl f).gens) (data : List Byte) :
    Ending.reply { w.done with data := data, gen := cl.head?.map fun c => ((w.gens[c]).newest).number } (publishSpec op) p cl
      = answer p op 0x00 ((cl.head?.map fun c => (new c).number).getD 0) data := by
  have hn := s.target_nodup _ _ _ hp.2.2.2.1
  have head : (cl.head?.map fun c => ((w.gens[c]).newest).number) = cl.head?.map fun c => (new c).number :=
    Option.map_congr fun c hc => by rw [gens, moved_newest hn newest, if_pos (List.mem_of_mem_head? hc)]
  rw [head]
  obtain ⟨c, l, rfl⟩ := List.exists_cons_of_ne_nil (target_sites_ne_nil hp.2.2.2.1)
  rfl

variable (hp : Passes s (publishSpec op) p cl) (hi : exec i s = .next (s.runPacket (publishSpec op) p none body))
  (he : body cl (s.fetch op p) = (moved s op p cl f).published cl) (newest : ∀ c ∈ cl, (f s.gens[c]).newest = new c)
  (cur : ∀ c ∈ cl, (f s.gens[c]).cur = (s.gens[c]).cur) (one : s.sitesFor cl = [k]) {d : Descriptor} (front : (s.seqs[k]).front = some d)
include hp hi he newest one

/-- GEN_COMMIT and GEN_REVERT on one site: the reply goes out on the state its second check leaves. -/
theorem publish_one {P : State → Prop} (ran : ((shown s op p cl f k).recheck k).1.cmd = (shown s op p cl f k).cmd)
    (gens : ((shown s op p cl f k).recheck k).1.gens = (shown s op p cl f k).gens)
    (hP : P (((shown s op p cl f k).recheck k).1.posted p.func (answer p op 0x00 ((cl.head?.map fun c => (new c).number).getD 0)
      (leBytes 2 (bitAt ((shown s op p cl f k).recheck k).2 k.val))))) : Completes i s P := by
  have noMcheck : s.cmd.mcheck = none := hp.2.1
  refine Completes.packet hp hi _ (he.trans (State.published_one (by rw [moved_sitesFor]; exact one))) ?_
  refine Eq.mpr (congrArg (fun r => P (((shown s op p cl f k).recheck k).1.reply p.func r)) (publish_reply hp newest gens _)) ?_
  rw [State.reply_eq_posted]
  · exact hP
  · refine (congrArg CmdEngine.mcheck ran).trans ?_
    rw [shown_eq]
    exact (s.fetch_mcheck op p).trans noMcheck

include cur front

theorem publish_stays {m : Memory} (cfg : Cluster → ClusterConfig)
    (config : cfg = fun c => if c ∈ cl then (new c).config else ((s.gens[c]).pend.getD (s.gens[c]).cur).config)
    (inside : ∀ i ∈ d.candidates, i < (cfg k).program.total) (passes : s.deepCheck k cfg d = .ok m) :
    Completes i s fun t => Placed s t.mem k m (s.inForce k ++ (cfg k).program.plays d.candidates) ∧
      t = { served s op p (answer p op 0x00 ((cl.head?.map fun c => (new c).number).getD 0) []) with
              gens := t.gens, sites := t.sites, recent := t.recent, mem := t.mem, pwr := { s.pwr with quiet := s.now, hbmIdle := s.now } } := by
  have hn := s.target_nodup _ _ _ hp.2.2.2.1
  have noMcheck : s.cmd.mcheck = none := hp.2.1
  have same := shown_underCheck (op := op) (p := p) (f := f) (k := k) hn cur
  have armed : (shown s op p cl f k).armConfig = cfg := by
    rw [config]
    exact funext fun c => moved_armConfig hn newest c
  obtain ⟨stays, frame, placed⟩ := State.recheck_stays (s := shown s op p cl f k) (k := k) (d := d) (m := m) (by rw [shown_seqs]; exact front)
    (by rw [armed]; exact inside) (by rw [armed]; exact State.deepCheck_ok same passes)
  rw [armed, underCheck_inForce same] at placed
  refine publish_one hp hi he newest one (by rw [frame]) (by rw [frame]) ?_
  have kept (g : BitVec 16) : answer p op 0x00 g (leBytes 2 (bitAt false k.val)) = answer p op 0x00 g [] := answer_none_dropped p op g
  rw [stays, kept, served_eq_posted noMcheck]
  generalize ((shown s op p cl f k).recheck k).1 = w at frame placed ⊢
  exact ⟨Placed.of_eq placed shown_mem shown_now (underCheck_members same),
    posted_stays shown_eq frame (by rw [State.fetch_pwr, State.fetch_now, shown_now]) p.func _⟩

theorem publish_drops {e : Option Ending} (cfg : Cluster → ClusterConfig)
    (config : cfg = fun c => if c ∈ cl then (new c).config else ((s.gens[c]).pend.getD (s.gens[c]).cur).config)
    (fails : (e = none ∧ ∃ i ∈ d.candidates, (cfg k).program.total ≤ i) ∨
      ∃ x, e = some x ∧ (∀ i ∈ d.candidates, i < (cfg k).program.total) ∧ s.deepCheck k cfg d = .error x) :
    Completes i s fun t => ((∀ j : Cluster, t.seqs[j] = if j = k then { s.seqs[k] with front := none } else s.seqs[j]) ∧
        (∀ c : Cluster, t.mem.segs[c] = if c ∈ s.members k then heldHeads (s.inForce k) s.mem.segs[c] else s.mem.segs[c]) ∧
        t.mem = { ((e.map fun x => admitMark x s.mem).getD s.mem) with segs := t.mem.segs }) ∧
      t = { served s op p (answer p op 0x00 ((cl.head?.map fun c => (new c).number).getD 0) (leBytes 2 (2 ^ k.val))) with
              gens := t.gens, sites := t.sites, recent := t.recent, mem := t.mem, seqs := t.seqs } := by
  have hn := s.target_nodup _ _ _ hp.2.2.2.1
  have noMcheck : s.cmd.mcheck = none := hp.2.1
  have same := shown_underCheck (op := op) (p := p) (f := f) (k := k) hn cur
  have armed : (shown s op p cl f k).armConfig = cfg := by
    rw [config]
    exact funext fun c => moved_armConfig hn newest c
  have dropped := State.recheck_drops (s := shown s op p cl f k) (k := k) (d := d) (e := e) (by rw [shown_seqs]; exact front) (by
    rw [armed]
    exact fails.imp_right fun ⟨x, refused⟩ => ⟨s, x, same.symm, refused⟩)
  rw [shown_mem] at dropped
  generalize hM : (e.map fun x => admitMark x s.mem).getD s.mem = marked at dropped ⊢
  have segs : marked.segs = s.mem.segs := by
    rw [← hM]
    cases e with
    | none => rfl
    | some x =>
      change (admitMark x s.mem).segs = _
      unfold admitMark
      split <;> rfl
  obtain ⟨w, left, seqs, frame, heads⟩ := State.dropFront_marked (shown s op p cl f k) marked k
  rw [left] at dropped
  rw [underCheck_inForce same, underCheck_members same, segs] at heads
  rw [shown_seqs] at seqs
  refine publish_one hp hi he newest one (by rw [dropped, frame]) (by rw [dropped, frame]) ?_
  have answered : answer p op 0x00 ((cl.head?.map fun c => (new c).number).getD 0) (leBytes 2 (bitAt true k.val))
      = answer p op 0x00 ((cl.head?.map fun c => (new c).number).getD 0) (leBytes 2 (2 ^ k.val)) := rfl
  rw [dropped]
  dsimp only
  rw [answered, served_eq_posted noMcheck]
  exact ⟨⟨seqs, heads, congrArg State.mem frame⟩, posted_drops shown_eq frame p.func _⟩

end

end Sys2Proof.Claims

namespace Sys2Proof.Claims
open Sys2Proof.Machine
variable {s : State} {p : Packet} {cl : List Cluster}

theorem commitFault_fetch {op : Nat} (h : s.commitFault cl = none) : (s.fetch op p).commitFault cl = none := by
  unfold State.commitFault at h ⊢
  rw [State.fetch_gens]
  extract_lets g at h ⊢
  split at h
  · cases h
  next complete =>
    split at h
    · cases h
    next ranges =>
      split at h
      · cases h
      next lines => simpa using h

/-- MEM_ADMIT takes the detail of a failed admission, and keeps what it was otherwise (R167). -/
theorem admitMark_shows {e : Option Ending} {m t : Memory} (h : t = { (e.map fun x => admitMark x m).getD m with segs := t.segs }) :
    t = { m with segs := t.segs, admEntry := t.admEntry, admCl := t.admCl, admCause := t.admCause } ∧
    (t.admEntry, t.admCl, t.admCause) = ((e.filter fun x => decide (x.dkind = 4)).map fun x =>
      (BitVec.ofNat 16 (x.detail / 65536), BitVec.ofNat 4 (x.detail / 4096), BitVec.ofNat 2 x.detail)).getD (m.admEntry, m.admCl, m.admCause) := by
  cases e with
  | none =>
    rw [h]
    exact ⟨rfl, rfl⟩
  | some x =>
    change t = { admitMark x m with segs := t.segs } at h
    by_cases four : x.dkind = 4
    · rw [admitMark, if_pos four] at h
      rw [h]
      simp [Option.filter, four, Memory.admitted]
    · rw [admitMark, if_neg four] at h
      rw [h]
      simp [Option.filter, four]

/-- The state GEN_DISCARD leaves before its reply (R279). -/
def discarded (s : State) (cl : List Cluster) : State := cl.foldl (fun s c => s.updGen c GenSlots.discard) s

theorem discarded_eq : discarded s cl = { s with gens := (discarded s cl).gens } := State.foldl_updGen_eq _ _ _

theorem discarded_gens (hn : cl.Nodup) (c : Cluster) : (discarded s cl).gens[c] = if c ∈ cl then (s.gens[c]).discard else s.gens[c] :=
  State.foldl_updGen_get s cl GenSlots.discard hn c

theorem discarded_number (hn : cl.Nodup) : (discarded s cl).genField .shadow cl = (cl.head?.map fun c => nextNumber (s.gens[c]).shadow.number).getD 0 := by
  rw [genField_shadow, shadowOf]
  cases cl with
  | nil => rfl
  | cons c l =>
    simp only [List.head?_cons, Option.map_some, Option.getD_some, discarded_gens hn, List.mem_cons_self, if_true]
    rfl

theorem genDiscard_shows (hp : Passes s { opcode := 0x0112, form := .clusters, units := 1, gen := .shadow } p cl) :
    Completes (.genDiscard p) s fun t =>
      t = { served s 0x0112 p (answer p 0x0112 0x00 ((cl.head?.map fun c => nextNumber (s.gens[c]).shadow.number).getD 0) []) with gens := t.gens } ∧
      ∀ c : Cluster, t.gens[c] = if c ∈ cl then (s.gens[c]).discard else s.gens[c] := by
  have hn := s.target_nodup _ _ _ hp.2.2.2.1
  have noMcheck : s.cmd.mcheck = none := hp.2.1
  have number := discarded_number (s := s.fetch 0x0112 p) hn
  have gens := discarded_gens (s := s.fetch 0x0112 p) hn
  rw [State.fetch_gens] at number gens
  refine Completes.packet (o := { opcode := 0x0112, form := .clusters, units := 1, gen := .shadow })
    (body := fun cl s => (discarded s cl).done) hp rfl (discarded (s.fetch 0x0112 p) cl).done rfl ?_
  have frame := discarded_eq (s := s.fetch 0x0112 p) (cl := cl)
  generalize discarded (s.fetch 0x0112 p) cl = u at number gens frame ⊢
  have reply : u.done.reply { opcode := 0x0112, form := .clusters, units := 1, gen := .shadow } p cl
      = answer p 0x0112 0x00 (u.genField .shadow cl) [] := rfl
  rw [reply, number, State.done, State.reply_eq_posted _ _ _ (by rw [frame]; exact (s.fetch_mcheck 0x0112 p).trans noMcheck), served_eq_posted noMcheck]
  refine ⟨?_, gens⟩
  generalize hg : u.gens = g at frame
  subst frame
  rfl

/-- Settles O8: the generations move cluster by cluster, and a waiting descriptor is checked under what becomes pending. -/
theorem generationsCommitRevertDiscard : Obligations.GenerationsCommitRevertDiscard := by
  unfold Obligations.GenerationsCommitRevertDiscard
  intro next released stays drops fails
  have revertNew (s : State) (cl : List Cluster) (old : Cluster → Generation) (prev : ∀ c ∈ cl, (s.gens[c]).prev = some (old c)) (c : Cluster) (hc : c ∈ cl) :
      (s.gens[c]).revert = { s.gens[c] with pend := some (old c), pendRevert := true, prev := none,
                                            shadow := ⟨next (s.gens[c]).shadow.number, (old c).config⟩ } := by
    rw [GenSlots.revert, prev c hc]
    rfl
  have reverts (s : State) (p : Packet) (cl : List Cluster) (old : Cluster → Generation) (prev : ∀ c ∈ cl, (s.gens[c]).prev = some (old c)) :
      (s.fetch 0x0111 p).genRevert cl = (moved s 0x0111 p cl GenSlots.revert).published cl := by
    rw [State.genRevert, List.find?_eq_none.2 fun c hc => by rw [State.fetch_gens, prev c hc]; simp]
    rfl
  have commits (s : State) (p : Packet) (cl : List Cluster) (clean : s.commitFault cl = none) :
      (s.fetch 0x0110 p).genCommit cl = (moved s 0x0110 p cl GenSlots.commit).published cl := by
    rw [State.genCommit, commitFault_fetch clean]
    rfl
  refine ⟨?commit, ?revert, ?discard, ?commitStays, ?commitDrops, ?revertStays, ?revertDrops⟩
  case commit =>
    intro s p cl hp clean empty
    exact publish_empty (f := GenSlots.commit) (new := fun c => (s.gens[c]).shadow) (body := fun cl s => s.genCommit cl) hp rfl (commits s p cl clean)
      (fun c _ => rfl) empty
  case revert =>
    intro s p cl old hp prev empty
    obtain ⟨t, ht, frame, gens, recent, sites⟩ := publish_empty (f := GenSlots.revert) (new := old) (i := .genRevert p)
      (body := fun cl s => s.genRevert cl) hp rfl (reverts s p cl old prev) (fun c hc => by rw [revertNew s cl old prev c hc]; rfl) empty
    refine ⟨t, ht, frame, fun c => ?_, recent, sites⟩
    rw [gens]
    split
    next hc => exact revertNew s cl old prev c hc
    next => rfl
  case discard => exact fun s p cl hp => genDiscard_shows hp
  case commitStays =>
    intro s p cl k d m cfg hp clean one front inside passes
    exact publish_stays (f := GenSlots.commit) (new := fun c => (s.gens[c]).shadow) (body := fun cl s => s.genCommit cl) hp rfl (commits s p cl clean)
      (fun c _ => rfl) (fun c _ => rfl) one front cfg rfl inside passes
  case commitDrops =>
    intro s p cl k d e cfg hp clean one front refused
    obtain ⟨t, ht, ⟨seqs, segs, mem⟩, frame⟩ := publish_drops (f := GenSlots.commit) (new := fun c => (s.gens[c]).shadow) (i := .genCommit p)
      (body := fun cl s => s.genCommit cl) hp rfl (commits s p cl clean) (fun c _ => rfl) (fun c _ => rfl) one front cfg rfl refused
    exact ⟨t, ht, ⟨seqs, segs, admitMark_shows mem⟩, frame⟩
  case revertStays =>
    intro s p cl old k d m cfg hp prev one front inside passes
    exact publish_stays (f := GenSlots.revert) (new := old) (body := fun cl s => s.genRevert cl) hp rfl (reverts s p cl old prev)
      (fun c hc => by rw [revertNew s cl old prev c hc]; rfl) (fun c hc => by rw [revertNew s cl old prev c hc]) one front cfg rfl inside passes
  case revertDrops =>
    intro s p cl old k d e cfg hp prev one front refused
    obtain ⟨t, ht, ⟨seqs, segs, mem⟩, frame⟩ := publish_drops (f := GenSlots.revert) (new := old) (i := .genRevert p)
      (body := fun cl s => s.genRevert cl) hp rfl (reverts s p cl old prev) (fun c hc => by rw [revertNew s cl old prev c hc]; rfl)
      (fun c hc => by rw [revertNew s cl old prev c hc]) one front cfg rfl refused
    exact ⟨t, ht, ⟨seqs, segs, admitMark_shows mem⟩, frame⟩

end Sys2Proof.Claims

namespace Sys2Proof.Machine

/-! ## A descriptor published (R255) -/

/-- The front buffer takes a descriptor, and head pages that nothing holds are given back. -/
def State.frontSet (x : State) (k : Cluster) (d : Descriptor) : State := ((x.noteFront k).updSeq k fun q => { q with front := some d }).releaseHeads k

theorem State.frontSet_shows (x : State) (k : Cluster) (d : Descriptor) :
    x.frontSet k d = { x with recent := (x.noteFront k).recent, seqs := (x.frontSet k d).seqs, mem := (x.frontSet k d).mem } ∧
    (∀ j : Cluster, j ≠ k → (x.noteFront k).recent[j] = x.recent[j]) ∧
    ∀ j : Cluster, (x.frontSet k d).seqs[j] = if j = k then { x.seqs[j] with front := some d } else x.seqs[j] := by
  have frame : x.frontSet k d = { ((x.noteFront k).updSeq k fun q => { q with front := some d }) with mem := (x.frontSet k d).mem } := by
    rw [State.frontSet, State.releaseHeads_eq]
  have seqs : (x.frontSet k d).seqs = upd x.seqs k fun q => { q with front := some d } := congrArg State.seqs frame
  refine ⟨?_, fun j h => ?_, fun j => ?_⟩
  · rw [seqs]
    exact frame
  · exact (upd_at x.recent k j _).trans (if_neg h)
  · rw [seqs]
    exact upd_apply x.seqs k j _

theorem State.frontSet_placed {s x : State} {k : Cluster} {d : Descriptor} {m : Memory} {kept : List Word}
    (admitted : m = { s.mem with segs := m.segs, pitons := m.pitons })
    (mem : x.mem = { m with srExit := if m.selfRef = true ∧ m.srExit = none then some s.now else m.srExit }) (members : x.members k = s.members k)
    (held : x.inForce k ++ (x.armConfig k).program.plays d.candidates = kept) : Placed s (x.frontSet k d).mem k m kept := by
  refine placed_releaseHeads admitted mem members ?_
  rw [← held]
  let w := (x.noteFront k).updSeq k fun q => { q with front := some d }
  have own : w.seqs[k] = { x.seqs[k] with front := some d } := (upd_at x.seqs k k _).trans (if_pos rfl)
  have force : w.inForce k = x.inForce k := by
    have state : w.siteState k = x.siteState k := rfl
    have config : w.config k = x.config k := rfl
    simp only [State.inForce, own, state, config]
  have front : w.inFront k = (x.armConfig k).program.plays d.candidates := by
    have arm : w.armConfig k = x.armConfig k := rfl
    simp only [State.inFront, own, arm, Option.map_some, Option.getD_some]
  exact congrArg₂ _ force front

theorem State.tryLate_none {x : State} {k : Cluster} (h : (x.seqs[k]).start = none) : x.tryLate k = x := by
  unfold State.tryLate
  rw [h]

/-- The state the front buffer is set in: the pages placed, and the shadow made pending where the packet asks for it (R255). -/
def State.admittedBy (s : State) (k : Cluster) (m : Memory) (commits : Bool) : State :=
  let t := ({ s with mem := m } : State).useHbm
  if commits then (t.commitAll (s.members k) GenSlots.commit).publishPend k else t

theorem State.burstCommit_front {s : State} {b : List Byte} {k : Cluster} {d : Descriptor} {cg : Bool} {m : Memory} (flag : bitOf (fieldAt b 3 1) 1 = cg)
    (parse : parseDescriptor b ((s.arming cg k).config).program.total (s.members k) (s.siteLevel k) = .ok (d, cg))
    (clean : cg = true → s.commitFault (s.members k) = none) (passes : s.deepCheck k (fun c => (s.arming cg c).config) d = .ok m)
    (idle : (((s.admittedBy k m cg).frontSet k d).seqs[k]).start = none) :
    s.burstCommit b k = { ((s.admittedBy k m cg).frontSet k d).done with gen := some (s.arming cg k).number } := by
  have free : (if cg then s.commitFault (s.members k) else none) = none := by
    cases cg with
    | false => rfl
    | true => exact clean rfl
  subst flag
  rw [State.burstCommit]
  refine congrArg (fun v : Ending => ({ v with gen := some (s.arming (bitOf (fieldAt b 3 1) 1) k).number } : Ending)) ?_
  rw [State.parsed_ok _ _ _ _ parse]
  dsimp only
  rw [free]
  dsimp only
  rw [passes]
  exact congrArg State.done (State.tryLate_none idle)

variable (u : State) (k : Cluster) (m : Memory) (cg : Bool)

theorem State.admittedBy_eq : u.admittedBy k m cg = { u with
    gens := (u.admittedBy k m cg).gens, sites := (u.admittedBy k m cg).sites, recent := (u.admittedBy k m cg).recent
    mem := { m with srExit := if m.selfRef = true ∧ m.srExit = none then some u.now else m.srExit }
    pwr := { u.pwr with hbmIdle := u.now } } := by
  have used := State.useHbm_eq { u with mem := m }
  obtain ⟨g, v, r, h⟩ : ∃ g v r, u.admittedBy k m cg = { u with
      gens := g, sites := v, recent := r
      mem := { m with srExit := if m.selfRef = true ∧ m.srExit = none then some u.now else m.srExit }
      pwr := { u.pwr with hbmIdle := u.now } } := by
    cases cg with
    | false => exact ⟨u.gens, u.sites, u.recent, used⟩
    | true =>
      simp only [State.admittedBy, if_true]
      generalize ({ u with mem := m } : State).useHbm = x at used ⊢
      subst used
      exact ⟨_, _, _, by rw [State.publishPend_eq, State.commitAll_eq]⟩
  have gens := congrArg State.gens h
  have sites := congrArg State.sites h
  have recent := congrArg State.recent h
  rw [gens, sites, recent]
  exact h

theorem State.useHbm_gens : ({ u with mem := m } : State).useHbm.gens = u.gens := by rw [State.useHbm_eq]

theorem State.useHbm_sites : ({ u with mem := m } : State).useHbm.sites = u.sites := by rw [State.useHbm_eq]

theorem State.admittedBy_gens (c : Cluster) :
    (u.admittedBy k m cg).gens[c] = if cg = true ∧ c ∈ u.members k then (u.gens[c]).commit else u.gens[c] := by
  cases cg with
  | false =>
    rw [if_neg (by simp)]
    exact congrArg (fun v : Vector GenSlots 12 => v[c]) (u.useHbm_gens m)
  | true =>
    have moved := ({ u with mem := m } : State).useHbm.commitAll_gens (u.members_nodup k) GenSlots.commit c
    rw [State.useHbm_gens] at moved
    exact moved.trans (by simp)

theorem State.admittedBy_sites (j : Cluster) (root : u.siteOf[k] = k) :
    (u.admittedBy k m cg).sites[j] = if cg = true ∧ j = k then { u.sites[j] with pendGen := (u.gens[k]).shadow.number } else u.sites[j] := by
  cases cg with
  | false =>
    rw [if_neg (by simp)]
    exact congrArg (fun v : Vector SiteRec 12 => v[j]) (u.useHbm_sites m)
  | true =>
    have shown := (({ u with mem := m } : State).useHbm.commitAll (u.members k) GenSlots.commit).publishPend_sites k j
    have sites : (({ u with mem := m } : State).useHbm.commitAll (u.members k) GenSlots.commit).sites = u.sites := by
      rw [State.commitAll_eq, State.useHbm_sites]
    have moved := ({ u with mem := m } : State).useHbm.commitAll_gens (u.members_nodup k) GenSlots.commit k
    rw [if_pos ((u.mem_members k k).2 root), State.useHbm_gens] at moved
    rw [sites, moved] at shown
    simp only [true_and]
    exact shown

theorem State.admittedBy_arms (root : u.siteOf[k] = k) : (u.admittedBy k m cg).armConfig k = (u.arming cg k).config := by
  have gens := u.admittedBy_gens k m cg k
  rw [State.armConfig, gens]
  cases cg with
  | false => rfl
  | true =>
    rw [if_pos ⟨rfl, (u.mem_members k k).2 root⟩]
    rfl

theorem State.admittedBy_inForce (root : u.siteOf[k] = k) : (u.admittedBy k m cg).inForce k = u.inForce k := by
  have seqs : (u.admittedBy k m cg).seqs = u.seqs := by rw [State.admittedBy_eq]
  have state : (u.admittedBy k m cg).siteState k = u.siteState k := by
    rw [State.siteState, State.admittedBy_sites _ _ _ _ _ root]
    split <;> rfl
  have config : (u.admittedBy k m cg).config k = u.config k := by
    rw [State.config, State.admittedBy_gens]
    split <;> rfl
  simp only [State.inForce, seqs, state, config]

theorem State.admittedBy_members : (u.admittedBy k m cg).members k = u.members k := by
  have siteOf : (u.admittedBy k m cg).siteOf = u.siteOf := by rw [State.admittedBy_eq]
  simp only [State.members, siteOf]

theorem State.fetch_underCheck (s : State) (op : Nat) (p : Packet) (k : Cluster) : (s.fetch op p).underCheck k = s.underCheck k := by
  simp only [State.underCheck, State.inForce, State.config, State.fetch_siteOf, State.fetch_gangs, State.fetch_rope, State.fetch_mem, State.fetch_seqs,
    State.fetch_siteState, State.fetch_gens]

theorem State.fetch_arming (s : State) (op : Nat) (p : Packet) (c : Cluster) : (s.fetch op p).arming cg c = s.arming cg c := by
  simp only [State.arming, State.fetch_gens]

end Sys2Proof.Machine

namespace Sys2Proof.Claims
open Sys2Proof.Machine

/-- The OpSpec of BURST_COMMIT (R255). -/
abbrev commitSpec : OpSpec := { opcode := 0x0210, form := .site, units := 5, gen := .pend, notInDiag := true }

/-- A SITE target's index cluster is its own site's. -/
theorem target_site_root {s : State} {cl : List Cluster} {t : BitVec 16} (h : s.target .site t = some cl) : s.siteOf[siteIn s cl] = siteIn s cl := by
  have named := target_site_ne_nil h
  simp only [State.target] at h
  split at h
  next c _ =>
    split at h
    next whole =>
      cases h
      have root : s.siteOf[c] = c := by simpa [State.isSite] using (Bool.and_eq_true_iff.1 whole).2
      obtain ⟨d, l, e⟩ := List.exists_cons_of_ne_nil named
      have member : s.siteOf[d] = c := (s.mem_members c d).1 (by rw [e]; exact List.mem_cons_self ..)
      have here : siteIn s (s.members c) = c := by
        rw [siteIn, e]
        exact member
      have index (x : Cluster) (hx : x = c) : s.siteOf[x] = x := by
        subst hx
        exact root
      exact index _ here
    next => cases h
  next => cases h

section
variable {s : State} {p : Packet} {cl : List Cluster} {d : Descriptor} {m : Memory} {cg : Bool}

/-- The state a BURST_COMMIT leaves before its reply. -/
def burstCommitted (s : State) (p : Packet) (k : Cluster) (m : Memory) (cg : Bool) (d : Descriptor) : State :=
  ((s.fetch 0x0210 p).admittedBy k m cg).frontSet k d

variable (hp : Passes s commitSpec p cl) (flag : bitOf (fieldAt p.payload 3 1) 1 = cg)
  (parse : parseDescriptor p.payload ((s.arming cg (siteIn s cl)).config).program.total (s.members (siteIn s cl)) (s.siteLevel (siteIn s cl)) = .ok (d, cg))
  (clean : cg = true → s.commitFault (s.members (siteIn s cl)) = none)
  (passes : s.deepCheck (siteIn s cl) (fun c => (s.arming cg c).config) d = .ok m) (idle : (s.seqs[siteIn s cl]).start = none)
include hp passes

theorem burstCommitted_placed : Placed s (burstCommitted s p (siteIn s cl) m cg d).mem (siteIn s cl) m
    (s.inForce (siteIn s cl) ++ ((s.arming cg (siteIn s cl)).config).program.plays d.candidates) := by
  have root : (s.fetch 0x0210 p).siteOf[siteIn s cl] = siteIn s cl := by
    rw [State.fetch_siteOf]
    exact target_site_root hp.2.2.2.1
  have same := s.fetch_underCheck 0x0210 p (siteIn s cl)
  refine State.frontSet_placed (State.deepCheck_memory passes) ?_ ?_ ?_
  · rw [State.admittedBy_eq, State.fetch_now]
  · rw [State.admittedBy_members, State.fetch_members]
  · rw [State.admittedBy_inForce _ _ _ _ root, State.admittedBy_arms _ _ _ _ root, underCheck_inForce same, State.fetch_arming]

omit passes hp in
theorem burstCommitted_seqs (k j : Cluster) : (burstCommitted s p k m cg d).seqs[j] = if j = k then { s.seqs[j] with front := some d } else s.seqs[j] := by
  obtain ⟨-, -, seqs⟩ := ((s.fetch 0x0210 p).admittedBy k m cg).frontSet_shows k d
  have before : ((s.fetch 0x0210 p).admittedBy k m cg).seqs = s.seqs := by
    rw [State.admittedBy_eq]
    exact s.fetch_seqs 0x0210 p
  rw [before] at seqs
  exact seqs j

omit passes hp in
theorem burstCommitted_eq (k : Cluster) : burstCommitted s p k m cg d = { (s.fetch 0x0210 p).admittedBy k m cg with
    recent := (burstCommitted s p k m cg d).recent, seqs := (burstCommitted s p k m cg d).seqs, mem := (burstCommitted s p k m cg d).mem } := by
  obtain ⟨frame, -, -⟩ := ((s.fetch 0x0210 p).admittedBy k m cg).frontSet_shows k d
  have recent : (burstCommitted s p k m cg d).recent = (((s.fetch 0x0210 p).admittedBy k m cg).noteFront k).recent := (congrArg State.recent frame :)
  rw [recent]
  exact frame

omit passes hp in
theorem burstCommitted_recent (k j : Cluster) (other : j ≠ k) :
    (burstCommitted s p k m cg d).recent[j] = ((s.fetch 0x0210 p).admittedBy k m cg).recent[j] := by
  obtain ⟨frame, others, -⟩ := ((s.fetch 0x0210 p).admittedBy k m cg).frontSet_shows k d
  have recent : (burstCommitted s p k m cg d).recent = (((s.fetch 0x0210 p).admittedBy k m cg).noteFront k).recent := (congrArg State.recent frame :)
  rw [recent]
  exact others j other

omit passes hp in
theorem burstCommitted_keeps (k : Cluster) : (burstCommitted s p k m cg d).gens = ((s.fetch 0x0210 p).admittedBy k m cg).gens ∧
    (burstCommitted s p k m cg d).sites = ((s.fetch 0x0210 p).admittedBy k m cg).sites ∧ (burstCommitted s p k m cg d).cmd = (s.fetch 0x0210 p).cmd := by
  obtain ⟨frame, -, -⟩ := ((s.fetch 0x0210 p).admittedBy k m cg).frontSet_shows k d
  have cmd : ((s.fetch 0x0210 p).admittedBy k m cg).cmd = (s.fetch 0x0210 p).cmd := by rw [State.admittedBy_eq]
  unfold burstCommitted
  rw [frame]
  exact ⟨rfl, rfl, cmd⟩

include flag parse clean idle

/-- BURST_COMMIT completes with the number its burst will arm with (R255). -/
theorem burstCommit_completes {P : State → Prop} (hP : P ((burstCommitted s p (siteIn s cl) m cg d).posted p.func
    (answer p 0x0210 0x00 (s.arming cg (siteIn s cl)).number []))) : Completes (.burstCommit p) s P := by
  have noMcheck : s.cmd.mcheck = none := hp.2.1
  have same := s.fetch_underCheck 0x0210 p (siteIn s cl)
  have target : (s.fetch 0x0210 p).site (cl.headD 0) = siteIn s cl := s.fetch_site 0x0210 p _
  have free : cg = true → (s.fetch 0x0210 p).commitFault ((s.fetch 0x0210 p).members (siteIn s cl)) = none := fun h => by
    rw [State.fetch_members]
    exact commitFault_fetch (clean h)
  have waits : ((burstCommitted s p (siteIn s cl) m cg d).seqs[siteIn s cl]).start = none := by
    rw [burstCommitted_seqs, if_pos rfl]
    exact idle
  have body := State.burstCommit_front (s := s.fetch 0x0210 p) flag (d := d)
    (by rw [State.fetch_arming, State.fetch_members, underCheck_level same]; exact parse) free
    (State.deepCheck_ok same (by simp only [State.fetch_arming]; exact passes)) waits
  rw [State.fetch_arming] at body
  have cmd : (burstCommitted s p (siteIn s cl) m cg d).cmd.mcheck = none := by
    rw [(burstCommitted_keeps (s := s) (siteIn s cl)).2.2, State.fetch_mcheck, noMcheck]
  refine Completes.packet (o := commitSpec) (body := fun cl s => s.burstCommit p.payload (s.site (cl.headD 0))) hp rfl
    { (burstCommitted s p (siteIn s cl) m cg d).done with gen := some (s.arming cg (siteIn s cl)).number }
    ((congrArg (State.burstCommit _ p.payload) target).trans body) ?_
  change P ((burstCommitted s p (siteIn s cl) m cg d).reply p.func (answer p 0x0210 0x00 (s.arming cg (siteIn s cl)).number []))
  rw [State.reply_eq_posted _ _ _ cmd]
  exact hP

end

section
variable {u x w : State} {m₀ m' : Memory} {h : Nat} {r' : Vector Recent 12} {q : Vector Seqr 12} (fronted : w = { x with recent := r', seqs := q, mem := m' })
  {pw : Power} (power : { u.pwr with quiet := u.now, hbmIdle := h } = pw)
include fronted power

/-- A reply posted on a state whose front buffer was set. -/
theorem posted_fronted (admitted : x = { u with mem := m₀, pwr := { u.pwr with hbmIdle := h } }) (fn : Func) (y : Reply) :
    w.posted fn y = { u.posted fn y with seqs := w.seqs, mem := w.mem, recent := w.recent, pwr := pw } := by
  rw [← power]
  subst admitted
  subst fronted
  rfl

/-- The same where the shadow became pending with it. -/
theorem posted_fronted_commit {g : Vector GenSlots 12} {v : Vector SiteRec 12} {r : Vector Recent 12}
    (admitted : x = { u with gens := g, sites := v, recent := r, mem := m₀, pwr := { u.pwr with hbmIdle := h } }) (fn : Func) (y : Reply) :
    w.posted fn y = { u.posted fn y with seqs := w.seqs, mem := w.mem, gens := w.gens, sites := w.sites, recent := w.recent, pwr := pw } := by
  rw [← power]
  subst admitted
  subst fronted
  rfl

end

/-- Settles O10: the descriptor stands in the front buffer, and the pages its burst needs are placed. -/
theorem burstCommitPublishesDescriptor : Obligations.BurstCommitPublishesDescriptor := by
  unfold Obligations.BurstCommitPublishesDescriptor
  intro placed o
  refine ⟨?plain, ?commits⟩
  case plain =>
    intro s p cl d m hp k cfg flag parse passes idle
    have noMcheck : s.cmd.mcheck = none := hp.2.1
    refine burstCommit_completes (cg := false) hp flag parse (fun h => nomatch h) passes idle ?_
    have frame := burstCommitted_eq (s := s) (p := p) (m := m) (cg := false) (d := d) k
    have others := burstCommitted_recent (s := s) (p := p) (m := m) (cg := false) (d := d) k
    have seqs := burstCommitted_seqs (s := s) (p := p) (m := m) (cg := false) (d := d) k
    have places := burstCommitted_placed (cg := false) (d := d) hp passes
    have admitted := State.useHbm_eq { s.fetch 0x0210 p with mem := m }
    have recent : ((s.fetch 0x0210 p).admittedBy k m false).recent = s.recent := (congrArg State.recent admitted).trans (s.fetch_recent 0x0210 p)
    rw [recent] at others
    rw [served_eq_posted noMcheck]
    generalize burstCommitted s p k m false d = w at frame others seqs places ⊢
    exact ⟨posted_fronted frame (by rw [State.fetch_pwr, State.fetch_now]) admitted p.func _, others, seqs, places⟩
  case commits =>
    intro s p cl d m hp k cfg flag parse clean passes idle
    have noMcheck : s.cmd.mcheck = none := hp.2.1
    have root : (s.fetch 0x0210 p).siteOf[k] = k := by
      rw [State.fetch_siteOf]
      exact target_site_root hp.2.2.2.1
    refine burstCommit_completes (cg := true) hp flag parse (fun _ => clean) passes idle ?_
    have frame := burstCommitted_eq (s := s) (p := p) (m := m) (cg := true) (d := d) k
    obtain ⟨gens, sites, -⟩ := burstCommitted_keeps (s := s) (p := p) (m := m) (cg := true) (d := d) k
    have seqs := burstCommitted_seqs (s := s) (p := p) (m := m) (cg := true) (d := d) k
    have places := burstCommitted_placed (cg := true) (d := d) hp passes
    have admitted := (s.fetch 0x0210 p).admittedBy_eq k m true
    have number := (s.fetch 0x0210 p).admittedBy_gens k m true
    have shown := fun j => (s.fetch 0x0210 p).admittedBy_sites k m true j root
    rw [← gens, State.fetch_gens, State.fetch_members] at number
    rw [← sites, State.fetch_gens, State.fetch_sites] at shown
    simp only [true_and] at number shown
    rw [served_eq_posted noMcheck]
    generalize burstCommitted s p k m true d = w at frame gens sites seqs places number shown ⊢
    exact ⟨posted_fronted_commit frame (by rw [State.fetch_pwr, State.fetch_now]) admitted p.func _, seqs, places, number, shown⟩

end Sys2Proof.Claims

namespace Sys2Proof.Machine
variable {s : State}

/-! ## Frames of fixed latency (R288, R289) -/

/-- A frame of fixed latency that a port with FL_OK takes goes to its delivery. -/
theorem State.receive_fixed {n : Port} {c : Byte} {fr : Frame} (f : State → State) (arrives : Claims.Arrives s n c fr)
    (fixed : fixedLatency c = true) (ok : s.flOk n = true) : s.receive n c fr f = f (s.heard n) := by
  obtain ⟨takes, crc, hops, level⟩ := arrives
  have far : ¬ 4 < crossed fr := by rw [crossed]; omega
  have other : c ≠ 0x40 := by
    rintro rfl
    exact absurd fixed (by decide)
  simp only [State.receive, PortState.hears_of_takes takes, crc, far, level, takes, fixed, ok, other, State.heard, Bool.not_true, Bool.false_eq_true,
    if_false, ne_eq, not_true_eq_false, decide_false, Bool.or_self, Bool.and_false]

theorem fixedLatency_of_mem {c : Byte} (fixed : c ∈ ([0x20, 0x21, 0x22, 0x30, 0x31] : List Byte)) : fixedLatency c = true := by
  simp only [List.mem_cons, List.not_mem_nil, or_false] at fixed
  rcases fixed with rfl | rfl | rfl | rfl | rfl <;> rfl

/-- A frame delivered to the device's own blocks (R289). -/
def State.delivered (s : State) (n : Port) (c : Byte) (fr : Frame) : State :=
  { s with rope := { s.rope with
      delivered := ⟨fr.src, c, fr.tick, s.now⟩ :: s.rope.delivered.filter fun d => decide (s.now ≤ d.atNow + 10 * usUnits)
      inbox := s.rope.inbox ++ [⟨n, c, crossed fr, s.net, fr.src, fr.body⟩] } }

/-- The ports a delivered frame goes on by (R289, R297). -/
def State.onward (s : State) (n : Port) (c : Byte) : List Port :=
  (List.finRange 4).filter fun m => m ≠ n && (s.rope.ports[m]).state = .up && s.openTo c m

theorem State.deliver_new {n : Port} {c : Byte} {fr : Frame} (new : s.rope.copy c fr s.now = false) : s.deliver n c fr =
    if 4 ≤ crossed fr then s.delivered n c fr
    else (s.delivered n c fr).emit ((s.delivered n c fr).onward n c) c (BitVec.ofNat 8 (crossed fr)) (fr.tick + 128) fr.src fun _ => fr.body := by
  rw [State.deliver, new, if_neg Bool.false_ne_true]
  rfl

/-- Frames go out of ports that are UP, and mark them busy (R288, R289). -/
theorem State.emit_awake (ports : List Port) (c hops : Byte) (tick : BitVec 16) (src : BitVec 64) (body : Nat → List Byte)
    (up : ∀ m ∈ ports, (s.rope.ports[m]).state = .up) : ∃ v, s.emit ports c hops tick src body = { s with rope := { s.rope with
      ports := v, sent := s.rope.sent ++ ports.map fun m => ⟨m, c, hops, tick, src, body (s.rope.ports[m]).level⟩ } } := by
  have awake : ports.foldl State.leaveIdle s = s := by
    induction ports with
    | nil => rfl
    | cons m ports ih =>
      rw [List.foldl_cons, State.leaveIdle_awake (by rw [up m (List.mem_cons_self ..)]; decide)]
      exact ih fun j hj => up j (List.mem_cons_of_mem _ hj)
  have all : (ports.filter fun m => (s.rope.ports[m]).state = .up) = ports := List.filter_eq_self.2 fun m hm => by simpa using up m hm
  rw [State.emit, awake]
  dsimp only
  rw [all]
  exact ⟨_, rfl⟩

end Sys2Proof.Machine

namespace Sys2Proof.Claims
open Sys2Proof.Machine
variable {s : State} {n : Port} {c : Byte} {fr : Frame} {at_ : Int}

theorem exec_frameDelivery (fixed : fixedLatency c = true) (ok : s.flOk n = true) (arrives : Arrives s n c fr) :
    exec (.frameDelivery n c fr at_) s = .next (if (fr.tick - BitVec.ofInt 16 at_).toInt < 0 then
        (s.heard n).updPort n fun p => { p with late := satInc p.late, lateSeen := true }
      else ((s.heard n).advanceNet ((at_ + (fr.tick - BitVec.ofInt 16 at_).toInt) * tickUnits)).deliver n c fr) := by
  change execFrameDelivery n c fr at_ s = _
  rw [execFrameDelivery, fixed, if_neg (by simp), State.receive_fixed _ arrives fixed ok]

/-- The instant a frame's tick falls at, in the device's own time. -/
theorem advanceNet_to {x : Int} (calm : Calm s) (later : s.net ≤ x) :
    s.advanceNet x = { s with now := (x - s.netOff).toNat, sites := (s.advanceNet x).sites, reqWait := (s.advanceNet x).reqWait } ∧ (s.advanceNet x).net = x := by
  have net : s.net = s.now + s.netOff := rfl
  have due : s.now ≤ (x - s.netOff).toNat := by omega
  have frame := advance_to calm due
  refine ⟨frame, ?_⟩
  change (((s.advance (x - s.netOff).toNat).now : Nat) : Int) + (s.advance (x - s.netOff).toNat).netOff = x
  rw [frame]
  change (((x - s.netOff).toNat : Nat) : Int) + s.netOff = x
  omega

theorem not_copy {now : Nat} (fresh : ∀ x ∈ s.rope.delivered, x.src ≠ fr.src ∨ x.ctype ≠ c ∨ x.tick ≠ fr.tick) : s.rope.copy c fr now = false := by
  rw [Rope.copy, List.any_eq_false]
  intro x hx
  simp only [Bool.and_eq_true, decide_eq_true_eq]
  rintro ⟨⟨⟨src, ctype⟩, tick⟩, -⟩
  rcases fresh x hx with h | h | h
  · exact h src
  · exact h ctype
  · exact h tick

/-- The state a port's frame is delivered in, at its tick. -/
structure OnTick (s u : State) (n : Port) (x : Int) : Prop where
  frame : u = { s.heard n with now := (x - s.netOff).toNat, sites := u.sites, reqWait := u.reqWait }
  net : u.net = x

theorem onTick (calm : Calm s) {x : Int} (later : s.net ≤ x) : OnTick s ((s.heard n).advanceNet x) n x := by
  obtain ⟨frame, net⟩ := advanceNet_to (s := s.heard n) (x := x) calm later
  exact ⟨frame, net⟩

theorem OnTick.shows {u : State} {x : Int} (h : OnTick s u n x) : u.rope = (s.heard n).rope ∧ u.time = s.time ∧ u.cl = s.cl ∧ u.seqs = s.seqs ∧ u.gens = s.gens ∧
    u.now = (x - s.netOff).toNat := by
  rw [h.frame]
  exact ⟨rfl, rfl, rfl, rfl, rfl, rfl⟩

/-- The ports a frame goes on by, told from the state before its tick. -/
theorem onward_onTick {u : State} {x : Int} (h : OnTick s u n x) : (u.delivered n c fr).onward n c =
    (List.finRange 4).filter fun j => decide (j ≠ n) && (decide ((s.rope.ports[j]).state = .up) &&
      (({ s with now := (x - s.netOff).toNat } : State).flOk j && (decide (c ≠ 0x20) || decide ((s.rope.ports[j]).level = 3)))) := by
  obtain ⟨rope, time, -, -, -, clock⟩ := h.shows
  refine List.filter_congr fun j _ => ?_
  by_cases own : j = n
  · simp [own]
  · have port : (u.delivered n c fr).rope.ports[j] = s.rope.ports[j] := by
      change u.rope.ports[j] = _
      rw [rope]
      exact State.updPort_other _ own
    have ok : (u.delivered n c fr).flOk j = ({ s with now := (x - s.netOff).toNat } : State).flOk j := by
      have time' : (u.delivered n c fr).time = s.time := time
      have now' : (u.delivered n c fr).now = (x - s.netOff).toNat := clock
      simp only [State.flOk, State.timeLocked, port, time', now'] <;> rfl
    simp only [State.openTo, port, ok]
    generalize s.rope.ports[j] = q
    by_cases up : q.state = .up
    · simp [own, up]
    · simp [up]

theorem tick_not_late {d : Int} (h : 0 ≤ d) : ¬ d < 0 := by omega

/-- A frame delivered on its tick that has crossed four hops goes no further (R289). -/
theorem frame_delivered (fixed : c ∈ ([0x20, 0x21, 0x22, 0x30, 0x31] : List Byte)) (ok : s.flOk n = true) (arrives : Arrives s n c fr)
    (early : 0 ≤ (fr.tick - BitVec.ofInt 16 at_).toInt) (later : s.net ≤ (at_ + (fr.tick - BitVec.ofInt 16 at_).toInt) * 20480) (calm : Calm s)
    (fresh : ∀ x ∈ s.rope.delivered, x.src ≠ fr.src ∨ x.ctype ≠ c ∨ x.tick ≠ fr.tick) (hops : 3 ≤ fr.hops.toNat) :
    Completes (.frameDelivery n c fr at_) s fun t => t.net = (at_ + (fr.tick - BitVec.ofInt 16 at_).toInt) * 20480 ∧ t.rope.sent = s.rope.sent ∧
      t.rope.inbox = s.rope.inbox ++ [⟨n, c, fr.hops.toNat + 1, t.net, fr.src, fr.body⟩] ∧ t.rope.delivered.head? = some ⟨fr.src, c, fr.tick, t.now⟩ ∧
      t.cl = s.cl ∧ t.seqs = s.seqs ∧ t.gens = s.gens := by
  have run := exec_frameDelivery (at_ := at_) (fixedLatency_of_mem fixed) ok arrives
  rw [if_neg (tick_not_late early)] at run
  have tick := onTick (n := n) calm later
  obtain ⟨rope, -, cl, seqs, gens, -⟩ := tick.shows
  change exec _ s = .next (((s.heard n).advanceNet ((at_ + (fr.tick - BitVec.ofInt 16 at_).toInt) * 20480)).deliver n c fr) at run
  generalize (s.heard n).advanceNet ((at_ + (fr.tick - BitVec.ofInt 16 at_).toInt) * 20480) = u at run tick rope cl seqs gens
  have new : u.rope.copy c fr u.now = false := by
    rw [rope]
    exact not_copy (s := s) fresh
  have far : 4 ≤ crossed fr := by rw [crossed]; omega
  rw [State.deliver_new new, if_pos far] at run
  have sent : u.rope.sent = s.rope.sent := by rw [rope]; rfl
  have inbox : u.rope.inbox = s.rope.inbox := by rw [rope]; rfl
  refine ⟨_, run, tick.net, sent, ?_, rfl, cl, seqs, gens⟩
  exact congrArg (fun l => l ++ [(⟨n, c, crossed fr, u.net, fr.src, fr.body⟩ : InMsg)]) inbox

theorem frame_relayed {m : Port} (fixed : c ∈ ([0x20, 0x21, 0x22, 0x30, 0x31] : List Byte)) (ok : s.flOk n = true) (arrives : Arrives s n c fr)
    (early : 0 ≤ (fr.tick - BitVec.ofInt 16 at_).toInt) (later : s.net ≤ (at_ + (fr.tick - BitVec.ofInt 16 at_).toInt) * 20480) (calm : Calm s)
    (fresh : ∀ x ∈ s.rope.delivered, x.src ≠ fr.src ∨ x.ctype ≠ c ∨ x.tick ≠ fr.tick) (hops : fr.hops.toNat < 3)
    (one : ((List.finRange 4).filter fun j => decide (j ≠ n) && (decide ((s.rope.ports[j]).state = .up) &&
      (({ s with now := ((at_ + (fr.tick - BitVec.ofInt 16 at_).toInt) * 20480 - s.netOff).toNat } : State).flOk j &&
        (decide (c ≠ 0x20) || decide ((s.rope.ports[j]).level = 3))))) = [m]) :
    Completes (.frameDelivery n c fr at_) s fun t => t.net = (at_ + (fr.tick - BitVec.ofInt 16 at_).toInt) * 20480 ∧
      t.rope.inbox = s.rope.inbox ++ [⟨n, c, fr.hops.toNat + 1, t.net, fr.src, fr.body⟩] ∧
      t.rope.sent = s.rope.sent ++ [⟨m, c, BitVec.ofNat 8 (fr.hops.toNat + 1), fr.tick + 128, fr.src, fr.body⟩] := by
  have run := exec_frameDelivery (at_ := at_) (fixedLatency_of_mem fixed) ok arrives
  rw [if_neg (tick_not_late early)] at run
  have tick := onTick (n := n) calm later
  obtain ⟨rope, -, -, -, -, -⟩ := tick.shows
  change exec _ s = .next (((s.heard n).advanceNet ((at_ + (fr.tick - BitVec.ofInt 16 at_).toInt) * 20480)).deliver n c fr) at run
  generalize (s.heard n).advanceNet ((at_ + (fr.tick - BitVec.ofInt 16 at_).toInt) * 20480) = u at run tick rope
  have new : u.rope.copy c fr u.now = false := by
    rw [rope]
    exact not_copy (s := s) fresh
  have near : ¬ 4 ≤ crossed fr := by rw [crossed]; omega
  have ports : (u.delivered n c fr).onward n c = [m] := (onward_onTick tick).trans one
  have up : ∀ j ∈ (u.delivered n c fr).onward n c, ((u.delivered n c fr).rope.ports[j]).state = .up := fun j hj => by
    have := (List.mem_filter.1 hj).2
    simp only [Bool.and_eq_true, decide_eq_true_eq] at this
    exact this.1.2
  obtain ⟨v, sends⟩ := (u.delivered n c fr).emit_awake ((u.delivered n c fr).onward n c) c (BitVec.ofNat 8 (crossed fr)) (fr.tick + 128) fr.src
    (fun _ => fr.body) up
  rw [State.deliver_new new, if_neg near, sends, ports] at run
  have sent : u.rope.sent = s.rope.sent := by rw [rope]; rfl
  have inbox : u.rope.inbox = s.rope.inbox := by rw [rope]; rfl
  refine ⟨_, run, tick.net, ?_, ?_⟩
  · exact congrArg (fun l => l ++ [(⟨n, c, crossed fr, u.net, fr.src, fr.body⟩ : InMsg)]) inbox
  · exact congrArg (fun l => l ++ [(⟨m, c, BitVec.ofNat 8 (crossed fr), fr.tick + 128, fr.src, fr.body⟩ : Sent)]) sent

theorem frame_late (fixed : c ∈ ([0x20, 0x21, 0x22, 0x30, 0x31] : List Byte)) (ok : s.flOk n = true) (arrives : Arrives s n c fr)
    (late : (fr.tick - BitVec.ofInt 16 at_).toInt < 0) :
    Completes (.frameDelivery n c fr at_) s fun t => OnlyPort s t n ∧ t.rope.sent = s.rope.sent ∧
      t.rope.ports[n] = { s.rope.ports[n] with late := satInc (s.rope.ports[n]).late, lateSeen := true, lastRx := s.now, lastBusy := s.now } := by
  have run := exec_frameDelivery (at_ := at_) (fixedLatency_of_mem fixed) ok arrives
  rw [if_pos late, State.heard_eq, State.updPort_eq, State.portAct_portAct] at run
  exact ⟨_, run, State.portAct_only .., List.append_nil _, State.portAct_at ..⟩

/-- A frame whose CRC or type is wrong is counted at its port, and does nothing else (R285). -/
theorem frame_bad (alone : (fixedLatency c = true ∨ frameLevel c = none)) (f : RopePort → RopePort)
    (receives : ∀ g, s.receive n c fr g = s.updPort n f) : Completes (.frameDelivery n c fr at_) s fun t => OnlyPort s t n ∧ t.rope.sent = s.rope.sent ∧
      t.rope.ports[n] = f s.rope.ports[n] := by
  have run : exec (.frameDelivery n c fr at_) s = .next (s.updPort n f) := by
    change execFrameDelivery n c fr at_ s = _
    rw [execFrameDelivery, if_neg (by rcases alone with h | h <;> simp [h]), receives]
  rw [State.updPort_eq] at run
  exact ⟨_, run, State.portAct_only .., List.append_nil _, State.portAct_at ..⟩

theorem frame_badCrc (fixed : c ∈ ([0x20, 0x21, 0x22, 0x30, 0x31] : List Byte)) (hears : (s.rope.ports[n]).state.hears = true)
    (crc : fr.crc ≠ crc32c (frameBytes c fr)) :
    Completes (.frameDelivery n c fr at_) s fun t => OnlyPort s t n ∧ t.rope.sent = s.rope.sent ∧
      t.rope.ports[n] = { s.rope.ports[n] with crcErr := satInc (s.rope.ports[n]).crcErr } :=
  frame_bad (s := s) (n := n) (at_ := at_) (fr := fr) (.inl (fixedLatency_of_mem fixed)) (fun p => { p with crcErr := satInc p.crcErr }) fun g => by
    simp only [State.receive, hears, Bool.not_true, Bool.false_eq_true, if_false, if_pos crc]

theorem frame_reserved (reserved : frameLevel c = none) (hears : (s.rope.ports[n]).state.hears = true) (crc : fr.crc = crc32c (frameBytes c fr)) :
    Completes (.frameDelivery n c fr at_) s fun t => OnlyPort s t n ∧ t.rope.sent = s.rope.sent ∧
      t.rope.ports[n] = { s.rope.ports[n] with badFrame := satInc (s.rope.ports[n]).badFrame } :=
  frame_bad (s := s) (n := n) (at_ := at_) (fr := fr) (.inr reserved) (fun p => { p with badFrame := satInc p.badFrame }) fun g => by
    simp only [State.receive, hears, crc, reserved, Bool.not_true, Bool.false_eq_true, if_false, ne_eq, not_true_eq_false, Option.any_none, Bool.not_false,
      Bool.or_true, if_true]

end Sys2Proof.Claims

namespace Sys2Proof.Machine
variable {s : State}

/-! ## Several reports in one cycle of the collector (R23, R349) -/

/-- Where an event comes from, and the clusters it names. -/
def CycleEvent.key (e : CycleEvent) : Nat × BitVec 12 := (e.event.source, e.event.mask)

def HistEntry.key (h : HistEntry) : Nat × BitVec 12 := (h.source, h.mask)

/-- One event of a cycle served (R23). -/
def State.serveOne (s : State) (x : Faults × List CycleEvent) (e : CycleEvent) : Faults × List CycleEvent :=
  ((s.take x.1 e).1, x.2 ++ [{ e with issued := (s.take x.1 e).2 }])

theorem foldl_serveOne (f : Faults) (es : List CycleEvent) : let r := es.foldl s.serveOne (f, [])
    r.2.map (·.event) = es.map (·.event) ∧ r.1.react = f.react ∧
    (es.length ≤ 32 → ∀ e ∈ es, e.key ∈ (r.1.history.take es.length).map HistEntry.key) := by
  induction es using List.reverseRecOn with
  | nil => exact ⟨rfl, rfl, fun _ e he => nomatch he⟩
  | append_singleton es e ih =>
    obtain ⟨events, react, shows⟩ := ih
    obtain ⟨h, history, entry, -⟩ := s.take_history (es.foldl s.serveOne (f, [])).1 e
    have frame := s.take_frame (es.foldl s.serveOne (f, [])).1 e
    rw [List.foldl_append]
    simp only [List.foldl_cons, List.foldl_nil]
    generalize es.foldl s.serveOne (f, []) = r at events react shows history frame ⊢
    refine ⟨?_, ?_, fun few x hx => ?_⟩
    · simp [State.serveOne, events]
    · exact (congrArg Faults.react frame).trans react
    · have few : es.length + 1 ≤ 32 := by simpa using few
      have key : h.key = e.key := congrArg (fun y : Nat × BitVec 12 × Word => (y.1, y.2.1)) entry
      change x.key ∈ ((s.take r.1 e).1.history.take (es ++ [e]).length).map HistEntry.key
      rw [history, List.length_append, List.length_singleton, List.take_take, Nat.min_eq_left few, List.take_succ_cons, List.map_cons, key]
      rcases List.mem_append.1 hx with hx | hx
      · exact List.mem_cons_of_mem _ (shows (by omega) x hx)
      · rw [List.mem_singleton.1 hx]
        exact List.mem_cons_self ..

/-- A cycle served shows each of its events in the history. -/
theorem State.serve_shows (c : FaultCycle) : let t := s.serve c
    t = { s with flt := t.flt } ∧ t.flt.react = s.flt.react ∧
    (∃ out, t.flt.taking = some { c with events := out } ∧ out.map (·.event) = c.events.map (·.event)) ∧
    (c.events.length ≤ 32 → ∀ e ∈ c.events, e.key ∈ t.flt.history.map HistEntry.key) := by
  intro t
  let base : Faults := { s.flt with first := c.first, history := c.history, count := c.count, plogPend := c.plogPend }
  obtain ⟨events, react, shows⟩ := foldl_serveOne (s := s) base c.events
  have served : t = { s with flt := { (c.events.foldl s.serveOne (base, [])).1 with
      taking := some { c with events := (c.events.foldl s.serveOne (base, [])).2 } } } := rfl
  rw [served]
  exact ⟨rfl, react, ⟨_, rfl, events⟩, fun few e he => (List.map_subset _ (List.take_subset _ _)) (shows few e he)⟩

theorem insertFault_perm (e : CycleEvent) (l : List CycleEvent) : (insertFault e l).Perm (e :: l) := by
  induction l with
  | nil => exact List.Perm.refl _
  | cons x l ih =>
    rw [insertFault]
    split
    · exact (ih.cons x).trans (List.Perm.swap ..)
    · exact List.Perm.refl _

/-- The collector's cycle of now holds the events of `l`, and the history shows them. -/
def State.CycleShows (s : State) (l : List (Nat × BitVec 12)) : Prop :=
  (l = [] ∧ s.flt.taking = none) ∨ ∃ c : FaultCycle, s.flt.taking = some c ∧ (c.cycle, c.clocked) = s.collectorCycle ∧
    (c.events.map CycleEvent.key).Perm l ∧ (l.length ≤ 32 → ∀ x ∈ l, x ∈ s.flt.history.map HistEntry.key)

theorem State.CycleShows.endCycle {l : List (Nat × BitVec 12)} (h : s.CycleShows l) : s.endCycle s.now = s := by
  rcases h with ⟨-, idle⟩ | ⟨c, taking, cycle, -⟩
  · exact s.endCycle_idle idle _
  · rw [State.endCycle, taking]
    have same : s.cycleAt s.now = (c.cycle, c.clocked) := cycle.symm
    exact if_neg (by simp [same])

theorem foldl_updSite_get (l : List Cluster) (hn : l.Nodup) (f : SiteRec → SiteRec) (k : Cluster) :
    (l.foldl (fun s k => s.updSite k f) s).sites[k] = if k ∈ l then f s.sites[k] else s.sites[k] := by
  induction l generalizing s with
  | nil => rfl
  | cons c l ih =>
    obtain ⟨hc, hn⟩ := List.nodup_cons.1 hn
    rw [List.foldl_cons, ih hn, State.updSite_get]
    by_cases e : k = c
    · subst e
      simp [hc]
    · simp [e]

theorem State.sitesOf_nodup (s : State) (m : BitVec 12) : (s.sitesOf m).Nodup := ((List.nodup_finRange 12).filter _).filter _

/-- The sites an event taints (R351). -/
theorem State.taintFor_get (x : CycleEvent) (k : Cluster) : (s.taintFor x).sites[k] =
    if 1 ≤ x.rc.code ∧ k ∈ s.sitesOf (x.rc.mask x.event.mask) then { s.sites[k] with taint := true } else s.sites[k] := by
  unfold State.taintFor
  by_cases h : 1 ≤ x.rc.code
  · rw [if_pos h]
    refine (foldl_updSite_get _ (s.sitesOf_nodup _) _ k).trans ?_
    simp only [h, true_and]
  · rw [if_neg h, if_neg (by simp [h])]

/-- A report with nothing of an earlier cycle in hand joins the cycle of now. -/
theorem State.report_joins {l : List (Nat × BitVec 12)} (h : s.CycleShows l) (source : Nat) (mask : BitVec 12) (detail : Word) :
    let t := s.report source mask detail
    t.CycleShows ((source, mask) :: l) ∧ t = { s with sites := t.sites, flt := t.flt } ∧ t.flt.react = s.flt.react ∧
      ∀ k : Cluster, t.sites[k] = (s.taintFor (s.reported source mask detail)).sites[k] := by
  intro t
  let x := s.reported source mask detail
  let c := s.openCycle
  let v : State := { s with flt := s.flt.tally x }
  obtain ⟨w, hw⟩ : ∃ w, v.serve { c with events := insertFault x c.events } = w := ⟨_, rfl⟩
  have whole : t = w.taintFor x := by
    change s.collect [(⟨source, mask, detail⟩, false)] = _
    rw [State.collect, h.endCycle, ← hw]
    rfl
  have cycle : (c.cycle, c.clocked) = s.collectorCycle ∧ (c.events.map CycleEvent.key).Perm l := by
    rcases h with ⟨rfl, idle⟩ | ⟨c', taking, cycle, perm, -⟩
    · have fresh : c = ⟨s.collectorCycle.1, s.collectorCycle.2, s.flt.first, s.flt.history, s.flt.count, s.flt.plogPend, []⟩ := by
        change s.openCycle = _
        rw [State.openCycle, idle]
        rfl
      rw [fresh]
      exact ⟨rfl, List.Perm.refl _⟩
    · have held : c = c' := by
        change s.openCycle = _
        rw [State.openCycle, taking]
        rfl
      rw [held]
      exact ⟨cycle, perm⟩
  obtain ⟨frame, react, ⟨out, taking, events⟩, shows⟩ := State.serve_shows (s := v) { c with events := insertFault x c.events }
  rw [hw] at frame react taking shows
  obtain ⟨⟨tainted, -⟩, flt⟩ := w.taintFor_frame x
  have perm := (insertFault_perm x c.events).map CycleEvent.key
  have keys : (out.map CycleEvent.key).Perm ((source, mask) :: l) := by
    have same : out.map CycleEvent.key = (insertFault x c.events).map CycleEvent.key := by
      have := congrArg (List.map fun e : FaultEvent => (e.source, e.mask)) events
      simp only [List.map_map] at this
      exact this
    rw [same]
    exact perm.trans (cycle.2.cons (source, mask))
  have member (y : Nat × BitVec 12) (hy : y ∈ (source, mask) :: l) : ∃ e ∈ insertFault x c.events, e.key = y := by
    have := (perm.trans (cycle.2.cons (source, mask))).mem_iff.2 hy
    exact List.mem_map.1 this
  have count : (insertFault x c.events).length = ((source, mask) :: l).length := by
    rw [← (perm.trans (cycle.2.cons (source, mask))).length_eq, List.length_map]
  have sites (k : Cluster) : (w.taintFor x).sites[k] = (s.taintFor x).sites[k] := by
    rw [State.taintFor_get, State.taintFor_get, frame]
    rfl
  have whole_ : t = { s with sites := t.sites, flt := t.flt } := by
    rw [whole, flt]
    refine tainted.trans ?_
    rw [flt]
    generalize w.flt = y at frame ⊢
    generalize (w.taintFor x).sites = z
    subst frame
    rfl
  have clock : t.collectorCycle = s.collectorCycle := by
    rw [whole_]
    rfl
  refine ⟨.inr ⟨{ c with events := out }, ?_, cycle.1.trans clock.symm, keys, fun few y hy => ?_⟩, whole_, ?_, ?_⟩
  · rw [whole, flt]
    exact taking
  · obtain ⟨e, he, key⟩ := member y hy
    rw [whole, flt, ← key]
    exact shows (by rw [count]; exact few) e he
  · rw [whole, flt]
    exact react
  · rw [whole]
    exact sites

end Sys2Proof.Machine

namespace Sys2Proof.Machine
variable {s : State}

/-! ## Delivered frames reach the sites of their tag (R61, R62, R68, R285) -/

/-- The frame in front of the inbox is the one a block takes. -/
theorem State.onMsg_front {n : Port} {c : Byte} {fr : Frame} {m : InMsg} {rest : List InMsg} (inbox : s.rope.inbox = m :: rest)
    (front : m.port = n ∧ m.ctype = c ∧ m.src = fr.src ∧ m.body = fr.body) (f : InMsg → State → State) :
    s.onMsg n c fr f = f m { s with rope := { s.rope with inbox := rest } } := by
  obtain ⟨port, ctype, src, body⟩ := front
  have takes : s.takeMsg n c fr = some (m, { s with rope := { s.rope with inbox := rest } }) := by
    simp [State.takeMsg, inbox, port, ctype, src, body]
  rw [State.onMsg, takes]

theorem State.siteOfFrame_nodup (s : State) (m : InMsg) : (s.siteOfFrame m).Nodup := ((List.nodup_finRange 12).filter _).filter _

theorem State.mem_siteOfFrame (m : InMsg) (k : Cluster) : k ∈ s.siteOfFrame m ↔
    (decide (k ∈ s.siteIdxs) && (s.gangs[k]).any fun g => g.tag = u32At m.body 0 && g.members.contains m.src) = true := by
  simp only [State.siteOfFrame, List.mem_filter, Bool.and_eq_true, decide_eq_true_eq]

/-- A pass over sites that changes one sequencer at a time. -/
theorem foldl_sequencers (F : State → Cluster → State) (g : Cluster → Seqr → Seqr)
    (one : ∀ q k, F { s with seqs := q } k = { s with seqs := upd q k (g k) }) (l : List Cluster) :
    l.foldl F s = { s with seqs := l.foldl (fun q k => upd q k (g k)) s.seqs } := by
  have pass (q : Vector Seqr 12) : l.foldl F { s with seqs := q } = { s with seqs := l.foldl (fun q k => upd q k (g k)) q } := by
    induction l generalizing q with
    | nil => rfl
    | cons k l ih =>
      rw [List.foldl_cons, one, ih]
      rfl
  exact pass s.seqs

/-- A site's sequencer takes the abort of another member (R62). -/
def Seqr.abortedBy (q : Seqr) (rests : Bool) : Seqr := if rests then q else { q with siteAbort := true }

theorem abort_upd (q : Vector Seqr 12) (k : Cluster) : (if (({ s with seqs := q } : State).siteState k).rests then { s with seqs := q } else
      ({ s with seqs := q } : State).updSeq k fun q => { q with siteAbort := true })
    = { s with seqs := upd q k fun x => x.abortedBy (s.siteState k).rests } := by
  change (if (s.siteState k).rests then { s with seqs := q } else _) = _
  cases h : (s.siteState k).rests with
  | false => rfl
  | true =>
    rw [if_pos rfl, upd_self]
    rfl

end Sys2Proof.Machine

namespace Sys2Proof.Claims
open Sys2Proof.Machine
variable {s : State} {n : Port} {fr : Frame} {m : InMsg} {rest : List InMsg}

/-- The site is one the frame is for (R285). -/
abbrev forSite (s : State) (m : InMsg) (k : Cluster) : Bool :=
  decide (k ∈ s.siteIdxs) && (s.gangs[k]).any fun g => g.tag = u32At m.body 0 && g.members.contains m.src

/-- The state a block that takes the frame in front of the inbox acts on. -/
def taken (s : State) (rest : List InMsg) : State := { s with rope := { s.rope with inbox := rest } }

/-- A frame changes the sequencers of the sites of its tag, one by one, and nothing else. -/
theorem message_sequencers {c : Byte} {i : Instr} {F : InMsg → State → Cluster → State} (g : Cluster → Seqr → Seqr)
    (run : exec i s = .next (s.onMsg n c fr fun m s => (s.siteOfFrame m).foldl (F m) s)) (inbox : s.rope.inbox = m :: rest)
    (front : m.port = n ∧ m.ctype = c ∧ m.src = fr.src ∧ m.body = fr.body)
    (one : ∀ q k, F m { taken s rest with seqs := q } k = { taken s rest with seqs := upd q k (g k) }) :
    Completes i s fun t => t = { s with rope := { s.rope with inbox := rest }, seqs := t.seqs } ∧
      ∀ k : Cluster, t.seqs[k] = if forSite s m k then g k s.seqs[k] else s.seqs[k] := by
  rw [State.onMsg_front inbox front] at run
  have pass := foldl_sequencers (s := taken s rest) (F m) g one ((taken s rest).siteOfFrame m)
  refine ⟨_, run.trans (congrArg _ pass), rfl, fun k => ?_⟩
  refine (foldl_upd_get _ g _ ((taken s rest).siteOfFrame_nodup m) k).trans ?_
  exact if_congr (State.mem_siteOfFrame m k) rfl rfl

theorem siteCond_message (inbox : s.rope.inbox = m :: rest) (front : m.port = n ∧ m.ctype = 0x20 ∧ m.src = fr.src ∧ m.body = fr.body) :
    Completes (.siteCond n fr) s fun t => t = { s with rope := { s.rope with inbox := rest }, seqs := t.seqs } ∧
      ∀ k : Cluster, t.seqs[k] = if forSite s m k then
        { s.seqs[k] with receipts := (s.seqs[k]).receipts ++ [⟨m.src, false, u32At m.body 4, (byteAt m.body 10).getLsbD 0⟩] } else s.seqs[k] := by
  rw [← bitOf_byteAt]
  exact message_sequencers (fun _ q => { q with receipts := q.receipts ++ [⟨m.src, false, u32At m.body 4, bitOf (fieldAt m.body 10 1) 0⟩] }) rfl inbox front
    fun _ _ => rfl

theorem siteVote_message (inbox : s.rope.inbox = m :: rest) (front : m.port = n ∧ m.ctype = 0x21 ∧ m.src = fr.src ∧ m.body = fr.body) :
    Completes (.siteVote n fr) s fun t => t = { s with rope := { s.rope with inbox := rest }, seqs := t.seqs } ∧
      ∀ k : Cluster, t.seqs[k] = if forSite s m k && decide ((s.seqs[k]).votedDesc = some (u16At m.body 4)) then
        { s.seqs[k] with receipts := (s.seqs[k]).receipts ++ [⟨m.src, true, u32At m.body 8, (byteAt m.body 6).getLsbD 0⟩] } else s.seqs[k] := by
  rw [← bitOf_byteAt]
  obtain ⟨t, run, frame, seqs⟩ := message_sequencers (s := s) (i := .siteVote n fr) (fun _ q => if q.votedDesc = some (u16At m.body 4) then
    { q with receipts := q.receipts ++ [⟨m.src, true, u32At m.body 8, bitOf (fieldAt m.body 6 1) 0⟩] } else q) rfl inbox front fun _ _ => rfl
  refine ⟨t, run, frame, fun k => (seqs k).trans ?_⟩
  cases forSite s m k with
  | false => rfl
  | true =>
    rw [if_pos rfl, Bool.true_and]
    exact if_congr (decide_eq_true_iff).symm rfl rfl

/-- The site takes the abort: it is one the frame is for, and it does not rest (R62). -/
abbrev abortHits (s : State) (m : InMsg) (k : Cluster) : Bool :=
  forSite s m k && decide (s.siteState k ≠ .idle) && decide (s.siteState k ≠ .halted)

theorem rests_iff (x : SiteState) : x.rests = !(decide (x ≠ .idle) && decide (x ≠ .halted)) := by
  cases x <;> rfl

theorem siteAbort_host (inbox : s.rope.inbox = m :: rest) (front : m.port = n ∧ m.ctype = 0x22 ∧ m.src = fr.src ∧ m.body = fr.body)
    (host : fieldAt m.body 4 1 = 2) :
    Completes (.siteAbort n fr) s fun t => t = { s with rope := { s.rope with inbox := rest }, seqs := t.seqs } ∧
      ∀ k : Cluster, t.seqs[k] = if abortHits s m k then { s.seqs[k] with siteAbort := true } else s.seqs[k] := by
  obtain ⟨t, run, frame, seqs⟩ := message_sequencers (s := s) (i := .siteAbort n fr) (fun k q => q.abortedBy (s.siteState k).rests) rfl inbox front
    fun q k => by
      rw [if_pos host]
      exact abort_upd (s := taken s rest) q k
  refine ⟨t, run, frame, fun k => (seqs k).trans ?_⟩
  rw [abortHits, Seqr.abortedBy, rests_iff, Bool.and_assoc]
  cases forSite s m k <;> cases decide (s.siteState k ≠ .idle) && decide (s.siteState k ≠ .halted) <;> rfl

end Sys2Proof.Claims

namespace Sys2Proof.Machine
variable {s : State}

theorem State.maskOf_get (k c : Cluster) : (s.maskOf k).getLsbD c.val = decide (c ∈ s.members k) := by
  have bits := foldl_setBit (fun _ : Cluster => true) (s.members k) (0 : BitVec 12) c
  simp only [if_true] at bits
  rw [State.maskOf, bits]
  simp

/-- The clusters of a site lie in no other. -/
theorem State.mem_sitesOf_maskOf {k : Cluster} (site : k ∈ s.siteIdxs) (j : Cluster) : j ∈ s.sitesOf (s.maskOf k) ↔ j = k := by
  have root := (s.mem_siteIdxs k).1 site
  simp only [State.sitesOf, List.mem_filter, List.any_eq_true, State.maskOf_get, decide_eq_true_eq, State.mem_members]
  constructor
  · rintro ⟨-, c, hj, hk⟩
    exact hj.symm.trans hk
  · rintro rfl
    exact ⟨site, j, root, root⟩

/-- One site takes the abort of another member, and its result is tainted by a report (R62, R12). -/
def State.abortReported (s : State) (k : Cluster) : State :=
  if (s.siteState k).rests then s
  else
    let s := s.updSeq k fun q => { q with siteAbort := true }
    s.report 20 (s.maskOf k) (BitVec.ofNat 32 (s.seqs[k]).current)

/-- What the sites `l` leave that have taken an abort, of which `hits` were playing. -/
structure AbortsTaken (u t : State) (l : List Cluster) : Prop where
  frame : t = { u with seqs := t.seqs, sites := t.sites, flt := t.flt }
  react : t.flt.react = []
  seqs : ∀ k : Cluster, t.seqs[k] = if k ∈ l ∧ (u.siteState k).rests = false then { u.seqs[k] with siteAbort := true } else u.seqs[k]
  sites : ∀ k : Cluster, t.sites[k] = if k ∈ l ∧ (u.siteState k).rests = false then { u.sites[k] with taint := true } else u.sites[k]
  shows : t.CycleShows ((l.filter fun k => !(u.siteState k).rests).map fun k => (20, u.maskOf k))

theorem State.CycleShows.perm {l l' : List (Nat × BitVec 12)} (h : s.CycleShows l) (p : l.Perm l') : s.CycleShows l' := by
  rcases h with ⟨rfl, idle⟩ | ⟨c, taking, cycle, perm, shows⟩
  · exact .inl ⟨List.Perm.nil_eq p |>.symm, idle⟩
  · exact .inr ⟨c, taking, cycle, perm.trans p, fun few x hx => shows (by rw [p.length_eq]; exact few) x (p.mem_iff.2 hx)⟩

theorem AbortsTaken.step {u t : State} {l : List Cluster} {k : Cluster} (h : AbortsTaken u t l) (fresh : k ∉ l) (site : k ∈ u.siteIdxs) :
    AbortsTaken u (t.abortReported k) (l ++ [k]) := by
  obtain ⟨frame, react, seqs, sites, shows⟩ := h
  have state : t.siteState k = u.siteState k := by
    rw [State.siteState, sites, if_neg fun x => fresh x.1]
    rfl
  by_cases rests : (u.siteState k).rests = true
  · have still : t.abortReported k = t := by rw [State.abortReported, state, if_pos rests]
    have same (j : Cluster) : (j ∈ l ++ [k] ∧ (u.siteState j).rests = false) ↔ (j ∈ l ∧ (u.siteState j).rests = false) := by
      by_cases e : j = k
      · subst e
        simp [rests]
      · simp [e]
    rw [still]
    refine ⟨frame, react, fun j => (seqs j).trans (if_congr (same j).symm rfl rfl), fun j => (sites j).trans (if_congr (same j).symm rfl rfl), ?_⟩
    rw [List.filter_append]
    simpa [rests] using shows
  · have plays : (u.siteState k).rests = false := by simpa using rests
    let v := t.updSeq k fun q => { q with siteAbort := true }
    have runs : t.abortReported k = v.report 20 (v.maskOf k) (BitVec.ofNat 32 (v.seqs[k]).current) := by
      rw [State.abortReported, state, if_neg rests]
    have siteOf : t.siteOf = u.siteOf := by rw [frame]
    have mask : v.maskOf k = u.maskOf k := by
      have : v.siteOf = u.siteOf := siteOf
      simp only [State.maskOf, State.members, this]
    have showsV : v.CycleShows ((l.filter fun k => !(u.siteState k).rests).map fun k => (20, u.maskOf k)) := shows
    obtain ⟨joins, whole, kept, tainted⟩ := State.report_joins showsV 20 (v.maskOf k) (BitVec.ofNat 32 (v.seqs[k]).current)
    have taints : v.reported 20 (v.maskOf k) (BitVec.ofNat 32 (v.seqs[k]).current) = ⟨⟨20, u.maskOf k, BitVec.ofNat 32 (v.seqs[k]).current⟩, false, .taint, v.net, false⟩ := by
      have reaction : v.flt.reaction 20 = .taint := by
        change t.flt.reaction 20 = _
        rw [Faults.reaction, react]
        rfl
      rw [State.reported, reaction, mask]
    rw [← runs] at joins whole kept tainted
    have vSeqs (j : Cluster) : v.seqs[j] = if j = k then { t.seqs[j] with siteAbort := true } else t.seqs[j] := t.updSeq_get k _ j
    have reach (j : Cluster) : j ∈ v.sitesOf (u.maskOf k) ↔ j = k := by
      rw [← mask]
      refine State.mem_sitesOf_maskOf ((v.mem_siteIdxs k).2 ?_) j
      change t.siteOf[k] = k
      rw [siteOf]
      exact (u.mem_siteIdxs k).1 site
    have seqsOf : (t.abortReported k).seqs = v.seqs := by rw [whole]
    refine ⟨?_, kept.trans react, fun j => ?_, fun j => ?_, ?_⟩
    · have vFrame : v = { u with seqs := v.seqs, sites := v.sites, flt := v.flt } :=
        congrArg (fun w : State => w.updSeq k fun q => { q with siteAbort := true }) frame
      refine whole.trans ((congrArg (fun w : State => ({ w with sites := (t.abortReported k).sites, flt := (t.abortReported k).flt } : State)) vFrame).trans ?_)
      rw [seqsOf]
    · rw [seqsOf, vSeqs, seqs]
      by_cases e : j = k
      · subst e
        simp [fresh, plays]
      · simp [e]
    · rw [tainted, taints, State.taintFor_get]
      have code : 1 ≤ Reaction.taint.code := by decide
      refine (if_congr ((and_iff_right code).trans (reach j)) rfl rfl).trans ?_
      have own : v.sites[j] = t.sites[j] := rfl
      rw [own, sites]
      by_cases e : j = k
      · subst e
        simp [fresh, plays]
      · simp [e]
    · have last : (([k].filter fun k => !(u.siteState k).rests).map fun k => ((20, u.maskOf k) : Nat × BitVec 12)) = [(20, u.maskOf k)] := by simp [plays]
      rw [List.filter_append, List.map_append, last]
      rw [mask] at joins
      exact joins.perm (List.perm_append_singleton _ _).symm

theorem abortsTaken (u : State) (l : List Cluster) (distinct : l.Nodup) (site : ∀ k ∈ l, k ∈ u.siteIdxs) (react : u.flt.react = [])
    (idle : u.flt.taking = none) : AbortsTaken u (l.foldl State.abortReported u) l := by
  induction l using List.reverseRecOn with
  | nil => exact ⟨rfl, react, fun k => by simp, fun k => by simp, .inl ⟨rfl, idle⟩⟩
  | append_singleton l k ih =>
    have fresh : k ∉ l := fun h => (List.nodup_append.1 distinct).2.2 k h k (List.mem_singleton_self k) rfl
    rw [List.foldl_append]
    exact (ih (List.nodup_append.1 distinct).1 fun j hj => site j (List.mem_append_left _ hj)).step fresh
      (site k (List.mem_append_right _ (List.mem_singleton_self k)))

end Sys2Proof.Machine

namespace Sys2Proof.Claims
open Sys2Proof.Machine
variable {s : State} {n : Port} {fr : Frame} {m : InMsg} {rest : List InMsg}

/-- A member's abort halts the sites of its tag that play, and taints their results (R62, R12). -/
theorem siteAbort_member (inbox : s.rope.inbox = m :: rest) (front : m.port = n ∧ m.ctype = 0x22 ∧ m.src = fr.src ∧ m.body = fr.body)
    (member : fieldAt m.body 4 1 ≠ 2) (react : s.flt.react = []) (calm : Calm s) :
    Completes (.siteAbort n fr) s fun t => t.rope = { s.rope with inbox := rest } ∧ t.gens = s.gens ∧
      ∀ k : Cluster, (t.seqs[k] = if abortHits s m k then { s.seqs[k] with siteAbort := true } else s.seqs[k]) ∧
        (t.sites[k] = if abortHits s m k then { s.sites[k] with taint := true } else s.sites[k]) ∧
        (abortHits s m k = true → ∃ h ∈ t.flt.history, h.source = 20 ∧ h.mask = s.maskOf k) := by
  have run : exec (.siteAbort n fr) s = .next (((taken s rest).siteOfFrame m).foldl State.abortReported (taken s rest)) := by
    change execSiteAbort n fr s = _
    rw [execSiteAbort, State.onMsg_front inbox front]
    simp only [if_neg member]
    rfl
  have distinct := (taken s rest).siteOfFrame_nodup m
  have few : ((taken s rest).siteOfFrame m).length ≤ 12 := by
    have := distinct.length_le_card
    simpa using this
  have done := abortsTaken (taken s rest) ((taken s rest).siteOfFrame m) distinct (fun k hk => (List.mem_filter.1 hk).1) react calm.2
  generalize ((taken s rest).siteOfFrame m).foldl State.abortReported (taken s rest) = t at run done
  obtain ⟨frame, -, seqs, sites, shows⟩ := done
  have hit (k : Cluster) : (k ∈ (taken s rest).siteOfFrame m ∧ ((taken s rest).siteState k).rests = false) ↔ abortHits s m k = true := by
    rw [State.mem_siteOfFrame, rests_iff, Bool.not_eq_false', abortHits, Bool.and_assoc, Bool.and_eq_true (forSite s m k)]
    exact Iff.rfl
  have rope : t.rope = { s.rope with inbox := rest } := by
    rw [frame]
    rfl
  have gens : t.gens = s.gens := by
    rw [frame]
    rfl
  refine ⟨t, run, rope, gens, fun k => ⟨(seqs k).trans (if_congr (hit k) rfl rfl), (sites k).trans (if_congr (hit k) rfl rfl), fun h => ?_⟩⟩
  obtain ⟨tagged, plays⟩ := (hit k).2 h
  have listed : ((20, (taken s rest).maskOf k) : Nat × BitVec 12) ∈
      (((taken s rest).siteOfFrame m).filter fun k => !((taken s rest).siteState k).rests).map fun k => (20, (taken s rest).maskOf k) :=
    List.mem_map.2 ⟨k, List.mem_filter.2 ⟨tagged, by rw [plays]; rfl⟩, rfl⟩
  rcases shows with ⟨none_, -⟩ | ⟨c, -, -, -, shown⟩
  · rw [none_] at listed
    cases listed
  · obtain ⟨e, he, key⟩ := List.mem_map.1 (shown (by
      rw [List.length_map]
      exact (List.length_filter_le _ _).trans (by omega)) _ listed)
    exact ⟨e, he, congrArg Prod.fst key, congrArg Prod.snd key⟩

end Sys2Proof.Claims

namespace Sys2Proof.Machine
variable {s : State}

/-! ## Global event latches (R57, R58, R286) -/

/-- A pass that changes engines one by one. -/
theorem foldl_engines (F : State → Cluster → State) (g : ClusterEng → ClusterEng)
    (one : ∀ v c, F { s with cl := v } c = { s with cl := upd v c g }) (l : List Cluster) :
    l.foldl F s = { s with cl := l.foldl (fun v c => upd v c g) s.cl } := by
  have pass (v : Vector ClusterEng 12) : l.foldl F { s with cl := v } = { s with cl := l.foldl (fun v c => upd v c g) v } := by
    induction l generalizing v with
    | nil => rfl
    | cons c l ih =>
      rw [List.foldl_cons, one, ih]
      rfl
  exact pass s.cl

/-- Only late latches of sites that play are counted (R58). -/
def Counted (s t : State) : Prop := t = { s with seqs := t.seqs } ∧ ∀ k : Cluster, (s.seqs[k]).play = none → t.seqs[k] = s.seqs[k]

theorem Counted.refl : Counted s s := ⟨rfl, fun _ _ => rfl⟩

theorem Counted.trans {t u : State} (h : Counted s t) (h' : Counted t u) : Counted s u := by
  obtain ⟨frame, seqs⟩ := h
  obtain ⟨frame', seqs'⟩ := h'
  refine ⟨?_, fun k idle => ?_⟩
  · rw [frame', frame]
  · rw [seqs' k (by rw [seqs k idle]; exact idle), seqs k idle]

theorem State.noteLate_counted (k : Cluster) (i c : Nat) : Counted s (s.noteLate k i c) := by
  refine ⟨s.noteLate_eq k i c, fun j idle => ?_⟩
  by_cases e : j = k
  · subst e
    have still : s.noteLate j i c = s := by
      rw [State.noteLate, idle]
    rw [still]
  · obtain h | h := s.noteLate_cases k i c
    · rw [h]
    · rw [h, State.updSeq_get, if_neg e]

/-- An engine whose global event latches are set (R57). -/
def ClusterEng.latchGlobal (mask : Byte) (now : Nat) (e : ClusterEng) : ClusterEng := { e with io := e.io.latchGevt mask now }

/-- The engines of every cluster latch a global event, before late latches count (R57). -/
def State.latchEngines (s : State) (mask : Byte) : State := (List.finRange 12).foldl (fun s c => s.updCl c (ClusterEng.latchGlobal mask s.now)) s

theorem State.latchEngines_eq (mask : Byte) : s.latchEngines mask =
    { s with cl := (List.finRange 12).foldl (fun v c => upd v c (ClusterEng.latchGlobal mask s.now)) s.cl } :=
  foldl_engines _ _ (fun _ _ => rfl) _

theorem State.latchEngines_get (mask : Byte) (c : Cluster) : (s.latchEngines mask).cl[c] = ClusterEng.latchGlobal mask s.now s.cl[c] := by
  rw [State.latchEngines_eq]
  have got := foldl_upd_get (List.finRange 12) (fun _ => ClusterEng.latchGlobal mask s.now) s.cl (List.nodup_finRange 12) c
  rw [if_pos (List.mem_finRange c)] at got
  exact got

theorem State.latchGlobal_counted (mask : Byte) : Counted (s.latchEngines mask) (s.latchGlobal mask) := by
  change Counted _ ((s.latchEngines mask).siteIdxs.foldl (fun s k => (maskBits mask).foldl (fun s i => s.noteLate k (2 + i) 12) s) (s.latchEngines mask))
  generalize s.latchEngines mask = u
  refine List.foldlRecOn (motive := fun t => Counted u t) _ _ Counted.refl fun t h k _ => h.trans ?_
  exact List.foldlRecOn (motive := fun w => Counted t w) _ _ Counted.refl fun w h i _ => h.trans (w.noteLate_counted k (2 + i) 12)

theorem State.latchGlobal_shows (mask : Byte) : let t := s.latchGlobal mask
    t = { s with cl := t.cl, seqs := t.seqs } ∧ (∀ c : Cluster, t.cl[c] = ClusterEng.latchGlobal mask s.now s.cl[c]) ∧
    ∀ k : Cluster, (s.seqs[k]).play = none → t.seqs[k] = s.seqs[k] := by
  obtain ⟨frame, seqs⟩ := s.latchGlobal_counted mask
  have engines := s.latchEngines_get mask
  have alone := s.latchEngines_eq mask
  generalize s.latchEngines mask = u at frame seqs engines alone
  generalize s.latchGlobal mask = t at frame seqs
  have cl : t.cl = u.cl := by rw [frame]
  have before : u.seqs = s.seqs := by rw [alone]
  rw [before] at seqs
  refine ⟨?_, fun c => ?_, seqs⟩
  · have same : u.cl = (List.finRange 12).foldl (fun v c => upd v c (ClusterEng.latchGlobal mask s.now)) s.cl := by rw [alone]
    rw [cl, same]
    exact frame.trans (congrArg (fun w : State => ({ w with seqs := t.seqs } : State)) alone)
  · rw [cl]
    exact engines c

/-! ## Ports that leave IDLE for a frame (R292, R293) -/

/-- A port after it was brought up for a frame, where a port in IDLE for `span` trains again. -/
def RopePort.brought (span : Nat) (hot : Int) (now : Nat) (p : RopePort) : RopePort :=
  if p.state ≠ .idle then p
  else
    let d := hot - p.trainTemp.toInt
    let q := { p with lastRx := p.lastRx + (now - p.idleAt) }
    if p.idleAt + span ≤ now || 15 < d || d < -15 then
      { q with state := .train, training := some { began := now, lastReq := now }, retryAt := none, partner := none, level := 0,
               remoteLoop := false, pre := 0, main := 15, post := 0, marginal := false, aligned := false }
    else { q with state := .up, training := none, retryAt := none, lastBusy := now }

theorem State.leaveIdle_brought (n : Port) : ∃ topo, s.leaveIdle n =
    { s with rope := { s.rope with topo := topo, ports := upd s.rope.ports n (RopePort.brought (100 * msUnits) s.hotDegrees s.now) } } := by
  unfold State.leaveIdle RopePort.brought
  generalize 100 * msUnits = span
  by_cases idle : (s.rope.ports[n]).state = .idle
  · refine ⟨s.rope.topo.map fun e => if e.port = n then { e with seen := e.seen + (s.now - (s.rope.ports[n]).idleAt) } else e, ?_⟩
    rw [if_neg (not_not_intro idle)]
    dsimp only [State.holdAges]
    rw [upd_upd]
    congr 2
    refine upd_congr _ _ _ _ ?_
    beta_reduce
    rw [if_neg (c := (s.rope.ports[n]).state ≠ .idle) (not_not_intro idle)]
  · refine ⟨s.rope.topo, ?_⟩
    rw [if_pos idle, upd_self _ _ _ (by exact if_pos idle)]

theorem foldl_leaveIdle (l : List Port) : ∃ topo, l.foldl State.leaveIdle s =
    { s with rope := { s.rope with topo := topo, ports := l.foldl (fun v n => upd v n (RopePort.brought (100 * msUnits) s.hotDegrees s.now)) s.rope.ports } } := by
  induction l generalizing s with
  | nil => exact ⟨s.rope.topo, rfl⟩
  | cons n l ih =>
    obtain ⟨topo, one⟩ := s.leaveIdle_brought n
    obtain ⟨topo', rest⟩ := ih (s := s.leaveIdle n)
    refine ⟨topo', ?_⟩
    rw [List.foldl_cons, rest, one]
    rfl

/-- Whether a port in IDLE comes up at once (R292). -/
def RopePort.quick (span : Nat) (hot : Int) (now : Nat) (p : RopePort) : Bool :=
  decide (p.state = .idle) && decide (now < p.idleAt + span) && decide ((hot - p.trainTemp.toInt).natAbs ≤ 15)

theorem RopePort.brought_up (span : Nat) (hot : Int) (now : Nat) (p : RopePort) :
    (decide ((p.brought span hot now).state = .up) = (decide (p.state = .up) || p.quick span hot now)) ∧
    ((p.brought span hot now).state = .up → (p.brought span hot now).level = p.level) := by
  unfold RopePort.brought RopePort.quick
  by_cases idle : p.state = .idle
  · rw [if_neg (not_not_intro idle)]
    dsimp only
    split
    next slow =>
      refine ⟨?_, fun up => by cases up⟩
      simp only [Bool.or_eq_true, decide_eq_true_eq] at slow
      simp only [idle, decide_true, Bool.true_and, reduceCtorEq, decide_false, Bool.false_or]
      symm
      simp only [Bool.and_eq_false_iff, decide_eq_false_iff_not]
      omega
    next fast =>
      refine ⟨?_, fun _ => rfl⟩
      simp only [Bool.or_eq_true, decide_eq_true_eq, not_or] at fast
      simp only [idle, decide_true, Bool.true_and, reduceCtorEq, decide_false, Bool.false_or]
      symm
      simp only [Bool.and_eq_true, decide_eq_true_eq]
      omega
  · rw [if_pos idle]
    simp [idle]

/-- A frame the device issues leaves by each port that is open to it and up, or comes up at once (R289, R293). -/
theorem State.issue_sent (c : Byte) (body : Nat → List Byte) : ∃ r, s.issue c body = { s with rope := r } ∧ r.inbox = s.rope.inbox ∧
    r.sent = s.rope.sent ++ ((List.finRange 4).filter fun j => s.openTo c j && (decide ((s.rope.ports[j]).state = .up) ||
      (s.rope.ports[j]).quick (100 * msUnits) s.hotDegrees s.now)).map fun j =>
        ⟨j, c, 0, BitVec.ofInt 16 (s.net / tickUnits + 128), Config.serial, body (s.rope.ports[j]).level⟩ := by
  obtain ⟨topo, left⟩ := foldl_leaveIdle (s := s) ((List.finRange 4).filter (s.openTo c))
  have distinct : ((List.finRange 4).filter (s.openTo c)).Nodup := (List.nodup_finRange 4).filter _
  have port (j : Port) (open_ : s.openTo c j = true) : (((List.finRange 4).filter (s.openTo c)).foldl State.leaveIdle s).rope.ports[j]
      = (s.rope.ports[j]).brought (100 * msUnits) s.hotDegrees s.now :=
    (congrArg (fun w : State => w.rope.ports[j]) left).trans
      ((foldl_upd_get _ (fun _ => RopePort.brought (100 * msUnits) s.hotDegrees s.now) _ distinct j).trans (if_pos (List.mem_filter.2 ⟨List.mem_finRange j, open_⟩)))
  have up (j : Port) := RopePort.brought_up (100 * msUnits) s.hotDegrees s.now s.rope.ports[j]
  have sends : (((List.finRange 4).filter (s.openTo c)).filter fun j : Port =>
        ((((List.finRange 4).filter (s.openTo c)).foldl State.leaveIdle s).rope.ports[j]).state = .up)
      = (List.finRange 4).filter fun j : Port => s.openTo c j && (decide ((s.rope.ports[j]).state = .up) || (s.rope.ports[j]).quick (100 * msUnits) s.hotDegrees s.now) := by
    rw [List.filter_filter]
    refine List.filter_congr fun j _ => ?_
    cases open_ : s.openTo c j with
    | false => simp
    | true => rw [port j open_, (up j).1, Bool.and_true, Bool.true_and]
  unfold State.issue State.emit
  dsimp only
  rw [sends]
  generalize ((List.finRange 4).filter (s.openTo c)).foldl State.leaveIdle s = u at left port
  have frame : u = { s with rope := u.rope } := by rw [left]
  have shape (sent : List Sent) (ports : Vector RopePort 4) : ({ u with rope := { u.rope with sent := sent, ports := ports } } : State) =
      { s with rope := { u.rope with sent := sent, ports := ports } } :=
    Eq.trans (congrArg (fun w : State => ({ w with rope := { u.rope with sent := sent, ports := ports } } : State)) frame) rfl
  have inbox : u.rope.inbox = s.rope.inbox := by rw [left]
  have sent : u.rope.sent = s.rope.sent := by rw [left]
  refine ⟨_, shape _ _, inbox, congrArg₂ (· ++ ·) sent (List.map_congr_left fun j hj => ?_)⟩
  have ready := (List.mem_filter.1 hj).2
  rw [Bool.and_eq_true, ← (up j).1, decide_eq_true_eq] at ready
  rw [port j ready.1, (up j).2 ready.2]

end Sys2Proof.Machine

namespace Sys2Proof.Claims
open Sys2Proof.Machine
variable {s : State}

/-- An engine after a global event: only its latches and their instants differ (R57). -/
theorem latched_engine (mask : Byte) (now : Nat) (e : ClusterEng) : let x := ClusterEng.latchGlobal mask now e
    x.io.gevt = e.io.gevt ||| mask ∧ x = { e with io := { e.io with gevt := x.io.gevt, gevtFrom := x.io.gevtFrom, gevtLast := x.io.gevtLast } } :=
  ⟨rfl, rfl⟩

/-- A global event from a port is latched by every cluster (R57). -/
theorem gevt_message {n : Port} {fr : Frame} {m : InMsg} {rest : List InMsg} (inbox : s.rope.inbox = m :: rest)
    (front : m.port = n ∧ m.ctype = 0x31 ∧ m.src = fr.src ∧ m.body = fr.body) :
    Completes (.gevt n fr) s fun t => t = { s with rope := { s.rope with inbox := rest }, cl := t.cl, seqs := t.seqs } ∧
      (∀ c : Cluster, (t.cl[c]).io.gevt = (s.cl[c]).io.gevt ||| byteAt m.body 0 ∧
        t.cl[c] = { s.cl[c] with io := { (s.cl[c]).io with gevt := (t.cl[c]).io.gevt, gevtFrom := (t.cl[c]).io.gevtFrom,
                                                           gevtLast := (t.cl[c]).io.gevtLast } }) ∧
      ∀ k : Cluster, (s.seqs[k]).play = none → t.seqs[k] = s.seqs[k] := by
  have run : exec (.gevt n fr) s = .next ((taken s rest).latchGlobal (byteAt m.body 0)) := by
    change execGevt n fr s = _
    rw [execGevt, State.onMsg_front inbox front]
    rfl
  obtain ⟨frame, engines, seqs⟩ := (taken s rest).latchGlobal_shows (byteAt m.body 0)
  refine ⟨_, run, frame, fun c => ?_, seqs⟩
  rw [engines c]
  exact latched_engine _ _ _

/-- A global event the host writes is latched by every cluster and sent on the ports that are open to it (R57, R289, R303). -/
theorem gevt_written {w : Word} (bar : s.barOpen 0 = true) (some_ : w.setWidth 8 ≠ 0#8) :
    Completes (.globalEventWrite w) s fun t => let m : Byte := w.setWidth 8
      let quick := fun (j : Port) => decide ((s.rope.ports[j]).state = .idle) && decide (s.now < (s.rope.ports[j]).idleAt + 100000000 * nsUnits) &&
        decide ((s.hotDegrees - (s.rope.ports[j]).trainTemp.toInt).natAbs ≤ 15)
      (∀ c : Cluster, (t.cl[c]).io.gevt = (s.cl[c]).io.gevt ||| m ∧
        t.cl[c] = { s.cl[c] with io := { (s.cl[c]).io with gevt := (t.cl[c]).io.gevt, gevtFrom := (t.cl[c]).io.gevtFrom,
                                                           gevtLast := (t.cl[c]).io.gevtLast } }) ∧
      t.rope.sent = s.rope.sent ++ ((List.finRange 4).filter fun j => s.openTo 0x31 j && (decide ((s.rope.ports[j]).state = .up) || quick j)).map (fun j =>
        ⟨j, 0x31, 0, BitVec.ofInt 16 (s.net / 20480 + 128), Config.serial, leBytes 4 m.toNat ++ if (s.rope.ports[j]).level = 3 then leBytes 12 (stampOf s.net).toNat
          else leBytes 4 (s.net / nsUnits % 2 ^ 32).toNat ++ List.replicate 8 0⟩) ∧ t.rope.inbox = s.rope.inbox ∧ t.sites = s.sites ∧ t.gens = s.gens := by
  obtain ⟨frame, engines, -⟩ := s.latchGlobal_shows (w.setWidth 8)
  generalize latched : s.latchGlobal (w.setWidth 8) = u at frame engines
  obtain ⟨r, sends, inbox, sent⟩ := u.issue_sent 0x31 fun l => leBytes 4 (w.setWidth 8 : Byte).toNat ++ sendTime u.net l
  have run : exec (.globalEventWrite w) s = .next (u.issue 0x31 fun l => leBytes 4 (w.setWidth 8 : Byte).toNat ++ sendTime u.net l) := by
    change execGlobalEventWrite w s = _
    unfold execGlobalEventWrite
    dsimp only
    rw [bar, if_neg (by simpa using some_), latched]
  have rope : u.rope = s.rope := by rw [frame]
  have sites : u.sites = s.sites := by rw [frame]
  have gens : u.gens = s.gens := by rw [frame]
  have net : u.net = s.net := by
    rw [frame]
    rfl
  have now : u.now = s.now := by rw [frame]
  have hot : u.hotDegrees = s.hotDegrees := by
    rw [frame]
    rfl
  have opens : u.openTo 0x31 = s.openTo 0x31 := by
    rw [frame]
    rfl
  rw [sends] at run
  rw [rope] at inbox
  rw [rope, net, now, hot, opens] at sent
  refine ⟨_, run, fun c => ?_, ?_, inbox, sites, gens⟩
  · change (u.cl[c]).io.gevt = _ ∧ u.cl[c] = _
    rw [engines c]
    exact latched_engine _ _ _
  · simp only [hundredMs]
    exact sent

end Sys2Proof.Claims

namespace Sys2Proof.Machine

/-! ## What no passing instant changes of the acquisitions (R126, R345) -/

/-- The acquisitions of the clusters. -/
def State.acqs (s : State) : Vector AcqState 12 := s.cl.map fun e => e.cap.acq

theorem State.acqs_get (s : State) (c : Cluster) : s.acqs[c] = (s.cl[c]).cap.acq := Vector.getElem_map ..

/-- A change of engines that leaves their acquisitions alone. -/
theorem upd_acqs (v : Vector ClusterEng 12) (c : Cluster) (f : ClusterEng → ClusterEng) (same : ∀ e, (f e).cap.acq = e.cap.acq) :
    (upd v c f).map (fun e => e.cap.acq) = v.map fun e => e.cap.acq := by
  refine Vector.ext fun i lt => ?_
  rw [Vector.getElem_map, Vector.getElem_map]
  have at_ : (upd v c f)[i] = if (⟨i, lt⟩ : Cluster) = c then f v[i] else v[i] := upd_apply v c ⟨i, lt⟩ f
  rw [at_]
  split
  · exact same _
  · rfl

variable (s : State)

theorem State.updCl_acqs (c : Cluster) (f : ClusterEng → ClusterEng) (same : ∀ e, (f e).cap.acq = e.cap.acq) : (s.updCl c f).acqs = s.acqs :=
  upd_acqs s.cl c f same

@[simp] theorem State.leaveIdle_acqs (n : Port) : (s.leaveIdle n).acqs = s.acqs := by
  dsimp only [State.leaveIdle]
  split <;> rfl

theorem State.abortNow_acqs (k : Cluster) : (s.abortNow k).acqs = s.acqs := by
  unfold State.abortNow
  split
  · rw [State.cancelStart_eq]
    rfl
  · rfl

theorem State.haltSite_acqs (k : Cluster) : (s.haltSite k).acqs = s.acqs := by
  have sends (u : State) : (u.sendAbort k 3).acqs = u.acqs := by
    unfold State.sendAbort
    split
    · exact foldl_keeps State.acqs _ State.leaveIdle_acqs _ _
    · rfl
  unfold State.haltSite
  rw [sends, State.touchPaths_eq]
  exact s.abortNow_acqs k

theorem State.react_acqs (r : Reaction) (m : BitVec 12) : (s.react r m).acqs = s.acqs := by
  have halt (l : List Cluster) (s : State) : (l.foldl State.haltSite s).acqs = s.acqs :=
    foldl_keeps State.acqs _ State.haltSite_acqs _ _
  have park (l : List Cluster) (s : State) : (l.foldl (fun s c => s.updCl c fun e => e.park s.net) s).acqs = s.acqs :=
    foldl_keeps State.acqs _ (fun s c => s.updCl_acqs c (fun e => e.park s.net) fun _ => rfl) _ _
  have flt (u : State) (f : Faults) : ({ u with flt := f } : State).acqs = u.acqs := rfl
  unfold State.react
  cases r <;> simp [Reaction.code, halt, park, flt]

theorem State.endCycle_acqs (t : Nat) : (s.endCycle t).acqs = s.acqs := by
  unfold State.endCycle State.issueFaults
  split
  · split
    · rfl
    · exact foldl_keeps State.acqs _ (fun s _ => s.react_acqs _ _) _ _
  · rfl

theorem State.collectOne_acqs (e : FaultEvent × Bool) : (s.collectOne e).acqs = s.acqs := by
  have taint (u : State) (x : CycleEvent) : (u.taintFor x).acqs = u.acqs := by
    unfold State.taintFor
    split
    · exact foldl_keeps State.acqs _ (by intros; rfl) _ _
    · rfl
  exact taint _ _

theorem State.report_acqs (source : Nat) (mask : BitVec 12) (detail : Word) : (s.report source mask detail).acqs = s.acqs :=
  (foldl_keeps State.acqs _ State.collectOne_acqs _ _).trans (s.endCycle_acqs s.now)

theorem State.postNow_acqs (i : Item) : (s.postNow i).acqs = s.acqs := by
  dsimp only [State.postNow]
  split
  · rfl
  split
  · exact State.report_acqs _ _ _ _
  · split <;> rfl

theorem State.settlePosts_acqs (t : Nat) : (s.settlePosts t).acqs = s.acqs := by
  have posts (l : List Item) (s : State) : (l.foldl State.postNow s).acqs = s.acqs := foldl_keeps State.acqs _ State.postNow_acqs _ _
  dsimp only [State.settlePosts]
  split
  · rfl
  · exact foldl_keeps State.acqs _ (by intros; exact posts _ _) _ _

theorem State.advance_acqs (t : Nat) : (s.advance t).acqs = s.acqs := by
  unfold State.advance
  split
  · rfl
  · rw [State.handshakes_eq]
    refine (State.endCycle_acqs _ t).trans ?_
    split
    · rfl
    · exact s.settlePosts_acqs _

/-! ## Nor do the vectors a site plays (R41) -/

theorem ClusterEng.playRun_acq (w : PlayView) (n j : Nat) (vs : List Vec) (e : ClusterEng) : (ClusterEng.playRun w n j vs e).cap.acq = e.cap.acq := by
  induction n generalizing j vs e with
  | zero => rfl
  | succ n ih =>
    rw [ClusterEng.playRun]
    exact ih _ _ _

theorem ClusterEng.stallRun_acq (g : ClusterConfig) (held : Byte) (ts : TimingSet) (start step : Int) (w : Word) (n j : Nat) (e : ClusterEng) :
    (ClusterEng.stallRun g held ts start step w n j e).cap.acq = e.cap.acq := by
  induction n generalizing j e with
  | zero => rfl
  | succ n ih =>
    rw [ClusterEng.stallRun]
    exact ih _ _

theorem State.updMembers_acqs (k : Cluster) (f : Cluster → ClusterEng → ClusterEng) (same : ∀ c e, (f c e).cap.acq = e.cap.acq) :
    (s.updMembers k f).acqs = s.acqs := foldl_keeps State.acqs _ (fun s c => s.updCl_acqs c _ (same c)) _ _

theorem State.playTo_acqs (k : Cluster) (t : Int) : (s.playTo k t).acqs = s.acqs := by
  have plays {c : Prop} (d : Decidable c) (f : Cluster → ClusterEng → ClusterEng) (same : ∀ c e, (f c e).cap.acq = e.cap.acq) (g : Seqr → Seqr) :
      (if c then s else (s.updMembers k f).updSeq k g).acqs = s.acqs := by
    split
    · rfl
    · exact s.updMembers_acqs k f same
  unfold State.playTo
  dsimp only
  split
  next =>
    refine plays _ _ (fun c e => ?_) _
    exact ClusterEng.playRun_acq _ _ _ _ e
  next =>
    split
    next => exact plays _ _ (fun c e => ClusterEng.stallRun_acq _ _ _ _ _ _ _ _ e) _
    next => rfl

/-! ## A condition changes the acquisition of its own cluster alone (R126) -/

theorem State.drain_other {c j : Cluster} (other : j ≠ c) : (s.drain c).cl[j] = s.cl[j] := by
  unfold State.drain
  dsimp only
  split
  · split
    · rfl
    · unfold State.askHbm
      split <;> rfl
  · exact (upd_apply ..).trans (if_neg other)

theorem State.afterCap_other {c j : Cluster} (other : j ≠ c) (f : Capture → Capture) : ((s.afterCap c f).cl[j]) = s.cl[j] := by
  unfold State.afterCap
  rw [State.drain_other _ other]
  exact (upd_apply ..).trans (if_neg other)

theorem State.acqEvent_other {c j : Cluster} (other : j ≠ c) (event : AcqEvent) : (s.acqEvent c event).acqs[j] = s.acqs[j] := by
  have after (u : State) (f : Capture → Capture) : (u.afterCap c f).acqs[j] = u.acqs[j] := by
    rw [State.acqs_get, State.acqs_get, State.afterCap_other _ other]
  unfold State.acqEvent
  dsimp only
  split
  · rfl
  split
  · exact after _ _
  split
  · rfl
  · split
    · rfl
    · rw [after, State.playTo_acqs]
      exact congrArg (·[j]) (s.advance_acqs _)

/-- A condition passes by a cluster that does not acquire (R126). -/
theorem State.acqEvent_inactive {c : Cluster} (inactive : (s.acqs[c]).active = false) (event : AcqEvent) : s.acqEvent c event = s := by
  rw [State.acqs_get] at inactive
  have idle : (s.cl[c]).cap.watching = false := by
    rw [Capture.watching, Capture.pending, inactive]
    rfl
  unfold State.acqEvent
  rw [idle]
  rfl

/-- A condition that is offered to every cluster reaches the one that acquires. -/
theorem foldl_acqEvent {k : Cluster} (event : AcqEvent) (inactive : ∀ c : Cluster, c ≠ k → (s.acqs[c]).active = false) (l : List Cluster)
    (distinct : l.Nodup) : l.foldl (fun s c => s.acqEvent c event) s = if k ∈ l then s.acqEvent k event else s := by
  induction l generalizing s with
  | nil => rfl
  | cons c l ih =>
    obtain ⟨fresh, later⟩ := List.nodup_cons.1 distinct
    rw [List.foldl_cons]
    by_cases e : c = k
    · subst e
      rw [ih _ (fun j other => by rw [State.acqEvent_other s other]; exact inactive j other) later, if_neg fresh, if_pos List.mem_cons_self]
    · rw [s.acqEvent_inactive (inactive c e), ih s inactive later]
      exact if_congr (by simp [Ne.symm e]) rfl rfl

end Sys2Proof.Machine

namespace Sys2Proof.Claims
open Sys2Proof.Machine

/-- A rope trigger reaches the acquisition engine of the cluster that acquires (R126, R303). -/
theorem trig_message {s : State} {n : Port} {fr : Frame} {m : InMsg} {rest : List InMsg} {k : Cluster} (inbox : s.rope.inbox = m :: rest)
    (front : m.port = n ∧ m.ctype = 0x30 ∧ m.src = fr.src ∧ m.body = fr.body) (inactive : ∀ c : Cluster, c ≠ k → (s.cl[c]).cap.acq.active = false) :
    Completes (.trig n fr) s fun t => exec (.acqTrigger k (.rope m.src (byteAt m.body 0) (u16At m.body 2) (m.time - 40 * m.hops * nsUnits)))
      { s with rope := { s.rope with inbox := rest } } = .next t := by
  refine ⟨(taken s rest).acqEvent k (.rope m.src (byteAt m.body 0) (u16At m.body 2) (m.time - (40 * m.hops * nsUnits : Nat))), ?_, ?_⟩
  · change execTrig n fr s = _
    rw [execTrig, State.onMsg_front inbox front]
    refine congrArg _ ((foldl_acqEvent _ _ (fun c other => ?_) _ (List.nodup_finRange 12)).trans (if_pos (List.mem_finRange k)))
    rw [State.acqs_get]
    exact inactive c other
  · push_cast
    rfl

/-- Settles O51: each clause is one instruction's equation, and the frames that reach blocks go through `State.onMsg_front`. -/
theorem framesReachTheBlocks : Obligations.FramesReachTheBlocks := by
  unfold Obligations.FramesReachTheBlocks
  refine ⟨?_, ?_, ?_, ?_, ?_, ?_, ?_, ?_, ?_, ?_, ?_, ?_⟩
  · exact fun s n c fr at_ fixed ok arrives early later calm fresh hops => frame_delivered fixed ok arrives early later calm fresh hops
  · exact fun s n m c fr at_ fixed ok arrives early later _ calm fresh hops one => frame_relayed fixed ok arrives early later calm fresh hops one
  · exact fun s n c fr at_ fixed ok arrives late => frame_late fixed ok arrives late
  · exact fun s n c fr at_ fixed hears crc => frame_badCrc fixed hears crc
  · exact fun s n c fr at_ reserved hears crc => frame_reserved reserved hears crc
  · exact fun s n fr m rest inbox front => siteCond_message inbox front
  · exact fun s n fr m rest inbox front => siteVote_message inbox front
  · exact fun s n fr m rest inbox front host => siteAbort_host inbox front host
  · exact fun s n fr m rest inbox front member react _ calm => siteAbort_member inbox front member react calm
  · exact fun s n fr m rest k inbox front inactive => trig_message inbox front inactive
  · exact fun s n fr m rest inbox front => gevt_message inbox front
  · exact fun s w bar some_ => gevt_written bar some_

end Sys2Proof.Claims

end
